-- ==== Sys2Proof/Word.lean ====
section
/-! DEFINITION. The word types of the model and the identities of the units of one die (spec 00, Table 0-2). -/

namespace Sys2Proof

/-- One byte. -/
abbrev Byte := BitVec 8
/-- A 32-bit register or field. -/
abbrev W32 := BitVec 32
/-- A 64-bit register or field. -/
abbrev W64 := BitVec 64
/-- A tick count of the milestone counter (R22, R55); a count, kept below 2^64 where a register holds it. -/
abbrev Tick := Nat
/-- An FP32 code (Table 3-3). -/
abbrev F32 := BitVec 32
/-- Engines E0 to E6 (Table 0-2); E6 is the lay-by engine. -/
abbrev EngineId := Fin 7
/-- Causeway ports W+, W-, X+, X-, Y+, Y-, Z+, Z- in the order of Table 10-13. -/
abbrev PortId := Fin 8
/-- LPDDR5X channels MC0 to MC3. -/
abbrev McId := Fin 4
/-- Audio ports AP0, AP1. -/
abbrev ApId := Fin 2
/-- Mailbox channels 0 to 15. -/
abbrev ChanId := Fin 16
/-- Tray slots 0 to 15. -/
abbrev SlotId := Fin 16
/-- Lamps 0 to 3. -/
abbrev LampId := Fin 4
/-- Thermal sensors 0 to 15 (Table 12-3). -/
abbrev SensorId := Fin 16
/-- Fabric IDs: w, x, y, z, four bits each, w in bits 15 to 12. -/
abbrev FabId := BitVec 16

end Sys2Proof
end

