-- ==== Sys2Proof/Syntax.lean ====
section
/-! DEFINITION. The commands of the block: one constructor of `Instr` for each row of spec/opcode_table.json, with the
operands the environment supplies. Where the spec gives a structure no byte layout (Rilak's itinerary image, the INLINE of
management packets), the operand carries the declared content (log entry 9). -/

namespace Sys2Proof

/-! ## Operand types -/

/-- The four variants (Table 0-1). -/
inductive Variant where
  | sv6118 | sv6116 | sv6114 | sv6112
  deriving DecidableEq, Repr

/-- The sixteen number formats (Table 3-1), in code order. -/
inductive Fmt where
  | int2 | int3 | int4 | int5 | int6 | int8 | uint4z | uint8z | tern | cb16 | cb256 | fp8a | fp8b | fp16 | bf16 | fp32
  deriving DecidableEq, Repr

/-- How a read that the die makes outside itself ends (R313, R315, R552). -/
inductive ReadEnd where
  | ok | late | bad | lost
  deriving DecidableEq, Repr

/-- A mailbox command as the die executes it: its channel, the 64 bytes of its entry (Table 9-9), and whether the firmware
meets an internal fault while executing it (R582). -/
structure MailCmd where
  ch : ChanId
  entry : BitVec 512
  fwFault : Bool
  deriving DecidableEq, Repr

/-! ### Itinerary images (log entry 9) -/

/-- Where a layer's activation block comes from. -/
inductive BlockSrc where
  | input (i : Nat)
  | layer (l t : Nat)
  | carried (off : Nat)
  deriving DecidableEq, Repr

/-- A 32-byte conversion descriptor (Table 3-5), its place in the image, and the channel list its OUTLIER_LIST names. -/
structure RawDesc where
  off : Nat
  bits : BitVec 256
  outliers : List (BitVec 16)
  deriving DecidableEq, Repr

/-- An activation table (R120). -/
structure ActTable where
  lo : F32
  hi : F32
  extend : Bool
  knots : List F32
  deriving DecidableEq, Repr

/-- A normalisation (R122, R980): RMS or layer norm, with its epsilon. -/
structure Norm where
  rms : Bool
  eps : F32
  deriving DecidableEq, Repr

/-- A chain of tile steps of one output tile: the image offsets of its weight tiles, and the tile steps of each segment (R108). -/
structure ChainDecl where
  tiles : List Nat
  cuts : List Nat
  deriving DecidableEq, Repr

/-- The attributes of an attention layer (Table 4-1) and the layers that append its keys and values (R203). -/
structure AttnDecl where
  headDim : Nat
  kvHeads : Nat
  group : Nat
  causal : Nat
  smScale : F32
  qFmt : Fmt
  query : List BlockSrc
  keyLayer : Nat
  valLayer : Nat
  lead : Nat
  deriving DecidableEq, Repr

/-- The parts of a layer that its lean variant may give anew (R455, R253). -/
structure LayerBody where
  fold : Nat
  srcs : List BlockSrc
  chains : List ChainDecl
  desc : RawDesc
  bypass : BitVec 8
  table : Option Nat
  norm : Option Norm
  escape : Bool
  attn : Option AttnDecl
  deriving DecidableEq, Repr

/-- One layer of an itinerary section. `rows` is its vectors and `width` its output channels; `append` names the attention
layer a KV append serves, and whether it appends values; `writes` names the weight tiles on-device adaptation replaces, one for each
output tile. -/
structure Layer where
  engine : Nat
  rows : Nat
  width : Nat
  body : LayerBody
  lean : Option LayerBody
  append : Option (Nat × Bool)
  writes : List Nat
  stateful : Bool
  needsAttn : Bool
  deriving DecidableEq, Repr

/-- The kinds of unit a section can need (FALLBACK_KINDS, Table 10-5). -/
structure Needs where
  attention : Bool
  audio : List Nat
  causeway : List Nat
  channels : List Nat
  deriving DecidableEq, Repr

/-- Costs of one logical engine (07 "The tollgate"): field wavefronts and attention steps of a frame. -/
structure EngineCost where
  field : Nat
  attn : Nat
  deriving DecidableEq, Repr

/-- One section of an itinerary: main or fallback. `off` is the place of its layer records in the image and `schedOff` that of its prefetch
schedule, whose 16-byte entries follow one another (Table 5-4). -/
structure Section where
  off : Nat
  schedOff : Nat
  needs : Needs
  layers : List Layer
  schedule : List (BitVec 128)
  costs : List EngineCost
  span : Nat
  peakT0 : Nat
  peakT1 : Nat
  writableT1 : Nat
  deriving DecidableEq, Repr

/-- An item the image carries: a tile or record at an offset, its home (R978). -/
structure ItemDecl where
  off : Nat
  len : Nat
  die : FabId
  tier : Nat
  chan : Nat
  deriving DecidableEq, Repr

/-- An input the itinerary declares: its format, columns, rows and the outlier channels of its companion (R187, R989). -/
structure InputDecl where
  fmt : Fmt
  rows : Nat
  cols : Nat
  outliers : List Nat
  queryPart : Option Nat
  deriving DecidableEq, Repr

/-- The declared content of an itinerary image; `portIn` names the input a port feeds and `portDesc` its conversion descriptor (R492). -/
structure Image where
  bytes : List Byte
  items : List ItemDecl
  inputs : List InputDecl
  gradInputs : List InputDecl
  main : Section
  fallback : Option Section
  tables : List ActTable
  outputs : List Nat
  outBytes : Nat
  portIn : Option Nat
  portDesc : RawDesc
  portOut : Option Nat
  dies : List FabId
  spares : List FabId
  kvTier : Nat
  hasBackward : Bool
  deriving DecidableEq, Repr

/-! ### Messages -/

/-- One training set of step 5 of Table 6-3 (R334, R918). -/
structure TrainSet where
  id : FabId
  part : Variant
  port : PortId
  sizes : Vector Nat 4
  wraps : Vector Bool 4
  gen : W32
  joinReady : Bool
  deriving DecidableEq, Repr

/-- A fabric packet (Table 6-6) with its body flits. -/
structure Packet where
  dest : FabId
  src : FabId
  op : Byte
  len : Nat
  rly : Bool
  rdir : Nat
  tag : BitVec 16
  addr : W64
  via : FabId
  status : BitVec 16
  stamp : W64
  inl : BitVec 256
  body : List (BitVec 512)
  deriving DecidableEq, Repr

/-- A tray message's frame (R764): the sender, its sequence number, and whether its PEC is good. -/
structure TrayHead where
  src : SlotId
  seq : BitVec 16
  pecOk : Bool
  deriving DecidableEq, Repr

/-- The body of a HEARTBEAT (Table 13-3). -/
structure Beat where
  primary : SlotId
  standby : Option SlotId
  trayCapW : Option Nat
  demand : Bool
  slope : Nat
  warnOff : Nat
  throttleOff : Nat
  criticalOff : Nat
  stewardHalf : Bool
  gen : Nat
  seqMark : Nat
  deriving DecidableEq, Repr

/-- The body of a STATE message (Table 13-3). -/
structure TrayStateBody where
  seqState : Nat
  estMw : Nat
  capMw : Option Nat
  leak : Bool
  pdn : Bool
  eth : Bool
  healthy : Bool
  onPending : Bool
  hottest : Int
  deriving DecidableEq, Repr

/-- A Wairiq message's frame (Table 13-10): the raw 32-byte header, the body, and the 16-byte tag. -/
structure Wairiq where
  header : BitVec 256
  body : List Byte
  tag : BitVec 128
  deriving DecidableEq, Repr

/-- An SMBus transaction: whether its PEC is good, and the bytes written with it (R809). -/
structure Smb where
  pecOk : Bool
  data : List Byte
  deriving DecidableEq, Repr

/-- A role (Table 10-21, ROLE_CHANGED). -/
inductive Role where
  | none | primary | standby
  deriving DecidableEq, Repr

/-- The two resources of an engine (R431). -/
inductive Res where
  | field | attn
  deriving DecidableEq, Repr

/-- An error pattern a fault of the silicon puts on one data accumulator before its check (R114). -/
structure Upset where
  row : Nat
  col : Nat
  delta : Int
  deriving DecidableEq, Repr

/-- The three ways an operating-point change comes about (R47). -/
inductive OpCause where
  | host | boostReturn | boost | limit | steward | trim
  deriving DecidableEq, Repr

/-- Where a power request comes from (Table 11-6). -/
inductive ReqSrc where
  | pin | auto | sideBand | steward | cold
  deriving DecidableEq, Repr

/-- The supply domains in the order of Table 10-21 (PDN_ALARM), then VDDQ_M auxiliary. -/
inductive Domain where
  | vlog | vmem | vlnk | vddqm | vaon | vddqmx
  deriving DecidableEq, Repr

/-- What a read of a word with an error finds (R134, R135, R817, R836): the tier, the row's engine or channel, its rank (T2), bank and bit,
and what the word shows. -/
structure PatrolHit where
  tier : Nat
  unit : Nat
  rank : Nat
  bank : Nat
  row : Nat
  bit : Nat
  addr : Nat
  uncorrectable : Bool
  softLeft : Bool
  deriving DecidableEq, Repr

/-- The kinds of data of Table 14-3, in its order. -/
inductive DataKind where
  | staged | roHome | frameBlock | tailPage | recurrent | rowRecords | stats | snapshot | logEntry | firmware | other
  deriving DecidableEq, Repr

/-- What a management packet of the firmware carries that no other row covers (MGMT). -/
inductive MgmtMsg where
  | loanRefused (req : Nat)
  | relayRequest
  | relayGrant (slots : Nat)
  | relayRefused
  | moveDest (base bytes : Nat)
  | guestOpen (h : Nat) (img : Image) (args : BitVec 512)
  | guestClose (h : Nat)
  | event (code : Byte) (stamp : W64) (payload : BitVec 384)
  | other
  deriving DecidableEq, Repr

/-- A time exchange packet (R65) as it arrives: the timestamps it carries, in 1/64 tick. The timestamp of its own arrival is this die's
capture. -/
inductive TimeMsg where
  | request (t1 : Nat)
  | reply (t1 t2 t3 : Nat)
  deriving DecidableEq, Repr

/-- A time exchange packet with the fraction of a tick, in 1/64, that this die captures at its arrival. -/
structure TimeArrival where
  msg : TimeMsg
  frac : Fin 64
  deriving DecidableEq, Repr

/-- What STREAM_FEED reads: the global addresses that IN_ADDR lists, and the items that lie there. -/
structure FeedList where
  addrs : List Nat
  items : List (List Byte)
  deriving DecidableEq, Repr

/-- A wavefront issued to a field: whether it is ballast, and an error that its feed's read of the tile store met (R134, R135). -/
structure Wave where
  ballast : Bool
  t0 : Option PatrolHit
  deriving DecidableEq, Repr

/-- A step of an attention pipeline: whether its residue check differs, and an error that its read of the tile store met. -/
structure AttnStep where
  upset : Bool
  t0 : Option PatrolHit
  deriving DecidableEq, Repr

/-- A read of the patrol: the error it found, and the tier whose pass it completes. -/
structure PatrolStep where
  hit : Option PatrolHit
  ends : Option (Fin 3)
  deriving DecidableEq, Repr

/-- A snapshot that is being written: its stream, and how its moves ended. -/
structure SnapEnd where
  h : Nat
  result : ReadEnd
  deriving DecidableEq, Repr

/-- What the devices of a channel say they are (Table 5-6): the channel's GiB, MT/s and ranks, and whether they are ×16. -/
structure Devices where
  gib : Nat
  mts : Nat
  ranks : Nat
  x16 : Bool
  deriving DecidableEq, Repr

/-- A die that makes itself known, and the part it is (R911). -/
structure Presence where
  die : FabId
  part : Variant
  deriving DecidableEq, Repr

/-- What a port sampled of SDI, frame by frame, and, of a slave port, the start of the frame after it in 1/64 tick (R484). -/
structure Captured where
  sdi : List (BitVec 513)
  stamp : Nat
  deriving DecidableEq, Repr

/-- A play start: whether the read of the output block was bad, and, of a slave port, the start of its frame in 1/64 tick. -/
structure PlayStart where
  bad : Bool
  stamp : Nat
  deriving DecidableEq, Repr

/-! ## The commands -/

/-- Limits of a coolant input, from the tray identity memory. -/
structure CoolLimits where
  warnLo : Nat := 0
  warnHi : Nat := 4095
  critLo : Nat := 0
  critHi : Nat := 4095
  deriving DecidableEq, Repr

/-- One command for each row of the opcode table, in the table's order. -/
inductive Instr where
  -- mailbox commands (10)
  | devQuery (m : MailCmd)
  | devCaps (m : MailCmd)
  | devReset (m : MailCmd)
  | timeQuery (m : MailCmd)
  | memReserve (m : MailCmd)
  | memRelease (m : MailCmd)
  | memQuotaSet (m : MailCmd)
  | regionMap (m : MailCmd)
  | regionMove (m : MailCmd)
  | itinLoad (m : MailCmd) (img : Image) (read : ReadEnd)
  | itinUnload (m : MailCmd)
  | streamOpen (m : MailCmd)
  | streamStart (m : MailCmd)
  | streamFeed (m : MailCmd) (inputs : FeedList) (seqs : List (BitVec 64)) (read : ReadEnd)
  | streamDrain (m : MailCmd)
  | streamClose (m : MailCmd)
  | streamSnapshot (m : MailCmd)
  | streamResume (m : MailCmd) (read : ReadEnd)
  | streamPolicy (m : MailCmd)
  | pwrCapSet (m : MailCmd)
  | pwrReport (m : MailCmd)
  | opSet (m : MailCmd)
  | energyRead (m : MailCmd)
  | fabQuery (m : MailCmd)
  | fabRouteSet (m : MailCmd)
  | fabIsolate (m : MailCmd)
  | fwStage (m : MailCmd) (data : List Byte) (read : ReadEnd)
  | fwCommit (m : MailCmd)
  | fwVerify (m : MailCmd)
  | fwRollback (m : MailCmd)
  | diagRun (m : MailCmd)
  | logRead (m : MailCmd)
  | statsRead (m : MailCmd)
  | audioBind (m : MailCmd)
  | audioConfig (m : MailCmd)
  -- host interface (09)
  | commandFetch (data : Option (BitVec 512))
  | cmdTailWrite (ch : ChanId) (v : W32)
  | cmpHeadWrite (ch : ChanId) (v : W32)
  | evtHeadWrite (v : W32)
  | channelEnable (ch : ChanId) (cfg : W32)
  | channelDisable (ch : ChanId) (cfg : W32)
  | irqCauseWrite (v : W32)
  | irqMaskWrite (v : W32)
  | msixVectorUnmask (vec : Option (Fin 32))
  | mscLoRead
  | registerWrite (off : Nat) (size : Nat) (v : W64)
  | bootQuery
  | bootLog
  | bootRetry
  | bootHostImage (data : List Byte) (read : ReadEnd)
  | completionWrite
  | overflowLogDrain (ch : Fin 17)
  | irqDelayExpiry (ch : ChanId)
  | heartbeatIncrement
  | firmwareHalt (watchdog : Bool)
  | perstReset (low : Bool)
  | functionLevelReset
  | pcieLinkDown
  | pcieLinkUp
  -- rates, pacer, engines (01, 02, 04)
  | rateWindowClose (e : EngineId) (chain : Nat)
  | rateBelowMinimum (e : EngineId)
  | pacerTokenCredit (e : EngineId)
  | wavefrontIssue (e : EngineId) (ballast : Wave)
  | attentionStepIssue (e : EngineId) (residueUpset : AttnStep)
  | segmentStart (e : EngineId) (res : Res)
  | bankDrainComplete (e : EngineId) (upsets : List Upset)
  | waymarkCommit (e : EngineId) (res : Res) (residueUpset : Bool)
  | laybySelfTest
  | laybySelfTestDone (pass : Bool) (detail : Byte)
  -- operating point (01)
  | opChangeRequest (target : Fin 5) (cause : OpCause)
  | opChangeGapStart
  | opChangeDeferTimeout
  | opStopBegin
  | opStopSettled
  | opStopTimeout (shortMv : Nat)
  | approachTimeout (e : EngineId)
  -- time (01)
  | mscTick
  | alignExchangeTimer
  | disciplineExchangeTimer
  | timeExchange (p : PortId) (k : TimeArrival)
  | refclkLost
  | refclkReturn
  -- links (06)
  | linkTrainingStart (p : PortId)
  | trainingSet (p : PortId) (t : TrainSet)
  | linkTrainingComplete (p : PortId) (lanes : BitVec 4) (txDelay rxDelay flight : Nat)
  | linkTrainingTimeout (p : PortId)
  | linkTrainingRetry (p : PortId)
  | flitReceive (p : PortId) (f : BitVec 576)
  | nakReceive (p : PortId) (seq : BitVec 10)
  | linkReplayLimit (p : PortId)
  | linkOutputArbitrate (p : PortId)
  | packetForward (p : PortId) (vc : Fin 4) (cls : Fin 2)
  | readPkt (p : PortId) (k : Packet)
  | readData (p : PortId) (k : Packet)
  | movePkt (p : PortId) (k : Packet)
  | moveAck (p : PortId) (k : Packet)
  | relaySend
  | relayCredit (p : PortId) (via : FabId)
  | loanRequest (p : PortId) (src : FabId) (req : Nat) (tier granules : Nat)
  | loanGrant (p : PortId) (lender : FabId) (req : Nat) (tier base granules : Nat)
  | recallNotice (p : PortId) (lender : FabId) (base : Nat)
  | loanReturn (p : PortId) (borrower : FabId) (base : Nat)
  | recallNoticeExpiry (borrower : FabId) (base : Nat)
  | recallRoomRestore (lender : FabId)
  | linkSignalLoss (p : PortId)
  | linkDownTimeout (p : PortId)
  | linkNotice (p : PortId) (a b : FabId) (serial : Nat)
  | dieNotice (p : PortId) (d : FabId) (serial : Nat)
  | routeGenerationNotice (p : PortId) (src : FabId) (gen : W32)
  | routeSetInstall (cause : Fin 5)
  | linkUsabilityHoldExpiry (p : PortId)
  | roleRequest (p : PortId)
  | roleAccept (p : PortId) (swap : Nat)
  | roleSwapTick (p : PortId)
  | roleRequestTimeout (p : PortId)
  | roleHoldoffExpiry (p : PortId)
  | remoteRequestTimeout (tag : BitVec 16)
  | isolateDrainEnd
  -- moves (05)
  | moveLand (id : Nat) (result : ReadEnd) (data : List Byte) (kind : DataKind)
  | moveDeferredIssue (id : Nat)
  | moveLatenessTimeout (id : Nat)
  | firmwareAreaMove
  -- frames and audio (07, 08)
  | frameRelease (h : Nat)
  | emptySlot (h : Nat)
  | frameFinish (h : Nat)
  | snapshotComplete (h : SnapEnd)
  | resumeComplete (h : Nat) (read : ReadEnd)
  | audioBlockEnd (p : ApId) (h : Nat) (samples : Captured)
  | audioPlayStart (p : ApId) (h : Nat) (readBad : PlayStart)
  | audioFillRepost (p : ApId) (h : Nat)
  | slaveClockValid (p : ApId) (frameStart : Nat) (period : Nat)
  | slaveClockLost (p : ApId)
  -- power delivery (11)
  | pmbusIoutRead (d : Domain) (ioutMa : Nat) (dropUv : Nat) (meanTemp : Int) (connected ok : Bool)
  | pmbusStatusRead (d : Domain) (voutMv : Nat) (temp : Int) (status : BitVec 16) (ok : Bool)
  | pmbusAlert (d : Domain) (status : BitVec 16)
  | baselineLearned (d : Domain)
  | pdnAlarmRaise (d : Domain)
  | pdnShut (d : Domain)
  | pdnAlarmClear (d : Domain)
  | powerOnRequest (src : ReqSrc)
  | powerOffRequest (src : ReqSrc)
  | railStepDone
  | railStepTimeout
  | sequencerHoldExpiry
  | ascentHoldoffExpiry
  | firmwareQuiesced
  | quiesceTimeout
  | railLoss (d : Domain)
  | aonReset
  | aonResetRelease (trayEn : Bool) (slot : SlotId) (auto : Bool)
  | sysResetAssert
  | sysResetRelease
  -- governor (12)
  | estimateWindow
  | throttleEnd (reason : Fin 6)
  | throttleEventIntervalClose
  | calibrationUpdate
  | calibrationFreezeGuard
  | opReturnHoldExpiry
  | droopTrip (e : EngineId) (quadrant : Fin 4) (sagMv : Nat)
  | droopRelease (e : EngineId) (sags : Vector Nat 4)
  | droopHoldTimeout (e : EngineId) (quadrant : Fin 4) (senseSagMv : Nat)
  | thermalSensorRead (n : SensorId) (reading : Option Int)
  | thermalPointDrop
  | thermalPointReturn
  | thermalTrip (n : SensorId) (reading : Int)
  | ageingTrimRun (cause : Fin 3) (counts : List Nat)
  | energyChargeSend
  | energyChargeReceive (p : PortId) (h : Nat) (uj : Nat)
  -- island and tray (13)
  | statToggle
  | statWatchdogExpiry
  | statInSample (levels : BitVec 16)
  | election
  | heartbeatSend
  | trayHeartbeat (t : TrayHead) (b : Beat)
  | stateSend
  | trayState (t : TrayHead) (b : TrayStateBody)
  | trayCap (t : TrayHead) (capMw gen : Nat)
  | capAck (t : TrayHead) (gen : Nat)
  | capResend (n : SlotId)
  | capRecompute
  | trayRoleRequest (t : TrayHead)
  | trayRoleAccept (t : TrayHead) (swap : Nat)
  | trayRoleSwap
  | trayRoleRequestTimeout
  | trayRoleHoldoffExpiry
  | standbyNamed (t : TrayHead) (n : SlotId)
  | primaryRerank
  | trayPower (t : TrayHead) (on : Bool)
  | trayRelay (t : TrayHead) (payload : List Byte)
  | trayPowerOnSequence
  | primaryVacant
  | coolingWatchdogStage1
  | coolingWatchdogStage2
  | heartbeatLossShutdown
  | orderedPowerdownStart
  | ainSample (n : Fin 8) (raw : Nat)
  | coolantWarn (n : Fin 4)
  | coolantCritical (n : Fin 4)
  | coolantCriticalShutdown
  | coolantRestored (n : Fin 4)
  | leakTrip (b : Bool)
  | leakSensorOpen (b : Bool)
  | cablePresenceAssert (p : PortId) (record : Option (BitVec 256))
  | cablePresenceDeassert (p : PortId)
  | lampPwmPeriod (n : LampId)
  | lampOpenCheck (n : LampId) (currentUa : Nat)
  | smbusStatus (b : Smb)
  | smbusPower (b : Smb)
  | smbusThermal (b : Smb)
  | smbusPowerReading (b : Smb)
  | smbusNotice (b : Smb)
  | smbusLog (b : Smb)
  | smbusCap (b : Smb)
  | smbusServiceArm (b : Smb)
  | smbusServiceGo (b : Smb)
  | smbusLamp (b : Smb)
  | wairiqIdent (w : Wairiq)
  | wairiqStatus (w : Wairiq)
  | trayCapSet (w : Wairiq)
  | slopeSet (w : Wairiq)
  | thermalSet (w : Wairiq)
  | wairiqPower (w : Wairiq)
  | wairiqLamp (w : Wairiq)
  | yieldRole (w : Wairiq)
  | clearLeak (w : Wairiq)
  | clearShut (w : Wairiq)
  | clearBaseline (w : Wairiq)
  | goldenReflash (w : Wairiq)
  | wairiqLogRead (w : Wairiq)
  | config (w : Wairiq)
  | key (w : Wairiq)
  -- repair, firmware, bring-up (14, 15)
  | patrolRead (hit : PatrolStep) (kind : DataKind)
  | channelFailure (n : McId) (reason : Fin 2)
  | trialConfirm (target : Fin 2)
  | trialRollback (target : Fin 2) (cause : Fin 3)
  | slotReflash (target : Fin 2) (slot : Fin 2)
  | goldenVerify (target : Fin 2)
  | islandReady
  | firmwareLoaded (readOk : Bool)
  | firmwareReady
  | channelTrainingDone (n : McId) (matches_ : Devices) (pass replaced : Bool) (hardFailed : List Nat)
  | discoveryComplete
  | portSettleTimeout (p : PortId)
  | presentNotice (p : PortId) (d : Presence)
  | censusClose
  | rejoinState (p : PortId) (sizes : Vector Nat 4) (wraps : Vector Bool 4) (gen : W32) (lost : List FabId) (down : List (FabId × FabId))
  | peerFckSeen (p : PortId)
  | phaseWanderRetrain (p : PortId)
  | mgmt (p : PortId) (src : FabId) (k : MgmtMsg)
  | diagRunComplete (pass : Bool) (detail : Byte) (corrected duration : Nat)
  | slotWriteComplete (verified : Bool)
  | islandFirmwareRunning (recordOk : Bool) (x y z : Fin 16) (sizes : Vector Nat 4) (wraps : Vector Bool 4)
      (limits : Option (Vector CoolLimits 4))
  | depotSelfTestDone (pass : Bool)
  | ecsCountRead (n : McId) (counts : List Nat)
  deriving DecidableEq, Repr

end Sys2Proof
end

