-- ==== Sys2Proof/Config.lean ====
section
/-! DEFINITION. What an implementation fixes, and the free values: constants with no body, of which no proof can know a
value. -/

namespace Sys2Proof.Config

/-- A value the spec leaves open, as a natural number: the n-th one the run needs (State.free counts them). Log entry 8. -/
opaque freeNat : Nat → Nat
/-- The fused coefficients of the activity estimate (R693): an engine's term in mW for a window, from the operating point, its
productive and ballast wavefronts, its attention steps, and a fresh index that stands for the formats and the accesses. -/
opaque engineTermMw : Nat → Nat → Nat → Nat → Nat → Nat
/-- The uncore term of a window (R693), in mW. -/
opaque uncoreMw : Nat → Nat
/-- The leakage term (R693), in mW, from the VID code and the mean die temperature in 1/16 degree. -/
opaque leakMw : Nat → Int → Nat
/-- The RAMP limit that keeps R722 (R723), 6.10 fixed point, from the current estimate in mA, the step allowed in mA, and a
fresh index. -/
opaque rampLimit : Nat → Nat → Nat → Nat
/-- The fused move energy of a tier (R756), in pJ for each byte. -/
opaque movePjPerByte : Nat → Nat
/-- The public key KEY_INDEX of the boot ROM (R872), as the affine point (x, y) of P-384. -/
opaque bootKey : Nat → Nat × Nat
/-- How the cap controller's error over its window becomes the next fraction (R704): the spec gives what it approaches, not
the law. Arguments: the fraction in 1/65536, the target in mW, the mean estimate in mW, and a fresh index. -/
opaque capLaw : Nat → Nat → Nat → Nat → Nat
/-- The same for the thermal controller (R736): fraction, hottest reading in 1/16 degree, and a fresh index. -/
opaque thermalLaw : Nat → Int → Nat → Nat
/-- The same for COOL_PWM (R787): hottest die sensor, outlet reading, a fresh index; the duty in per cent. -/
opaque coolLaw : Int → Nat → Nat → Nat
/-- The pre-ramp's predicted ballast (R726): predicted current in mA of a stream's next frame. -/
opaque preRampMa : Nat → Nat

end Sys2Proof.Config
end

