-- ==== Sys2Proof/Machine/State.lean ====
section
/-! DEFINITION. The state of one die as plain data, its reset value, and the names of the ways a step can stop. The reset
value of a field is its default here; INVENTORY.md's State section gives each field's rule, and the log entry where the spec
gives no reset value. -/

namespace Sys2Proof.Machine

/-- No command of this block stops the machine with a fault: every fault the spec describes has an effect it describes (a
status, an event, a retirement, a descent). The one constructor is raised by no meaning; it is here so that the type says
what a stop would be. Safe. -/
inductive Fault where
  | stopped (why : String)
  deriving DecidableEq, Repr

/-- Refusals. -/
inductive Refusal where
  /-- Raised only by an arm of `exec` whose command has no meaning yet. Safe: the model stops where the hardware goes on. -/
  | notModelled (mnemonic : String)
  deriving DecidableEq, Repr

/-! ## Identity -/

/-- The one-time fuses and the values fused at test (R1, R707, R743, R744, R872). -/
structure Fuses where
  variant : Variant := .sv6118
  ok : Bool := true
  silicon : Byte := 0
  rom : Byte := 0
  revoked : BitVec 4 := 0
  pFull : Vector Nat 5 := #v[17000, 35000, 58000, 88000, 121000]
  marginMv : Nat := 0
  canaryTarget : Vector Nat 5 := Vector.replicate 5 0
  deriving DecidableEq, Repr

/-! ## Time (01) -/

/-- Table 1-4. -/
inductive TimeState where
  | unaligned | standalone | aligned | holdover | refLost
  deriving DecidableEq, Repr

/-- The milestone counter and its alignment. -/
structure Time where
  msc : Tick := 0
  replica : Tick := 0
  hiSnap : W32 := 0
  state : TimeState := .unaligned
  before : TimeState := .unaligned
  rootId : FabId := 0
  hops : Nat := 0
  leader : Option PortId := none
  offset64 : Int := 0
  corr : Int := 0
  lastCorr : Tick := 0
  exchanges : Nat := 0
  bestRtt : Option Nat := none
  bestOffset : Int := 0
  exchOut : Option Nat := none
  nextExch : Tick := 0
  refPresent : Bool := true
  deriving DecidableEq, Repr

/-! ## Host interface (09) -/

/-- STATE of a channel block (Table 9-8). -/
inductive ChState where
  | disabled | enabled | error
  deriving DecidableEq, Repr

/-- ERR of a channel block. -/
inductive ChErr where
  | none | badConfig | badTail | fetchFault
  deriving DecidableEq, Repr

/-- One channel block (Table 9-8) and its interrupt coalescing (R557). -/
structure Chan where
  cmdBase : W64 := 0
  cmpBase : W64 := 0
  cmdLog2 : Nat := 0
  cmpLog2 : Nat := 0
  vector : Nat := 0
  tenant : Nat := 0
  count : Nat := 0
  delay : Nat := 0
  cmdTail : BitVec 16 := 0
  cmdHead : BitVec 16 := 0
  cmpTail : BitVec 16 := 0
  cmpHead : BitVec 16 := 0
  st : ChState := .disabled
  err : ChErr := .none
  counted : Nat := 0
  firstAt : Option Tick := none
  feedHead : Bool := false
  deriving DecidableEq, Repr

/-- A completion or an event on its way to its ring (Tables 9-10, 9-11): the ring (0 to 15 a channel's, 16 the event ring),
the entry with PHASE, FROM_LOG, LOSS and LOST still clear, and whether it counts toward an interrupt. -/
structure Post where
  ring : Fin 17
  entry : BitVec 512
  counts : Bool
  deriving DecidableEq, Repr

/-- One MSI-X table entry. -/
structure Msix where
  addr : W64 := 0
  data : W32 := 0
  mask : Bool := true
  deriving DecidableEq, Repr

/-- The host interface. -/
structure HostIf where
  linkUp : Bool := false
  channels : Vector Chan 16 := Vector.replicate 16 {}
  evtBase : W64 := 0
  evtLog2 : Nat := 0
  evtHead : BitVec 16 := 0
  evtTail : BitVec 16 := 0
  evtSeq : W32 := 0
  irqCause : W32 := 0
  irqMask : W32 := 0
  msix : Vector Msix 32 := Vector.replicate 32 {}
  fnMask : Bool := false
  pba : W32 := 0
  bootCmd : W64 := 0
  bootArg : Vector W64 6 := Vector.replicate 6 0
  bootStatus : Byte := 0
  bootSeq : Byte := 0
  bootBusy : Bool := false
  bootDone : Bool := false
  lastServed : Nat := 15
  accepted : List MailCmd := []
  running : List MailCmd := []
  outbox : List Post := []
  log : List Post := []
  lost : Vector Nat 17 := Vector.replicate 17 0
  lostTotal : Vector Nat 17 := Vector.replicate 17 0
  fenced : List (ChanId × BitVec 512) := []
  deriving DecidableEq, Repr

/-! ## Firmware, boot flash (09, 14, 15) -/

/-- FW_STATE.STATE (Table 9-5). -/
inductive FwState where
  | bootstrap | loading | ready | halted
  deriving DecidableEq, Repr

/-- A log record (Table 10-16). -/
structure LogRec where
  seq : Nat
  msc : Tick
  code : BitVec 16
  unit : Byte
  sev : Byte
  data : BitVec 128
  deriving DecidableEq, Repr

/-- A firmware image: its 256-byte header and its body (Table 14-2). -/
structure FwImage where
  header : List Byte
  body : List Byte
  deriving DecidableEq, Repr

/-- A boot-flash write in progress: a commit (with the command that waits for it) or a golden re-flash of some slots. -/
structure SlotWrite where
  target : Fin 2
  slots : List (Fin 2)
  image : FwImage
  cmd : Option MailCmd
  golden : Bool
  deriving DecidableEq, Repr

/-- Firmware state. -/
structure Fw where
  state : FwState := .bootstrap
  image : Nat := 0
  bootSel : Nat := 0
  hostImage : Option FwImage := none
  fault : Nat := 0
  heartbeat : W32 := 0
  beatAt : Tick := 0
  stage : Nat := 3
  version : W32 := 0
  readyAt : Option Tick := none
  startTick : Tick := 0
  discovered : Bool := false
  censusClosed : Bool := false
  routeInstalled : Bool := false
  laybyTested : Bool := false
  rejoined : Bool := false
  rejoinHoldEnd : Option Tick := none
  dieLog : List LogRec := []
  logSeq : Nat := 0
  staged : Vector (Option FwImage) 2 := Vector.replicate 2 none
  slotWrite : Option SlotWrite := none
  restart : Option Bool := none
  s5At : Tick := 0
  itinNext : Nat := 1
  streamNext : Nat := 1
  regionNext : Nat := 1
  deriving DecidableEq, Repr

/-- A verdict of the island on a main-die image (R896). -/
inductive Verdict where
  | unknown | pass | fail
  deriving DecidableEq, Repr

/-- The selection record of a target (14). -/
structure Select where
  next : Fin 2 := 0
  trial : Bool := false
  deriving DecidableEq, Repr

/-- The boot flash (Table 15-1): images of target × (A, B, golden), the selection records, the boot descriptor's values. -/
structure Flash where
  die : Vector (Option FwImage) 3 := Vector.replicate 3 none
  island : Vector (Option FwImage) 3 := Vector.replicate 3 none
  select : Vector Select 2 := Vector.replicate 2 {}
  verdict : Vector Verdict 3 := Vector.replicate 3 .unknown
  islandBad : Vector Bool 3 := Vector.replicate 3 false
  islandRunning : Nat := 0
  descriptorOk : Bool := true
  saShape : Nat := 0
  clkMhz : Nat := 25
  storeOk : Bool := true
  deriving DecidableEq, Repr

/-! ## Memory (05, 14) -/

/-- State of an LPDDR5X channel (Table 10-23). -/
inductive McState where
  | untrained | inService | failedTraining | failedService
  deriving DecidableEq, Repr

/-- An LPDDR5X channel. -/
structure McChan where
  gib : Nat := 16
  mts : Nat := 8533
  ranks : Nat := 2
  st : McState := .untrained
  badReads : List Tick := []
  repaired : Nat := 0
  softLeft : Nat := 0
  eccCounts : List Nat := []
  ecsAt : Tick := 0
  deriving DecidableEq, Repr

/-- Who holds a reservation (R288): an itinerary, stream, region or binding, a command that still waits for loans or recalls (R296), or the work
here of a stream of another die (R848). -/
inductive Owner where
  | itin (h : Nat) | stream (h : Nat) | region (h : Nat) | bind (p : ApId) (h : Nat) | wait (req : Nat) | guest (home : FabId) (h : Nat)
  deriving DecidableEq, Repr

/-- Granules held on one tier, and for T2 on one channel. -/
structure Resv where
  owner : Owner
  tenant : Nat
  tier : Nat
  chan : Nat
  granules : Nat
  base : Option Nat := none
  deriving DecidableEq, Repr

/-- A region: reserved on T1, T2 or T3, or host memory mapped into the T4 window. -/
structure Region where
  handle : Nat
  tenant : Nat
  tier : Nat
  chan : Nat
  base : Nat
  bytes : Nat
  hostAddr : Nat
  lender : Option FabId
  lost : Bool := false
  deriving DecidableEq, Repr

/-- A loan given to another die. -/
structure Lent where
  borrower : FabId
  tier : Nat
  base : Nat
  granules : Nat
  serial : Nat
  due : Bool := false
  recallAt : Option Tick := none
  deriving DecidableEq, Repr

/-- A loan held from another die. -/
structure Loan where
  lender : FabId
  base : Nat
  granules : Nat
  onlyCopies : Bool
  recalled : Option Tick := none
  room : Option Nat := none
  deriving DecidableEq, Repr

/-- What a move serves. -/
inductive MoveFor where
  | frame (h : Nat) | command (m : MailCmd) | recall (lender : FabId) | resume (h : Nat)
  deriving DecidableEq, Repr

/-- A move in flight, or held by the staging reservation (issued = none) (R268 to R276, R311). -/
structure Move where
  id : Nat
  purpose : MoveFor
  layer : Nat
  item : Nat
  srcTier : Nat
  src : Nat
  dstTier : Nat
  dst : Nat
  len : Nat
  switch : Bool
  lastUse : Nat
  pin : Bool
  issued : Option Tick
  timeout : Nat
  refetched : Bool := false
  engine : Option EngineId := none
  deriving DecidableEq, Repr

/-- A staged copy (R270, R275): the stream it was staged for, in T0 the engine, and the release of the frame that staged it. -/
structure Staged where
  itin : Nat
  stream : Nat
  item : Nat
  tier : Nat
  dst : Nat
  bytes : Nat
  lastUse : Nat
  pin : Bool
  engine : Option EngineId := none
  release : Tick := 0
  deriving DecidableEq, Repr

/-- One part of a reservation request: a tier, for T2 a channel (none for any, over several where `spread`), and granules; with
`placed`, at one run of addresses. -/
structure Need where
  tier : Nat
  chan : Option McId
  n : Nat
  placed : Bool
  spread : Bool
  deriving DecidableEq, Repr

/-- A command that waits for lent capacity to come back, or for loans (R296, R306, R591): the T3 granules it still needs, the
lender it has asked, the lenders tried, the one it names (0xFFFF for any), and for an ITIN_LOAD the image it read. Without a
command it is the search for a loan that restores the recall room of lender `named` (R303). `needs` is what the command is to reserve here. -/
structure Waiting where
  cmd : Option MailCmd
  req : Nat
  need : Nat
  ask : Option FabId
  tried : List FabId
  named : FabId
  img : Option Image
  needs : List Need := []
  deriving DecidableEq, Repr

/-- A row that showed correctable errors (R836): tier, unit, bank, row, the patrol passes and the bits. -/
structure RowError where
  tier : Nat
  unit : Nat
  bank : Nat
  row : Nat
  passes : List Nat
  bits : List Nat
  deriving DecidableEq, Repr

/-- The memories of the die and their bookkeeping. -/
structure Mem where
  cells : List Host.Cell := []
  bad : List Nat := []
  channels : Vector McChan 4 := Vector.replicate 4 {}
  regions : List Region := []
  reserved : List Resv := []
  quotas : List ((Nat × Nat) × Nat) := []
  lendLimit : Vector Nat 3 := Vector.replicate 3 0
  radius : Nat := 2
  lent : List Lent := []
  lentNext : Nat := 0
  loans : List Loan := []
  rooms : Vector (Option FabId) 8 := Vector.replicate 8 none
  roomUsed : List (FabId × Nat) := []
  fwArea : Option McId := some 0
  fwBase : Nat := 0x001000000000
  moves : List Move := []
  moveNext : Nat := 0
  staged : List Staged := []
  waiting : List Waiting := []
  reqNext : Nat := 0
  rowSpares : Vector Nat 48 := Vector.replicate 48 16
  colSpares : Vector Nat 48 := Vector.replicate 48 4
  t0Spares : Vector Nat 7 := Vector.replicate 7 48
  t0Corrected : Vector Nat 7 := Vector.replicate 7 0
  t2Size : Nat := 0
  patrol : Vector (Nat × Option Tick) 3 := Vector.replicate 3 (0, none)
  colPending : List (Nat × Nat) := []
  rowErrors : List RowError := []
  repairedRows : List (Nat × Nat × Nat × Nat) := []
  damagedItems : List (Nat × Nat) := []
  deriving DecidableEq, Repr

/-! ## Work (03, 04, 07) -/

/-- An activation block: its codes row by row, the entries of its activation scale record, its outlier columns with their
companion block, and the tick of its commit (Table 2-7, R103, R187). -/
structure Block where
  fmt : Fmt
  rows : Nat
  cols : Nat
  codes : List (List Nat)
  aScale : List F32
  zp : List Nat
  outs : List Nat
  comp : List (List (BitVec 16))
  commit : Tick
  deriving DecidableEq, Repr

/-- A sequence-table entry (Table 4-7). -/
structure SeqEntry where
  slot : Nat
  new : Nat
  reset : Bool
  fin : Bool
  deriving DecidableEq, Repr

/-- An accepted feed (R414), or a port's input block standing for one (R420). -/
structure Feed where
  cmd : Option MailCmd
  accepted : Tick
  slot : Tick
  inputs : List Block
  seqs : List SeqEntry
  outBuf : Nat
  backward : Bool
  inRing : Bool
  deriving DecidableEq, Repr

/-- Progress of a segment. -/
inductive SegSt where
  | waiting | running | committed
  deriving DecidableEq, Repr

/-- A segment of a strand (R108, R215, R983): its layer, its output tile or KV head, its place in the chain, the logical
engine and the engine it runs on, its cost, and the part of the work it covers (tile steps, or rows, heads and chunks). -/
structure Seg where
  layer : Nat
  unit : Nat
  idx : Nat
  res : Res
  logical : Nat
  engine : EngineId
  cost : Nat
  last : Bool
  t0 : Nat
  tn : Nat
  r0 : Nat
  rn : Nat
  h0 : Nat
  hn : Nat
  c0 : Nat
  cn : Nat
  replay : Bool
  faultAt : Tick
  st : SegSt
  deriving DecidableEq, Repr

/-- The chain state of one output tile (R109): the stage-1 chain accumulators (integer and float paths), the side-lane sums
E and O, the poisoned vectors and channels, and the invalid codes counted on each channel. -/
structure Chain where
  accI : List (List Int)
  accF : List (List F32)
  e : List (List F32)
  o : List (List F32)
  poisonV : List Bool
  poisonC : List Bool
  invalid : List Nat
  deriving DecidableEq, Repr

/-- The running state of one query head row (R211). -/
structure RowRun where
  row : Nat
  head : Nat
  m : F32
  l : F32
  o : List F32
  deriving DecidableEq, Repr

/-- One token's keys or values of one KV head: codes and FP16 block scales (R220). -/
structure KvTok where
  codes : List Int
  scales : List (BitVec 16)
  deriving DecidableEq, Repr

/-- A KV page (Tables 4-4, 4-5): its FILL is the number of tokens whose keys and values are both written; its address is kept where
it lies in a loan or a recall room. -/
structure KvPage where
  layer : Nat
  head : Nat
  slot : Nat
  page : Nat
  k : List KvTok
  v : List KvTok
  isSealed : Bool
  damaged : Bool
  home : FabId
  tier : Nat
  addr : Nat := 0
  lostHome : Bool := false
  deriving DecidableEq, Repr

/-- Catch-up measures (Table 7-5). -/
inductive Measure where
  | boost | lean | postpone
  deriving DecidableEq, Repr

/-- A frame in flight, with the parameters in force at its release (R429). -/
structure Frame where
  slot : Tick
  release : Tick
  feed : Feed
  segs : List Seg
  blocks : List ((Nat × Nat) × Block)
  partials : List ((Nat × Nat) × Chain)
  attnParts : List ((Nat × Nat) × List RowRun)
  staging : List ((Nat × Nat) × List (List F32))
  maxima : List (Nat × F32)
  steps : List (Nat × F32) := []
  lean : Bool
  boost : Bool
  replayed : Bool
  replayLat : Nat
  fault : Option (Nat × Nat × Nat × W64)
  deadline : Nat
  lengths : List Nat
  pages : List KvPage
  replaced : List (Nat × List Byte)
  writes : List (Nat × List Byte)
  started : List Nat
  lastCommit : Tick
  prio : Nat
  guar : Bool
  quiet : Bool
  timeouts : Vector Nat 3
  catchH : Option Nat
  snapEvery : Nat := 0
  snapRegion : Nat := 0
  cuOrder : List Measure := []
  deriving DecidableEq, Repr

/-- What a forward frame leaves for the backward steps of the stream until the next forward release (R242, R244): its sequence
table, the lengths it counted from, its blocks and its inputs. -/
structure Kept where
  seqs : List SeqEntry
  lengths : List Nat
  blocks : List ((Nat × Nat) × Block)
  inputs : List Block
  deriving DecidableEq, Repr

/-- One set of the conversion counters (Table 3-8). -/
structure Counters where
  sse : F32 := 0
  nConv : W32 := 0
  sat : W32 := 0
  esc : W32 := 0
  sideFull : W32 := 0
  underflow : W32 := 0
  poison : W32 := 0
  invalid : W32 := 0
  deriving DecidableEq, Repr

/-- The statistics of a layer of a stream (R194 to R196). -/
structure LayerStats where
  layer : Nat
  running : List Counters
  closed : List Counters
  invocations : Nat
  latchMsc : Tick
  deriving DecidableEq, Repr

/-- A snapshot (Table 14-4) held in an area of a region, named by the region's tier and address so that it outlives the handle. -/
structure Snapshot where
  tier : Nat
  base : Nat
  area : Fin 2
  valid : Bool
  auto : Bool
  advances : Nat
  itinCrc : W32
  stream : Nat
  homeId : FabId
  seq : Nat
  snapSlot : Tick
  capture : Tick
  params : BitVec 192
  timeouts : Vector Nat 3
  lengths : List Nat
  pages : List KvPage
  hist : List (Nat × List F32)
  recurrent : List ((Nat × Nat) × Block)
  bytes : Nat
  deriving DecidableEq, Repr

/-- States of a job or stream (Table 7-3), and lost. -/
inductive StState where
  | opened | running | draining | drained | lost | resuming
  deriving DecidableEq, Repr

/-- A job or stream. -/
structure Stream where
  handle : Nat
  itin : Nat
  tenant : Nat
  ch : ChanId
  st : StState
  started : Bool
  period : Nat
  deadline : Nat
  prio : Nat
  guaranteed : Bool
  cuRatio : Nat
  cuOrder : List Measure
  snapEvery : Nat
  quiet : Bool
  snapRegion : Nat
  timeouts : Vector Nat 3
  kvFmt : Nat
  pageLog2 : Nat
  ragged : Bool
  backward : Bool
  maxSeqs : Nat
  maxPos : Nat
  maxRows : Nat
  n0 : Tick
  feeds : List Feed
  frame : Option Frame
  prevSlot : Option Tick
  prevRelease : Tick
  nextRelease : Option Tick
  minRelease : Tick
  debt : Nat
  maxDebt : Nat
  cuFrames : Nat
  catchup : Bool
  active : List Measure
  used : List Measure
  demoted : Bool
  emptySlots : Nat
  finished : Nat
  late : Nat
  drainedFrames : Nat
  advances : Nat
  lastAdvSlot : Tick
  map : List EngineId
  home : FabId
  energyPj : Nat
  chargePj : Nat
  openTick : Tick
  hist : List (Nat × List F32)
  stats : List LayerStats
  lengths : List Nat
  pages : List KvPage
  recurrent : List ((Nat × Nat) × Block)
  rowRecords : List ((Nat × Nat × Nat) × (F32 × F32))
  gradients : List ((Nat × Nat × Nat) × List F32)
  kept : Option Kept
  snapSeq : Nat
  snapping : Option (Snapshot × Option MailCmd)
  drainCmd : Option MailCmd
  lostDie : FabId
  dies : List FabId
  rebase : Bool
  rowsBad : Option Nat
  deriving DecidableEq, Repr

/-- A loaded itinerary. -/
structure Itin where
  handle : Nat
  tenant : Nat
  crc : W32
  img : Image
  fallback : Bool
  fbDies : Nat
  homes : List (Nat × Nat)
  granules : Nat
  steps : Nat
  srcRegion : Nat
  replaced : List (Nat × List Byte)
  barred : List FabId := []
  deriving DecidableEq, Repr

/-- The work that a stream of another die has placed on this die (R434, R848): its home die and handle there, what its itinerary places here,
the parameters the tollgate tests, and the engines its logical engines are mapped to. Its strand records are the steps of `it`. -/
structure Guest where
  home : FabId
  handle : Nat
  it : Itin
  guaranteed : Bool
  prio : Nat
  period : Nat
  deadline : Nat
  maxRows : Nat
  maxPos : Nat
  ragged : Bool
  backward : Bool
  map : List EngineId
  deriving DecidableEq, Repr

/-! ## Engines (01, 02, 04) -/

/-- Whether an engine is in service (R13, R819, Table 10-23). -/
inductive Life where
  | inService | laybyFree | laybyEngaged | retired | selfTestFailed
  deriving DecidableEq, Repr

/-- The field's running segment: the stream, the segment, and the next wavefront (tile step, pass, run, input step, bit). -/
structure FieldRun where
  stream : Nat
  seg : Seg
  tile : Nat
  pass : Nat
  run : Nat
  inStep : Nat
  bit : Nat
  swapWanted : Bool
  deriving DecidableEq, Repr

/-- The pipeline's running segment, its issued steps, and the running states of its rows. -/
structure AttnRun where
  stream : Nat
  seg : Seg
  steps : Nat
  rows : List RowRun
  deriving DecidableEq, Repr

/-- What the shadow bank drains (R126): the tile step, pass and run its sums belong to, and the high-pass sums kept. -/
structure Drain where
  tile : Nat
  pass : Nat
  run : Nat
  since : Tick
  deriving DecidableEq, Repr

/-- The pacer limits requested by the sources of R35 (6.10 fixed point; 65,535 = no limit). -/
structure Limits where
  powerCap : Nat := 65535
  thermal : Nat := 65535
  steward : Nat := 65535
  ramp : Nat := 65535
  stop : Nat := 65535
  deriving DecidableEq, Repr

/-- A closed rate window (R27). -/
structure Window where
  point : Fin 5
  rate : Nat
  productive : Nat
  ballast : Nat
  deriving DecidableEq, Repr

/-- One engine with its rate monitor, pacers, droop gate, field and attention pipeline. -/
structure Engine where
  life : Life := .inService
  partner : Option EngineId := none
  field : Option FieldRun := none
  attn : Option AttnRun := none
  acc : List (List Int) := []
  check : List (List Int) := []
  shadow : List (List Int) := []
  shadowCheck : List (List Int) := []
  high : List (List Int) := []
  drain : Option Drain := none
  swapHeldAt : Option Tick := none
  drainStall : Nat := 0
  chain : Chain := ⟨[], [], [], [], [], [], []⟩
  tokens : Nat := 0
  attnTokens : Nat := 0
  limits : Limits := {}
  limitNow : Nat := 65535
  windows : List Window := []
  calib : Nat := 65536
  productive : Nat := 0
  ballast : Nat := 0
  attnSteps : Nat := 0
  estProductive : Nat := 0
  estBallast : Nat := 0
  estAttn : Nat := 0
  unpaced : Nat := 0
  unpacedIssued : Nat := 0
  unpacedMark : Nat := 0
  lowWindows : Nat := 0
  rateAt : Vector (Option Nat) 5 := Vector.replicate 5 none
  droopHold : Option Tick := none
  droopTold : Bool := false
  detMask : Vector Bool 4 := Vector.replicate 4 false
  selfTest : Option Bool := none
  testAt : Tick := 0
  unheld : Nat := 0
  creditAt : Option Tick := none
  rateWinAt : Tick := 0
  ran : List (Nat × Nat) := []
  deriving DecidableEq, Repr

/-! ## Power (01, 12) -/

/-- The phase of an operating-point change (01 "Changing operating point"): deferred to a gap, waiting for a ramp-down to
finish (R49), in its approach, in its stop. -/
inductive OpPhase where
  | deferred | waiting | approach | stop
  deriving DecidableEq, Repr

/-- An operating-point change. -/
structure OpChange where
  phase : OpPhase
  old : Fin 5
  target : Fin 5
  since : Tick
  trim : Bool
  deriving DecidableEq, Repr

/-- The throttle accounting of one reason (R753, R754, R640). -/
structure Episode where
  ticks : Nat := 0
  active : Bool := false
  openAt : Option Tick := none
  lastActive : Tick := 0
  heldBegin : Option Nat := none
  heldEnd : Option Nat := none
  deriving DecidableEq, Repr

/-- A regulator's readings over PMBus (R658, R671). -/
structure Reading where
  voutMv : Nat := 0
  ioutMa : Nat := 0
  temp : Int := 0
  status : BitVec 16 := 0
  fails : Nat := 0
  goods : Nat := 0
  stopped : Bool := false
  deriving DecidableEq, Repr

/-- A thermal sensor (R734 to R742). -/
structure Sensor where
  reading : Int := 0
  level : Nat := 0
  missed : Nat := 0
  faulty : Bool := false
  below92 : Option Tick := none
  deriving DecidableEq, Repr

/-- A trim run (R745). -/
structure TrimRun where
  cause : Fin 3
  oldMv : Int
  lowered : Bool
  deriving DecidableEq, Repr

/-- The governor. -/
structure Power where
  hostCap : Option Nat := none
  stewardCap : Option Nat := none
  opBase : Fin 5 := 0
  opForce : Fin 5 := 0
  change : Option OpChange := none
  latched : Option (Fin 5) := none
  vid : Nat := 40
  vidTarget : Nat := 40
  vidOld : Nat := 40
  settled : Bool := true
  slowRefMv : Option Nat := none
  masked : Bool := false
  opStops : Nat := 0
  opStopTicks : Nat := 0
  slowReg : Nat := 0
  phi : Nat := 65536
  thermPhi : Nat := 65536
  estMw : Nat := 0
  estHist : List Nat := []
  calGain : F32 := 0x3F800000
  calOffset : Int := 0
  calAt : Tick := 0
  calRaw : List Nat := []
  calPairs : List (Nat × Nat × Bool) := []
  guard : Bool := false
  readings : Vector Reading 6 := Vector.replicate 6 {}
  slope : Nat := 8
  preRamp : Option (Nat × Tick) := none
  sensors : Vector Sensor 16 := Vector.replicate 16 {}
  entryOff : Vector Nat 3 := Vector.replicate 3 0
  droopLimit : Option (Fin 5) := none
  thermalDrop : Nat := 0
  thermLowSince : Option Tick := none
  episodes : Vector Episode 6 := Vector.replicate 6 {}
  throttleAt : Tick := 0
  trimMv : Int := 0
  trimRun : Option TrimRun := none
  trimAt : Tick := 0
  energyUj : Nat := 0
  energyRem : Nat := 0
  floorLogAt : Option Tick := none
  allowedAt : Vector (Option Tick) 5 := Vector.replicate 5 none
  rampDown : Bool := false
  stopSeen : Bool := false
  calOk : Tick := 0
  bootTrimmed : Bool := false
  stewardHalf : Bool := false
  windowAt : Tick := 0
  chargeAt : Tick := 0
  ageing : Bool := false
  target : Nat := 130000
  targetAt : Tick := 0
  lastMa : Option Nat := none
  unshaped : Bool := false
  deriving DecidableEq, Repr

/-! ## Sequencer and connection resistance (11) -/

/-- Table 11-5. -/
inductive SeqState where
  | s0 | s1 | s2 | s3 | s4 | s5 | s6
  deriving DecidableEq, Repr

/-- A running step of Table 11-7 (up) or Table 11-8. -/
structure SeqStep where
  up : Bool
  n : Nat
  since : Tick
  deriving DecidableEq, Repr

/-- A rail: its enable, and whether it is good. -/
structure Rail where
  en : Bool := false
  good : Bool := false
  deriving DecidableEq, Repr

/-- The connection resistance of a domain (R659 to R672); resistances in micro-ohms. -/
structure Pdn where
  baseline : Option Nat := none
  baseTemp : Int := 0
  samples : List (Nat × Int) := []
  learnFrom : Tick := 0
  last : Nat := 0
  lastAt : Tick := 0
  over30Since : Option Tick := none
  over60 : Nat := 0
  under20Since : Option Tick := none
  alarm : Bool := false
  alarmTarget : Option Nat := none
  monitored : Bool := true
  deriving DecidableEq, Repr

/-- The sequencer. -/
structure Seqr where
  state : SeqState := .s0
  step : Option SeqStep := none
  vmem : Rail := {}
  vlog : Rail := {}
  vlnk : Rail := {}
  vddqmx : Rail := {}
  vddqm : Rail := {}
  request : Option Bool := none
  requestAt : Tick := 0
  s1At : Option Tick := none
  shut : Bool := false
  faulted : Bool := false
  retried : Bool := false
  internalReset : Bool := true
  sysRst : Bool := false
  aonRst : Bool := true
  perst : Bool := false
  pwrAuto : Bool := false
  cold : Bool := false
  pdn : Vector Pdn 6 := Vector.replicate 6 {}
  s6Ticks : Tick := 0
  deriving DecidableEq, Repr

/-! ## Island and tray (13) -/

/-- STAT classification of a slot (R768). -/
inductive StatClass where
  | healthy | error | hung
  deriving DecidableEq, Repr

/-- A STAT_IN input. -/
structure StatIn where
  level : Bool := false
  since : Tick := 0
  rise : Option Tick := none
  fall : Option Tick := none
  cls : StatClass := .error
  deriving DecidableEq, Repr

/-- STAT_OUT (Table 13-4). -/
inductive StatOut where
  | low | high | wave (level : Bool)
  deriving DecidableEq, Repr

/-- A notice (Table 10-22). -/
structure Notice where
  code : Byte
  slot : Byte
  data : BitVec 352
  smbRead : Bool
  posted : Bool
  deriving DecidableEq, Repr

/-- A CAP the primary has sent to a slot (R804, R807): value, GEN, tries, the tick, and the old cap. -/
structure CapPush where
  cap : Nat
  old : Nat
  gen : Nat
  tries : Nat
  sentAt : Option Tick
  powerOn : Bool
  deriving DecidableEq, Repr

/-- A leak input (R788). -/
structure LeakIn where
  enabled : Bool := true
  thrMv : Nat := 900
  filterUs : Nat := 200
  wet : Bool := false
  dryAt : Option Tick := none
  isOpen : Bool := false
  deriving DecidableEq, Repr

/-- A coolant input's history (Table 13-6). -/
structure Coolant where
  warnSince : Option Tick := none
  critSince : Option Tick := none
  okSince : Option Tick := none
  warned : Bool := false
  critical : Bool := false
  deriving DecidableEq, Repr

/-- A service lamp (R799 to R801). Times in microseconds of on-time. -/
structure Lamp where
  duty : Nat := 0
  next : Option Nat := none
  owed : Nat := 0
  fails : Nat := 0
  isOpen : Bool := false
  driveUa : Nat := 2000
  dark : Bool := false
  checkAt : Tick := 0
  testDue : Bool := false
  deriving DecidableEq, Repr

/-- A Causeway port's cable (R796). -/
structure Cable where
  present : Bool := false
  ok : Bool := false
  deriving DecidableEq, Repr

/-- The network values of Table 13-2. -/
structure Net where
  mac : BitVec 48 := 0
  ip : W32 := 0
  manager : W32 := 0
  port : BitVec 16 := 0
  tray : BitVec 16 := 0
  deriving DecidableEq, Repr

/-- The steward island. -/
structure Island where
  up : Bool := false
  romMode : Bool := false
  startAt : Tick := 0
  ready : Bool := false
  trayEn : Bool := false
  slot : SlotId := 0
  role : Role := .none
  primary : Option SlotId := none
  standby : Option SlotId := none
  gen : Nat := 0
  elected : Bool := false
  statIn : Vector StatIn 16 := Vector.replicate 16 {}
  statOut : StatOut := .low
  statKick : Tick := 0
  markedOff : List SlotId := []
  nextPower : Tick := 0
  trayCapW : Option Nat := none
  demand : Bool := false
  tray : Vector (Option TrayStateBody) 16 := Vector.replicate 16 none
  counted : List SlotId := []
  caps : Vector Nat 16 := Vector.replicate 16 0
  pushes : Vector (Option CapPush) 16 := Vector.replicate 16 none
  fitted : Nat := 16
  capAfterRequest : Bool := false
  admitted : Bool := false
  beatSeen : Bool := false
  lastBeat : Tick := 0
  beatAt : Tick := 0
  stateAt : Tick := 0
  shutdownAt : Option Tick := none
  roleReq : Option Tick := none
  swapAt : Option Tick := none
  noReqUntil : Tick := 0
  coolArmed : Bool := false
  coolKick : Tick := 0
  coolMax : Bool := false
  coolDuty : Nat := 20
  ain : Vector Nat 8 := Vector.replicate 8 0
  coolant : Vector Coolant 4 := Vector.replicate 4 {}
  coolLimits : Vector CoolLimits 4 := Vector.replicate 4 {}
  limitsOk : Bool := false
  trayDown : Option Tick := none
  leak : Vector LeakIn 2 := Vector.replicate 2 {}
  leakLatch : Bool := false
  kill : Bool := false
  cable : Vector Cable 8 := Vector.replicate 8 {}
  lamps : Vector Lamp 4 := Vector.replicate 4 {}
  notices : List Notice := []
  noticesLost : Nat := 0
  pecDropped : Nat := 0
  log : List LogRec := []
  logSeq : Nat := 0
  standing : List LogRec := []
  history : List LogRec := []
  faultSeq : Nat := 0
  arm : Option (Nat × Tick) := none
  key : Option (BitVec 384) := none
  keyOpen : Bool := false
  seqMark : Nat := 0
  seqFloor : Nat := 0
  net : Net := {}
  txSeq : BitVec 16 := 0
  slew : Vector Nat 134 := Vector.replicate 134 1
  trialAt : Tick := 0
  goldenAt : Vector Nat 2 := Vector.replicate 2 0
  smbLogFrom : Nat := 0
  thermOff : Vector Nat 3 := Vector.replicate 3 0
  capAt : Tick := 0
  shutDone : Bool := false
  trayDownNext : Nat := 0
  faultDuty : Nat := 0
  wqSeq : Nat := 0
  deriving DecidableEq, Repr

/-! ## Audio (08) -/

/-- The settings of AUDIO_CONFIG (Table 8-1). -/
structure ApCfg where
  tdm : Bool
  slave : Bool
  rate : Nat
  word : Nat
  slotW : Nat
  frameBits : Nat
  slots : Nat
  fsPulse : Bool
  dataDelay : Bool
  bclkEdge : Bool
  unusedHiZ : Bool
  mclk : Nat
  slew : Nat
  deriving DecidableEq, Repr

/-- One direction of a binding's fill state, channel by channel: the value last played, the value before the run, fills in the run,
the fill samples of the run, and the played samples of the crossfade (R506). -/
structure FillCh where
  last : F32
  h : F32
  deriving DecidableEq, Repr

/-- A binding of a stream to a port (Table 8-2). -/
structure Bind where
  stream : Nat
  dirIn : Bool
  dirOut : Bool
  inMask : BitVec 16
  outMask : BitVec 16
  block : Nat
  playSamples : Nat
  fill : Nat
  inDepth : Nat
  j0 : Option Int := none
  nextIn : Nat := 0
  nextOut : Nat := 0
  outs : List (Nat × Block × Tick) := []
  fault : List Nat := []
  fillRun : Nat := 0
  fillSamples : Nat := 0
  fade : Nat := 0
  fillCh : List FillCh := []
  fillSlot : Tick := 0
  fillReason : Nat := 0
  fillPost : Tick := 0
  counts : Vector Nat 7 := Vector.replicate 7 0
  sat : Nat := 0
  played : Nat := 0
  captured : Nat := 0
  granules : Nat := 0
  deriving DecidableEq, Repr

/-- An audio port. Of a slave, `lastFrame64` is the start of frame `lastJ` as the port stamped it, in 1/64 tick (R484), and `period64` the
frame period. Of a master, `corr` are the discipline corrections still being spread: the frame they came in and their ticks (R483). -/
structure AudioPort where
  cfg : Option ApCfg := none
  anchor : Nat := 0
  clockValid : Bool := false
  lastFrame64 : Nat := 0
  lastJ : Int := 0
  period64 : Nat := 0
  corr : List (Int × Int) := []
  binds : List Bind := []
  deriving DecidableEq, Repr

/-! ## Causeway (06) -/

/-- Table 6-4. -/
inductive PortSt where
  | idle | training | active | retraining | down | miswired | failed | isolated
  deriving DecidableEq, Repr

/-- A packet in a receive buffer or an output queue, with its virtual channel and dateline class. -/
structure Queued where
  vc : Fin 4
  cls : Fin 2
  pkt : Packet
  missing : Nat
  deriving DecidableEq, Repr

/-- One Causeway port. `txDelay` is the outbound direction's delay without flight (transmit here, receive at the peer), `rxDelay` the
inbound one's, and `flight` half the round-trip flight time (R333), all in 1/64 tick. -/
structure Port where
  st : PortSt := .idle
  width : Nat := 0
  peer : FabId := 0xFFFF
  peerPart : Variant := .sv6118
  leads : Bool := false
  fckSeen : Bool := false
  trying : Bool := false
  setOk : Bool := false
  heldAt5 : Bool := false
  trainAt : Tick := 0
  pauseUntil : Option Tick := none
  consec : Nat := 0
  fails : Nat := 0
  retrains : Nat := 0
  replays : Nat := 0
  replayTicks : List Tick := []
  discards : Nat := 0
  txDelay : Nat := 0
  rxDelay : Nat := 0
  flight : Nat := 0
  txSeq : BitVec 10 := 0
  rxSeq : BitVec 10 := 0
  nakSent : Bool := false
  replay : List (BitVec 576) := []
  credits : Vector Nat 8 := Vector.replicate 8 0
  toReturn : Vector Nat 8 := Vector.replicate 8 0
  rx : List Queued := []
  tx : List Queued := []
  passed : Vector Nat 8 := Vector.replicate 8 0
  lastCls : Vector (Fin 2) 4 := Vector.replicate 4 1
  leftAt : Tick := 0
  activeAt : Tick := 0
  wasDown : Bool := false
  usable : Bool := false
  settled : Bool := false
  roleReq : Option Tick := none
  noReqUntil : Tick := 0
  swapAt : Option Tick := none
  holdoff : Bool := false
  deriving DecidableEq, Repr

/-- An outstanding remote request (R349, R353): its kind (READ or MOVE), destination, what it serves. -/
structure Outstanding where
  tag : BitVec 16
  isRead : Bool
  dest : FabId
  move : Option Nat
  issued : Tick
  tiered : Bool
  got : Nat
  need : Nat
  deriving DecidableEq, Repr

/-- The direction codes of the ring table (Table 6-9). -/
inductive Dir where
  | shorter | plus | minus | unreachable
  deriving DecidableEq, Repr

/-- A pin of FAB_ROUTE_SET. -/
inductive Pin where
  | ring (dim coord : Nat) (d : Dir)
  | relay (dest via : FabId)
  deriving DecidableEq, Repr

/-- The fabric view of the die. -/
structure Fabric where
  id : FabId := 0
  sizes : Vector Nat 4 := Vector.replicate 4 1
  wraps : Vector Bool 4 := Vector.replicate 4 false
  ports : Vector Port 8 := Vector.replicate 8 {}
  gen : W32 := 0
  ring : List (List Dir) := []
  relay : List (FabId × FabId) := []
  lost : List FabId := []
  routeLost : List FabId := []
  parts : List (FabId × Variant) := []
  pins : List Pin := []
  downLinks : List (FabId × FabId) := []
  seen : List (Nat × FabId × FabId × Nat) := []
  serial : Nat := 0
  outstanding : List Outstanding := []
  tagNext : BitVec 16 := 0
  relayBuf : List Queued := []
  relayWait : List Packet := []
  relayHeld : List (FabId × Nat) := []
  relayGranted : List FabId := []
  relayRefused : List FabId := []
  relayAsked : List FabId := []
  moveDests : List (Nat × Nat) := []
  isolating : Option (Tick × List MailCmd) := none
  isolatedAt : Option Tick := none
  recalledN : Nat := 0
  returnedN : Nat := 0
  census : List FabId := []
  censusAt : Tick := 0
  returning : List FabId := []
  neighbourGens : List (FabId × W32) := []
  guests : List Guest := []
  deriving DecidableEq, Repr

/-! ## What the die sends out -/

/-- Management messages to other dies (Table 6-7, MGMT and the VC0 operations). -/
inductive Mgmt where
  | loanRequest (req tier granules : Nat)
  | loanGrant (req tier base granules : Nat)
  | loanRefused (req : Nat)
  | recallNotice (base : Nat)
  | loanReturn (base : Nat)
  | linkNotice (a b : FabId) (serial : Nat)
  | dieNotice (d : FabId) (serial : Nat)
  | genNotice (gen : W32)
  | presentNotice (d : FabId) (part : Variant)
  | rejoinState (gen : W32) (lost : List FabId) (down : List (FabId × FabId))
  | roleRequest
  | roleAccept (swap : Tick)
  | timeRequest (t1 : Nat)
  | timeReply (t1 t2 t3 : Nat)
  | relayRequest
  | relayCredit
  | relayGrant (slots : Nat)
  | relayRefused
  | energyCharge (h uj : Nat)
  | guestAnswer (h : Nat) (taken : Bool)
  deriving DecidableEq, Repr

/-- Tray messages (Table 13-3). -/
inductive TrayMsg where
  | heartbeat (b : Beat)
  | state (b : TrayStateBody)
  | cap (capMw gen : Nat)
  | capAck (gen : Nat)
  | roleRequest
  | roleAccept (swap : Tick)
  | standbyNamed (n : SlotId)
  | power (on : Bool)
  | relay (payload : List Byte)
  deriving DecidableEq, Repr

/-- What a master or slave port drives in one sample frame: the level of SDO in each BCLK period from the FS edge, the periods in which it is
driven (period FRAME_BITS is the next frame's first), and the level of FS, which only a master drives (R474, R475). -/
structure SerialFrame where
  data : BitVec 513
  drive : BitVec 513
  fs : Option (BitVec 512)
  deriving DecidableEq, Repr

/-- What leaves the die. -/
inductive Out where
  | hostWrite (addr : Nat) (bytes : List Byte)
  | msix (vec : Nat)
  | regRead (v : W64)
  | vid (code : Nat)
  | flits (p : PortId) (fs : List (BitVec 576))
  | nak (p : PortId) (seq : BitVec 10)
  | mgmt (dest : FabId) (k : Mgmt)
  | tray (dest : Option SlotId) (seq : BitVec 16) (k : TrayMsg)
  | wairiq (header : BitVec 256) (body : List Byte) (tag : BitVec 128)
  | smb (data : Option (List Byte))
  | audio (p : ApId) (frames : List SerialFrame)
  | lamp (n : LampId) (us : Nat)
  | train (p : PortId)
  deriving DecidableEq, Repr

/-! ## Test port (16) -/

/-- The test port (R962, R963): its instruction register, which Test-Logic-Reset sets to BYPASS, and the boundary-scan register (the
first 128 cells on the small package). No row of the table shifts them. -/
structure Tap where
  ir : BitVec 6 := 0x3F
  boundary : BitVec 150 := 0
  deriving DecidableEq, Repr

/-! ## The state -/

/-- The state of one die. -/
structure State where
  fuses : Fuses := {}
  time : Time := {}
  host : HostIf := {}
  fw : Fw := {}
  flash : Flash := {}
  mem : Mem := {}
  engines : Vector Engine 7 := (Vector.replicate 7 {}).set 6 { life := .laybyFree }
  itins : List Itin := []
  streams : List Stream := []
  snaps : List Snapshot := []
  power : Power := {}
  seq : Seqr := {}
  island : Island := {}
  audio : Vector AudioPort 2 := Vector.replicate 2 {}
  fabric : Fabric := {}
  tap : Tap := {}
  out : List Out := []
  free : Nat := 0
  pending : List Instr := []
  deriving DecidableEq, Repr

/-- The die right after reset: AON_RST_N low, the island in reset, sequencer state S0, nothing waiting (R688). -/
def State.reset : State := {}

end Sys2Proof.Machine
end

