-- ==== Sys2Proof/Machine/Bits.lean ====
section
/-! DEFINITION. Bit fields, byte order and small list and vector helpers that the meanings share. Multi-byte fields are
little-endian (R18). -/

namespace Sys2Proof.Machine

/-- Change one element of a vector. -/
def vmod {α : Type} {n : Nat} (v : Vector α n) (i : Fin n) (f : α → α) : Vector α n := v.set i.1 (f (v.get i)) i.2

/-- Map over a vector through its list, so that the kernel can evaluate it. -/
def vmap {α β : Type} {n : Nat} (f : α → β) (v : Vector α n) : Vector β n :=
  ⟨(v.toList.map f).toArray, by simp⟩

/-- Map over a vector with the index. -/
def vmapIdx {α β : Type} {n : Nat} (f : Nat → α → β) (v : Vector α n) : Vector β n :=
  ⟨(v.toList.mapIdx f).toArray, by simp⟩

/-- Element `i` of a list, or `d`. -/
def nth {α : Type} (l : List α) (i : Nat) (d : α) : α := l.getD i d

/-- Field of `len` bytes at byte offset `off` of an entry, as a number (R18, R577). -/
def fld {w : Nat} (e : BitVec w) (off len : Nat) : Nat := (e.toNat >>> (8 * off)) % 2 ^ (8 * len)

/-- Bits `lo` to `lo + n - 1` of a number. -/
def bits (v lo n : Nat) : Nat := (v >>> lo) % 2 ^ n

/-- Bit `i` of a number. -/
def bit (v i : Nat) : Bool := v.testBit i

/-- A value placed at byte offset `off` in `len` bytes. -/
def put (off len v : Nat) : Nat := (v % 2 ^ (8 * len)) <<< (8 * off)

/-- A Bool as a bit. -/
def b2n (b : Bool) : Nat := if b then 1 else 0

/-- A signed value in two's complement of `w` bits. -/
def twos (w : Nat) (v : Int) : Nat := (v % (2 ^ w : Int)).toNat

/-- The signed value of a `w`-bit code. -/
def signed (w : Nat) (v : Nat) : Int := if v % 2 ^ w < 2 ^ (w - 1) then ((v % 2 ^ w : Nat) : Int) else ((v % 2 ^ w : Nat) : Int) - 2 ^ w

/-- Bytes of a number, least significant first (R18). -/
def leBytes : Nat → Nat → List Byte
  | 0, _ => []
  | n + 1, v => BitVec.ofNat 8 v :: leBytes n (v >>> 8)

/-- The number that bytes spell, least significant first. -/
def leNat : List Byte → Nat
  | [] => 0
  | b :: bs => b.toNat + 256 * leNat bs

/-- `n` bytes of a list from an offset (shorter where the list ends). -/
def slice {α : Type} (l : List α) (off n : Nat) : List α := (l.drop off).take n

/-- Field of a byte list. -/
def bfld (l : List Byte) (off n : Nat) : Nat := leNat (slice l off n)

/-- Ceiling division. -/
def cdiv (a b : Nat) : Nat := (a + b - 1) / b

/-- Whether a list is strictly ascending. -/
def ascending : List Nat → Bool
  | a :: b :: r => decide (a < b) && ascending (b :: r)
  | _ => true

/-- Smallest power of two at least `n`, searched from `p` with `k` doublings left. -/
def pow2Up : Nat → Nat → Nat → Nat
  | 0, p, _ => p
  | k + 1, p, n => if n ≤ p then p else pow2Up k (2 * p) n

/-- Sum of a list. -/
def total (l : List Nat) : Nat := l.foldl (· + ·) 0

/-- Largest of a list and `d`. -/
def maxOf (d : Nat) (l : List Nat) : Nat := l.foldl max d

/-- Smallest of a list, or `d` when it is empty. -/
def minOf (d : Nat) : List Nat → Nat
  | [] => d
  | a :: r => r.foldl min a

/-- Keep the last n of a list. -/
def lastN {α : Type} (n : Nat) (l : List α) : List α := l.drop (l.length - n)

/-- All elements of a small finite range. -/
def fins (n : Nat) : List (Fin n) := List.finRange n

/-- Whether a list holds no element twice. -/
def nodup {α : Type} [BEq α] : List α → Bool
  | [] => true
  | a :: r => !r.contains a && nodup r

/-- Update the value of a key in an association list, or add it at the end. -/
def assocSet {κ α : Type} [BEq κ] (k : κ) (a : α) : List (κ × α) → List (κ × α)
  | [] => [(k, a)]
  | (k', a') :: r => if k' == k then (k, a) :: r else (k', a') :: assocSet k a r

/-- Value of a key in an association list. -/
def assoc {κ α : Type} [BEq κ] (k : κ) (l : List (κ × α)) : Option α := l.lookup k

/-- Drop the first element that satisfies a test. -/
def dropFirst {α : Type} (p : α → Bool) : List α → List α
  | [] => []
  | a :: r => if p a then r else a :: dropFirst p r

end Sys2Proof.Machine
end

