-- ==== Sys2Proof/Machine/Num.lean ====
section
/-! DEFINITION. Exact arithmetic of the floating-point formats (Table 3-3): values are decoded exactly, computed on integers,
and rounded once, to nearest, ties to even (R153). Subnormals are kept (R144); every NaN written is the canonical one (R145). -/

namespace Sys2Proof.Machine

/-- A floating-point layout: exponent and mantissa bits, bias, and whether it is FP8A's (no infinities, one NaN, no -0). -/
structure FloatFmt where
  e : Nat
  m : Nat
  bias : Int
  fp8a : Bool
  deriving DecidableEq, Repr

/-- Table 3-3. -/
def fp8aF : FloatFmt := ⟨4, 3, 7, true⟩
def fp8bF : FloatFmt := ⟨5, 2, 15, false⟩
def fp16F : FloatFmt := ⟨5, 10, 15, false⟩
def bf16F : FloatFmt := ⟨8, 7, 127, false⟩
def fp32F : FloatFmt := ⟨8, 23, 127, false⟩

/-- An exact value: NaN, an infinity, or (-1)^neg × m × 2^e. -/
inductive FV where
  | nan
  | inf (neg : Bool)
  | fin (neg : Bool) (m : Nat) (e : Int)
  deriving DecidableEq, Repr

/-- Exponent of the least significant bit of a subnormal. -/
def FloatFmt.qmin (f : FloatFmt) : Int := 1 - f.bias - (f.m : Int)

/-- Largest finite code without its sign: 0x7F for FP8A (R143), otherwise just below the infinity. -/
def FloatFmt.maxCode (f : FloatFmt) : Nat := if f.fp8a then 0x7F else (2 ^ f.e - 1) * 2 ^ f.m - 1

/-- The value of a code (Table 3-3, R143, R145). -/
def decodeF (f : FloatFmt) (code : Nat) : FV :=
  let mant := code % 2 ^ f.m
  let ex := (code >>> f.m) % 2 ^ f.e
  let neg := code.testBit (f.e + f.m)
  if f.fp8a && neg && mant == 0 && ex == 0 then .nan
  else if !f.fp8a && ex == 2 ^ f.e - 1 then (if mant == 0 then .inf neg else .nan)
  else if ex == 0 then .fin neg mant f.qmin
  else .fin neg (2 ^ f.m + mant) (f.qmin + ((ex : Int) - 1))

/-- num / den rounded to nearest, ties to even (den > 0). -/
def rneDiv (num den : Nat) : Nat :=
  let q := num / den
  let r := num % den
  if 2 * r < den then q else if 2 * r > den then q + 1 else if q % 2 == 0 then q else q + 1

/-- num × 2^e as a fraction of naturals. -/
def scale2 (num : Nat) (e : Int) : Nat × Nat := if e ≥ 0 then (num <<< e.toNat, 1) else (num, 1 <<< (-e).toNat)

/-- Round (num / den) × 2^e to the format with an unbounded upper exponent: the result is m × 2^q, with q at least qmin. -/
def roundTo (f : FloatFmt) (num den : Nat) (e : Int) : Nat × Int :=
  if num == 0 then (0, f.qmin)
  else
    let k0 : Int := (Nat.log2 num : Int) - (Nat.log2 den : Int)
    -- 2^k0 ≤ num/den·(1..2) : correct k0 downward when num < den·2^k0
    let below := if k0 ≥ 0 then decide (num < den <<< k0.toNat) else decide (num <<< (-k0).toNat < den)
    let k := (if below then k0 - 1 else k0) + e
    let q := max (k - (f.m : Int)) f.qmin
    let (a, b) := scale2 num (e - q)
    (rneDiv a (den * b), q)

/-- Code of m × 2^q without its sign; q is at least qmin. -/
def packF (f : FloatFmt) (m : Nat) (q : Int) : Nat := if m == 0 then 0 else (q - f.qmin).toNat * 2 ^ f.m + m

/-- Sign bit of a format. -/
def signBit (f : FloatFmt) (neg : Bool) : Nat := if neg then 2 ^ (f.e + f.m) else 0

/-- Canonical NaN code (Table 3-3); FP8A has 0x80, which the die never writes (R124). -/
def nanCode (f : FloatFmt) : Nat := if f.fp8a then 0x80 else (2 ^ f.e - 1) * 2 ^ f.m + 2 ^ (f.m - 1)

/-- Infinity code. -/
def infCode (f : FloatFmt) (neg : Bool) : Nat := (2 ^ f.e - 1) * 2 ^ f.m + signBit f neg

/-- Round a fraction to FP32 (IEEE 754: beyond the largest finite becomes infinity). -/
def round32 (neg : Bool) (num den : Nat) (e : Int) : F32 :=
  let (m, q) := roundTo fp32F num den e
  let c := packF fp32F m q
  BitVec.ofNat 32 (if c > fp32F.maxCode then infCode fp32F neg else c + signBit fp32F neg)

/-- The exact value of an FP32 code. -/
def val32 (x : F32) : FV := decodeF fp32F x.toNat

/-- The canonical FP32 NaN. -/
def nan32 : F32 := 0x7FC00000

/-- -infinity. -/
def ninf32 : F32 := 0xFF800000

/-- An FP32 infinity. -/
def inf32 (neg : Bool) : F32 := BitVec.ofNat 32 (infCode fp32F neg)

/-- Whether a code is a NaN. -/
def isNan32 (x : F32) : Bool := val32 x == .nan

/-- Whether a code is an infinity. -/
def isInf32 (x : F32) : Bool := match val32 x with | .inf _ => true | _ => false

/-- Whether a code is finite. -/
def isFin32 (x : F32) : Bool := match val32 x with | .fin .. => true | _ => false

/-- Whether a code is a positive normal finite value. -/
def isPosNormal (x : F32) : Bool := isFin32 x && !x.msb && decide (x.toNat ≥ 2 ^ 23)

/-- Negation. -/
def neg32 (x : F32) : F32 := if isNan32 x then nan32 else x ^^^ 0x80000000

/-- |x|. -/
def abs32 (x : F32) : F32 := x &&& 0x7FFFFFFF

/-- A signed integer over 2^0, as a fraction with sign. -/
def ofInt32 (v : Int) (e : Int) : F32 := if v == 0 then 0 else round32 (decide (v < 0)) v.natAbs 1 e

/-- An exact finite value as FP32, exactly or rounded. -/
def fv32 : FV → F32
  | .nan => nan32
  | .inf n => inf32 n
  | .fin n m e => if m == 0 then (if n then 0x80000000 else 0) else round32 n m 1 e

/-- Sum of two exact finite values, rounded once. -/
def addFin (na : Bool) (ma : Nat) (ea : Int) (nb : Bool) (mb : Nat) (eb : Int) : F32 :=
  let e := min ea eb
  let a : Int := ((ma <<< (ea - e).toNat : Nat) : Int)
  let b : Int := ((mb <<< (eb - e).toNat : Nat) : Int)
  let s := (if na then -a else a) + (if nb then -b else b)
  if s == 0 then (if na && nb then 0x80000000 else 0) else round32 (decide (s < 0)) s.natAbs 1 e

/-- round32(x + y). -/
def add32 (x y : F32) : F32 :=
  match val32 x, val32 y with
  | .nan, _ => nan32
  | _, .nan => nan32
  | .inf a, .inf b => if a == b then inf32 a else nan32
  | .inf a, _ => inf32 a
  | _, .inf b => inf32 b
  | .fin na ma ea, .fin nb mb eb => addFin na ma ea nb mb eb

/-- round32(x - y). -/
def sub32 (x y : F32) : F32 := add32 x (neg32 y)

/-- Product of two exact values, rounded once to FP32. -/
def mulFV : FV → FV → F32
  | .nan, _ => nan32
  | _, .nan => nan32
  | .inf a, .inf b => inf32 (a != b)
  | .inf a, .fin nb mb _ => if mb == 0 then nan32 else inf32 (a != nb)
  | .fin na ma _, .inf b => if ma == 0 then nan32 else inf32 (na != b)
  | .fin na ma ea, .fin nb mb eb =>
    if ma * mb == 0 then (if na != nb then 0x80000000 else 0) else round32 (na != nb) (ma * mb) 1 (ea + eb)

/-- round32(x × y). -/
def mul32 (x y : F32) : F32 := mulFV (val32 x) (val32 y)

/-- round32(x / y). -/
def div32 (x y : F32) : F32 :=
  match val32 x, val32 y with
  | .nan, _ => nan32
  | _, .nan => nan32
  | .inf _, .inf _ => nan32
  | .inf a, .fin nb _ _ => inf32 (a != nb)
  | .fin na _ _, .inf b => if na != b then 0x80000000 else 0
  | .fin na ma ea, .fin nb mb eb =>
    if mb == 0 then (if ma == 0 then nan32 else inf32 (na != nb))
    else if ma == 0 then (if na != nb then 0x80000000 else 0)
    else round32 (na != nb) ma mb (ea - eb)

/-- round32(1 / x). -/
def recip32 (x : F32) : F32 := div32 0x3F800000 x

/-- The largest r below 2^(k+1)·… with r² ≤ n, found bit by bit. -/
def isqrt : Nat → Nat → Nat → Nat
  | 0, _, r => r
  | k + 1, n, r => let t := r + 2 ^ k; isqrt k n (if t * t ≤ n then t else r)

/-- Correctly rounded square root (R980). -/
def sqrt32 (x : F32) : F32 :=
  match val32 x with
  | .nan => nan32
  | .inf n => if n then nan32 else inf32 false
  | .fin n m e =>
    if m == 0 then x
    else if n then nan32
    else
      -- m × 2^e = (m × 2^(2s + parity)) × 2^(e - parity - 2s); 60 extra bits and a sticky bit decide the rounding
      let par := if e % 2 == 0 then 0 else 1
      let big := m <<< (60 + par)
      let r := isqrt 48 big 0
      let sticky := if r * r == big then 0 else 1
      round32 false (2 * r + sticky) 1 ((e - par - 60) / 2 - 1)

/-- x < y for codes that are not NaN. -/
def lt32 (x y : F32) : Bool :=
  match val32 x, val32 y with
  | .nan, _ => false
  | _, .nan => false
  | .inf a, .inf b => a && !b
  | .inf a, _ => a
  | _, .inf b => !b
  | .fin na ma ea, .fin nb mb eb =>
    let e := min ea eb
    let a : Int := ((ma <<< (ea - e).toNat : Nat) : Int)
    let b : Int := ((mb <<< (eb - e).toNat : Nat) : Int)
    decide ((if na then -a else a) < (if nb then -b else b))

/-- The larger of two codes that are not NaN. -/
def max32 (x y : F32) : F32 := if lt32 x y then y else x

/-- Floor of a finite value. -/
def floorFV : FV → Int
  | .fin n m e =>
    let (a, b) := scale2 m e
    if n then -(cdiv a b : Nat) else ((a / b : Nat) : Int)
  | _ => 0

/-- Rounding to an integer, nearest, ties to even (R153). -/
def rintFV : FV → Int
  | .fin n m e => let (a, b) := scale2 m e; let q := rneDiv a b; if n then -(q : Int) else (q : Int)
  | _ => 0

/-- A natural number as FP32, rounded. -/
def nat32 (n : Nat) : F32 := ofInt32 (n : Int) 0

/-- Exact quotient of an FP32 and a count, rounded once (R197). -/
def divCount (x : F32) (n : Nat) : F32 :=
  match val32 x with
  | .fin s m e => if n == 0 then 0 else if m == 0 then x else round32 s m n e
  | _ => if n == 0 then 0 else x

end Sys2Proof.Machine
end

