-- ==== Sys2Proof/Machine/Operands.lean ====
section
/-! DEFINITION. Operand forms: number formats and packing (03), CRC-32C, tile headers and their validation (02), scale
records, side lists, conversion descriptors, and stage 8's conversions. -/

namespace Sys2Proof.Machine

/-! ## Formats (Table 3-1) -/

/-- FMT codes (R137). -/
def fmtCode : Fmt → Nat
  | .int2 => 0 | .int3 => 1 | .int4 => 2 | .int5 => 3 | .int6 => 4 | .int8 => 5 | .uint4z => 6 | .uint8z => 7
  | .tern => 8 | .cb16 => 9 | .cb256 => 10 | .fp8a => 11 | .fp8b => 12 | .fp16 => 13 | .bf16 => 14 | .fp32 => 15

/-- All formats in code order. -/
def allFmts : List Fmt :=
  [.int2, .int3, .int4, .int5, .int6, .int8, .uint4z, .uint8z, .tern, .cb16, .cb256, .fp8a, .fp8b, .fp16, .bf16, .fp32]

/-- The format of a code. -/
def fmtOf (c : Nat) : Fmt := nth allFmts (c % 16) .int2

/-- Width in bits (Table 3-1). -/
def fmtWidth : Fmt → Nat
  | .int2 => 2 | .int3 => 3 | .int4 => 4 | .int5 => 5 | .int6 => 6 | .int8 => 8 | .uint4z => 4 | .uint8z => 8
  | .tern => 2 | .cb16 => 4 | .cb256 => 8 | .fp8a => 8 | .fp8b => 8 | .fp16 => 16 | .bf16 => 16 | .fp32 => 32

/-- The floating-point layout of a format, where it has one. -/
def fmtFloat : Fmt → Option FloatFmt
  | .fp8a => some fp8aF | .fp8b => some fp8bF | .fp16 => some fp16F | .bf16 => some bf16F | .fp32 => some fp32F
  | _ => none

/-- Whether a format is a floating-point one. -/
def isFloat (f : Fmt) : Bool := (fmtFloat f).isSome

/-- Signed integer formats. -/
def isSInt : Fmt → Bool
  | .int2 => true | .int3 => true | .int4 => true | .int5 => true | .int6 => true | .int8 => true | _ => false

/-- Formats with a zero point. -/
def isZp : Fmt → Bool
  | .uint4z => true | .uint8z => true | _ => false

/-- Codebook formats. -/
def isCb : Fmt → Bool
  | .cb16 => true | .cb256 => true | _ => false

/-- Field weight slot (Table 3-4). -/
def okWeight (f : Fmt) : Bool := !isZp f && f != .fp32

/-- Field activation slot (Table 3-4). -/
def okAct (f : Fmt) : Bool := !isCb f && f != .tern && f != .fp32

/-- Post-unit output slot (Table 3-4). -/
def okOut (f : Fmt) : Bool := !isCb f && f != .tern

/-- Weight-written-on-device slot (Table 3-4). -/
def okWritten (f : Fmt) : Bool := okWeight f

/-- Weight cycles c and column factor k (Table 2-3). -/
def weightCycles (f : Fmt) : Nat := if isFloat f then 16 else if isCb f then 8 else fmtWidth f
def colFactor (f : Fmt) : Nat := if isFloat f then 2 else 1

/-- Activation passes p (Table 2-4). -/
def actPasses (f : Fmt) : Nat := if isFloat f then 2 else 1

/-- Value of a signed integer, ternary or zero-point code, before any zero point; TERN's 0b10 is presented as 0 (R139). -/
def intCode (f : Fmt) (c : Nat) : Int :=
  if isZp f then (c : Int)
  else if f == .tern then (if c == 1 then 1 else if c == 3 then -1 else 0)
  else signed (fmtWidth f) c

/-- Range of integer and ternary results (Table 3-2): codes of zero-point formats, values of the others. -/
def intRange (f : Fmt) : Int × Int :=
  if isZp f then (0, 2 ^ fmtWidth f - 1)
  else if f == .tern then (-1, 1)
  else (-(2 ^ (fmtWidth f - 1)), 2 ^ (fmtWidth f - 1) - 1)

/-! ## CRC-32C (R972) -/

/-- One bit of the reflected CRC. -/
def crcBit (c : BitVec 32) : BitVec 32 := if c.getLsbD 0 then (c >>> 1) ^^^ 0x82F63B78 else c >>> 1

/-- One byte. -/
def crcByte (c : BitVec 32) (b : Byte) : BitVec 32 :=
  crcBit (crcBit (crcBit (crcBit (crcBit (crcBit (crcBit (crcBit (c ^^^ b.setWidth 32))))))))

/-- CRC-32C of bytes in ascending address order. -/
def crc32c (l : List Byte) : BitVec 32 := (l.foldl crcByte 0xFFFFFFFF) ^^^ 0xFFFFFFFF

/-- Sum of bytes modulo 256 is 0 (HDR_SUM). -/
def sumZero (l : List Byte) : Bool := (l.foldl (· + ·) (0 : Byte)) == 0

/-! ## Packing (R138, R100) -/

/-- Bytes of one stored row. -/
def rowBytes (cols w : Nat) : Nat := 64 * cdiv (cols * w) 512

/-- Elements of one row. -/
def unpackRow (w cols : Nat) (b : List Byte) : List Nat :=
  let v := leNat b
  (List.range cols).map fun i => bits v (i * w) w

/-- Pack a row's codes, padded to a multiple of 64 bytes. -/
def packRow (w : Nat) (codes : List Nat) : List Byte :=
  leBytes (rowBytes codes.length w) (total (codes.mapIdx fun i c => (c % 2 ^ w) <<< (i * w)))

/-! ## Tiles (Tables 2-7, 2-8) -/

/-- A parsed tile header. -/
structure TileHdr where
  fmt : Fmt
  kind : Nat
  flags : Nat
  rows : Nat
  cols : Nat
  side : Nat
  scalePtr : Nat
  home : Nat
  crc : Nat
  units : Nat
  ver : Nat
  deriving DecidableEq, Repr

/-- Header fields (Table 2-7). -/
def tileHdr (b : List Byte) : TileHdr :=
  { fmt := fmtOf (bfld b 0 1 % 16), kind := bfld b 0 1 / 16, flags := bfld b 1 1, rows := bfld b 2 2, cols := bfld b 4 2,
    side := bfld b 6 2, scalePtr := bfld b 8 8, home := bfld b 16 8, crc := bfld b 24 4, units := bfld b 28 2, ver := bfld b 30 1 }

/-- ROWS and COLS inside the range of the kind (Table 2-7). -/
def shapeOk (h : TileHdr) : Bool :=
  if h.kind == 0 then decide (1 ≤ h.rows ∧ h.rows ≤ 512 ∧ 1 ≤ h.cols ∧ h.cols ≤ 512)
  else if h.kind == 1 then decide (1 ≤ h.rows ∧ h.rows ≤ 256 ∧ 1 ≤ h.cols ∧ h.cols ≤ 512)
  else if h.kind == 2 then decide (1 ≤ h.rows ∧ h.rows ≤ 512 ∧ h.cols = 0)
  else decide (1 ≤ h.rows ∧ h.rows ≤ 256 ∧ h.cols = 0)

/-- PAYLOAD_UNITS that kind and shape require (R104). -/
def unitsNeeded (h : TileHdr) : Nat :=
  if h.kind == 2 then 100
  else if h.kind == 3 then cdiv h.rows 8
  else h.rows * cdiv (h.cols * fmtWidth h.fmt) 512 + cdiv h.side 8

/-- Payload bytes of a tile. -/
def payload (b : List Byte) : List Byte := b.drop 32

/-- Row `r` of a weight tile or activation block. -/
def tileRow (b : List Byte) (h : TileHdr) (r : Nat) : List Byte :=
  slice (payload b) (r * rowBytes h.cols (fmtWidth h.fmt)) (rowBytes h.cols (fmtWidth h.fmt))

/-- All codes of a tile. -/
def tileCodes (b : List Byte) (h : TileHdr) : List (List Nat) :=
  (List.range h.rows).map fun r => unpackRow (fmtWidth h.fmt) h.cols (tileRow b h r)

/-- The side list of a tile, its raw 8-byte entries (R101). -/
def sideRaw (b : List Byte) (h : TileHdr) : List Nat :=
  let start := h.rows * rowBytes h.cols (fmtWidth h.fmt)
  (List.range h.side).map fun i => bfld (payload b) (start + 8 * i) 8

/-- Side list as (INDEX, FP16 value). -/
def sideList (b : List Byte) (h : TileHdr) : List (Nat × BitVec 16) :=
  (sideRaw b h).map fun v => (bits v 0 18, BitVec.ofNat 16 (bits v 32 16))

/-- A side list is valid: strictly ascending and inside the shape (R168; its reserved bits are `usedBits`'). -/
def sideOk (b : List Byte) (h : TileHdr) : Bool :=
  (sideRaw b h).all (fun v => decide (bits v 0 18 / 512 < h.rows) && decide (bits v 0 18 % 512 < h.cols))
  && ascending ((sideRaw b h).map fun v => bits v 0 18)

/-- How many low bits of payload byte `j` hold content; the rest are padding or reserved (R100 to R103). -/
def usedBits (h : TileHdr) (j : Nat) : Nat :=
  let row := rowBytes h.cols (fmtWidth h.fmt)
  if h.kind == 2 then 8
  else if h.kind == 3 then (if decide (j < 8 * h.rows) && decide (j % 8 < 6) then 8 else 0)
  else if j < h.rows * row then min 8 (h.cols * fmtWidth h.fmt - 8 * (j % row))
  else
    let k := j - h.rows * row
    if 8 * h.side ≤ k then 0 else nth [8, 8, 2, 0, 8, 8, 0, 0] (k % 8) 0

/-- The first payload byte with a padding or reserved bit set (R973). -/
def badPadding (b : List Byte) (h : TileHdr) : Option Nat :=
  let p := payload b
  (List.range p.length).find? fun j => (nth p j 0).toNat >>> usedBits h j != 0

/-- Padding and reserved bits of the payload are zero. -/
def paddingOk (b : List Byte) (h : TileHdr) : Bool := (badPadding b h).isNone

/-- HDR_SUM and PAYLOAD_CRC of a tile or record agree (R136). -/
def tileIntact (b : List Byte) : Bool := decide (32 ≤ b.length) && sumZero (b.take 32) && (tileHdr b).crc == (crc32c (payload b)).toNat

/-- The checks of R104 on the tile's own bytes, its reserved bits and padding left out. -/
def tileSound (b : List Byte) : Bool :=
  let h := tileHdr b
  decide (32 ≤ b.length) && h.ver == 1 && sumZero (b.take 32) && decide (h.kind ≤ 3) && shapeOk h
  && decide (h.side ≤ h.rows * h.cols / 64) && (bit h.flags 0 || h.side == 0)
  && (!(bit h.flags 0) || (h.kind == 0 && h.fmt == .cb256))
  && h.units == unitsNeeded h && b.length == 32 + 64 * h.units && h.crc == (crc32c (payload b)).toNat
  && sideOk b h

/-- The checks of R104 that need nothing but the tile's own bytes. -/
def tileOk (b : List Byte) : Bool := tileSound b && (tileHdr b).flags / 2 == 0 && paddingOk b (tileHdr b)

/-! ### Records (R102, R103) -/

/-- W_SCALE[c], BIAS[c], COLSUM[c] and CODEBOOK[i] of a weight scale record. -/
def wScale (rec_ : List Byte) (c : Nat) : F32 := BitVec.ofNat 32 (bfld (payload rec_) (4 * c) 4)
def wBias (rec_ : List Byte) (c : Nat) : F32 := BitVec.ofNat 32 (bfld (payload rec_) (2048 + 4 * c) 4)
def wColsum (rec_ : List Byte) (c : Nat) : Int := signed 32 (bfld (payload rec_) (4096 + 4 * c) 4)
def wBook (rec_ : List Byte) (i : Nat) : Int := signed 8 (bfld (payload rec_) (6144 + i) 1)

/-- A_SCALE and ZP of vector v of an activation scale record. -/
def aScaleOf (rec_ : List Byte) (v : Nat) : F32 := BitVec.ofNat 32 (bfld (payload rec_) (8 * v) 4)
def zpOf (rec_ : List Byte) (v : Nat) : Nat := bfld (payload rec_) (8 * v + 4) 2

/-! ## Prefetch schedule entries (Table 5-4) -/

/-- Fields of a schedule entry. -/
def schedSrc (e : BitVec 128) : Nat := fld e 0 8
def schedTrigger (e : BitVec 128) : Nat := fld e 8 2
def schedLast (e : BitVec 128) : Nat := fld e 10 2
def schedDest (e : BitVec 128) : Nat := fld e 12 1 % 4
def schedEngine (e : BitVec 128) : Nat := bits (fld e 12 1) 4 3
def schedPin (e : BitVec 128) : Bool := bit (fld e 13 1) 0

/-! ## Conversion descriptors (Table 3-5) -/

/-- A parsed conversion descriptor. -/
structure Desc where
  fmt : Fmt
  src : Nat
  satInf : Bool
  escEn : Bool
  rmN : Nat
  statsEn : Bool
  window : Nat
  scale : F32
  zp : Nat
  outliers : List Nat
  escThr : F32
  margin : F32
  floor : F32
  deriving DecidableEq, Repr

/-- Fields of Table 3-5. -/
def desc (r : RawDesc) : Desc :=
  let b0 := fld r.bits 0 1
  let b1 := fld r.bits 1 1
  { fmt := fmtOf (b0 % 16), src := bits b0 4 2, satInf := bit b0 6, escEn := bit b0 7, rmN := b1 % 16 + 1, statsEn := bit b1 4,
    window := fld r.bits 2 2, scale := BitVec.ofNat 32 (fld r.bits 4 4), zp := fld r.bits 8 2,
    outliers := r.outliers.map (·.toNat), escThr := BitVec.ofNat 32 (fld r.bits 12 4),
    margin := BitVec.ofNat 32 (fld r.bits 16 4), floor := BitVec.ofNat 32 (fld r.bits 20 4) }

/-- a ≤ b for FP32 codes that are not NaN. -/
def le32 (a b : F32) : Bool := !isNan32 a && !isNan32 b && !lt32 b a

/-- The bytes of a descriptor whose reserved bits are set (R973). -/
def descReserved (r : RawDesc) : List Nat :=
  (if fld r.bits 1 1 / 32 == 0 then [] else [1]) ++ (if fld r.bits 10 1 / 128 == 0 then [] else [10]) ++ (if fld r.bits 11 1 == 0 then [] else [11])

/-- The conditions of R151 on a descriptor for a layer of `width` output channels, its reserved bits and the place of its list left out;
`written` where the output is a weight written on device. -/
def descOk (r : RawDesc) (width : Nat) (written : Bool) : Bool :=
  let d := desc r
  let cnt := fld r.bits 10 1 % 128
  decide (d.src ≤ 2)
  && (d.fmt != .fp32 || d.src == 2)
  && (!written || d.src == 0)
  && (!(d.fmt == .tern || isCb d.fmt) || d.src != 1)
  && (!d.satInf || d.fmt == .fp8b || d.fmt == .fp16 || d.fmt == .bf16)
  && (!d.escEn || d.fmt == .cb256)
  && (if isZp d.fmt then decide (d.zp < 2 ^ fmtWidth d.fmt) else d.zp == 0)
  && (d.src == 2 || isPosNormal d.scale)
  && (d.src != 1 || (le32 0x3F800000 d.margin && le32 d.margin 0x41800000 && le32 0x00800000 d.floor && le32 d.floor 0x7E800000))
  && (!d.escEn || (isFin32 d.escThr && (!d.escThr.msb || d.escThr == 0x80000000)))
  && (if d.statsEn then d.window != 0 else d.window == 0)
  && decide (cnt ≤ 64) && d.outliers.length == cnt && ascending d.outliers && d.outliers.all (fun c => decide (c < width))

/-! ## Conversion (R152 to R163) -/

/-- What one conversion gives: the code, the value a reader decodes (before any zero point is added), the counters it
advances, and the side-list value where it escapes. -/
structure Conv where
  code : Nat
  decoded : FV
  sat : Bool := false
  esc : Bool := false
  sideFull : Bool := false
  underflow : Bool := false
  poison : Bool := false
  side : Option (BitVec 16) := none
  deriving DecidableEq, Repr

/-- to_FP16 of a companion or side-list value: beyond ±65,504 is written as ±65,504 and counted (R161, R188). -/
def toFp16 (y : F32) : BitVec 16 × Bool :=
  match val32 y with
  | .nan => (0x7E00, false)
  | .inf n => (if n then 0xFBFF else 0x7BFF, true)
  | .fin n m e =>
    let (m', q) := roundTo fp16F m 1 e
    let c := packF fp16F m' q
    if c > fp16F.maxCode then (if n then 0xFBFF else 0x7BFF, true) else (BitVec.ofNat 16 (c + signBit fp16F n), false)

/-- An FP16 code widened exactly to FP32. -/
def fp16to32 (c : BitVec 16) : F32 := fv32 (decodeF fp16F c.toNat)

/-- A float conversion: round, then saturate (R158, R159, R163). -/
def toFloat (f : FloatFmt) (satInf : Bool) (t : F32) : Conv :=
  match val32 t with
  | .nan => { code := nanCode f, decoded := .nan, poison := true }
  | .inf n =>
    let c := (if satInf then infCode f n else f.maxCode + signBit f n)
    { code := c, decoded := decodeF f c, sat := true }
  | .fin n m e =>
    let (m', q) := roundTo f m 1 e
    let c := packF f m' q
    if c > f.maxCode then
      let c' := (if satInf then infCode f n else f.maxCode + signBit f n)
      { code := c', decoded := decodeF f c', sat := true }
    else
      let c' := if c == 0 && f.fp8a then 0 else c + signBit f n
      { code := c', decoded := decodeF f c', underflow := c == 0 && m != 0 }

/-- An integer or ternary conversion: round, add the zero point, saturate (R153, R154, R159). -/
def toInt (f : Fmt) (zp : Nat) (t : F32) : Conv :=
  let (lo, hi) := intRange f
  let q : Int := match val32 t with
    | .inf n => if n then lo - 1 else hi + 1
    | v => rintFV v + (zp : Int)
  let s := if q < lo then lo else if q > hi then hi else q
  { code := twos (fmtWidth f) s, decoded := fv32Int s, sat := s != q }
where fv32Int (v : Int) : FV := .fin (decide (v < 0)) v.natAbs 0

/-- The candidates' differences |t - entry| in FP32 (R155). -/
def cbDiffs (book : List Int) (t : F32) : List F32 := book.map fun b => abs32 (sub32 t (ofInt32 b 0))

/-- Lowest even index, else lowest index, among those of the smallest difference (R155, R156). -/
def cbPick (ds : List F32) : Nat :=
  let best := ds.foldl (fun a d => if lt32 d a then d else a) (nth ds 0 0)
  let idx := (List.range ds.length).filter fun i => nth ds i 0 == best
  (idx.find? (fun i => i % 2 == 0)).getD (nth idx 0 0)

/-- Nearest codebook index; an infinite t takes the end of the book in its direction (R159; log entry 14). -/
def cbNearest (book : List Int) (t : F32) : Nat :=
  match val32 t with
  | .inf n =>
    let best := book.foldl (fun a b => if n then min a b else max a b) (nth book 0 0)
    cbPick (cbDiffs book (ofInt32 best 0))
  | _ => cbPick (cbDiffs book t)

/-- Whether t lies beyond the largest or below the smallest candidate entry (Table 3-6). -/
def cbBeyond (book : List Int) (t : F32) : Bool :=
  let hi := book.foldl max (nth book 0 0)
  let lo := book.foldl min (nth book 0 0)
  lt32 (ofInt32 hi 0) t || lt32 t (ofInt32 lo 0)

/-- The candidate entries of a codebook format (R155). -/
def cbCandidates (d : Desc) (book : List Int) : List Int :=
  if d.fmt == .cb16 then book.take 16 else if d.escEn then book.take 255 else book.take 256

/-- A codebook conversion with `room` side-list entries left (R160 to R162). A nonzero value whose side-list value rounds to zero counts
ESC and not UNDERFLOW: the spec names only ESC and SAT for side-list values (R163; log entry 144). -/
def toCb (d : Desc) (book : List Int) (room : Bool) (t : F32) : Conv :=
  let cs := cbCandidates d book
  let i := cbNearest cs t
  let diff := abs32 (sub32 t (ofInt32 (nth cs i 0) 0))
  let wants := d.escEn && lt32 d.escThr diff
  if wants && room then
    let (h, s) := toFp16 t
    { code := 255, decoded := decodeF fp16F h.toNat, sat := s, esc := true, side := some h }
  else
    { code := i, decoded := toInt.fv32Int (nth cs i 0), sat := cbBeyond cs t, sideFull := wants }

/-- The poisoned output of R124 and R157. -/
def poisoned (d : Desc) (book : List Int) : Conv :=
  match fmtFloat d.fmt with
  | some f => { code := if f.fp8a then 0x7F else nanCode f, decoded := .nan, poison := true }
  | none =>
    if isCb d.fmt then { code := cbNearest (cbCandidates d book) 0, decoded := .nan, poison := true }
    else { code := d.zp, decoded := .nan, poison := true }

/-- Stage 8's conversion of one value of a channel that is not an outlier output (R152). -/
def convert (d : Desc) (recip : F32) (book : List Int) (room : Bool) (y : F32) : Conv :=
  if isNan32 y then poisoned d book
  else if d.fmt == .fp32 then { code := y.toNat, decoded := val32 y, sat := isInf32 y }
  else
    let t := if d.src == 2 then y else mul32 y recip
    if isNan32 t then poisoned d book
    else match fmtFloat d.fmt with
      | some f => toFloat f d.satInf t
      | none => if isCb d.fmt then toCb d book room t else toInt d.fmt d.zp t

/-- The constant Q of Table 3-7, as FP32. -/
def rmQ (d : Desc) : F32 :=
  match fmtFloat d.fmt with
  | some f => fv32 (decodeF f f.maxCode)
  | none =>
    if isZp d.fmt then nat32 (max (2 ^ fmtWidth d.fmt - 1 - d.zp) d.zp)
    else nat32 (2 ^ (fmtWidth d.fmt - 1) - 1)

/-- The output scale of a step (R175, R178): the history's last N maxima for a running maximum. -/
def outScale (d : Desc) (hist : List F32) : F32 :=
  if d.src == 2 then 0x3F800000
  else if d.src == 0 then d.scale
  else
    let h := hist.drop (hist.length - d.rmN)
    if h.isEmpty then d.scale
    else
      let m := h.foldl max32 0
      let s := div32 (mul32 d.margin m) (rmQ d)
      if lt32 s d.floor then d.floor else s

/-! ## KV quantisation (R220, R221) -/

/-- A quantised block of 32 elements: the FP16 scale, the codes, and for each element what it counts (0 nothing, 1 SAT,
2 UNDERFLOW, 3 POISON). -/
structure KvBlock where
  scale : BitVec 16
  codes : List Int
  counts : List Nat
  deriving DecidableEq, Repr

/-- Quantise one block; `q` is 127 for INT8 and 7 for INT4. -/
def kvQuant (q : Nat) (xs : List F32) : KvBlock :=
  if xs.any isNan32 then ⟨0x7E00, xs.map fun _ => 0, xs.map fun _ => 3⟩
  else
    let amax := xs.foldl (fun a x => max32 a (abs32 x)) 0
    if amax == 0 then ⟨0, xs.map fun _ => 0, xs.map fun _ => 0⟩
    else
      let (sc, _) := toFp16 (mul32 amax (recip32 (nat32 q)))
      if sc == 0 then ⟨0, xs.map fun _ => 0, xs.map fun x => if abs32 x == 0 then 0 else 2⟩
      else
        let recip := recip32 (fp16to32 sc)
        let raw := xs.map fun x => match val32 (mul32 x recip) with
          | .inf n => if n then -(q : Int) - 2 else (q : Int) + 1
          | v => rintFV v
        let cl := raw.map fun v => if v < -(q : Int) - 1 then -(q : Int) - 1 else if v > (q : Int) then (q : Int) else v
        ⟨sc, cl, (raw.zip cl).map fun (a, b) => if a == b then 0 else 1⟩

end Sys2Proof.Machine
end

