-- ==== Sys2Proof/Machine/Flags.lean ====
section
/-! DEFINITION. Status codes and their order (10 Table 10-1, R584), interrupt causes and MSI-X messages (09), and the
counters that stop at their largest value (R195). -/

namespace Sys2Proof.Machine

/-- Table 10-1. -/
inductive Status where
  | ok | okLate | okReplayed | badCommand | badArgument | absentUnit | noReservation | quotaExceeded | lengthLimit
  | tierFault | neighbourLost | streamLost | busy | notReady | verifyFailed | imageRolledBack | internal
  deriving DecidableEq, Repr

/-- Codes of Table 10-1. -/
def Status.code : Status → Nat
  | .ok => 0x00 | .okLate => 0x01 | .okReplayed => 0x02 | .badCommand => 0x10 | .badArgument => 0x11 | .absentUnit => 0x12
  | .noReservation => 0x13 | .quotaExceeded => 0x14 | .lengthLimit => 0x15 | .tierFault => 0x20 | .neighbourLost => 0x21
  | .streamLost => 0x22 | .busy => 0x30 | .notReady => 0x31 | .verifyFailed => 0x40 | .imageRolledBack => 0x41 | .internal => 0x7F

/-- The first status whose condition holds; the list is written in the order the rules fix (R584 unless a rule says otherwise). -/
def firstStatus : List (Bool × Status) → Option Status
  | [] => none
  | (c, st) :: r => if c then some st else firstStatus r

/-- Advance a UINT32 counter that stops at 0xFFFF_FFFF (R195). -/
def satInc (c : W32) (n : Nat) : W32 := BitVec.ofNat 32 (min (c.toNat + n) 0xFFFFFFFF)

/-- A value that saturates in `w` bits (R619). -/
def satTo (w v : Nat) : Nat := min v (2 ^ w - 1)

/-- IRQ_CAUSE bits (Table 9-12). -/
def causeFwState : Nat := 0
def causeBootDone : Nat := 1
def causeEvent : Nat := 2
def causeOverflow : Nat := 3
def causeLoss : Nat := 4
def causeChError : Nat := 5
def causeCmp (ch : Nat) : Nat := 16 + ch

/-- Send the message of an MSI-X vector, or hold it as a pending bit while the vector or the function is masked (R559). -/
def sendMsix (s : State) (vec : Nat) : State :=
  let i : Fin 32 := ⟨vec % 32, Nat.mod_lt _ (by decide)⟩
  if s.host.fnMask || (s.host.msix.get i).mask then { s with host := { s.host with pba := s.host.pba ||| (1#32 <<< i.1) } }
  else { s with out := s.out ++ [.msix i.1] }

/-- The vector that carries a cause: vector 0 for bits 5 to 0, the channel's for CMP[ch] (R555). -/
def causeVector (s : State) (b : Nat) : Nat :=
  if b < 16 then 0 else (s.host.channels.get ⟨(b - 16) % 16, Nat.mod_lt _ (by decide)⟩).vector

/-- Set a cause bit and, where it is not masked, send its message (R556). -/
def raiseIrq (s : State) (b : Nat) : State :=
  let s' := { s with host := { s.host with irqCause := s.host.irqCause ||| (1#32 <<< b) } }
  if s.host.irqMask.getLsbD b then s' else sendMsix s' (causeVector s b)

end Sys2Proof.Machine
end

