-- ==== Sys2Proof/Machine/Ops.lean ====
section
/-! DEFINITION. The operations the meanings share: which units a die carries, memory bytes, reservations, completions and
events, logs and notices, and sending messages. -/

namespace Sys2Proof.Machine

/-- A meaning's answer. -/
abbrev Res' := Host.Outcome State Fault Refusal

/-- Now, in ticks of the milestone counter. -/
def now (s : State) : Tick := s.time.msc

/-- Ticks from one value of the MSC to another, modulo 2^64 (R57). -/
def apart (a b : Tick) : Nat := (b % 2 ^ 64 + 2 ^ 64 - a % 2 ^ 64) % 2 ^ 64

/-- Ticks from `t` to now, modulo 2^64 (R57). -/
def elapsed (s : State) (t : Tick) : Nat := apart t (now s)

/-- At least `n` ticks have passed since `t` (R57). -/
def passed (s : State) (t : Tick) (n : Nat) : Bool := decide (n ≤ elapsed s t)

/-- Tick `t` has come: it lies in the half of the 2^64 values up to now (R57). -/
def reached (s : State) (t : Tick) : Bool := decide (elapsed s t < 2 ^ 63)

/-- Tick `t` is less than `n` ticks ahead of now, or has come (R57). -/
def within (s : State) (t : Tick) (n : Nat) : Bool := reached s t || decide ((t % 2 ^ 64 + 2 ^ 64 - now s % 2 ^ 64) % 2 ^ 64 < n)

/-- Append to what the die sends out. -/
def emit (s : State) (o : Out) : State := { s with out := s.out ++ [o] }

/-- Take a free value (log entry 8): a value nothing constrains, and the counter moved on. -/
def takeFree (s : State) : Nat × State := (Config.freeNat s.free, { s with free := s.free + 1 })

/-! ## Units (Tables 0-1, 0-2) -/

/-- Active engines of a variant. -/
def activeCount : Variant → Nat
  | .sv6118 => 6 | .sv6116 => 6 | .sv6114 => 4 | .sv6112 => 3

/-- Whether a variant carries engine n (E6 is on every variant). -/
def hasEngine (v : Variant) (n : Nat) : Bool := decide (n < activeCount v) || n == 6

/-- Whether engine n of a variant carries an attention pipeline. -/
def hasAttn (v : Variant) (n : Nat) : Bool := hasEngine v n && v != .sv6114

/-- Whether a variant carries Causeway port p. -/
def hasPort (v : Variant) (p : Nat) : Bool :=
  match v with
  | .sv6118 => decide (p < 8)
  | .sv6116 => decide (p < 2)
  | .sv6114 => decide (p < 2)
  | .sv6112 => false

/-- Whether a variant carries any Causeway port. -/
def hasFabric (v : Variant) : Bool := v != .sv6112

/-- Audio ports and memory channels of a variant. -/
def apCount : Variant → Nat
  | .sv6112 => 1 | _ => 2
def mcCount : Variant → Nat
  | .sv6118 => 4 | .sv6116 => 4 | _ => 2

/-- Steward Ethernet. -/
def hasEth : Variant → Bool
  | .sv6118 => true | .sv6116 => true | _ => false

/-- The variant's digit in PART and DEVICE. -/
def partCode : Variant → Nat
  | .sv6118 => 8 | .sv6116 => 6 | .sv6114 => 4 | .sv6112 => 2

/-- Pipelines on active engines. -/
def attnCount (v : Variant) : Nat := if v == .sv6114 then 0 else activeCount v

/-- CAP_SUMMARY (Table 9-4), from the fuses (R17, R522). -/
def capSummary (f : Fuses) : Nat :=
  if !f.ok then 2 ^ 63
  else
    let v := f.variant
    activeCount v + 8 + attnCount v * 16 + b2n (hasAttn v 6) * 128
    + total ((List.range 8).map fun p => b2n (hasPort v p) <<< (8 + p))
    + (2 ^ apCount v - 1) <<< 16 + (2 ^ mcCount v - 1) <<< 20 + b2n (hasEth v) <<< 24 + partCode v <<< 28 + 96 <<< 32

/-- DEV_ID (Table 9-3). -/
def devId (f : Fuses) : Nat := 0x1E9B + (0x6110 + partCode f.variant) <<< 16

/-- DEV_REV (Table 9-3): the firmware version reads 0 outside READY. -/
def devRev (s : State) : Nat :=
  s.fuses.silicon.toNat + s.fuses.rom.toNat * 256
  + (if s.fw.state == .ready then (s.fw.version.toNat % 65536) <<< 16 else 0)

/-- Coding of the time state (Table 9-5). -/
def timeCode : TimeState → Nat
  | .unaligned => 0 | .standalone => 1 | .aligned => 2 | .holdover => 3 | .refLost => 4

/-- Coding of FW_STATE.STATE. -/
def fwCode : FwState → Nat
  | .bootstrap => 0 | .loading => 1 | .ready => 2 | .halted => 3

/-- FW_STATE (Table 9-5). -/
def fwStateReg (s : State) : Nat :=
  fwCode s.fw.state + s.fw.image % 4 * 16 + s.fw.fault % 256 * 256 + timeCode s.time.state <<< 16

/-- Whether the firmware runs. -/
def ready (s : State) : Bool := s.fw.state == .ready

/-- The firmware quiesces for a descent: it has stopped fetching commands (Table 11-8 step 1). -/
def quiescing (s : State) : Bool := match s.seq.step with | some st => !st.up && st.n == 1 | none => false

/-! ## Engines -/

/-- Whether engine n is present on this die and in service for work. -/
def inService (s : State) (e : EngineId) : Bool :=
  hasEngine s.fuses.variant e.1 && ((s.engines.get e).life == .inService || (s.engines.get e).life == .laybyEngaged)

/-- Engines of this die in service, ascending. -/
def servingEngines (s : State) : List EngineId := (fins 7).filter (inService s)

/-- Change one engine. -/
def modEngine (s : State) (e : EngineId) (f : Engine → Engine) : State := { s with engines := vmod s.engines e f }

/-- Change every engine. -/
def modEngines (s : State) (f : Engine → Engine) : State := { s with engines := vmap f s.engines }

/-! ## Memory bytes -/

/-- What an unlisted byte of T0, T1 or T2 reads as (log entry 3). -/
def emptyByte : Byte := 0

/-- The byte at an address. -/
def readByte : List Host.Cell → Nat → Byte
  | [], _ => emptyByte
  | (a, b) :: r, x => if a == x then b else if x < a then emptyByte else readByte r x

/-- Write a byte, keeping the canonical form. -/
def writeByte : List Host.Cell → Nat → Byte → List Host.Cell
  | [], x, v => if v == emptyByte then [] else [(x, v)]
  | (a, b) :: r, x, v =>
    if a < x then (a, b) :: writeByte r x v
    else if a == x then (if v == emptyByte then r else (x, v) :: r)
    else if v == emptyByte then (a, b) :: r else (x, v) :: (a, b) :: r

/-- Write bytes at ascending addresses. -/
def writeBytes (m : List Host.Cell) (a : Nat) : List Byte → List Host.Cell
  | [] => m
  | b :: r => writeBytes (writeByte m a b) (a + 1) r

/-- Read `n` bytes. -/
def readBytes (m : List Host.Cell) (a n : Nat) : List Byte := (List.range n).map fun i => readByte m (a + i)

/-- Drop every byte an address test selects (contents lost; they read as unlisted). -/
def clearBytes (m : List Host.Cell) (lost : Nat → Bool) : List Host.Cell := m.filter fun c => !lost c.1

/-- The canonical form: addresses strictly rising, no byte equal to an unlisted one. -/
def cellsOk : List Host.Cell → Bool
  | [] => true
  | [(_, b)] => b != emptyByte
  | (a, b) :: (a', b') :: r => decide (a < a') && b != emptyByte && cellsOk ((a', b') :: r)

/-- The memory's canonical form. -/
abbrev Mem.wf (m : Mem) : Prop := cellsOk m.cells = true

/-! ## Addresses (Table 5-2) -/

/-- What a local address lies in. -/
inductive Place where
  | t0 (n : Nat) | t1 | t2 (n : Nat) | t4 | reserved
  deriving DecidableEq, Repr

/-- Bases of Table 5-2. -/
def t0Base : Nat := 0x000010000000
def t2Base : Nat := 0x001000000000
def t4Base : Nat := 0x800000000000
def t1Size : Nat := 0x6000000
/-- Base of T2 window n. -/
def t2BaseOf (n : Nat) : Nat := t2Base + n * 0x000400000000

/-- The window of a local address (Table 5-2). -/
def window (a : Nat) : Place :=
  if a < t1Size then .t1
  else if t4Base ≤ a ∧ a < 2 ^ 48 then .t4
  else if t2Base ≤ a ∧ a < t2Base + 4 * 0x000400000000 then .t2 ((a - t2Base) / 0x000400000000)
  else if t0Base ≤ a ∧ a < t0Base + 7 * 0x800000 ∧ (a - t0Base) % 0x800000 < 0x600000 then .t0 ((a - t0Base) / 0x800000)
  else .reserved

/-- Fitted capacity of channel n, in bytes (R265). -/
def fittedBytes (s : State) (n : Nat) : Nat :=
  if h : n < 4 then (s.mem.channels.get ⟨n, h⟩).gib * 2 ^ 30 else 0

/-- A range of local addresses lies in one window, within fitted capacity, and for T4 in one mapped region (R265). -/
def rangeOk (s : State) (a len : Nat) : Bool :=
  match window a with
  | .t1 => decide (a + len ≤ t1Size)
  | .t0 n => decide (a + len ≤ t0Base + n * 0x800000 + 0x600000)
  | .t2 n => decide (a + len ≤ t2BaseOf n + fittedBytes s n)
  | .t4 => s.mem.regions.any fun r => r.tier == 4 && decide (r.base ≤ a) && decide (a + len ≤ r.base + r.bytes)
  | .reserved => false

/-- A range names the window of an absent engine or channel (R266). -/
def rangeAbsent (s : State) (a : Nat) : Bool :=
  match window a with
  | .t0 n => !hasEngine s.fuses.variant n
  | .t2 n => decide (mcCount s.fuses.variant ≤ n)
  | _ => false

/-- Fabric IDs this die knows as live: its own and, where it has fabric, the shape's positions not lost (R267, R347). -/
def knownId (s : State) (id : FabId) : Bool :=
  id == s.fabric.id ||
  ((fins 8).any (fun p => (s.fabric.ports.get p).st == .active) && !s.fabric.lost.contains id
   && (fins 4).all fun d => decide (bits id.toNat (12 - 4 * d.1) 4 < s.fabric.sizes.get d))

/-- Fabric ID and local part of a global address. -/
def gid (a : Nat) : FabId := BitVec.ofNat 16 (a >>> 48)
def glocal (a : Nat) : Nat := a % 2 ^ 48
def gaddr (s : State) (a : Nat) : Nat := s.fabric.id.toNat <<< 48 + a

/-! ## Reservations (05) -/

/-- Granules of 64 KiB that hold n bytes (R284). -/
def granules (n : Nat) : Nat := cdiv n 65536

/-- Granules of a tier this die may allocate (R290, R593, R843; Table 5-3's areas are kept out). For T2, of channels in
service. -/
def allocatable (s : State) (tier : Nat) : Nat :=
  match tier with
  | 0 => 96 * activeCount s.fuses.variant
  | 1 => 90 * 16
  | 2 => total ((fins 4).map fun n =>
      if (s.mem.channels.get n).st == .inService then
        (s.mem.channels.get n).gib * 16384 - (if s.mem.fwArea == some n then 2048 else 0) else 0)
  | 3 => 0xFFFFFFFF
  | _ => 0

/-- Granules of one T2 channel. -/
def chanAllocatable (s : State) (n : McId) : Nat :=
  if (s.mem.channels.get n).st == .inService then
    (s.mem.channels.get n).gib * 16384 - (if s.mem.fwArea == some n then 2048 else 0) else 0

/-- Granules reserved on a tier; on one channel of T2. -/
def reservedOn (s : State) (tier : Nat) : Nat := total ((s.mem.reserved.filter (·.tier == tier)).map (·.granules))
def reservedChan (s : State) (n : Nat) : Nat :=
  total ((s.mem.reserved.filter fun r => r.tier == 2 && r.chan == n).map (·.granules))

/-- Granules lent from a tier. -/
def lentOn (s : State) (tier : Nat) : Nat := total ((s.mem.lent.filter (·.tier == tier)).map (·.granules))

/-- Granules lent from one T2 channel. -/
def lentChan (s : State) (n : Nat) : Nat :=
  total ((s.mem.lent.filter fun l => l.tier == 2 && window l.base == .t2 n).map (·.granules))

/-- Free granules of a tier that no reservation and no loan covers. -/
def freeOn (s : State) (tier : Nat) : Nat := allocatable s tier - reservedOn s tier - lentOn s tier
def freeChan (s : State) (n : McId) : Nat := chanAllocatable s n - reservedChan s n.1 - lentChan s n.1

/-- Granules a tenant holds reserved on a tier (R291 counts loans as T3). -/
def heldBy (s : State) (tenant tier : Nat) : Nat :=
  total ((s.mem.reserved.filter fun r => r.tenant == tenant && r.tier == tier).map (·.granules))

/-- A tenant's quota on a tier (R290): what was set, else the tier's size as its channels were trained, less the firmware area. -/
def quotaOf (s : State) (tenant tier : Nat) : Nat :=
  (assoc (tenant, tier) s.mem.quotas).getD (if tier == 2 then s.mem.t2Size - 2048 else allocatable s tier)

/-- Whether a request would take a tenant beyond its quota (R292). -/
def overQuota (s : State) (tenant tier n : Nat) : Bool := decide (quotaOf s tenant tier < heldBy s tenant tier + n)

/-- Lowest-numbered channel in service with room (R287). -/
def chanWithRoom (s : State) (n : Nat) : Option McId := (fins 4).find? fun c => decide (0 < chanAllocatable s c) && decide (n ≤ freeChan s c)

/-- Return the reservations of an owner (R288). -/
def releaseOwner (s : State) (o : Owner) : State :=
  { s with mem := { s.mem with reserved := s.mem.reserved.filter fun r => r.owner != o } }

/-- Granules an owner holds. -/
def ownerGranules (s : State) (o : Owner) : Nat := total ((s.mem.reserved.filter (·.owner == o)).map (·.granules))

/-- Add a reservation. -/
def reserve (s : State) (o : Owner) (tenant tier chan n : Nat) (base : Option Nat) : State :=
  { s with mem := { s.mem with reserved := s.mem.reserved ++ [⟨o, tenant, tier, chan, n, base⟩] } }

/-- Address ranges of a tier that are taken: placed reservations, loans, and the firmware area. -/
def takenRanges (s : State) : List (Nat × Nat) :=
  s.mem.reserved.filterMap (fun r => r.base.map fun b => (b, b + r.granules * 65536))
  ++ s.mem.lent.map (fun l => (l.base, l.base + l.granules * 65536))
  ++ (match s.mem.fwArea with | some _ => [(s.mem.fwBase, s.mem.fwBase + 2048 * 65536)] | none => [])

/-- Lowest base at or after `lo` where `len` bytes below `hi` meet no taken range; each taken range moves the base at most
once. -/
def lowestFree (taken : List (Nat × Nat)) (hi len : Nat) : Nat → Nat → Option Nat
  | 0, lo => if lo + len ≤ hi && taken.all (fun t => decide (t.2 ≤ lo) || decide (lo + len ≤ t.1)) then some lo else none
  | k + 1, lo =>
    match taken.find? fun t => decide (lo < t.2) && decide (t.1 < lo + len) with
    | some t => lowestFree taken hi len k t.2
    | none => if lo + len ≤ hi then some lo else none

/-- A place for n granules on T1, or on a T2 channel: the lowest free addresses (log entry 11). -/
def placeOn (s : State) (tier : Nat) (chan : McId) (n : Nat) : Option Nat :=
  let t := takenRanges s
  if tier == 1 then lowestFree t (t1Size - 6 * 2 ^ 20) (n * 65536) (t.length + 1) 0
  else lowestFree t (t2BaseOf chan.1 + fittedBytes s chan.1) (n * 65536) (t.length + 1) (t2BaseOf chan.1)

/-! ## Completions and events (09, 10) -/

/-- The command's opcode, flags and tag (Table 9-9). -/
def mailOpcode (m : MailCmd) : Nat := fld m.entry 0 1
def mailFlags (m : MailCmd) : Nat := fld m.entry 1 1
def mailTag (m : MailCmd) : Nat := fld m.entry 2 2
/-- The tenant of a command is its channel's (R533). -/
def mailTenant (s : State) (m : MailCmd) : Nat := if m.ch == 0 then 0 else (s.host.channels.get m.ch).tenant
/-- NO_IRQ. -/
def mailNoIrq (m : MailCmd) : Bool := bit (mailFlags m) 1

/-- The same command of a channel, whatever the firmware meets while executing it. -/
def sameCmd (m x : MailCmd) : Bool := x.ch == m.ch && x.entry == m.entry

/-- A completion entry (Table 9-10); `result` has its fields placed at their offsets in the entry. -/
def cmpEntry (tag status opcode flags result : Nat) : BitVec 512 :=
  BitVec.ofNat 512 (put 0 2 tag + put 2 1 status + put 3 1 opcode + put 4 1 flags + ((result >>> 64) % 2 ^ 192) <<< 64)

/-- Post a completion of a command: it leaves the accepted and running lists and waits to be written. -/
def completeCode (s : State) (m : MailCmd) (code result : Nat) : State :=
  { s with host := { s.host with
      accepted := dropFirst (sameCmd m) s.host.accepted
      running := dropFirst (sameCmd m) s.host.running
      outbox := s.host.outbox ++ [⟨m.ch.castSucc, cmpEntry (mailTag m) code (mailOpcode m) 0 result, !mailNoIrq m⟩] } }

/-- The same, with a status of Table 10-1. -/
def complete (s : State) (m : MailCmd) (st : Status) (result : Nat) : State := completeCode s m st.code result

/-- A command executed whose completion comes later. -/
def hold (s : State) (m : MailCmd) : State :=
  { s with host := { s.host with accepted := dropFirst (sameCmd m) s.host.accepted, running := s.host.running ++ [m] } }

/-- An unsolicited frame completion (R541). -/
def completeUnsolicited (s : State) (ch : ChanId) (handle : Nat) (st : Status) (result : Nat) : State :=
  { s with host := { s.host with outbox := s.host.outbox ++ [⟨ch.castSucc, cmpEntry handle st.code 0x24 2 result, true⟩] } }

/-- Post an event (Table 9-11) with the stamp of the die that raised it (R641); payload fields are placed at their offsets. -/
def postEventAt (s : State) (code : Nat) (stamp : Nat) (payload : Nat) : State :=
  { s with host := { s.host with
      evtSeq := s.host.evtSeq + 1
      outbox := s.host.outbox ++ [⟨16, BitVec.ofNat 512 (put 0 1 code + put 4 4 s.host.evtSeq.toNat + put 8 8 stamp
        + ((payload >>> 128) % 2 ^ 384) <<< 128), false⟩] } }

/-- Post an event of this die. -/
def postEvent (s : State) (code payload : Nat) : State := postEventAt s code (now s) payload

/-! ## Logs and the fault record (10, 14) -/

/-- Write a die log record (Table 10-16). -/
def logDie (s : State) (code unit sev : Nat) (data : Nat) : State :=
  { s with fw := { s.fw with
      dieLog := s.fw.dieLog ++ [⟨s.fw.logSeq, now s, BitVec.ofNat 16 code, BitVec.ofNat 8 unit, BitVec.ofNat 8 sev, BitVec.ofNat 128 data⟩]
      logSeq := s.fw.logSeq + 1 } }

/-- Write a steward log record. -/
def logIsland (s : State) (code unit sev : Nat) (data : Nat) : State :=
  { s with island := { s.island with
      log := s.island.log ++ [⟨s.island.logSeq, now s, BitVec.ofNat 16 code, BitVec.ofNat 8 unit, BitVec.ofNat 8 sev, BitVec.ofNat 128 data⟩]
      logSeq := s.island.logSeq + 1 } }

/-- Write a history record of the fault record: at most 1,024 less the standing entries, the oldest overwritten first (R888). -/
def faultHistory (s : State) (code unit : Nat) (data : Nat) : State :=
  let r : LogRec := ⟨s.island.faultSeq, now s, BitVec.ofNat 16 code, BitVec.ofNat 8 unit, 2, BitVec.ofNat 128 data⟩
  let h := s.island.history ++ [r]
  { s with island := { s.island with faultSeq := s.island.faultSeq + 1, history := h.drop (h.length - (1024 - s.island.standing.length)) } }

/-- Write a standing entry; a full record gives up its oldest history record for it; when the 256 are full, record 0x070C goes to the
history (R888, R889). -/
def faultStanding (s : State) (code unit : Nat) (data : Nat) : State :=
  if s.island.standing.length < 256 then
    let r : LogRec := ⟨s.island.faultSeq, now s, BitVec.ofNat 16 code, BitVec.ofNat 8 unit, 2, BitVec.ofNat 128 data⟩
    let h := s.island.history
    { s with island := { s.island with
        faultSeq := s.island.faultSeq + 1, standing := s.island.standing ++ [r], history := h.drop (h.length - (1023 - s.island.standing.length)) } }
  else faultHistory s 0x070C unit code

/-- Hold a notice in the island: at most 64 while the die is not in S6, the oldest kept (R792), and STEWARD_NOTICE posted
while the firmware is READY (R791). DATA fields are placed at their offsets (20 to 63). -/
def notify (s : State) (code slot : Nat) (data : Nat) : State :=
  let n : Notice := ⟨BitVec.ofNat 8 code, BitVec.ofNat 8 slot, BitVec.ofNat 352 (data >>> 160), false, ready s⟩
  let s1 :=
    if s.seq.state != .s6 && decide (64 ≤ (s.island.notices.filter fun n => !n.posted).length) then
      logIsland { s with island := { s.island with noticesLost := s.island.noticesLost + 1 } } 0x0509 0 1 (put 0 1 code + put 4 4 (s.island.noticesLost + 1))
    else { s with island := { s.island with notices := s.island.notices ++ [n] } }
  if ready s then postEvent s1 0x60 (put 16 1 code + put 17 1 slot + data) else s1

/-- The slot byte of a notice: the tray slot, 0xFF outside a tray. -/
def slotByte (s : State) : Nat := if s.island.trayEn then s.island.slot.1 else 0xFF

/-! ## Messages -/

/-- IDs of the neighbours on ACTIVE ports. -/
def neighbours (s : State) : List FabId :=
  ((fins 8).filter fun p => (s.fabric.ports.get p).st == .active).map fun p => (s.fabric.ports.get p).peer

/-- Send a tray message; its sequence number moves on (R764). -/
def sendTray (s : State) (dest : Option SlotId) (k : TrayMsg) : State :=
  { s with out := s.out ++ [.tray dest s.island.txSeq k], island := { s.island with txSeq := s.island.txSeq + 1 } }

/-- Change one Causeway port. -/
def modPort (s : State) (p : PortId) (f : Port → Port) : State :=
  { s with fabric := { s.fabric with ports := vmod s.fabric.ports p f } }

/-- Change one channel. -/
def modChan (s : State) (ch : ChanId) (f : Chan → Chan) : State :=
  { s with host := { s.host with channels := vmod s.host.channels ch f } }

/-! ## Streams and itineraries -/

/-- The stream of a handle. -/
def streamOf (s : State) (h : Nat) : Option Stream := s.streams.find? (·.handle == h)

/-- Change the stream of a handle. -/
def modStream (s : State) (h : Nat) (f : Stream → Stream) : State :=
  { s with streams := s.streams.map fun t => if t.handle == h then f t else t }

/-- Add energy to a stream: at its home die to its total, elsewhere to what is still to be sent (R756, R758). -/
def chargeStream (s : State) (h pj : Nat) : State :=
  modStream s h fun st => if st.home == s.fabric.id then { st with energyPj := st.energyPj + pj } else { st with chargePj := st.chargePj + pj }

/-- Charge a stream for `n` bytes moved for it from one tier into another (R756). -/
def chargeMove (s : State) (h src dst n : Nat) : State := chargeStream s h (n * (Config.movePjPerByte src + Config.movePjPerByte dst))

/-- The itinerary of a handle. -/
def itinOf (s : State) (h : Nat) : Option Itin := s.itins.find? (·.handle == h)

/-- The region of a handle. -/
def regionOf (s : State) (h : Nat) : Option Region := s.mem.regions.find? (·.handle == h)

/-- The next handle from `n`, wrapping from 0xFFFF to 1, that no live object has (R581). -/
def nextHandle (live : List Nat) : Nat → Nat → Nat
  | 0, n => n
  | k + 1, n => if live.contains n then nextHandle live k (if n ≥ 0xFFFF then 1 else n + 1) else n

/-- The handle after one. -/
def afterHandle (n : Nat) : Nat := if n ≥ 0xFFFF then 1 else n + 1

end Sys2Proof.Machine
end

