-- ==== Sys2Proof/Machine/Route.lean ====
section
/-! DEFINITION. Routing on the Causeway fabric (06): positions, the ring and relay tables a die computes, the way of a packet, and
the packets a die sends. A link is named by the die at its + end and the die at its − end, in that order, so that the two links
of a ring of two dies differ. -/

namespace Sys2Proof.Machine

/-! ## Positions (R342 to R346) -/

/-- Coordinate of a fabric ID in a dimension, 0 to 3 for W to Z. -/
def coordOf (id : FabId) (d : Nat) : Nat := bits id.toNat (12 - 4 * d) 4

/-- A fabric ID with one coordinate replaced. -/
def withCoord (id : FabId) (d c : Nat) : FabId :=
  BitVec.ofNat 16 (id.toNat - coordOf id d * 2 ^ (12 - 4 * d) + c * 2 ^ (12 - 4 * d))

/-- Size of a dimension, and whether it wraps. -/
def ringSize (f : Fabric) (d : Nat) : Nat := nth f.sizes.toList d 1
def ringWraps (f : Fabric) (d : Nat) : Bool := nth f.wraps.toList d false

/-- The coordinate one link further in a direction. -/
def nextCoord (f : Fabric) (d : Nat) (plus : Bool) (c : Nat) : Option Nat :=
  let n := ringSize f d
  if plus then (if c + 1 < n then some (c + 1) else if ringWraps f d && decide (1 < n) then some 0 else none)
  else (if 0 < c then some (c - 1) else if ringWraps f d && decide (1 < n) then some (n - 1) else none)

/-- Every position of the shape. -/
def allDies (f : Fabric) : List FabId :=
  (List.range (ringSize f 0)).flatMap fun w => (List.range (ringSize f 1)).flatMap fun x =>
    (List.range (ringSize f 2)).flatMap fun y => (List.range (ringSize f 3)).map fun z =>
      BitVec.ofNat 16 (w * 4096 + x * 256 + y * 16 + z)

/-! ## Ring tables (R362, R365) -/

/-- No down link and no lost die on the way from coordinate `x` to `c`, `c` itself excluded from the test of dies. -/
def pathOk (f : Fabric) (id : FabId) (d : Nat) (plus : Bool) (c : Nat) : Nat → Nat → Bool
  | 0, _ => false
  | k + 1, x =>
    if x == c then true
    else match nextCoord f d plus x with
      | none => false
      | some y =>
        let a := withCoord id d x
        let b := withCoord id d y
        !f.downLinks.contains (if plus then (a, b) else (b, a)) && (y == c || !f.lost.contains b) && pathOk f id d plus c k y

/-- The shorter way is +; equal ways count as + (R362). -/
def shorterPlus (f : Fabric) (d a c : Nat) : Bool :=
  let n := ringSize f d
  if ringWraps f d then decide ((c + n - a) % n ≤ (a + n - c) % n) else decide (a < c)

/-- Ring-table entry of the die `id` for coordinate `c` of its ring in dimension `d` (R365). -/
def ringEntry (f : Fabric) (id : FabId) (d c : Nat) : Dir :=
  let a := coordOf id d
  if c == a then .shorter
  else if f.lost.contains (withCoord id d c) then .unreachable
  else
    let p := pathOk f id d true c 17 a
    let m := pathOk f id d false c 17 a
    if p && m then .shorter else if p then .plus else if m then .minus else .unreachable

/-- The direction an entry gives. -/
def dirOf (f : Fabric) (d a c : Nat) : Dir → Option Bool
  | .shorter => some (shorterPlus f d a c)
  | .plus => some true
  | .minus => some false
  | .unreachable => none

/-- Links from coordinate `a` to `c` in a direction. -/
def linksTo (f : Fabric) (d a c : Nat) (plus : Bool) : Nat :=
  let n := ringSize f d
  if plus then (if a ≤ c then c - a else c + n - a) else (if c ≤ a then a - c else a + n - c)

/-- Hops of the dimension-order route from `cur` to `dest`, by the ring tables that the dies on it compute from this view, from
dimension `d` on; none where an entry is unreachable (R366). -/
def hopsFrom (f : Fabric) (dest : FabId) : List Nat → FabId → Option Nat
  | [], _ => some 0
  | d :: ds, cur =>
    let a := coordOf cur d
    let c := coordOf dest d
    if a == c then hopsFrom f dest ds cur
    else match dirOf f d a c (ringEntry f cur d c) with
      | none => none
      | some p => (hopsFrom f dest ds (withCoord cur d c)).map (· + linksTo f d a c p)

/-- Hops of the dimension-order route. -/
def hops (f : Fabric) (a b : FabId) : Option Nat := hopsFrom f b [0, 1, 2, 3] a

/-- The via die of a destination: fewest total hops, then lowest fabric ID, leaving out dies that refuse credits (R366, R369). -/
def viaOf (f : Fabric) (dest : FabId) : Option FabId :=
  ((allDies f).foldl (fun (best : Option (Nat × FabId)) v =>
    if v == f.id || v == dest || f.lost.contains v || f.relayRefused.contains v then best
    else match hops f f.id v, hops f v dest with
      | some x, some y => (match best with | some b => if x + y < b.1 then some (x + y, v) else some b | none => some (x + y, v))
      | _, _ => best) none).map (·.2)

/-- The ring table of this die with its pins (R365, R371). -/
def ringTable (f : Fabric) : List (List Dir) :=
  (List.range 4).map fun d => (List.range 16).map fun c =>
    match f.pins.find? fun p => (match p with | .ring d' c' _ => d' == d && c' == c | _ => false) with
    | some (.ring _ _ x) => x
    | _ => ringEntry f f.id d c

/-- The relay table: pins, then a via die for each live destination that dimension order does not reach, at most 256 entries. -/
def relayTable (f : Fabric) : List (FabId × FabId) :=
  let pinned := f.pins.filterMap fun p => match p with | .relay d v => some (d, v) | _ => none
  let need := (allDies f).filter fun d => d != f.id && !f.lost.contains d && (hops f f.id d).isNone && !(pinned.any (·.1 == d))
  (pinned ++ need.filterMap fun d => (viaOf f d).map fun v => (d, v)).take 256

/-! ## Reaching a die (R366, R370) -/

/-- The entry in force for a coordinate of this die's own rings; before a set is installed, the shorter way. -/
def dirInForce (f : Fabric) (d c : Nat) : Dir := nth (nth f.ring d []) c .shorter

/-- A fabric ID can be reached: itself, by the relay table, or by dimension order. -/
def reachable (s : State) (id : FabId) : Bool :=
  let f := s.fabric
  id == f.id ||
  (!f.lost.contains id && f.isolatedAt.isNone && (neighbours s).length != 0 &&
    ((f.relay.any fun r => r.1 == id && !f.relayRefused.contains r.2) || (hops f f.id id).isSome))

/-! ## The way of a packet (R361 to R364) -/

/-- Virtual channel of a packet operation (Table 6-7). -/
def vcOf (op : Byte) : Fin 4 := if op == 1 then 3 else if op == 2 || op == 4 then 1 else if op == 3 then 2 else 0

/-- Body flits of a packet: those its header's LEN gives, none for a READ, a MOVE_ACK, and VC0's single-flit operations. A READ's
LEN is the number of 64-byte units it asks for. -/
def bodyFlits (k : Packet) : Nat := if k.op == 2 || k.op == 3 || k.op == 0x10 then k.len else 0

/-- Flits of a packet. -/
def flitCount (k : Packet) : Nat := 1 + bodyFlits k

/-- Port of a dimension and direction. -/
def portOf (d : Nat) (plus : Bool) : PortId := ⟨(2 * d + b2n (!plus)) % 8, Nat.mod_lt _ (by decide)⟩

/-- Dimension of a port. -/
def portDim (p : PortId) : Nat := p.1 / 2

/-- Where a packet goes from this die: the port, the packet with its RDIR, and its class on that link. `came` is the dimension it
came in on and its class; a packet that enters a ring takes its direction from this die's table and class 0. -/
def wayOf (s : State) (k : Packet) (came : Option (Nat × Fin 2)) : Option (PortId × Packet × Fin 2) :=
  let f := s.fabric
  let target := if k.rly then k.via else k.dest
  match [0, 1, 2, 3].find? fun d => coordOf target d != coordOf f.id d with
  | none => none
  | some d =>
    let a := coordOf f.id d
    let c := coordOf target d
    let inRing := match came with | some (x, _) => x == d | none => false
    let dir : Option Bool :=
      if inRing && ringWraps f d then (if k.rdir == 0 then some true else if k.rdir == 1 then some false else none)
      else if inRing then some (decide (a < c))
      else dirOf f d a c (dirInForce f d c)
    match dir with
    | none => none
    | some plus =>
      let cls : Fin 2 := if inRing then (match came with | some (_, x) => x | none => 0) else 0
      let dateline := ringWraps f d && (if plus then a + 1 == ringSize f d else a == 0)
      some (portOf d plus, { k with rdir := if ringWraps f d then b2n (!plus) else 2 }, if dateline then 1 else cls)

/-- Place a packet in a port's output queue; where the link is DOWN or ISOLATED, or will never carry it, it is discarded and
counted (R374). -/
def enqueue (s : State) (p : PortId) (vc : Fin 4) (cls : Fin 2) (k : Packet) : State :=
  let q := s.fabric.ports.get p
  if q.st == .active || q.st == .retraining then modPort s p fun q => { q with tx := q.tx ++ [⟨vc, cls, k, 0⟩] }
  else modPort s p fun q => { q with discards := q.discards + 1 }

/-- Send a packet on its way. -/
def forward (s : State) (k : Packet) (came : Option (Nat × Fin 2)) : State :=
  match wayOf s k came with
  | some (p, k', cls) => enqueue s p (vcOf k.op) cls k'
  | none => s

/-- Relay credits held from a via die. -/
def creditsOf (f : Fabric) (via : FabId) : Nat := (f.relayHeld.lookup via).getD 0

/-- A packet may leave for a via die: the last credit is for VC0 alone (R368). -/
def mayRelay (f : Fabric) (via : FabId) (k : Packet) : Bool := decide ((if vcOf k.op == 0 then 1 else 2) ≤ creditsOf f via)

/-- Send a packet of this die: by its relay entry on the first leg to the via die while it holds a credit, else by dimension order
(R367, R368). -/
def sendPacket (s : State) (k : Packet) : State :=
  match s.fabric.relay.lookup k.dest with
  | some via =>
    if mayRelay s.fabric via k then
      forward { s with fabric := { s.fabric with relayHeld := assocSet via (creditsOf s.fabric via - 1) s.fabric.relayHeld } }
        { k with rly := true, via := via } none
    else { s with fabric := { s.fabric with relayWait := s.fabric.relayWait ++ [{ k with rly := true, via := via }] } }
  | none => forward s k none

/-- Send the packets that waited for a credit of a via die. -/
def sendWaitingFor (s : State) (via : FabId) : State :=
  s.fabric.relayWait.foldl (fun t k =>
    if k.via == via && mayRelay t.fabric via k then
      forward { t with fabric := { t.fabric with
        relayHeld := assocSet via (creditsOf t.fabric via - 1) t.fabric.relayHeld, relayWait := t.fabric.relayWait.erase k } } k none
    else t) s

/-- A packet of this die to another. -/
def packet (s : State) (dest : FabId) (op len : Nat) (tag : BitVec 16) (addr : Nat) (status : Nat) (body : List (BitVec 512)) : Packet :=
  { dest := dest, src := s.fabric.id, op := BitVec.ofNat 8 op, len := len, rly := false, rdir := 2, tag := tag, addr := BitVec.ofNat 64 addr
    via := 0, status := BitVec.ofNat 16 status, stamp := BitVec.ofNat 64 (now s), inl := 0, body := body }

/-! ## Management packets (Table 6-7, R329, R359, R360, R390) -/

/-- The operation a management message travels under. -/
def mgmtOp : Mgmt → Nat
  | .timeRequest _ | .timeReply _ _ _ => 0x11
  | .roleRequest => 0x12
  | .roleAccept _ => 0x13
  | .relayCredit => 0x14
  | _ => 0x10

/-- The VC0 packet of a management message, and the state after it has taken its free values: the spec gives INLINE and the body no
layout, so that their bits are free values, as is whether an MGMT packet has its one body flit (log entry 151). -/
def mgmtPacket (s : State) (dest : FabId) (k : Mgmt) : Packet × State :=
  let a := takeFree s
  let b := takeFree a.2
  let c := takeFree b.2
  let len := if mgmtOp k == 0x10 then b.1 % 2 else 0
  let body := if len == 1 then [BitVec.ofNat 512 c.1] else []
  ({ packet s dest (mgmtOp k) len 0 0 0 body with inl := BitVec.ofNat 256 a.1 }, c.2)

/-- A packet for the neighbour on a port, without the route tables (R390). -/
def linkPacket (s : State) (p : PortId) (k : Packet) : State :=
  let f := s.fabric
  let d := portDim p
  let a := coordOf f.id d
  let plus := p.1 % 2 == 0
  let dateline := ringWraps f d && (if plus then a + 1 == ringSize f d else a == 0)
  enqueue s p (vcOf k.op) (if dateline then 1 else 0) { k with rdir := if ringWraps f d then b2n (!plus) else 2 }

/-- Send a management message: its packet joins an output queue on the way to its destination. -/
def sendMgmt (s : State) (dest : FabId) (k : Mgmt) : State :=
  let m := mgmtPacket s dest k
  { s with fabric := (sendPacket m.2 m.1).fabric, free := m.2.free, out := s.out ++ [.mgmt dest k] }

/-- Send a management message to the neighbour on a port. -/
def sendLink (s : State) (p : PortId) (k : Mgmt) : State :=
  let d := (s.fabric.ports.get p).peer
  let m := mgmtPacket s d k
  { s with fabric := (linkPacket m.2 p m.1).fabric, free := m.2.free, out := s.out ++ [.mgmt d k] }

/-- The ACTIVE ports. -/
def activePorts (s : State) : List PortId := (fins 8).filter fun p => (s.fabric.ports.get p).st == .active

/-- Send a management message to every neighbour (R390). -/
def sendNeighbours (s : State) (k : Mgmt) : State := (activePorts s).foldl (fun t p => sendLink t p k) s

/-- VC0 packets of this die that a die has not answered (R360): loan requests, requests for relay credits, a request for the leader's
role, a time exchange. -/
def unanswered (s : State) (d : FabId) : Nat :=
  (s.mem.waiting.filter (·.ask == some d)).length
  + (s.fabric.relayAsked.filter (· == d)).length
  + ((activePorts s).filter fun p => (s.fabric.ports.get p).peer == d && (s.fabric.ports.get p).roleReq.isSome).length
  + b2n (s.time.exchOut.isSome && (match s.time.leader with | some p => (s.fabric.ports.get p).peer == d | none => false))

/-- One more VC0 packet that wants an answer may be sent to a die (R360). -/
def mayAsk (s : State) (d : FabId) : Bool := decide (unanswered s d < 8)

/-! ## Reads and moves of other dies' memory (R348 to R350) -/

/-- Bytes as body flits. -/
def flitsOf (l : List Byte) : List (BitVec 512) :=
  (List.range (cdiv l.length 64)).map fun i => BitVec.ofNat 512 (leNat (slice l (64 * i) 64))

/-- A request of this die to another, one packet of at most 1,024 bytes at a time under one tag. -/
def askPackets (s : State) (dest : FabId) (op : Nat) (tag : BitVec 16) (addr len : Nat) (data : List Byte) : State :=
  (List.range (cdiv len 1024)).foldl (fun t i =>
    let n := min 1024 (len - 1024 * i)
    let body := if op == 3 then flitsOf (slice data (1024 * i) n) else []
    sendPacket t (packet t dest op (cdiv n 64) tag (addr + 1024 * i) 0 body)) s

/-- Read a range of another die for a move: the tag is outstanding until every response has come. -/
def readRemote (s : State) (move addr len : Nat) : State :=
  let tag := s.fabric.tagNext
  let o : Outstanding := ⟨tag, true, gid addr, some move, now s, true, 0, cdiv len 1024⟩
  askPackets { s with fabric := { s.fabric with tagNext := tag + 1, outstanding := s.fabric.outstanding ++ [o] } } (gid addr) 1 tag addr len []

/-- Write a range of another die for a move (R350). -/
def moveRemote (s : State) (move : Option Nat) (addr len : Nat) (data : List Byte) : State :=
  let tag := s.fabric.tagNext
  let o : Outstanding := ⟨tag, false, gid addr, move, now s, false, 0, cdiv len 1024⟩
  askPackets { s with fabric := { s.fabric with tagNext := tag + 1, outstanding := s.fabric.outstanding ++ [o] } } (gid addr) 3 tag addr len data

/-- Drop what is outstanding for a move: its tags are retired (R354). -/
def dropOutstanding (s : State) (move : Nat) : State :=
  { s with fabric := { s.fabric with outstanding := s.fabric.outstanding.filter fun o => o.move != some move } }

/-- Something is outstanding for a move. -/
def stillOut (s : State) (move : Nat) : Bool := s.fabric.outstanding.any fun o => o.move == some move

end Sys2Proof.Machine
end

