-- ==== Sys2Proof/Machine/Work.lean ====
section
/-! DEFINITION. Work on the engines (02, 04, 07): the section in use, tiles and blocks a step reads, rows of a ragged batch, the
cutting of strands into segments, and when a segment is ready. -/

namespace Sys2Proof.Machine

/-! ## Itinerary sections -/

/-- The section in use on this die (R8). -/
def sectionOf (it : Itin) : Section := if it.fallback then it.img.fallback.getD it.img.main else it.img.main

/-- A layer of the section. -/
def layerAt (it : Itin) (l : Nat) : Option Layer := (sectionOf it).layers[l]?

/-- The variant of a layer that a frame runs (R455, R456). -/
def bodyOf (ly : Layer) (lean : Bool) : LayerBody := if lean then ly.lean.getD ly.body else ly.body

/-- Whether the itinerary has attention layers. -/
def hasAttnLayers (it : Itin) : Bool := (sectionOf it).layers.any (·.body.attn.isSome)

/-! ## Tiles and blocks -/

/-- Bytes of the tile or record at an image offset; a tile that on-device adaptation wrote takes the place of the carried one
(R177). -/
def itemBytes (img : Image) (replaced : List (Nat × List Byte)) (off : Nat) : List Byte :=
  match replaced.lookup off with
  | some b => b
  | none => let b := img.bytes.drop off; b.take (32 + 64 * bfld b 28 2)

/-- The scale record a tile names (R975). -/
def scaleRec (img : Image) (replaced : List (Nat × List Byte)) (tile : List Byte) : List Byte :=
  itemBytes img replaced (tileHdr tile).scalePtr

/-- An activation block read from its bytes with its activation scale record. -/
def blockFrom (tile rec_ : List Byte) (outs : List Nat) (comp : List (List (BitVec 16))) : Block :=
  let h := tileHdr tile
  { fmt := h.fmt, rows := h.rows, cols := h.cols, codes := tileCodes tile h
    aScale := (List.range h.rows).map (aScaleOf rec_), zp := (List.range h.rows).map (zpOf rec_), outs := outs, comp := comp, commit := 0 }

/-- The code that represents zero. -/
def zeroCode (f : Fmt) (zp : Nat) : Nat := if isZp f then zp else 0

/-- A block of zeros. -/
def zeroBlock (f : Fmt) (rows cols zp : Nat) : Block :=
  { fmt := f, rows := rows, cols := cols, codes := List.replicate rows (List.replicate cols (zeroCode f zp))
    aScale := List.replicate rows 0x3F800000, zp := List.replicate rows (if isZp f then zp else 0), outs := [], comp := [], commit := 0 }

/-- Columns of output tile `t` of a layer: the ROWS of its weight tiles; an attention layer's output and others without chains
are cut at 512. -/
def tileWidth (img : Image) (ly : Layer) (b : LayerBody) (t : Nat) : Nat :=
  match b.chains[t]? with
  | some c => (tileHdr (itemBytes img [] (nth c.tiles 0 0))).rows
  | none => min 512 (ly.width - 512 * t)

/-- Number of output tiles of a layer. -/
def tileCount (ly : Layer) (b : LayerBody) : Nat := if b.chains.isEmpty then cdiv ly.width 512 else b.chains.length

/-- First output channel of output tile `t`. -/
def tileBase (img : Image) (ly : Layer) (b : LayerBody) (t : Nat) : Nat := total ((List.range t).map (tileWidth img ly b))

/-- Outlier channels of a layer that fall in its output tile `t`, counted from the tile's first channel. -/
def tileOuts (img : Image) (ly : Layer) (t : Nat) : List Nat :=
  let base := tileBase img ly ly.body t
  let w := tileWidth img ly ly.body t
  ((desc ly.body.desc).outliers.filter fun c => decide (base ≤ c) && decide (c < base + w)).map (· - base)

/-- Outlier input channels of the block a source names (R190). -/
def srcOuts (img : Image) (sec : Section) : BlockSrc → List Nat
  | .input i => ((img.inputs[i]?).map (·.outliers)).getD []
  | .layer l t => ((sec.layers[l]?).map fun ly => tileOuts img ly t).getD []
  | .carried _ => []

/-- The block a source names for a step of layer `at_`. A layer of the same or a later index names the block of the previous
frame, its recurrent state (zeros before the first). -/
def blockOf (st : Stream) (it : Itin) (fr : Frame) (at_ : Nat) : BlockSrc → Option Block
  | .input i => fr.feed.inputs[i]?
  | .carried off =>
    let t := itemBytes it.img fr.replaced off
    some (blockFrom t (scaleRec it.img fr.replaced t) [] [])
  | .layer l t =>
    if l < at_ then fr.blocks.lookup (l, t)
    else match st.recurrent.lookup (l, t) with
      | some b => some b
      | none => (layerAt it l).map fun ly =>
          let d := desc ly.body.desc
          zeroBlock d.fmt ly.rows (tileWidth it.img ly ly.body t) d.zp

/-- Tile step `i` of output tile `t`: its weight tile's bytes and its block. -/
def tileStep (st : Stream) (it : Itin) (fr : Frame) (l t i : Nat) : Option (List Byte × Block) := do
  let ly ← layerAt it l
  let b := bodyOf ly fr.lean
  let c ← b.chains[t]?
  let off ← c.tiles[i]?
  let src ← b.srcs[i]?
  let blk ← blockOf st it fr l src
  pure (itemBytes it.img fr.replaced off, blk)

/-! ## Costs (R98, R213, R243) -/

/-- Wavefronts of one tile step: u × p × S × c (R98). -/
def tileCost (w : TileHdr) (act : Fmt) (fold : Nat) : Nat :=
  cdiv w.rows (512 / colFactor w.fmt) * actPasses act * cdiv w.cols fold * weightCycles w.fmt

/-! ## Rows of a ragged batch (R228 to R235) -/

/-- A query row: its slot, its position (none for a padding row), its visible length and the chunks it processes. -/
structure QRow where
  slot : Nat
  pos : Option Nat
  vis : Nat
  chunks : Nat
  deriving DecidableEq, Repr

/-- Length of record of a slot. -/
def lenOf (l : List Nat) (slot : Nat) : Nat := nth l slot 0

/-- Length from which an entry's tokens are placed: 0 after RESET (R235). -/
def baseLen (lengths : List Nat) (e : SeqEntry) : Nat := if e.reset then 0 else lenOf lengths e.slot

/-- Smallest power of two at least n. -/
def pow2At (n : Nat) : Nat := pow2Up 16 1 n

/-- Rows of one sequence-table entry (R231, R232, R234). -/
def rowsOfEntry (ragged causal : Bool) (lengths : List Nat) (e : SeqEntry) : List QRow :=
  let b := baseLen lengths e
  let len := b + e.new
  let bq := if e.new == 0 then 0 else pow2At e.new
  let bk := pow2At (max 16 len)
  let real := (List.range e.new).map fun i =>
    let vis := if causal then b + i + 1 else len
    ⟨e.slot, some (b + i), vis, if ragged then cdiv vis 32 else cdiv bk 32⟩
  if ragged then real else real ++ List.replicate (bq - e.new) ⟨e.slot, none, 0, cdiv bk 32⟩

/-- Rows of a feed, in table order. -/
def rowsOf (ragged causal : Bool) (lengths : List Nat) (seqs : List SeqEntry) : List QRow := seqs.flatMap (rowsOfEntry ragged causal lengths)

/-- Rows a table gives, whatever the mask: their number is the feed's row count (R236). -/
def rowCount (ragged : Bool) (seqs : List SeqEntry) : Nat := total (seqs.map fun e => if ragged then e.new else if e.new == 0 then 0 else pow2At e.new)

/-! ## Cutting strands into segments (R108, R215, R983, R985) -/

/-- An empty segment of a layer. -/
def segOf (l unit : Nat) (res : Res) (ly : Layer) (st : Stream) : Seg :=
  { layer := l, unit := unit, idx := 0, res := res, logical := ly.engine, engine := nth st.map ly.engine 0, cost := 0, last := true
    t0 := 0, tn := 0, r0 := 0, rn := 0, h0 := 0, hn := 0, c0 := 0, cn := 0, replay := false, faultAt := 0, st := .waiting }

/-- Segments of one output tile's chain: the cuts the itinerary declares, or one segment. -/
def chainSegs (st : Stream) (it : Itin) (fr : Frame) (l unit : Nat) (ly : Layer) (c : ChainDecl) : List Seg :=
  let cuts := if c.cuts.isEmpty then [c.tiles.length] else c.cuts
  let starts := cuts.mapIdx fun i _ => total (cuts.take i)
  let fold := (bodyOf ly fr.lean).fold
  (cuts.zip starts).mapIdx fun i (n, t0) =>
    { segOf l unit .field ly st with
        idx := i, last := i + 1 == cuts.length, t0 := t0, tn := n
        cost := total ((List.range n).map fun k =>
          match tileStep st it fr l unit (t0 + k) with
          | some (w, b) => tileCost (tileHdr w) b.fmt fold
          | none => tileCost (tileHdr (itemBytes it.img fr.replaced (nth c.tiles (t0 + k) 0))) .int8 fold) }

/-- Runs of rows whose steps together stay within the limit of a segment; at most 64 rows each. -/
def packRows (cost : Nat → Nat) (limit : Nat) : Nat → Nat → Nat → Nat → Nat → List (Nat × Nat)
  | 0, _, start, n, _ => if n == 0 then [] else [(start, n)]
  | k + 1, r, start, n, acc =>
    if n == 0 || (n < 64 && acc + cost r ≤ limit) then packRows cost limit k (r + 1) start (n + 1) (acc + cost r)
    else (start, n) :: packRows cost limit k (r + 1) r 1 (cost r)

/-- The section's attention layers run on the pipelines: a main section's always (R9, R206), a fallback's unless it is compiled to do
without them and computes attention on the field (R245). -/
def onPipes (it : Itin) : Bool := !it.fallback || (sectionOf it).needs.attention

/-- Segments of one KV head of an attention layer (R983). `per` is the steps of one query head row and chunk. -/
def attnSegs (res : Res) (st : Stream) (l unit : Nat) (ly : Layer) (a : AttnDecl) (rows : List QRow) (per : Nat) : List Seg :=
  let cost (r : Nat) := a.group * per * ((rows[r]?).map (·.chunks)).getD 0
  let runs := packRows cost 32768 rows.length 0 0 0 0
  let base := { segOf l unit res ly st with tn := match res with | .field => 1 | .attn => 0 }
  (runs.flatMap fun (r0, rn) =>
    if rn == 1 && decide (32768 < cost r0) then
      let chunks := ((rows[r0]?).map (·.chunks)).getD 0
      let headCost := per * chunks
      if headCost ≤ 32768 then
        let hs := max 1 (32768 / max 1 headCost)
        (List.range (cdiv a.group hs)).map fun i =>
          let hn := min hs (a.group - i * hs)
          { base with r0 := r0, rn := 1, h0 := i * hs, hn := hn, c0 := 0, cn := chunks, cost := hn * headCost }
      else
        let cs := max 1 (32768 / max 1 per)
        (List.range a.group).flatMap fun h => (List.range (cdiv chunks cs)).map fun i =>
          let cn := min cs (chunks - i * cs)
          { base with r0 := r0, rn := 1, h0 := h, hn := 1, c0 := i * cs, cn := cn, cost := cn * per, last := i + 1 == cdiv chunks cs }
    else [{ base with r0 := r0, rn := rn, h0 := 0, hn := a.group, c0 := 0, cn := 0, cost := total ((List.range rn).map fun i => cost (r0 + i)) }]).mapIdx
    fun i sg => { sg with idx := i }

/-- Attention steps of one query head row and chunk: d / 16, or d / 4 for a backward step (R213, R243). -/
def stepsPer (a : AttnDecl) (backward : Bool) : Nat := if backward then a.headDim / 4 else a.headDim / 16

/-- The rows of an attention layer in a frame. -/
def rowsFor (st : Stream) (fr : Frame) (a : AttnDecl) : List QRow := rowsOf st.ragged (a.causal == 1) fr.lengths fr.feed.seqs

/-- Segments of one layer of a frame. A backward frame runs the attention layers alone, the last first. -/
def layerSegs (st : Stream) (it : Itin) (fr : Frame) (l : Nat) (ly : Layer) : List Seg :=
  let b := bodyOf ly fr.lean
  match b.attn with
  | some a =>
    (List.range a.kvHeads).flatMap fun h => attnSegs (if onPipes it then .attn else .field) st l h ly a (rowsFor st fr a) (stepsPer a fr.feed.backward)
  | none =>
    if fr.feed.backward then [] else (b.chains.mapIdx fun i c => chainSegs st it fr l i ly c).flatten

/-- All segments of a frame (R401). -/
def frameSegs (st : Stream) (it : Itin) (fr : Frame) : List Seg :=
  ((sectionOf it).layers.mapIdx fun l ly => layerSegs st it fr l ly).flatten

/-! ## Readiness and order (R402, R443, Table 7-4) -/

/-- Every segment of a layer has committed. -/
def layerDone (fr : Frame) (l : Nat) : Bool := (fr.segs.filter (·.layer == l)).all (·.st == .committed)

/-- Blocks a segment reads have committed. -/
def inputsDone (st : Stream) (it : Itin) (fr : Frame) (sg : Seg) : Bool :=
  match layerAt it sg.layer with
  | none => false
  | some ly =>
    let b := bodyOf ly fr.lean
    match b.attn with
    | some a =>
      if fr.feed.backward then
        fr.segs.all fun x => !(decide (sg.layer < x.layer)) || x.st == .committed
      else a.query.all (fun q => (blockOf st it fr sg.layer q).isSome) && layerDone fr a.keyLayer && layerDone fr a.valLayer
    | none =>
      (List.range sg.tn).all fun k =>
        match b.srcs[sg.t0 + k]? with
        | some (.layer l t) => if l < sg.layer then layerDone fr l && (fr.blocks.lookup (l, t)).isSome else true
        | some src => (blockOf st it fr sg.layer src).isSome
        | none => false

/-- The earlier segments on which a segment depends have committed: those of its chain, or of its split row (R112, R983). -/
def chainDone (fr : Frame) (sg : Seg) : Bool :=
  fr.segs.all fun x =>
    !(x.layer == sg.layer && x.unit == sg.unit && decide (x.idx < sg.idx)
      && (sg.res == .field || (x.r0 == sg.r0 && x.rn == sg.rn && x.h0 == sg.h0 && x.hn == sg.hn)))
    || x.st == .committed

/-- Image items a segment reads: its weight tiles and carried activation blocks, each with its scale record. -/
def segItems (it : Itin) (fr : Frame) (sg : Seg) : List Nat :=
  match layerAt it sg.layer with
  | none => []
  | some ly =>
    let b := bodyOf ly fr.lean
    let with_ (off : Nat) : List Nat := [off, (tileHdr (itemBytes it.img fr.replaced off)).scalePtr]
    let blocks (l : List BlockSrc) : List Nat := l.flatMap fun q => match q with | .carried off => with_ off | _ => []
    match b.attn with
    | some a => blocks a.query
    | none =>
      match b.chains[sg.unit]? with
      | some c => (slice c.tiles sg.t0 sg.tn).flatMap with_ ++ blocks (slice b.srcs sg.t0 sg.tn)
      | none => []

/-- What a segment reads that moves bring: its image items, and the KV pages of its layer and head (any number of 2^40 or more is a
page's). -/
def segReads (it : Itin) (fr : Frame) (sg : Seg) (item : Nat) : Bool :=
  (segItems it fr sg).contains item
  || (decide (2 ^ 40 ≤ item) && (item - 2 ^ 40) / 2048 / 1024 == sg.layer * 64 + sg.unit
      && match layerAt it sg.layer with | some ly => (bodyOf ly fr.lean).attn.isSome | none => false)

/-- An item is where a move into T0 can take it from, or in T0 itself: it has its home in this die's T1, or a staged copy (R259). -/
def itemHere (s : State) (st : Stream) (it : Itin) (fr : Frame) (item : Nat) : Bool :=
  fr.replaced.any (·.1 == item)
  || (match it.homes.lookup item with | some a => gid a == s.fabric.id && window (glocal a) == .t1 | none => true)
  || s.mem.staged.any fun c => c.item == item && c.itin == it.handle && (c.tier == 1 || c.stream == st.handle)

/-- What the segment waits for has landed (R259, R272): every item it reads is in T0 or T1, and no move that brings one to its engine or
into T1 is under way, the frame's own or one that another stream of the itinerary makes into T1. -/
def movesDone (s : State) (st : Stream) (it : Itin) (fr : Frame) (sg : Seg) : Bool :=
  (segItems it fr sg).all (itemHere s st it fr) && s.mem.moves.all fun m =>
    !(segReads it fr sg m.item && !(m.switch && m.srcTier == 1) && (m.dstTier != 0 || m.engine == some sg.engine) &&
      (match m.purpose with
       | .frame h => h == st.handle || (m.dstTier == 1 && ((streamOf s h).map (·.itin)) == some st.itin)
       | _ => false))

/-- The engine's field or pipeline is free. -/
def resFree (en : Engine) (r : Res) : Bool := match r with | .field => en.field.isNone && en.drain.isNone | .attn => en.attn.isNone

/-- A best-effort stream is held by another stream's POSTPONE on an engine they share (R445, Table 7-5). -/
def postponed (s : State) (st : Stream) : Bool :=
  (!st.guaranteed || st.demoted) && s.streams.any fun o =>
    o.handle != st.handle && o.active.contains .postpone && o.map.any (fun e => st.map.contains e)

/-- Guaranteed for the order and the tests: not demoted. -/
def isGuar (st : Stream) : Bool := st.guaranteed && !st.demoted

/-- The key of Table 7-4's order: replay, class, priority, due tick, release, handle. -/
def segKey (st : Stream) (fr : Frame) (sg : Seg) : List Nat :=
  [b2n (!sg.replay), b2n (!(fr.guar && !st.demoted)), fr.prio, if fr.deadline == 0 then 2 ^ 64 else fr.slot + fr.deadline, fr.release, st.handle, sg.layer, sg.unit, sg.idx]

/-- Lexicographic order of keys. -/
def keyLt : List Nat → List Nat → Bool
  | a :: as, b :: bs => decide (a < b) || (a == b && keyLt as bs)
  | _, _ => false

/-- Ready segments of a stream for an engine's resource. -/
def readySegs (s : State) (e : EngineId) (r : Res) (st : Stream) : List (List Nat × Stream × Seg) :=
  match st.frame, itinOf s st.itin with
  | some fr, some it =>
    if postponed s st then []
    else (fr.segs.filter fun sg => sg.st == .waiting && sg.engine == e && sg.res == r && chainDone fr sg && inputsDone st it fr sg && movesDone s st it fr sg).map
      fun sg => (segKey st fr sg, st, sg)
  | _, _ => []

/-- The next segment an engine takes (R443). -/
def nextSeg (s : State) (e : EngineId) (r : Res) : Option (Stream × Seg) :=
  let all := s.streams.flatMap (readySegs s e r)
  (all.foldl (fun best x => match best with | none => some x | some b => if keyLt x.1 b.1 then some x else some b) none).map (·.2)

/-- Whether an engine has work it could issue for productive use. -/
def hasReady (s : State) (e : EngineId) : Bool :=
  let en := s.engines.get e
  en.field.isSome || en.attn.isSome || (nextSeg s e .field).isSome || (nextSeg s e .attn).isSome

/-- The same segment of a frame. -/
def sameSeg (a b : Seg) : Bool := a.layer == b.layer && a.unit == b.unit && a.idx == b.idx && a.res == b.res

/-- Change a frame's segment. -/
def modSeg (fr : Frame) (sg : Seg) (f : Seg → Seg) : Frame := { fr with segs := fr.segs.map fun x => if sameSeg x sg then f x else x }

/-- Change the frame of a stream. -/
def modFrame (s : State) (h : Nat) (f : Frame → Frame) : State := modStream s h fun st => { st with frame := st.frame.map f }

end Sys2Proof.Machine
end

