-- ==== Sys2Proof/Machine/Feed.lean ====
section
/-! DEFINITION. The feed, the field's wavefronts and the post unit's stage 1 (02): what is presented to the field, what one
wavefront adds to every accumulator and check accumulator, and how a drained bank enters the chain state. -/

namespace Sys2Proof.Machine

/-! ## What the feed presents (R99, R139 to R142, R170, R190, R191) -/

/-- A group's elements aligned to its largest exponent: the exponent of the mantissas' unit and the 16-bit mantissas. The
largest element's leading bit stands at bit 14 (R99; log entry 15). -/
structure Aligned where
  exp : Int
  mant : List Int
  deriving DecidableEq, Repr

/-- Exponent of a value's leading bit. -/
def topExp : FV → Option Int
  | .fin _ m e => if m == 0 then none else some (e + (Nat.log2 m : Nat))
  | _ => none

/-- A value in units of 2^g, to nearest, ties to even. -/
def mantOf (g : Int) : FV → Int
  | .fin n m e => let r := scale2 m (e - g); let q := rneDiv r.1 r.2; if n then -(q : Int) else (q : Int)
  | _ => 0

/-- Align a group of values; `none` marks elements that are not presented. -/
def align (vs : List (Option FV)) : Aligned :=
  match (vs.filterMap fun v => v.bind topExp) with
  | [] => ⟨0, vs.map fun _ => 0⟩
  | t :: ts =>
    let g := ts.foldl max t - 14
    ⟨g, vs.map fun v => match v with | some x => mantOf g x | none => 0⟩

/-- An activation vector as the field sees it: codes (or mantissas) and the group exponent; outlier columns are 0 (R190). -/
def actVec (b : Block) (v : Nat) : Aligned :=
  let row := nth b.codes v []
  match fmtFloat b.fmt with
  | some f => align (row.mapIdx fun k c => if b.outs.contains k then none else some (decodeF f c))
  | none => ⟨0, row.mapIdx fun k c => if b.outs.contains k then 0 else intCode b.fmt c⟩

/-- One weight of a tile: its value, whether its code is invalid, and the side-list value where it is escaped. -/
structure WVal where
  int : Int
  fv : FV
  invalid : Bool
  esc : Option (BitVec 16)
  deriving DecidableEq, Repr

/-- The weight of channel `c`, input `k` (R139, R141, R142). -/
def weightAt (h : TileHdr) (rec_ : List Byte) (side : List (Nat × BitVec 16)) (escape : Bool) (c k code : Nat) : WVal :=
  match fmtFloat h.fmt with
  | some f => ⟨0, decodeF f code, false, none⟩
  | none =>
    let v (i : Int) (bad : Bool) : WVal := ⟨i, .fin (decide (i < 0)) i.natAbs 0, bad, none⟩
    if h.fmt == .tern then v (intCode .tern code) (code == 2)
    else if isCb h.fmt then
      if h.fmt == .cb256 && escape && code == 255 then
        match side.lookup (c * 512 + k) with
        | some x => ⟨0, decodeF fp16F x.toNat, false, some x⟩
        | none => v 0 true
      else v (wBook rec_ code) false
    else v (intCode h.fmt code) false

/-- The weights of one channel of a tile. -/
def weightRow (tile rec_ : List Byte) (escape : Bool) (c : Nat) : List WVal :=
  let h := tileHdr tile
  let side := sideList tile h
  (unpackRow (fmtWidth h.fmt) h.cols (tileRow tile h c)).mapIdx fun k code => weightAt h rec_ side escape c k code

/-- A channel's weights as the field sees them: values (or aligned mantissas), with outlier inputs and escaped weights 0. -/
def fieldRow (h : TileHdr) (outs : List Nat) (ws : List WVal) : Aligned :=
  if isFloat h.fmt then align (ws.mapIdx fun k w => if outs.contains k then none else some w.fv)
  else ⟨0, ws.mapIdx fun k w => if outs.contains k || w.esc.isSome then 0 else w.int⟩

/-! ## Wavefronts (R94 to R98, R107) -/

/-- What the field's tile step needs: activations of every vector, weights of every channel, and the shapes. -/
structure StepData where
  acts : List Aligned
  ws : List Aligned
  cols : Nat
  fold : Nat
  wbits : Nat
  k : Nat
  passes : Nat
  deriving DecidableEq, Repr

/-- The data of a tile step. -/
def stepData (img : Image) (replaced : List (Nat × List Byte)) (b : LayerBody) (tile : List Byte) (blk : Block) : StepData :=
  let h := tileHdr tile
  let rec_ := scaleRec img replaced tile
  { acts := (List.range blk.rows).map (actVec blk)
    ws := (List.range h.rows).map fun c => fieldRow h blk.outs (weightRow tile rec_ b.escape c)
    cols := h.cols, fold := b.fold, wbits := weightCycles h.fmt, k := colFactor h.fmt, passes := actPasses blk.fmt }

/-- Input steps of a tile step. -/
def inSteps (d : StepData) : Nat := cdiv d.cols d.fold

/-- Channels of one run, and the runs of a tile step. -/
def perRun (d : StepData) : Nat := 512 / d.k
def runCount (d : StepData) : Nat := cdiv d.ws.length (perRun d)

/-- The activation that the PE rows of group `g`, vector `v` latch at input step `j`: a byte of the mantissa in each pass of
two-pass operation, high byte signed first (Table 2-4). -/
def latched (d : StepData) (pass g v j : Nat) : Int :=
  let i := g * inSteps d + j
  if i < d.cols && decide (j < inSteps d) then
    let a := match d.acts[v]? with | some x => nth x.mant i 0 | none => 0
    if d.passes == 1 then a else if pass == 0 then signed 8 (twos 16 a / 256) else ((twos 16 a % 256 : Nat) : Int)
  else 0

/-- The weight bit that group `g`, channel `c` receives at input step `j`, bit `i`. -/
def weightBit (d : StepData) (g c j i : Nat) : Bool :=
  let k := g * inSteps d + j
  if k < d.cols then
    match d.ws[c]? with
    | some x => (twos d.wbits (nth x.mant k 0)).testBit i
    | none => false
  else false

/-- What one PE adds in a wavefront: the activation shifted, subtracted at the sign position. -/
def peAdds (act : Int) (b : Bool) (i top : Nat) : Int :=
  if b then (if i == top then -(act * 2 ^ i) else act * 2 ^ i) else 0

/-- Row of the accumulator array for group `g`, vector `v`. -/
def rowIdx (vectors g v : Nat) : Nat := g * vectors + v

/-- An accumulator's width: 32 bits, 64 for a pair (R96). -/
def accWidth (d : StepData) : Nat := if d.k == 2 then 64 else 32

/-- A value wrapped to a width in two's complement. -/
def wrapTo (w : Nat) (v : Int) : Int := signed w (twos w v)

/-- One wavefront on the data accumulators of a run: rows are group by group, columns are the run's channels. -/
def waveData (d : StepData) (pass run j i : Nat) (acc : List (List Int)) : List (List Int) :=
  let vs := d.acts.length
  acc.mapIdx fun r row => row.mapIdx fun c a =>
    wrapTo (accWidth d) (a + peAdds (latched d pass (r / vs) (r % vs) j) (weightBit d (r / vs) (run * perRun d + c) j i) i (d.wbits - 1))

/-- The 1 bits a check column's 128 data columns receive (R107): 64 channels when columns are paired. -/
def bitCount (d : StepData) (run g j i q : Nat) : Nat :=
  ((List.range (128 / d.k)).filter fun c => weightBit d g (run * perRun d + q * (128 / d.k) + c) j i).length

/-- One wavefront on the check accumulators. -/
def waveCheck (d : StepData) (pass run j i : Nat) (chk : List (List Int)) : List (List Int) :=
  let vs := d.acts.length
  chk.mapIdx fun r row => row.mapIdx fun q a =>
    let act := latched d pass (r / vs) (r % vs) j * bitCount d run (r / vs) j i q
    wrapTo 64 (a + (if i + 1 == d.wbits then -(act * 2 ^ i) else act * 2 ^ i))

/-- Zero banks for a run: F × V rows of its channels, and of four check columns. -/
def zeroBank (d : StepData) (run : Nat) : List (List Int) :=
  List.replicate (d.fold * d.acts.length) (List.replicate (min (perRun d) (d.ws.length - run * perRun d)) 0)
def zeroCheck (d : StepData) : List (List Int) := List.replicate (d.fold * d.acts.length) [0, 0, 0, 0]

/-- The sums that a row's check accumulators must equal (R114). -/
def checkSums (k : Nat) (row : List Int) : List Int :=
  (List.range 4).map fun q => (slice row (q * (128 / k)) (128 / k)).foldl (· + ·) 0

/-- A bank agrees with its check accumulators; rows and columns past those kept hold zero sums (R114, R117). -/
def bankOk (k : Nat) (acc chk : List (List Int)) : Bool :=
  (acc.mapIdx fun r row => checkSums k row == nth chk r [0, 0, 0, 0]).all id

/-- A list long enough to hold element `i`. -/
def reach {α : Type} (l : List α) (i : Nat) (d : α) : List α := l ++ List.replicate (i + 1 - l.length) d

/-- Error patterns put on data accumulators before the check: on any of the field's 512 rows and of a run's `cols` columns, those that
hold zero weights among them (R117). -/
def upset (cols : Nat) (acc : List (List Int)) (us : List Upset) : List (List Int) :=
  (us.filter fun u => decide (u.row < 512 ∧ u.col < cols)).foldl (fun a u =>
    (reach a u.row []).mapIdx fun r row => if r == u.row then (reach row u.col 0).mapIdx fun c x => if c == u.col then x + u.delta else x else row) acc

/-! ## Drain and combine (Table 2-9 stages 1 and 4; R97, R109) -/

/-- The F partial sums of each vector and channel added by the column adder. -/
def foldSum (vectors : Nat) (acc : List (List Int)) : List (List Int) :=
  (List.range vectors).map fun v =>
    let rows := (acc.mapIdx fun r row => (r, row)).filter fun p => p.1 % vectors == v
    match rows with
    | [] => []
    | (_, r0) :: rs => rs.foldl (fun a p => List.zipWith (· + ·) a p.2) r0

/-- The empty chain state for V vectors and C channels. -/
def zeroChain (v c : Nat) : Chain :=
  { accI := List.replicate v (List.replicate c 0), accF := List.replicate v (List.replicate c 0)
    e := List.replicate v (List.replicate c 0), o := List.replicate v (List.replicate c 0)
    poisonV := List.replicate v false, poisonC := List.replicate c false, invalid := List.replicate c 0 }

/-- Change the entries of a matrix in a range of columns. -/
def atCols {α : Type} (m : List (List α)) (base n : Nat) (f : Nat → Nat → α → α) : List (List α) :=
  m.mapIdx fun v row => row.mapIdx fun c x => if base ≤ c ∧ c < base + n then f v c x else x

/-- A value of a format code as the side lane takes it. -/
def wSide (w : WVal) : FV := w.fv

/-- Sum in FP32 of products, each rounded, one at a time in ascending order, onto `s` (R193). -/
def sideSum (s : F32) (ps : List (FV × FV)) : F32 := ps.foldl (fun a p => add32 a (mulFV p.1 p.2)) s

/-- Stage 1 for one run of a tile step: the drained sums of its passes enter the chain accumulator, and the side lane's sums,
the poison and the invalid codes of its channels are taken (R97, R109, R124, R169, R193). -/
def combineRun (img : Image) (replaced : List (Nat × List Byte)) (b : LayerBody) (tile : List Byte) (blk : Block) (d : StepData)
    (run : Nat) (hi lo : List (List Int)) (ch : Chain) : Chain :=
  let h := tileHdr tile
  let rec_ := scaleRec img replaced tile
  let base := run * perRun d
  let n := min (perRun d) (h.rows - base)
  let sums := foldSum d.acts.length (if d.passes == 1 then lo else List.zipWith (List.zipWith fun x y => x * 256 + y) hi lo)
  let rows := (List.range n).map fun c => weightRow tile rec_ b.escape (base + c)
  let at2 (v c : Nat) : Int := nth (nth sums v []) (c - base) 0
  let wOf (c : Nat) : List WVal := nth rows (c - base) []
  let floatW := isFloat h.fmt
  let floatPath := floatW || isFloat blk.fmt
  let zp (v : Nat) : Int := ((nth blk.zp v 0 : Nat) : Int)
  let ct (c : Nat) : Int := match d.ws[c]? with | some x => x.mant.foldl (· + ·) 0 | none => 0
  let ea (v : Nat) : Int := match d.acts[v]? with | some x => x.exp | none => 0
  let ew (c : Nat) : Int := match d.ws[c]? with | some x => x.exp | none => 0
  let actV (v k : Nat) : Int := intCode blk.fmt (nth (nth blk.codes v []) k 0) - (if isZp blk.fmt then zp v else 0)
  let intF (i : Int) : FV := .fin (decide (i < 0)) i.natAbs 0
  let escs (v c : Nat) : List (FV × FV) :=
    ((wOf c).mapIdx fun k w => (k, w)).filterMap fun p =>
      if p.2.esc.isSome && !blk.outs.contains p.1 then some (p.2.fv, intF (actV v p.1)) else none
  let outl (v c : Nat) : List (FV × FV) :=
    (blk.outs.mapIdx fun j k => (decodeF fp16F (nth (nth blk.comp v []) j 0).toNat, wSide (nth (wOf c) k ⟨0, .fin false 0 0, false, none⟩)))
  let isBad : FV → Bool
    | .fin .. => false
    | _ => true
  let vecBad (v : Nat) : Bool :=
    (match fmtFloat blk.fmt with
     | some f => ((nth blk.codes v []).mapIdx fun k c => (k, c)).any fun p => !blk.outs.contains p.1 && isBad (decodeF f p.2)
     | none => false) || (nth blk.comp v []).any fun x => isBad (decodeF fp16F x.toNat)
  { accI := if floatPath then ch.accI else atCols ch.accI base n fun v c x => wrapTo 48 (x + at2 v c)
    accF := if floatPath then atCols ch.accF base n fun v c x =>
        add32 x (ofInt32 (at2 v c - (if floatW && isZp blk.fmt then zp v * ct c else 0)) (ea v + ew c)) else ch.accF
    e := atCols ch.e base n fun v c x => sideSum x (escs v c)
    o := atCols ch.o base n fun v c x => sideSum x (outl v c)
    poisonV := ch.poisonV.mapIdx fun v p => p || vecBad v
    poisonC := ch.poisonC.mapIdx fun c p => p || (decide (base ≤ c ∧ c < base + n) && (wOf c).any fun w => isBad w.fv)
    invalid := ch.invalid.mapIdx fun c x => if base ≤ c ∧ c < base + n then x + ((wOf c).filter (·.invalid)).length else x }

/-! ## The cursor of a running segment -/

/-- The cursor after one wavefront: bit, input step, then the bank swap; the flag says the run's last wavefront has issued. -/
def advance (d : StepData) (f : FieldRun) : FieldRun × Bool :=
  if f.bit + 1 < d.wbits then ({ f with bit := f.bit + 1 }, false)
  else if f.inStep + 1 < inSteps d then ({ f with bit := 0, inStep := f.inStep + 1 }, false)
  else ({ f with bit := 0, inStep := 0 }, true)

/-- The cursor at the start of what follows a swap: the next pass, the next run, or the next tile step. -/
def nextRun (d : StepData) (f : FieldRun) : FieldRun :=
  if f.pass + 1 < d.passes then { f with pass := f.pass + 1 }
  else if f.run + 1 < runCount d then { f with pass := 0, run := f.run + 1 }
  else { f with pass := 0, run := 0, tile := f.tile + 1 }

end Sys2Proof.Machine
end

