-- ==== Sys2Proof/Machine/PostUnit.lean ====
section
/-! DEFINITION. The post unit after stage 1 (02 Table 2-9, 03): rescale, side lane, bias, activation table, normalisation,
requantisation, conversion statistics, and weights written on device. -/

namespace Sys2Proof.Machine

/-- Stage n is bypassed (R119): bit n - 1 of the layer's bypass byte; stages 1 and 8 never are. -/
def bypassed (b : LayerBody) (n : Nat) : Bool := b.bypass.getLsbD (n - 1)

/-! ## Stages 2 to 6 -/

/-- Stage 6, the piecewise-linear table (R120); a NaN stays a NaN. -/
def tableOut (t : ActTable) (y : F32) : F32 :=
  if isNan32 y then nan32
  else if !t.extend && lt32 y t.lo then nth t.knots 0 0
  else if !t.extend && lt32 t.hi y then nth t.knots 256 0
  else
    let pos := mul32 (sub32 y t.lo) (div32 0x43800000 (sub32 t.hi t.lo))
    let i := match val32 pos with
      | .fin .. => min 255 (floorFV (val32 pos)).toNat
      | .inf n => if n then 0 else 255
      | .nan => 0
    let r := sub32 pos (nat32 i)
    let k0 := nth t.knots i 0
    add32 k0 (mul32 r (sub32 (nth t.knots (i + 1) 0) k0))

/-- Stages 5 and 6 of one value; an attention output has no weight scale record and so no bias (log entry 16). -/
def stage56 (img : Image) (b : LayerBody) (bias : Option F32) (y : F32) : F32 :=
  let y5 := match bias with | some x => if bypassed b 5 then y else add32 y x | none => y
  match b.table.bind fun t => img.tables[t]? with
  | some t => if bypassed b 6 then y5 else tableOut t y5
  | none => y5

/-- Stages 2 to 6 of a finished chain: the first block's A_SCALE and ZP serve the chain (log entry 17). `side` says whether
the layer has outlier inputs or escaped weights. Poisoned outputs are NaN from here on (R124). -/
def postChain (img : Image) (b : LayerBody) (rec_ : List Byte) (floatW floatPath side : Bool) (blk : Block) (ch : Chain) : List (List F32) :=
  (List.range blk.rows).map fun v =>
    let accs := nth ch.accI v []
    let accsF := nth ch.accF v []
    (List.range ch.poisonC.length).map fun c =>
      if nth ch.poisonV v false || nth ch.poisonC c false then nan32
      else
        let zp : Int := if isZp blk.fmt && !floatW && !bypassed b 2 then ((nth blk.zp v 0 : Nat) : Int) else 0
        let y2 := if floatPath then nth accsF c 0 else ofInt32 (nth accs c 0 - zp * wColsum rec_ c) 0
        let sc := mul32 (nth blk.aScale v 0) (wScale rec_ c)
        let y3 := if bypassed b 3 then y2 else mul32 y2 sc
        let y4 := if side && !bypassed b 4 then
            add32 (add32 y3 (mul32 sc (nth (nth ch.e v []) c 0))) (mul32 (wScale rec_ c) (nth (nth ch.o v []) c 0)) else y3
        stage56 img b (some (wBias rec_ c)) y4

/-! ## Stage 7 (R980) -/

/-- Sum in ascending order from +0, each addition rounded: the spec names no start value, so that a sum of terms that are all -0 is +0 is
the model's choice (R980; log entry 142). -/
def sum32 (l : List F32) : F32 := l.foldl add32 0

/-- Normalise one vector over the channels that are not poisoned. -/
def normalise (n : Norm) (ys : List F32) : List F32 :=
  let live := ys.filter fun y => !isNan32 y
  let cnt := nat32 live.length
  let mean := if n.rms then 0 else div32 (sum32 live) cnt
  let d (y : F32) := if n.rms then y else sub32 y mean
  let var := div32 (sum32 (live.map fun y => mul32 (d y) (d y))) cnt
  let rs := recip32 (sqrt32 (add32 var n.eps))
  ys.map fun y => if isNan32 y then nan32 else mul32 (d y) rs

/-! ## Statistics (R194 to R196) -/

/-- One conversion counted on its channel; `e` is its error. -/
def countConv (k : Counters) (c : Conv) (e : F32) : Counters :=
  { k with
    sse := if c.poison then k.sse else add32 k.sse (mul32 e e)
    nConv := if c.poison then k.nConv else satInc k.nConv 1
    sat := satInc k.sat (b2n c.sat), esc := satInc k.esc (b2n c.esc), sideFull := satInc k.sideFull (b2n c.sideFull)
    underflow := satInc k.underflow (b2n c.underflow), poison := satInc k.poison (b2n c.poison) }

/-- The error y - scale × (decoded - ZP), rounded at each step (Table 3-8). -/
def convError (scale : F32) (zp : Nat) (y : F32) (c : Conv) : F32 :=
  sub32 y (mul32 scale (sub32 (fv32 c.decoded) (nat32 zp)))

/-- A layer's statistics of a stream, empty where it has none yet. -/
def statsOf (st : Stream) (l width : Nat) : LayerStats :=
  match st.stats.find? (·.layer == l) with
  | some x => x
  | none => { layer := l, running := List.replicate width {}, closed := List.replicate width {}, invocations := 0, latchMsc := 0 }

/-- Put a layer's statistics back. -/
def putStats (st : Stream) (x : LayerStats) : Stream :=
  { st with stats := st.stats.filter (·.layer != x.layer) ++ [x] }

/-- Count a tile's conversions (rows of channels from `base`) and its invalid input codes. -/
def countTile (x : LayerStats) (base : Nat) (cs : List (List (Conv × F32))) (invalid : List Nat) : LayerStats :=
  { x with running := x.running.mapIdx fun ch k =>
      if base ≤ ch ∧ ch < base + (nth cs 0 []).length then
        let k1 := cs.foldl (fun k row => match row[ch - base]? with | some (c, e) => countConv k c e | none => k) k
        { k1 with invalid := satInc k1.invalid (nth invalid (ch - base) 0) }
      else k }

/-- One more committed invocation; the window's last one latches the counters (R196). -/
def countInvocation (x : LayerStats) (window : Nat) (t : Tick) : LayerStats :=
  if x.invocations + 1 ≥ window then
    { x with closed := x.running, running := x.running.map fun _ => {}, invocations := 0, latchMsc := t }
  else { x with invocations := x.invocations + 1 }

/-! ## Stage 8 for an activation block (R152, R173, R174, R187) -/

/-- Convert one row; the outlier channels go to the companion. Gives the conversions with their errors and the companion row. -/
def convertRow (d : Desc) (scale : F32) (base : Nat) (ys : List F32) : List (Conv × F32) :=
  let recip := recip32 scale
  ys.mapIdx fun c y =>
    if d.outliers.contains (base + c) then
      let (h, s) := toFp16 y
      ({ code := zeroCode d.fmt d.zp, decoded := decodeF fp16F h.toNat, sat := s, poison := isNan32 y }, sub32 y (fp16to32 h))
    else
      let k := convert d recip [] false y
      (k, convError scale d.zp y k)

/-- The block of one output tile. -/
def outBlock (d : Desc) (scale : F32) (base : Nat) (ys : List (List F32)) (cs : List (List (Conv × F32))) (t : Tick) : Block :=
  let width := (nth ys 0 []).length
  let outs := (d.outliers.filter fun c => decide (base ≤ c ∧ c < base + width)).map (· - base)
  { fmt := d.fmt, rows := ys.length, cols := width, codes := cs.map fun row => row.map (·.1.code)
    aScale := ys.map fun _ => scale, zp := ys.map fun _ => d.zp, outs := outs
    comp := ys.map fun row => outs.map fun c => (toFp16 (nth row c 0)).1, commit := t }

/-- Largest finite |y| of a tile's outputs, outlier channels left out (R178, R180). -/
def tileMax (d : Desc) (base : Nat) (ys : List (List F32)) : F32 :=
  ys.foldl (fun m row => (row.mapIdx fun c y => (c, y)).foldl (fun m p =>
    if d.outliers.contains (base + p.1) || !isFin32 p.2 then m else max32 m (abs32 p.2)) m) 0

/-! ## Weights written on device (R162, R171, R176) -/

/-- Convert the rows of a written weight tile in ascending INDEX order, filling its side list; `room` is what the list still
holds. A weight tile has no companion block, so the descriptor's outlier channels, which R151 allows, are converted as any other
(log entry 143). -/
def convertWritten (d : Desc) (rec_ : List Byte) : Nat → Nat → List (List F32) → List (List (Conv × F32))
  | _, _, [] => []
  | r, room, ys :: rest =>
    let scale := wScale rec_ r
    let recip := recip32 scale
    let book := (List.range 256).map (wBook rec_)
    let go := ys.foldl (fun (acc : List (Conv × F32) × Nat) y =>
      let k := convert { d with src := 0 } recip book (decide (0 < acc.2)) y
      (acc.1 ++ [(k, convError scale 0 y k)], if k.esc then acc.2 - 1 else acc.2)) ([], room)
    go.1 :: convertWritten d rec_ (r + 1) go.2 rest

/-- Header checksum: the byte that makes 32 bytes sum to 0. -/
def sumByte (l : List Byte) : Byte := 0 - l.foldl (· + ·) 0

/-- Bytes of a written weight tile, under the old tile's header. -/
def writtenTile (old : List Byte) (cs : List (List (Conv × F32))) : List Byte :=
  let h := tileHdr old
  let w := fmtWidth h.fmt
  let side := ((cs.mapIdx fun r row => row.mapIdx fun c k => (r * 512 + c, k.1.side)).flatten).filterMap fun p => p.2.map fun x => (p.1, x)
  let sideB := side.flatMap fun p => leBytes 4 p.1 ++ leBytes 2 p.2.toNat ++ [0, 0]
  let body := cs.flatMap (fun row => packRow w (row.map (·.1.code))) ++ sideB ++ List.replicate ((64 - sideB.length % 64) % 64) 0
  let head := [BitVec.ofNat 8 (fmtCode h.fmt), if side.isEmpty then 0 else 1] ++ leBytes 2 h.rows ++ leBytes 2 h.cols ++ leBytes 2 side.length
    ++ leBytes 8 h.scalePtr ++ leBytes 8 h.home ++ leBytes 4 (crc32c body).toNat ++ leBytes 2 (body.length / 64) ++ [1]
  head ++ [sumByte head] ++ body

/-- The sum of the weights a tile presents on a channel (R170). -/
def tileColsum (tile rec_ : List Byte) (escape : Bool) (outs : List Nat) (c : Nat) : Int :=
  let h := tileHdr tile
  if isFloat h.fmt then 0 else (fieldRow h outs (weightRow tile rec_ escape c)).mant.foldl (· + ·) 0

/-- The sum over the tiles of a chain, each with the outlier channels of its block. -/
def chainColsum (rec_ : List Byte) (escape : Bool) (tiles : List (List Byte × List Nat)) (c : Nat) : Int :=
  (tiles.map fun p => tileColsum p.1 rec_ escape p.2 c).foldl (· + ·) 0

/-- A weight scale record with the COLSUM of channels recomputed (R171). -/
def withColsums (rec_ : List Byte) (sums : List Int) : List Byte :=
  let p := payload rec_
  let p' := p.take 4096 ++ sums.flatMap (fun x => leBytes 4 (twos 32 x)) ++ p.drop (4096 + 4 * sums.length)
  let head := rec_.take 24 ++ leBytes 4 (crc32c p').toNat ++ slice rec_ 28 3
  head ++ [sumByte head] ++ p'

end Sys2Proof.Machine
end

