-- ==== Sys2Proof/Machine/Attention.lean ====
section
/-! DEFINITION. The attention pipeline's arithmetic (04): scores, the exponential, the running state of a row, the log-sum-exp,
KV pages, and the two passes of a backward step. -/

namespace Sys2Proof.Machine

/-! ## Knots and the exponential (R210, R240) -/

/-- Largest r with r^256 ≤ n, searched bit by bit from bit k - 1. -/
def root256 : Nat → Nat → Nat → Nat
  | 0, _, r => r
  | k + 1, n, r => let t := r + 2 ^ k; root256 k n (if t ^ 256 ≤ n then t else r)

/-- K[i] = round32(2^(i/256)): the root gives 30 bits and a sticky bit. -/
def knotExp (i : Nat) : F32 :=
  let n := 2 ^ (i + 256 * 30)
  let r := root256 32 n 0
  round32 false (2 * r + (if r ^ 256 == n then 0 else 1)) 1 (-31)

/-- Bits of log2 of x / 2^p (1 ≤ x / 2^p < 2) after the point, by repeated squaring. -/
def log2Bits (p : Nat) : Nat → Nat → Nat → Nat
  | 0, _, acc => acc
  | k + 1, x, acc =>
    let y := (x * x) >>> p
    if y ≥ 2 ^ (p + 1) then log2Bits p k (y / 2) (2 * acc + 1) else log2Bits p k y (2 * acc)

/-- L[i] = round32(log2(1 + i/256)), from 60 bits and a sticky bit. -/
def knotLog (i : Nat) : F32 :=
  if i == 0 then 0
  else if i ≥ 256 then 0x3F800000
  else round32 false (2 * log2Bits 192 60 ((256 + i) <<< 184) 0 + 1) 1 (-61)

/-- An exact fraction times an FP32 value, rounded once. -/
def mulFrac (num den : Nat) (d : F32) : F32 := match val32 d with | .fin s m e => round32 s (num * m) den e | _ => nan32

/-- exp(x) for x ≤ 0 as R210 forms it: f = z - n and r are exact fractions over 2^k. -/
def exp32 (x : F32) : F32 :=
  if isNan32 x then nan32
  else if x == ninf32 then 0
  else
    let z := mul32 x 0x3FB8AA3B
    if lt32 z 0xC3160000 then 0
    else
      let n := floorFV (val32 z)
      let (zn, k) : Int × Nat := match val32 z with
        | .fin s m e => ((if s then -1 else 1) * (m * 2 ^ e.toNat : Nat), (-e).toNat)
        | _ => (0, 0)
      let f256 := (zn - n * 2 ^ k).toNat * 256
      let i := f256 / 2 ^ k
      let p := add32 (knotExp i) (mulFrac (f256 % 2 ^ k) (2 ^ k) (sub32 (knotExp (i + 1)) (knotExp i)))
      match val32 p with
      | .fin s m e => round32 s m 1 (e + n)
      | _ => p

/-- The log-sum-exp of a row (R240); -infinity where l is 0 (R211). -/
def lse32 (m l : F32) : F32 :=
  if isNan32 l then nan32
  else match val32 l with
  | .fin _ mm e =>
    if mm == 0 then ninf32
    else
      let k := Nat.log2 mm
      let ex : Int := e + (k : Int)
      -- g = (u - 1) × 256 is exact: mm × 256 / 2^k - 256
      let num := mm * 256 - 256 * 2 ^ k
      let i := num / 2 ^ k
      let r := round32 false (num % 2 ^ k) (2 ^ k) 0
      let lg := add32 (ofInt32 ex 0) (add32 (knotLog i) (mul32 r (sub32 (knotLog (i + 1)) (knotLog i))))
      add32 m (mul32 lg 0x3F317218)
  | _ => inf32 false

/-! ## KV pages (Tables 4-4 to 4-6) -/

/-- Tokens of a page. -/
def pageTokens (st : Stream) : Nat := 2 ^ st.pageLog2

/-- The page that holds a position. -/
def pageOf (pages : List KvPage) (layer head slot page : Nat) : Option KvPage :=
  pages.find? fun p => p.layer == layer && p.head == head && p.slot == slot && p.page == page

/-- The key and the value of a position. -/
def kvAt (st : Stream) (pages : List KvPage) (layer head slot pos : Nat) : Option (KvTok × KvTok) :=
  match pageOf pages layer head slot (pos / pageTokens st) with
  | some p => match p.k[pos % pageTokens st]?, p.v[pos % pageTokens st]? with
    | some k, some v => some (k, v)
    | _, _ => none
  | none => none

/-- Bytes of a page (R223). -/
def pageBytes (pageLog2 kvFmt d : Nat) : Nat :=
  let t := 2 ^ pageLog2
  let w := if kvFmt == 5 then 8 else 4
  64 + 2 * (t * d * w / 8) + 2 * (64 * cdiv (t * (d / 32) * 2) 64)

/-- FILL: positions whose key and value are both written. -/
def fill (p : KvPage) : Nat := min p.k.length p.v.length

/-- Element i of a token, dequantised exactly. -/
def kvElem (t : KvTok) (i : Nat) : F32 :=
  match decodeF fp16F (nth t.scales (i / 32) 0).toNat with
  | .fin n m e => let c := nth t.codes i 0; fv32 (.fin (n != decide (c < 0)) (m * c.natAbs) e)
  | .inf n => let c := nth t.codes i 0; if c == 0 then nan32 else inf32 (n != decide (c < 0))
  | .nan => nan32

/-! ## Scores and the running state (R209, R211, R212) -/

/-- A query head row: its codes and its A_SCALE. -/
structure Query where
  codes : List Int
  scale : F32
  deriving DecidableEq, Repr

/-- The score against one key (R209). -/
def score (a : AttnDecl) (q : Query) (k : KvTok) : F32 :=
  let s := (List.range (a.headDim / 32)).foldl (fun s b =>
    let dot := (List.range 32).foldl (fun (x : Int) i => x + nth q.codes (32 * b + i) 0 * nth k.codes (32 * b + i) 0) 0
    add32 s (mul32 (ofInt32 dot 0) (fp16to32 (nth k.scales b 0)))) 0
  mul32 s (mul32 q.scale a.smScale)

/-- The start of a row's running state. -/
def rowStart (a : AttnDecl) (row head : Nat) : RowRun := ⟨row, head, ninf32, 0, List.replicate a.headDim 0⟩

/-- The maximum of scores that are numbers, and `m`. -/
def maxScore (m : F32) (ss : List F32) : F32 := ss.foldl (fun x s => if isNan32 s then x else max32 x s) m

/-- One visible position's share. -/
def addPos (mc : F32) (r : RowRun) (s : F32) (v : KvTok) : RowRun :=
  let p := exp32 (sub32 s mc)
  { r with l := add32 r.l p, o := r.o.mapIdx fun i x => add32 x (mul32 p (kvElem v i)) }

/-- One chunk's update of a row (R211). A NaN score poisons the row (R212). -/
def chunkStep (r : RowRun) (vis : List (F32 × KvTok)) : RowRun :=
  let mc := maxScore r.m (vis.map (·.1))
  if vis.any (fun p => isNan32 p.1) then { r with l := nan32, o := r.o.map fun _ => nan32, m := mc }
  else if mc == ninf32 then r
  else
    let a := exp32 (sub32 r.m mc)
    let r1 := { r with l := mul32 a r.l, o := r.o.map fun x => mul32 a x }
    let r2 := vis.foldl (fun r p => addPos mc r p.1 p.2) r1
    { r2 with m := mc }

/-- The outputs of a finished row; a row that saw only -infinity is poisoned. -/
def rowOut (r : RowRun) : List F32 :=
  if isNan32 r.l || r.l == 0 then r.o.map fun _ => nan32 else r.o.map fun x => mul32 x (recip32 r.l)

/-- The visible positions of chunk `c` of a row, with their scores and values. -/
def chunkOf (st : Stream) (pages : List KvPage) (a : AttnDecl) (layer kvHead : Nat) (q : Query) (row : QRow) (c : Nat) : List (F32 × KvTok) :=
  (List.range 32).filterMap fun i =>
    let j := 32 * c + i
    if j < row.vis then (kvAt st pages layer kvHead row.slot j).map fun kv => (score a q kv.1, kv.2) else none

/-- The query of a row and query head, from its column blocks (R202). -/
def queryOf (a : AttnDecl) (blocks : List Block) (row head : Nat) : Query :=
  { codes := (List.range a.headDim).map fun i =>
      let e := head * a.headDim + i
      match blocks[e / 512]? with
      | some b => intCode b.fmt (nth (nth b.codes row []) (e % 512) 0)
      | none => 0
    scale := match blocks[0]? with | some b => nth b.aScale row 0 | none => 0 }

/-- The (row, head, chunk) units of a forward segment in the order they run. -/
def attnUnits (a : AttnDecl) (rows : List QRow) (sg : Seg) : List (Nat × Nat × Nat) :=
  (List.range sg.rn).flatMap fun r => (List.range sg.hn).flatMap fun h =>
    let n := if sg.cn == 0 then ((rows[sg.r0 + r]?).map (·.chunks)).getD 0 else sg.cn
    (List.range n).map fun c => (sg.r0 + r, sg.unit * a.group + sg.h0 + h, sg.c0 + c)

/-- The running states with which a segment starts: from the partial record, or fresh (R983). -/
def startRows (a : AttnDecl) (sg : Seg) (parts : List RowRun) : List RowRun :=
  (List.range sg.rn).flatMap fun r => (List.range sg.hn).map fun h =>
    let row := sg.r0 + r
    let head := sg.unit * a.group + sg.h0 + h
    (if sg.c0 == 0 then none else parts.find? fun x => x.row == row && x.head == head).getD (rowStart a row head)

/-- The effect of one unit on the running states. -/
def runUnit (st : Stream) (pages : List KvPage) (a : AttnDecl) (layer : Nat) (blocks : List Block) (rows : List QRow)
    (runs : List RowRun) (u : Nat × Nat × Nat) : List RowRun :=
  runs.map fun r =>
    if r.row == u.1 && r.head == u.2.1 then
      match rows[u.1]? with
      | some q => if q.pos.isNone then r else
          chunkStep r (chunkOf st pages a layer (u.2.1 / a.group) (queryOf a blocks u.1 u.2.1) q u.2.2)
      | none => r
    else r

/-! ## Backward steps (R242) -/

/-- Dot product in FP32, each step rounded, ascending. -/
def dot32 (xs ys : List F32) : F32 := (xs.zip ys).foldl (fun s p => add32 s (mul32 p.1 p.2)) 0

/-- A gradient buffer's vector, zeros where it has none. -/
def gradOf (g : List ((Nat × Nat × Nat) × List F32)) (k : Nat × Nat × Nat) (d : Nat) : List F32 := (g.lookup k).getD (List.replicate d 0)

/-- x += s × y, each product and sum rounded. -/
def axpy (s : F32) (x y : List F32) : List F32 := List.zipWith (fun a b => add32 a (mul32 s b)) x y

/-- Keys of the gradient buffers: dQ by row and head, dK and dV by slot, KV head and position (log entry 18). -/
def keyQ (layer row head : Nat) : Nat × Nat × Nat := (layer, 0, row * 256 + head)
def keyK (layer slot head pos : Nat) : Nat × Nat × Nat := (layer, 1, (slot * 64 + head) * 32768 + pos)
def keyV (layer slot head pos : Nat) : Nat × Nat × Nat := (layer, 2, (slot * 64 + head) * 32768 + pos)

/-- One query head row of a backward step: its number, head and row, its query, its output gradient and its log-sum-exp. -/
structure BackRow where
  rowN : Nat
  head : Nat
  row : QRow
  q : Query
  dO : List F32
  lse : F32
  deriving DecidableEq, Repr

/-- A visible position of a backward row: its key, and P and dP (R242). -/
def backPos (st : Stream) (pages : List KvPage) (a : AttnDecl) (layer : Nat) (b : BackRow) (j : Nat) : Option (KvTok × F32 × F32) :=
  (kvAt st pages layer (b.head / a.group) b.row.slot j).map fun kv =>
    (kv.1, exp32 (sub32 (score a b.q kv.1) b.lse), dot32 b.dO ((List.range a.headDim).map (kvElem kv.2)))

/-- The sum D of pass A over `n` positions from `j0` on, from the sum of those before (R242, R983). -/
def backSum (st : Stream) (pages : List KvPage) (a : AttnDecl) (layer : Nat) (b : BackRow) (j0 n : Nat) (d0 : F32) : F32 :=
  (List.range (min n (b.row.vis - j0))).foldl (fun d i => match backPos st pages a layer b (j0 + i) with
    | some x => add32 d (mul32 x.2.1 x.2.2)
    | none => d) d0

/-- The gradients of one query head row, from its sum D: dV of pass A, and dQ and dK of pass B (R242). -/
def backRow (st : Stream) (pages : List KvPage) (a : AttnDecl) (layer : Nat) (b : BackRow) (dSum : F32) (g : List ((Nat × Nat × Nat) × List F32)) :
    List ((Nat × Nat × Nat) × List F32) :=
  let d := a.headDim
  let kvHead := b.head / a.group
  (List.range b.row.vis).foldl (fun g j => match backPos st pages a layer b j with
    | none => g
    | some (key, p, dP) =>
      let dS := mul32 p (sub32 dP dSum)
      let kv := keyV layer b.row.slot kvHead j
      let kq := keyQ layer b.rowN b.head
      let kk := keyK layer b.row.slot kvHead j
      let g1 := assocSet kv (axpy p (gradOf g kv d) b.dO) g
      let g2 := assocSet kq (axpy (mul32 dS a.smScale) (gradOf g1 kq d) ((List.range d).map (kvElem key))) g1
      assocSet kk (axpy (mul32 dS (mul32 b.q.scale a.smScale)) (gradOf g2 kk d) (b.q.codes.map fun c => ofInt32 c 0)) g2) g

end Sys2Proof.Machine
end

