-- ==== Sys2Proof/Machine/Tollgate.lean ====
section
/-! DEFINITION. The tollgate's engine-time admission (07 R430 to R441), the mapping of logical engines, strand records, and the
re-test when capacity falls (R469, R470). -/

namespace Sys2Proof.Machine

/-- Minimum rates of Table 1-1 as counts per 1,024 ticks. -/
def minRate : List Nat := [6250, 11875, 16666, 21875, 25625]

/-- The planning rate of an engine (R430). A pacer limit in 6.10 fixed point, multiplied by 1,024, is its count per 1,024
ticks. -/
def planRate (s : State) (e : EngineId) : Nat :=
  let en := s.engines.get e
  let base := s.power.opBase
  let floor := nth minRate base.1 6250
  let seen := (en.windows.filter (·.point == base)).map (·.rate)
  let avail := if s.power.opForce == base && !seen.isEmpty then minOf floor seen else (en.rateAt.get base).getD floor
  let lims := [en.limits.powerCap, en.limits.thermal, en.limits.steward].filter (· != 65535)
  lims.foldl min (avail * 15 / 16)

/-- Ticks of n wavefronts or steps on an engine (R432); an engine with no rate takes more than any deadline. -/
def cost (s : State) (n : Nat) (e : EngineId) : Nat := if planRate s e == 0 then 2 ^ 40 else cdiv (n * 1024) (planRate s e)

/-- What the tollgate tests of a stream: its handle, priority, period (its deadline for a job, R436), deadline, itinerary, and
mapping. -/
structure Task where
  handle : Nat
  prio : Nat
  per : Nat
  dl : Nat
  itin : Itin
  map : List EngineId
  maxRows : Nat
  maxPos : Nat
  ragged : Bool
  backward : Bool
  deriving DecidableEq, Repr

/-- The task of an open stream. -/
def taskOf (it : Itin) (st : Stream) : Task :=
  ⟨st.handle, st.prio, if st.period == 0 then st.deadline else st.period, st.deadline, it, st.map, st.maxRows, st.maxPos, st.ragged, st.backward⟩

/-- Chunks of the largest row (R988). -/
def maxChunks (t : Task) : Nat := if t.ragged then cdiv t.maxPos 32 else cdiv (pow2At (max 16 t.maxPos)) 32

/-- Attention steps of a layer in the largest frame (R988). -/
def attnCost (t : Task) (a : AttnDecl) : Nat := t.maxRows * a.kvHeads * a.group * maxChunks t * stepsPer a t.backward

/-- Work of logical engine `lg` on a resource: the cost table's field wavefronts, and the attention layers' steps. -/
def workOf (t : Task) (lg : Nat) (r : Res) : Nat :=
  let sec := sectionOf t.itin
  match r with
  | .field => (sec.costs[lg]?.map (·.field)).getD 0
  | .attn => if !onPipes t.itin then 0 else total ((sec.layers.filter (·.engine == lg)).map fun ly => match ly.body.attn with | some a => attnCost t a | none => 0)

/-- Logical engines of a section on this die. -/
def logicals (t : Task) : Nat := (sectionOf t.itin).costs.length

/-- Work of a task on an engine's resource (R432). -/
def workOn (t : Task) (e : EngineId) (r : Res) : Nat :=
  total ((List.range t.map.length).map fun lg => if nth t.map lg 0 == e then workOf t lg r else 0)

/-- Longest segment of an attention layer (R986). -/
def longestSeg (t : Task) (a : AttnDecl) : Nat :=
  let row := a.group * stepsPer a t.backward * maxChunks t
  if row == 0 then 0
  else if row ≤ 32768 then row * min (min 64 t.maxRows) (32768 / row)
  else stepsPer a t.backward * maxChunks t

/-- SPAN: the cost table's, plus each attention layer's longest segment (R986). -/
def spanOf (t : Task) : Nat :=
  (sectionOf t.itin).span + total ((sectionOf t.itin).layers.map fun ly => match ly.body.attn with
    | some a => if onPipes t.itin then longestSeg t a else 0
    | none => 0)

/-- C(s) on an engine's resource. -/
def taskC (s : State) (t : Task) (e : EngineId) (r : Res) : Nat := cost s (workOn t e r) e + 64

/-- The test of one task on one engine's resource against the others (R432, R438). -/
def passOne (s : State) (ts : List Task) (e : EngineId) (r : Res) (t : Task) : Bool :=
  if workOn t e r == 0 then true
  else
    let b := cost s 32768 e + 491
    let i := total ((ts.filter fun j => j.handle != t.handle && decide (j.prio ≤ t.prio) && workOn j e r != 0).map fun j =>
      cdiv t.dl (max 1 j.per) * taskC s j e r)
    decide (taskC s t e r + b + i ≤ t.dl)

/-- The test on every engine and resource for a set of guaranteed tasks. -/
def passAll (s : State) (ts : List Task) : Bool :=
  (fins 7).all fun e => ts.all fun t => passOne s ts e .field t && passOne s ts e .attn t

/-- The span test of the new task (R432). -/
def spanOk (s : State) (t : Task) : Bool :=
  let used := t.map.filter fun e => workOn t e .field != 0 || workOn t e .attn != 0
  let es := if used.isEmpty then t.map else used
  match es with
  | [] => true
  | e :: r =>
    let slow := r.foldl (fun a b => if planRate s b < planRate s a then b else a) e
    decide (cost s (spanOf t) slow + 64 ≤ t.dl)

/-- Distinct activation tables that the mapped logical engines of all admitted work put on an engine (R987). -/
def tablesOn (ts : List Task) (e : EngineId) : List (Nat × Nat) :=
  (ts.flatMap fun t => ((sectionOf t.itin).layers.filter fun ly => nth t.map ly.engine 7 == e).flatMap fun ly =>
    ([ly.body] ++ ly.lean.toList).filterMap fun b => b.table.map fun x => (t.itin.handle, x)).eraseDups
where nth (l : List EngineId) (i : Nat) (_ : Nat) : Option EngineId := l[i]?

/-- The table limit holds on every engine. -/
def tablesOk (ts : List Task) : Bool := (fins 7).all fun e => decide ((tablesOn ts e).length ≤ 8)

/-- A number that names the work of another die's stream among the tasks; a stream's handle is below 65,536. -/
def guestKey (home : FabId) (h : Nat) : Nat := (home.toNat + 1) * 65536 + h

/-- The work here of another die's stream, as a task. -/
def guestTask (g : Guest) : Task :=
  ⟨guestKey g.home g.handle, g.prio, if g.period == 0 then g.deadline else g.period, g.deadline, g.it, g.map, g.maxRows, g.maxPos, g.ragged, g.backward⟩

/-- Tasks of other dies' streams that hold engine time. -/
def guestTasks (s : State) : List Task := (s.fabric.guests.filter (·.guaranteed)).map guestTask

/-- Every open stream, and the work of every other die's, as a task. -/
def openTasks (s : State) : List Task := (s.streams.filterMap fun st => (itinOf s st.itin).map fun it => taskOf it st) ++ s.fabric.guests.map guestTask

/-- The tasks that hold engine time: guaranteed and not lost; a job whose run has finished holds none (R436). -/
def guarTasks (s : State) : List Task :=
  (s.streams.filterMap fun st =>
    if isGuar st && st.st != .lost && !(st.period == 0 && st.st == .drained) then (itinOf s st.itin).map fun it => taskOf it st else none) ++ guestTasks s

/-- Extend a mapping by one logical engine: the lowest-numbered engine not yet chosen on which the test passes, else one
already chosen (R433). -/
def mapNext (s : State) (guar : Bool) (others all : List Task) (engines : List EngineId) (t : Task) : Option Task :=
  let ok (e : EngineId) : Bool :=
    let t' := { t with map := t.map ++ [e] }
    (!guar || passAll s (others ++ [t'])) && tablesOk (all ++ [t'])
  let fresh := engines.filter fun e => !t.map.contains e
  match (fresh ++ engines.filter fun e => t.map.contains e).find? ok with
  | some e => some { t with map := t.map ++ [e] }
  | none => none

/-- Map every logical engine (R433). -/
def mapAll (s : State) (guar : Bool) (others all : List Task) (engines : List EngineId) : Nat → Task → Option Task
  | 0, t => some t
  | k + 1, t => (mapNext s guar others all engines t).bind (mapAll s guar others all engines k)

/-- Admission of engine time (R432 to R435): the mapping, or none. -/
def admitEngines (s : State) (guar : Bool) (t : Task) : Option (List EngineId) :=
  let others := (guarTasks s).filter (·.handle != t.handle)
  let all := (openTasks s).filter (·.handle != t.handle)
  match mapAll s guar others all (servingEngines s) (logicals t) { t with map := [] } with
  | some t' => if guar && !spanOk s t' then none else some t'.map
  | none => none

/-- Strand records held on this die, by its streams and by other dies' (R406, R985). -/
def strandsHeld (s : State) : Nat :=
  total (s.streams.map fun st => match itinOf s st.itin with | some it => it.steps | none => 0) + total (s.fabric.guests.map (·.it.steps))

/-! ## Capacity loss (R469, R470, R825) -/

/-- Replace an engine in a mapping. -/
def remap (a b : EngineId) (m : List EngineId) : List EngineId := m.map fun e => if e == a then b else e

/-- Streams in the order of the re-test: ascending PRIORITY, then order of opening. -/
def retestOrder (s : State) : List Stream :=
  (List.range 8).flatMap fun p => (s.streams.filter fun st => st.prio == p && isGuar st && st.st != .lost)

/-- A mapping for a stream that lost engine `e`: its other logical engines stay; the lost ones go to the lowest-numbered engine
that passes, else (untested) to the lowest-numbered one in service (log entry 19). -/
def remapLost (s : State) (guar : Bool) (setT : List Task) (e : EngineId) (t : Task) : Option (List EngineId) :=
  let es := servingEngines s
  let try_ (m : List EngineId) : Bool :=
    (!guar || passAll s (setT ++ [{ t with map := m }])) && tablesOk (setT ++ [{ t with map := m }])
  if !t.map.contains e then (if try_ t.map then some t.map else none)
  else ((es.map fun x => remap e x t.map).find? try_)

/-- The re-test (R470): streams are added one at a time, to the work that other dies' streams keep here (log entry 59); gives the new mappings
of those kept, and the handles demoted. -/
def retest (s : State) (e : EngineId) : List (Nat × List EngineId) × List Nat :=
  let r := (retestOrder s).foldl (fun (acc : List Task × List (Nat × List EngineId) × List Nat) st =>
    match itinOf s st.itin with
    | none => acc
    | some it =>
      let t := taskOf it st
      match remapLost s true acc.1 e t with
      | some m => (acc.1 ++ [{ t with map := m }], acc.2.1 ++ [(st.handle, m)], acc.2.2)
      | none => (acc.1, acc.2.1, acc.2.2 ++ [st.handle])) (guestTasks s, [], [])
  (r.2.1, r.2.2)

/-- Apply a re-test: kept streams take their mappings; the others are demoted and, with best-effort streams, mapped without a
test. -/
def applyRetest (s : State) (e : EngineId) (kept : List (Nat × List EngineId)) (demoted : List Nat) : State :=
  let low := (servingEngines s).head?
  let lowMap (m : List EngineId) : List EngineId := match low with | some x => remap e x m | none => m
  { s with
    fabric := { s.fabric with guests := s.fabric.guests.map fun g => { g with map := lowMap g.map } }
    streams := s.streams.map fun st =>
      let m := match kept.lookup st.handle with
        | some m => m
        | none => lowMap st.map
      let dem := demoted.contains st.handle
      { st with map := m, demoted := st.demoted || dem
                frame := st.frame.map fun fr => { fr with segs := fr.segs.map fun sg =>
                  if sg.engine == e && sg.st != .committed then { sg with engine := nth m sg.logical 0 } else sg } } }

/-- CAPACITY_REDUCED in parts of 21 handles, ascending (R642). -/
def capacityReduced (s : State) (e : EngineId) (demoted : List Nat) : State :=
  let hs := demoted.insertionSort (· ≤ ·)
  let parts := max 1 (cdiv hs.length 21)
  (List.range parts).foldl (fun t i =>
    let l := slice hs (21 * i) 21
    postEvent t 0x03 (put 16 1 e.1 + put 17 1 (servingEngines s).length + put 18 1 i + put 19 1 parts + put 20 2 hs.length
      + total (l.mapIdx fun k h => put (22 + 2 * k) 2 h))) s

end Sys2Proof.Machine
end

