-- ==== Sys2Proof/Machine/Moves.lean ====
section
/-! DEFINITION. Frames ended by faults, staged copies, and the moves that frames and commands issue (05, 07). -/

namespace Sys2Proof.Machine

/-! ## Frames ended by a fault (R313, R316, R463, R464) -/

/-- Take a stream's work off the engines: its uncommitted segments are discarded. -/
def clearStream (s : State) (h : Nat) : State :=
  modEngines s fun en =>
    let f := match en.field with | some f => f.stream == h | none => false
    let a := match en.attn with | some a => a.stream == h | none => false
    { en with
        field := if f then none else en.field, drain := if f then none else en.drain
        acc := if f then [] else en.acc, check := if f then [] else en.check
        shadow := if f then [] else en.shadow, shadowCheck := if f then [] else en.shadowCheck
        attn := if a then none else en.attn }

/-! ## Homes and tiers -/

/-- The tier of a global address: T3 where another die holds it. -/
def tierOf (s : State) (a : Nat) : Nat :=
  if gid a != s.fabric.id then 3
  else match window (glocal a) with | .t0 _ => 0 | .t1 => 1 | .t2 _ => 2 | .t4 => 4 | .reserved => 7

/-- The home of an image item. -/
def homeOf (it : Itin) (off : Nat) : Nat := (it.homes.lookup off).getD 0

/-- Length of an image item. -/
def itemLen (img : Image) (off : Nat) : Nat := match img.items.find? (·.off == off) with | some i => i.len | none => 0

/-- The timeout of a source tier for a stream's moves; T0 and T1 have none. -/
def timeoutOf (st : Stream) (tier : Nat) : Nat :=
  let t := match st.frame with | some fr => fr.timeouts | none => st.timeouts
  if tier == 2 then t.get 0 else if tier == 3 then t.get 1 else if tier == 4 then t.get 2 else 0

/-- The default timeout of a tier (Table 5-5). -/
def defaultTimeout (tier : Nat) : Nat := if tier == 2 then 4915 else if tier == 3 || tier == 4 then 49152 else 0

/-- Bytes a stream has staged, or has moves for, in a tier. -/
def stagedIn (s : State) (h tier : Nat) : Nat :=
  total ((s.mem.staged.filter fun c => c.stream == h && c.tier == tier).map (·.bytes))
  + total ((s.mem.moves.filter fun m => m.purpose == .frame h && m.dstTier == tier && m.issued.isSome).map (·.len))

/-- A stream's staging reservation in a tier (R274, R285). -/
def stagingOf (it : Itin) (tier : Nat) : Nat := if tier == 0 then (sectionOf it).peakT0 else (sectionOf it).peakT1

/-! ## KV pages among the moves -/

/-- Number of a KV page among a stream's moves. -/
def kvItem (layer head slot page : Nat) : Nat := 2 ^ 40 + ((layer * 64 + head) * 1024 + slot) * 2048 + page

/-- The page a frame's page move is for. -/
def movePage (m : Move) (p : KvPage) : Bool := m.item == kvItem p.layer p.head p.slot p.page

/-- A move of a frame reads or writes a KV page. -/
def isPageMove (m : Move) : Bool := decide (2 ^ 40 ≤ m.item)

/-- A page move of a frame writes a sealed page into a lower tier. -/
def isSealMove (m : Move) : Bool := isPageMove m && m.srcTier == 1

/-- A seal move of a page whose seal is part of the stream's committed pages: no frame's end undoes it (R229). -/
def sealKept (st : Stream) (m : Move) : Bool := isSealMove m && st.pages.any fun p => p.isSealed && movePage m p

/-- Slots whose pages a frame reads, and for each the positions its rows may see: those of the entries that bring rows (R238). -/
def frameSlots (fr : Frame) : List (Nat × Nat) := (fr.feed.seqs.filter (·.new != 0)).map fun e => (e.slot, baseLen fr.lengths e + e.new)

/-- FAULT of a KV page (Table 10-10). -/
def kvFault (p : KvPage) : W64 :=
  BitVec.ofNat 64 (put 0 2 p.slot + put 2 1 p.layer + put 3 1 p.head + put 4 2 p.page + put 6 2 p.home.toNat)

/-- FKIND and FAULT of a frame's move: its page, or its source (Table 10-10). -/
def moveFault (fr : Frame) (m : Move) : Nat × W64 :=
  match (if isPageMove m then fr.pages.find? (movePage m) else none) with
  | some p => (2, kvFault p)
  | none => (1, BitVec.ofNat 64 m.src)

/-! ## New moves of a frame -/

/-- A move for a stream, not issued yet. -/
def frameMove (s : State) (st : Stream) (layer item src srcTier len dstTier lastUse : Nat) (pin switch : Bool) (engine : Option EngineId) : Move :=
  { id := s.mem.moveNext, purpose := .frame st.handle, layer := layer, item := item, srcTier := srcTier, src := src, dstTier := dstTier
    dst := 0, len := len, switch := switch, lastUse := lastUse, pin := pin, issued := none, timeout := timeoutOf st srcTier, engine := engine }

/-- Put a move in the list of moves. -/
def putMove (s : State) (m : Move) : State := { s with mem := { s.mem with moves := s.mem.moves ++ [m], moveNext := s.mem.moveNext + 1 } }

/-- The frame of another stream of the itinerary that uses a copy in T1: it has issued the schedule entry for the item, and has not
completed the layer that uses it last (R275). -/
def reliedOn (s : State) (itin item h : Nat) : Option (Stream × BitVec 128) :=
  s.streams.findSome? fun o =>
    if o.handle == h || o.itin != itin then none
    else match o.frame, itinOf s itin with
      | some fr, some it =>
        if fr.fault.isSome then none
        else ((sectionOf it).schedule.find? fun e =>
          schedSrc e == item && schedDest e == 1 && fr.started.contains (schedTrigger e) && (schedPin e || !layerDone fr (schedLast e))).map fun e => (o, e)
      | _, _ => none

/-- Items of an itinerary that are no longer in T1, or on their way there, are fetched again from their homes for the frames that rely on
them (R317): the moves wait in the list and are issued from there. -/
def refetch (s : State) (h : Nat) (items : List (Nat × Nat)) : State :=
  items.foldl (fun t x => match reliedOn t x.1 x.2 h, itinOf t x.1 with
    | some (o, e), some it =>
      let a := homeOf it x.2
      putMove t (frameMove t o (schedTrigger e) x.2 a (tierOf t a) (itemLen it.img x.2) 1 (schedLast e) (schedPin e) false none)
    | _, _ => t) s

/-- The copies in T1, and moves into it, of a stream that a test selects, by itinerary and item. -/
def sharedOf (s : State) (st : Stream) (copy : Staged → Bool) (move : Move → Bool) : List (Nat × Nat) :=
  (((s.mem.staged.filter fun c => c.stream == st.handle && c.tier == 1 && copy c).map (·.item))
    ++ ((s.mem.moves.filter fun m => m.purpose == .frame st.handle && m.dstTier == 1 && !isPageMove m && move m).map (·.item))).eraseDups.map fun i => (st.itin, i)

/-- End a stream's frame with a fault status, once: the first fault detected stands (R320). Its moves are dropped, and the copies landed
for it are released (R317), pinned ones too; a frame of another stream that relied on them fetches them again. -/
def endFrame (s : State) (h : Nat) (st : Status) (tier kind : Nat) (info : W64) : State :=
  match streamOf s h, (streamOf s h).bind (·.frame) with
  | some x, some fr =>
    if fr.fault.isSome then s
    else
      let s1 := clearStream (modFrame s h fun fr => { fr with fault := some (st.code, tier, kind, info), lastCommit := now s }) h
      let mine (c : Staged) : Bool := !c.pin || c.release == fr.release
      let ends (m : Move) : Bool := m.purpose == .frame h && !sealKept x m
      let s2 := { s1 with mem := { s1.mem with
          moves := s1.mem.moves.filter fun m => !ends m
          staged := s1.mem.staged.filter fun c => !(c.stream == h && mine c) } }
      refetch ((s1.mem.moves.filter ends).foldl (fun t m => dropOutstanding t m.id) s2) h (sharedOf s x mine ends)
  | _, _ => s

/-- The log record of a tier fault's location (0x0401). -/
def logTierFault (s : State) (addr h : Nat) : State := logDie s 0x0401 0xFF 2 (put 0 8 addr + put 8 2 h)

/-- End a frame with TIER_FAULT at a global address. -/
def tierFault (s : State) (h tier addr : Nat) : State :=
  match (streamOf s h).bind (·.frame) with
  | none => s
  | some fr => if fr.fault.isSome then s else logTierFault (endFrame s h .tierFault tier 1 (BitVec.ofNat 64 addr)) addr h

/-- End a frame on one of its moves. -/
def endOnMove (s : State) (h : Nat) (m : Move) (st : Status) (tier : Nat) : State :=
  match (streamOf s h).bind (·.frame) with
  | none => s
  | some fr => if fr.fault.isSome then s else logTierFault (endFrame s h st tier (moveFault fr m).1 (moveFault fr m).2) m.src h

/-! ## Issuing moves (R259, R268, R271 to R275, R322) -/

/-- What issuing a frame's move to its source tier does at once: a read from another die leaves, or ends the frame where that die
cannot be reached (R370); a read from the host ends it while the link is down (R322). -/
def startRead (s : State) (h : Nat) (m : Move) : State :=
  if m.srcTier == 4 then (if s.host.linkUp then s else endOnMove s h m .tierFault 4)
  else if m.srcTier == 3 then (if reachable s (gid m.src) then readRemote s m.id m.src m.len else endOnMove s h m .neighbourLost 3)
  else s

/-- Issue a move that is in the list, which makes it the newest of its source tier (R273). -/
def issueMove (s : State) (h : Nat) (m : Move) : State :=
  let m1 := { m with issued := some (now s) }
  startRead { s with mem := { s.mem with moves := s.mem.moves.filter (fun x => x.id != m.id) ++ [m1] } } h m1

/-- Add a move of a frame: issued at once where it may be and fits, else held (R274). -/
def queueMove (s : State) (it : Itin) (h : Nat) (m : Move) (may : Bool) : State :=
  let s1 := putMove s m
  if may && (decide (stagedIn s h m.dstTier + m.len ≤ stagingOf it m.dstTier) || m.switch) then issueMove s1 h m else s1

/-- Add a move of a frame from a home. -/
def addMove (s : State) (st : Stream) (it : Itin) (layer item src len dstTier lastUse : Nat) (pin switch : Bool) : State :=
  queueMove s it st.handle (frameMove s st layer item src (tierOf s src) len dstTier lastUse pin switch none) true

/-- An item can be read from T1: its home lies there, or a staged copy. -/
def inT1 (s : State) (it : Itin) (item : Nat) : Bool :=
  tierOf s (homeOf it item) == 1 || s.mem.staged.any fun c => c.item == item && c.itin == it.handle && c.tier == 1

/-- A read-only tile is already staged, or on its way, in T1 for the itinerary (R275). -/
def stagedT1 (s : State) (itin item : Nat) : Bool :=
  (s.mem.staged.any fun c => c.item == item && c.tier == 1 && c.itin == itin)
  || s.mem.moves.any fun m => m.item == item && m.dstTier == 1 && (match m.purpose with | .frame h => ((streamOf s h).map (·.itin)) == some itin | _ => false)

/-- The same in the T0 of an engine, for a stream. -/
def stagedT0 (s : State) (h item : Nat) (e : EngineId) : Bool :=
  (s.mem.staged.any fun c => c.item == item && c.tier == 0 && c.stream == h && c.engine == some e)
  || s.mem.moves.any fun m => m.item == item && m.dstTier == 0 && m.purpose == .frame h && m.engine == some e

/-- Move an item into the T0 of an engine, from T1 (R259); where it is not in T1 yet it goes there first, and the move into T0 waits. -/
def moveToT0 (s : State) (st : Stream) (it : Itin) (layer item lastUse : Nat) (pin : Bool) (e : EngineId) : State :=
  let a := homeOf it item
  let n := itemLen it.img item
  let s1 := if tierOf s a == 1 || stagedT1 s it.handle item then s else addMove s st it layer item a n 1 lastUse pin false
  queueMove s1 it st.handle (frameMove s1 st layer item a 1 n 0 lastUse pin false (some e)) (inT1 s1 it item)

/-- Issue the schedule entries that the start of a layer triggers, in order (R268). -/
def issueSchedule (s : State) (h layer : Nat) : State :=
  match streamOf s h, (streamOf s h).bind fun st => itinOf s st.itin with
  | some st, some it =>
    ((sectionOf it).schedule.filter fun e => schedTrigger e == layer).foldl (fun t e =>
      if schedDest e == 0 then
        let g := nth st.map (schedEngine e) 0
        if stagedT0 t h (schedSrc e) g then t else moveToT0 t st it layer (schedSrc e) (schedLast e) (schedPin e) g
      else if stagedT1 t st.itin (schedSrc e) then t
      else addMove t st it layer (schedSrc e) (homeOf it (schedSrc e)) (itemLen it.img (schedSrc e)) 1 (schedLast e) (schedPin e) false) s
  | _, _ => s

/-- The T0 of engine `e` is lost to a stream whose mapping was `old`: what was staged there, or on its way, goes to the engine that has
taken the place (R268, R469). -/
def restage (s : State) (e : EngineId) (h : Nat) (old : List EngineId) : State :=
  match streamOf s h, (streamOf s h).bind fun st => itinOf s st.itin with
  | some st, some it =>
    match (old.zip st.map).find? fun x => x.1 == e with
    | none => s
    | some (_, g) =>
      if g == e then s
      else
        let lost := s.mem.staged.filter fun c => c.stream == h && c.engine == some e
        let s1 := { s with mem := { s.mem with
          staged := s.mem.staged.filter fun c => !(c.stream == h && c.engine == some e)
          moves := s.mem.moves.map fun m => if m.purpose == .frame h && m.engine == some e then { m with engine := some g } else m } }
        if st.frame.isNone then s1 else lost.foldl (fun t c => moveToT0 t st it c.lastUse c.item c.lastUse c.pin g) s1
  | _, _ => s

/-- Where a page below T1 is read from: its place in a loan or a room, or the T2 of this die. -/
def pageSrc (s : State) (p : KvPage) : Nat := if p.tier == 3 then p.addr else gaddr s (if p.addr == 0 then t2Base else p.addr)

/-- The page walk of an attention layer: its pages whose homes lie below T1 are requested when the frame starts the layer's lead (R271);
a backward frame, which runs the attention layers alone, requests them as it starts the layer. A DAMAGED page is not read. -/
def issuePages (s : State) (h layer : Nat) : State :=
  match streamOf s h, (streamOf s h).bind fun st => itinOf s st.itin with
  | some st, some it =>
    match st.frame with
    | none => s
    | some fr =>
      let due := ((sectionOf it).layers.mapIdx fun l ly => (l, ly)).filterMap fun p =>
        match (bodyOf p.2 fr.lean).attn with | some a => if (if fr.feed.backward then p.1 else a.lead) == layer then some (p.1, a) else none | none => none
      due.foldl (fun t la =>
        let pages := fr.pages.filter fun p => p.layer == la.1 && 2 ≤ p.tier && !p.damaged && (frameSlots fr).any fun x => x.1 == p.slot
        pages.foldl (fun t p =>
          addMove t st it la.1 (kvItem p.layer p.head p.slot p.page) (pageSrc t p)
            (pageBytes st.pageLog2 st.kvFmt la.2.headDim) 1 la.1 false true) t) s
  | _, _ => s

/-- A frame starts a layer: its first segment there starts (R268, R271). -/
def frameStartsLayer (s : State) (h layer : Nat) : State := issuePages (issueSchedule s h layer) h layer

/-- Release the copies a completed layer was the last to use (R270). A copy in T1 that a frame of another stream of the itinerary still
uses passes to that stream (R275; log entry 145). -/
def releaseAfter (s : State) (h layer : Nat) : State :=
  { s with mem := { s.mem with staged := s.mem.staged.filterMap fun c =>
      if !(c.stream == h && !c.pin && c.lastUse == layer) then some c
      else match (if c.tier == 1 then reliedOn s c.itin c.item h else none) with
        | some (o, e) => some { c with stream := o.handle, lastUse := schedLast e, release := (o.frame.map (·.release)).getD 0 }
        | none => none } }

/-- A DAMAGED page that an attention layer of the frame would read (R257). -/
def damagedPage (fr : Frame) (layer head : Nat) : Option KvPage :=
  fr.pages.find? fun p => p.layer == layer && p.head == head && p.damaged && (frameSlots fr).any fun x => x.1 == p.slot

/-- End a frame on a DAMAGED page: NEIGHBOUR_LOST where its home was lost with its lender, else TIER_FAULT (R256, R257). -/
def endOnPage (s : State) (h : Nat) (p : KvPage) : State :=
  logTierFault (endFrame s h (if p.lostHome then .neighbourLost else .tierFault) p.tier 2 (kvFault p)) (p.home.toNat <<< 48) h

end Sys2Proof.Machine
end

