-- ==== Sys2Proof/Machine/EngineFault.lean ====
section
/-! DEFINITION. Engine faults: retirement, the lay-by engine's engagement, replay, and loss of capacity (14 R819 to R832). -/

namespace Sys2Proof.Machine

/-- An engine emptied of its work. -/
def emptied (en : Engine) : Engine :=
  { en with field := none, attn := none, acc := [], check := [], shadow := [], shadowCheck := [], high := [], drain := none, swapHeldAt := none }

/-- The segments an engine has in flight. -/
def inFlight (en : Engine) : List (Nat × Seg) :=
  (en.field.toList.map fun f => (f.stream, f.seg)) ++ (en.attn.toList.map fun a => (a.stream, a.seg))

/-- Queue the replay of a segment (R819): it runs again from its waymark inputs, ahead of other work; a replay that is itself
cut off adds its term to the frame's replay latency (R821, R831). -/
def queueReplay (s : State) (x : Nat × Seg) : State :=
  modFrame s x.1 fun fr =>
    let fr1 := if x.2.replay then { fr with replayLat := fr.replayLat + elapsed s x.2.faultAt } else fr
    { modSeg fr1 x.2 (fun g => { g with st := .waiting, replay := true, faultAt := now s }) with replayed := true }

/-- Number of a segment in the log (0x0101): its layer, unit and place in the chain. -/
def segNumber (g : Seg) : Nat := g.layer % 256 * 2 ^ 24 + g.unit % 4096 * 2 ^ 12 + g.idx % 4096

/-- Streams whose mapping names an engine. -/
def mappedTo (s : State) (e : EngineId) : List Stream := s.streams.filter fun st => st.map.contains e

/-- Move an engine's mapping to E6 (R469). -/
def moveMapping (s : State) (e : EngineId) : State :=
  { s with
    fabric := { s.fabric with guests := s.fabric.guests.map fun g => { g with map := remap e 6 g.map } }
    streams := s.streams.map fun st =>
      { st with map := remap e 6 st.map
                frame := st.frame.map fun fr => { fr with segs := fr.segs.map fun g =>
                  if g.engine == e && g.st != .committed then { g with engine := 6 } else g } } }

/-- What streams had in the T0 of a retired engine goes to the engines that their mappings name now; `before` has the mappings of before
(R268, R469). -/
def restageAll (before s : State) (e : EngineId) : State :=
  (before.streams.filter fun st => st.map.contains e).foldl (fun t st => restage t e st.handle st.map) s

/-- End with INTERNAL every frame that still needs an engine, when none is left in service (R828). -/
def endAllInternal (s : State) : State :=
  if !(servingEngines s).isEmpty then s
  else (s.streams.filter fun st => match st.frame with
      | some fr => fr.segs.any (·.st != .committed)
      | none => false).foldl (fun t st => endFrame t st.handle .internal 7 0 0) s

/-- An engine fault (R819 to R832). `cause` is the CAUSE of ENGINE_RETIRED. -/
def engineFault (s : State) (e : EngineId) (cause : Nat) : State :=
  let en := s.engines.get e
  if en.life == .retired || !hasEngine s.fuses.variant e.1 then s
  else
    let cut := inFlight en
    let s1 := cut.foldl queueReplay s
    let free := e != 6 && (s.engines.get 6).life == .laybyFree
    let s2 := modEngine { s1 with power := { s1.power with unshaped := true } } e fun en =>
      { emptied en with life := .retired, windows := [], partner := if free then some 6 else en.partner }
    let s3 := cut.foldl (fun t x => logDie t 0x0101 e.1 2 (put 0 4 (segNumber x.2) + put 4 1 cause)) s2
    let s4 := faultStanding s3 0x0701 e.1 (put 0 1 e.1 + put 1 1 cause + put 2 1 (if free then 6 else 0xFF))
    let s5 := postEvent s4 0x01 (put 16 1 e.1 + put 17 1 cause + put 18 2 cut.length + put 20 8 (now s))
    if free then
      let n := (mappedTo s5 e).length
      let s6 := modEngine s5 6 fun x => { x with life := .laybyEngaged, partner := some e, selfTest := none }
      postEvent (restageAll s5 (moveMapping s6 e) e) 0x02 (put 16 1 6 + put 17 1 e.1 + put 18 2 n)
    else
      let r := retest s5 e
      endAllInternal (capacityReduced (restageAll s5 (applyRetest s5 e r.1 r.2) e) e r.2)

/-- A failed self-test of a free E6 (R826). -/
def laybyFailed (s : State) (cause : Nat) (detail : Byte) : State :=
  let s1 := modEngine s 6 fun en => { emptied en with life := .selfTestFailed, selfTest := none }
  let s2 := logDie s1 0x0102 6 2 (put 0 1 detail.toNat)
  let s3 := faultStanding s2 0x0701 6 (put 0 1 6 + put 1 1 cause + put 2 1 0xFF)
  postEvent s3 0x01 (put 16 1 6 + put 17 1 cause + put 20 8 (now s))

end Sys2Proof.Machine
end

