-- ==== Sys2Proof/Machine/Mail.lean ====
section
/-! DEFINITION. What every mailbox command shares (10): its fields, its reserved bytes, which commands run, records written to
the host, and handles. -/

namespace Sys2Proof.Machine

/-- A field of the command's entry. -/
def arg (m : MailCmd) (off len : Nat) : Nat := fld m.entry off len

/-- A field at every bit of `len` bytes from `off`. -/
def full (off len : Nat) : Nat := put off len (2 ^ (8 * len) - 1)

/-- The argument bits each opcode lists (Tables 10-3 to 10-20); every other bit of bytes 8 to 63 is reserved (R577). -/
def argBits (op : Nat) : Nat :=
  match op with
  | 0x02 => full 8 12
  | 0x03 => full 8 1 + put 9 1 1
  | 0x10 => full 8 2 + full 12 6
  | 0x11 => full 8 2
  | 0x12 => full 8 3 + full 12 4
  | 0x13 => full 8 16
  | 0x14 => full 8 10 + put 18 1 1 + full 24 16
  | 0x20 => full 8 12
  | 0x21 => full 8 2
  | 0x22 => full 8 2 + put 10 1 0x1F + put 11 1 0xBF + put 12 1 0x3F + full 13 1 + put 14 1 3 + full 16 18
  | 0x23 => full 8 2 + full 16 8
  | 0x24 => full 8 2 + put 10 1 1 + full 12 32
  | 0x25 => full 8 2
  | 0x26 => full 8 2
  | 0x27 => full 8 4
  | 0x28 => full 8 4
  | 0x29 => full 8 2 + put 10 2 0x1FF + put 12 1 0x3F + put 13 1 0x3F + put 14 1 0x3F + full 16 16
  | 0x30 => full 8 4
  | 0x31 => full 8 12
  | 0x32 => full 8 1
  | 0x33 => full 8 1 + full 10 2
  | 0x40 => full 8 1
  | 0x41 => full 8 8
  | 0x42 => full 8 1
  | 0x50 => full 8 1 + full 16 12
  | 0x51 => full 8 2
  | 0x52 => full 8 2
  | 0x53 => full 8 1
  | 0x60 => full 8 2
  | 0x61 => full 8 1 + full 12 16
  | 0x62 => full 8 6 + full 16 12
  | 0x70 => full 8 3 + put 11 1 0x83 + full 12 10
  | 0x71 => full 8 1 + put 9 1 0x3F + full 10 6 + put 16 1 0x33
  | _ => 0

/-- A reserved bit of the entry is set (R20, R577, Table 9-9). -/
def reserved (m : MailCmd) : Bool :=
  let e := m.entry.toNat
  let open_ := full 0 1 + put 1 1 3 + full 2 2 + argBits (mailOpcode m)
  e &&& open_ != e

/-- Run a command's effect: the firmware is READY, the command is accepted and has opcode `op`; a command that meets a
firmware fault completes with INTERNAL (R582). -/
def onMail (m : MailCmd) (op : Nat) (s : State) (f : State → State) : State :=
  if !ready s || !s.host.accepted.any (sameCmd m) || mailOpcode m != op then s
  else if m.fwFault then complete s m .internal 0
  else f s

/-- Refuse with the first status that holds and no result, or go on. -/
def refuse (s : State) (m : MailCmd) (l : List (Bool × Status)) (go : State → State) : State :=
  match firstStatus l with
  | some st => complete s m st 0
  | none => go s

/-- Write a record to BUF and complete with its length, as R580 and R585 set. -/
def writeRecord (s : State) (m : MailCmd) (buf len : Nat) (rec_ : List Byte) (extra : Nat) : State :=
  if buf % 64 != 0 || decide (2 ^ 24 < len) then complete s m .badArgument 0
  else if len < rec_.length then complete s m .badArgument (put 8 4 rec_.length)
  else if !s.host.linkUp then complete s m .tierFault 0
  else complete (emit s (.hostWrite buf rec_)) m .ok (put 8 4 rec_.length + extra)

/-- A command may name an object: its own tenant's, or any from channel 0 (R542). -/
def mayName (s : State) (m : MailCmd) (tenant : Nat) : Bool := m.ch == 0 || mailTenant s m == tenant

/-- The stream a command names, where it may. -/
def namedStream (s : State) (m : MailCmd) (h : Nat) : Option Stream := (streamOf s h).filter fun t => mayName s m t.tenant
/-- The itinerary a command names, where it may. -/
def namedItin (s : State) (m : MailCmd) (h : Nat) : Option Itin := (itinOf s h).filter fun t => mayName s m t.tenant
/-- The region a command names, where it may. -/
def namedRegion (s : State) (m : MailCmd) (h : Nat) : Option Region := (regionOf s h).filter fun t => mayName s m t.tenant

/-- Run a command on the stream it names: no such stream is BAD_ARGUMENT, a lost one STREAM_LOST, a resuming one BUSY unless the
arguments are bad, which ranks first (R20, R581, R584, R586). -/
def onStream (s : State) (m : MailCmd) (h : Nat) (bad : Stream → Bool) (f : Stream → State) : State :=
  match namedStream s m h with
  | none => complete s m .badArgument 0
  | some st =>
    if st.st == .lost then complete s m .streamLost 0
    else if st.st == .resuming then complete s m (if bad st then .badArgument else .busy) 0
    else f st

/-- Capability discovery is complete (R583, R906). -/
def discovered (s : State) : Bool := s.fw.discovered

/-- Bytes of a record from fields placed at their offsets. -/
def record (len v : Nat) : List Byte := leBytes len v

end Sys2Proof.Machine
end

