-- ==== Sys2Proof/Machine/Oppoint.lean ====
section
/-! DEFINITION. Caps, the highest operating point allowed, changes of the operating point, and what they do to catch-up
(01 R39 to R52, 07 R449, R462, 12 R692 to R714, 11 R649, R652). -/

namespace Sys2Proof.Machine

/-! ## Caps and the highest point allowed (R692, R702 to R710, R737) -/

/-- VLOG of each operating point, in mV (Table 1-1). -/
def vlogMv : List Int := [500, 600, 680, 750, 820]

/-- The VID code of an operating point: V = 0.400 V + 5 mV × code, between 0.470 and 0.910 V (R649, R652, R743). -/
def vidCode (s : State) (n : Fin 5) : Nat := (max 14 (min 102 ((nth vlogMv n.1 500 + s.power.trimMv - 400) / 5))).toNat

/-- Millivolts of a VID code (R649). -/
def vidMv (code : Nat) : Nat := 400 + 5 * code

/-- The cap in force (R703). -/
def capInForce (s : State) : Nat := minOf 130000 (s.power.hostCap.toList ++ s.power.stewardCap.toList)

/-- The lowest alarm target of the domains in alarm (R663). -/
def alarmTarget (s : State) : Option Nat :=
  match s.seq.pdn.toList.filterMap (fun d => if d.alarm then d.alarmTarget else none) with
  | [] => none
  | a :: r => some (r.foldl min a)

/-- The cap target T (R692, R703). -/
def capTarget (s : State) : Nat := match alarmTarget s with | some a => min a (capInForce s) | none => capInForce s

/-- An operating point is allowed by the cap (R707, R710). -/
def capAllows (s : State) (n : Fin 5) : Bool := n == 0 || decide (4 * s.fuses.pFull.get n ≤ 5 * capTarget s)

/-- Whether a variant carries the unit a thermal sensor belongs to (Table 12-3). -/
def sensorPresent (v : Variant) (n : Nat) : Bool :=
  if n < 7 then hasEngine v n else if 11 ≤ n ∧ n ≤ 14 then hasPort v (2 * (n - 11)) else true

/-- Sensors of present units. -/
def sensorsOf (s : State) : List SensorId := (fins 16).filter fun n => sensorPresent s.fuses.variant n.1

/-- Highest level of any sensor. -/
def hottestLevel (s : State) : Nat := maxOf 0 ((sensorsOf s).map fun n => (s.power.sensors.get n).level)

/-- A point that neither the cap, nor WARN (Table 12-4), nor a confirmed droop (R720) excludes. -/
def pointOpen (s : State) (n : Fin 5) : Bool :=
  capAllows s n && !(n == 4 && decide (1 ≤ hottestLevel s)) &&
    (match s.power.droopLimit with | some l => decide (n.1 ≤ l.1) | none => true)

/-- The highest point that the power cap and the thermal limits allow (R45, R708, R737). -/
def highestAllowed (s : State) : Fin 5 :=
  let top := maxOf 0 (((fins 5).filter (pointOpen s)).map (·.1))
  ⟨(top - s.power.thermalDrop) % 5, Nat.mod_lt _ (by decide)⟩

/-! ## Limits from a fraction of the rate (R704, R711, R736, R738, R808) -/

/-- The rate last measured at the point in force: that of a window, or of the reading at the end of the stop; before there is one, the
point's minimum (R27, R30, Table 1-2 step 6; log entry 125). -/
def rateAvail (s : State) (e : EngineId) : Nat := ((s.engines.get e).rateAt.get s.power.opForce).getD (nth minRate s.power.opForce.1 6250)

/-- A fraction in 1/65536 of an engine's rate, as a pacer limit; the whole rate is no limit. -/
def fractionLimit (rate frac : Nat) : Nat := if 65536 ≤ frac then 65535 else min 65534 (rate * frac / 65536)

/-- Set one source's limit on every engine from the engine's rate. -/
def setLimits (s : State) (f : Limits → Nat → Limits) : State :=
  { s with engines := vmapIdx (fun i en => { en with limits := f en.limits (rateAvail s ⟨i % 7, Nat.mod_lt _ (by decide)⟩) }) s.engines }

/-- The STEWARD source's limit: half the rate while the steward sets it (Table 13-6, R808). -/
def applySteward (s : State) : State := setLimits s fun l r => { l with steward := fractionLimit r (if s.power.stewardHalf then 32768 else 65536) }

/-- The POWER_CAP source's limit from φ, never below 0.25 wavefronts per tick (R704, R711). -/
def applyCap (s : State) : State :=
  setLimits s fun l r => { l with powerCap := if 65536 ≤ s.power.phi then 65535 else max 256 (fractionLimit r s.power.phi) }

/-- The THERMAL source's limit from the controller's fraction: 0 at CRITICAL, none below THROTTLE (R736 to R738). -/
def applyThermal (s : State) : State :=
  let phi := if hottestLevel s == 3 then 0 else if hottestLevel s == 2 then s.power.thermPhi else 65536
  setLimits s fun l r => { l with thermal := fractionLimit r phi }

/-- Every engine's limits anew from a fresh reading of its replica chain, in counts per 1,024 ticks (Table 1-2 step 6). No
command reports that reading: it is a free value (log entry 156). -/
def freshLimits (s : State) : State :=
  let s1 := { s with free := s.free + 7, engines := vmapIdx (fun i en =>
    { en with rateAt := vmod en.rateAt s.power.opForce fun _ => some (Config.freeNat (s.free + i) * en.calib / 65536) }) s.engines }
  applyThermal (applySteward (applyCap s1))

/-- A stream on the die has BOOST active (R461). -/
def boostActive (s : State) : Bool := s.streams.any fun st => st.active.contains .boost

/-- The point the firmware wants, limits apart: OP4 under BOOST, else the base point (R45). -/
def wantedPoint (s : State) : Fin 5 := if boostActive s then 4 else s.power.opBase

/-- The lower of two points. -/
def minPoint (a b : Fin 5) : Fin 5 := if a.1 ≤ b.1 then a else b

/-! ## Operating-point changes (R46 to R49) -/

/-- A change requested with this cause waits for a gap (R47). -/
def waitsForGap : OpCause → Bool
  | .host => true | .boostReturn => true | .trim => true | .boost => false | .limit => false | .steward => false

/-- ΔI of R722 in mA, from the slope in quarters of an ampere per microsecond. -/
def slopeStepMa (s : State) : Nat := s.power.slope * 250 * 246000 / 24576

/-- A pre-ramp has begun: the windows left until its release are those its rise takes, the last of them ending in the release's own (R726,
Table 12-6). -/
def preRampBegun (s : State) : Bool :=
  match s.power.preRamp with
  | some (ma, t) => within s t (246 * ((ma - s.power.lastMa.getD 0 + (slopeStepMa s - 1)) / max 1 (slopeStepMa s) - 1) + 1)
  | none => false

/-- A ramp-down of a mass barrier has begun (R49, R724): ballast carries the current down, and no pre-ramp has begun. -/
def rampingDown (s : State) : Bool :=
  s.power.rampDown || (!preRampBegun s && s.engines.toList.any fun en => en.estBallast != 0)

/-- The change begins: its approach starts, after a ramp-down in progress (R49). -/
def beginChange (s : State) (target : Fin 5) (trim : Bool) : State :=
  { s with power := { s.power with
      change := some ⟨if rampingDown s then .waiting else .approach, s.power.opForce, target, now s, trim⟩, preRamp := none } }

/-- A change request (R46 to R48): a change in progress latches it; one that is deferred is replaced, or dropped by a request for
the point in force. The target is never above what the limits allow (R45). -/
def requestOp (s : State) (target : Fin 5) (cause : OpCause) : State :=
  let t := minPoint target (highestAllowed s)
  let trim := cause == .trim
  match s.power.change with
  | some c =>
    if c.phase != .deferred then { s with power := { s.power with latched := some t } }
    else if t == s.power.opForce && !trim && !c.trim then { s with power := { s.power with change := none } }
    else if waitsForGap cause then { s with power := { s.power with change := some { c with target := t, trim := c.trim || trim } } }
    else beginChange s t c.trim
  | none =>
    if t == s.power.opForce && !trim then s
    else if waitsForGap cause then
      { s with power := { s.power with change := some ⟨.deferred, s.power.opForce, t, now s, trim⟩ } }
    else beginChange s t trim

/-! ## Catch-up measures (R449, R450, R462, R465) -/

/-- Guaranteed work, and an itinerary with a lean variant, decide what is available (Table 7-5). -/
def measureOpen (s : State) (st : Stream) : Measure → Bool
  | .boost => isGuar st && highestAllowed s == 4
  | .lean => match itinOf s st.itin with | some it => (sectionOf it).layers.any fun l => l.lean.isSome | none => false
  | .postpone => isGuar st

/-- Activate the next available measure of an order that is not active; BOOST requests OP4 at once. Gives the measure. -/
def activateBy (s : State) (h : Nat) (order : List Measure) : State × Option Measure :=
  match streamOf s h with
  | none => (s, none)
  | some st =>
    match order.find? fun m => !st.active.contains m && measureOpen s st m with
    | none => (s, none)
    | some m =>
      let s1 := modStream s h fun st => { st with active := st.active ++ [m], used := if st.used.contains m then st.used else st.used ++ [m] }
      (if m == .boost then requestOp s1 4 .boost else s1, some m)

/-- The same by the CU_ORDER in force. -/
def activateNext (s : State) (h : Nat) : State × Option Measure := activateBy s h (match streamOf s h with | some st => st.cuOrder | none => [])

/-- Note the tick at which the cap target changed (R703, R705, R706). -/
def noteTarget (s : State) : State :=
  if capTarget s == s.power.target then s else { s with power := { s.power with target := capTarget s, targetAt := now s } }

/-- Bring the point in force, the hold of R709 and the catch-up measures into line with the highest point allowed now
(R45, R462, R709, R713, R714): a lower limit acts at once, on the point in force and on the target of a change under way; a higher one
acts after its hold. The tick of a change of the cap target is noted (R705, R706). -/
def limitCheck (s0 : State) : State :=
  let s := noteTarget s0
  let h := highestAllowed s
  let lost4 := (s.power.allowedAt.get 4).isSome && h != 4
  let s1 := { s with power := { s.power with
    allowedAt := vmapIdx (fun n a => if n ≤ h.1 then (match a with | some t => some t | none => some (now s)) else none) s.power.allowedAt } }
  let s2 : State := if lost4 then
      (s1.streams.filter fun st => st.active.contains .boost).foldl (fun t st => (activateNext t st.handle).1) s1
    else s1
  let heading : Fin 5 := match s2.power.change with | some c => if c.phase == .deferred then s2.power.opForce else c.target | none => s2.power.opForce
  if h.1 < max s2.power.opForce.1 heading.1 && headsAbove s2 h then requestOp s2 (minPoint (wantedPoint s2) h) .limit else s2
where
  /-- Neither the change under way nor its latched successor already ends at or below the point. -/
  headsAbove (s : State) (h : Fin 5) : Bool :=
    match s.power.change with
    | some c => c.phase == .deferred || (match s.power.latched with | some t => decide (h.1 < t.1) | none => decide (h.1 < c.target.1))
    | none => true

/-- OP_CHANGE_REQUEST (R45 to R48). A point above the base point is reached only under BOOST. -/
def execOpChangeRequest (target : Fin 5) (cause : OpCause) (s : State) : Res' :=
  .next <| if !ready s then s else requestOp s (if cause == .trim then s.power.opForce else minPoint target (wantedPoint s)) cause

/-- No admitted stream has a frame released and not completed (R47): every stream and job on the die counts (log entry 137). -/
def gap (s : State) : Bool := s.streams.all fun st => st.frame.isNone

/-- Begin a deferred change, unless the limits have made it no change at all. -/
def beginDeferred (s : State) (c : OpChange) : State :=
  let t := minPoint c.target (highestAllowed s)
  if t == s.power.opForce && !c.trim then { s with power := { s.power with change := none } } else beginChange s t c.trim

/-- OP_CHANGE_GAP_START (R47). -/
def execOpChangeGapStart (s : State) : Res' :=
  .next <| match s.power.change with
    | some c => if c.phase == .deferred && gap s then beginDeferred s c else s
    | none => s

/-- OP_CHANGE_DEFER_TIMEOUT (R47). -/
def execOpChangeDeferTimeout (s : State) : Res' :=
  .next <| match s.power.change with
    | some c => if c.phase == .deferred && passed s c.since 24576 then beginDeferred s c else s
    | none => s

/-- An engine stands at a tile boundary: nothing runs on it or drains. -/
def atBoundary (en : Engine) : Bool := en.field.isNone && en.attn.isNone && en.drain.isNone

/-- OP_STOP_BEGIN (R40, Table 1-2 steps 1 and 2): every engine in service has reached its boundary; issue is held at zero, the
detectors are masked, and the new set-point goes to the regulator. -/
def execOpStopBegin (s : State) : Res' :=
  .next <| match s.power.change with
    | some c =>
      if c.phase != .approach || !((servingEngines s).all fun e => atBoundary (s.engines.get e)) then s
      else
        let code := vidCode s c.target
        let s1 := modEngines s fun en => { en with limits := { en.limits with stop := 0 }, droopHold := none }
        emit { s1 with power := { s1.power with
          change := some { c with phase := .stop, since := now s }, masked := true, settled := false, stopSeen := true
          vid := code, vidTarget := code, vidOld := s.power.vidTarget } } (.vid code)
    | none => s

/-- The stop ends and issue resumes (R41, R42, R48): the point is in force, the limits are those of a fresh reading of the replica chains
(Table 1-2 step 6), and a latched target that differs begins anew. -/
def endStop (s : State) (c : OpChange) (settled : Bool) : State :=
  let s1 := modEngines s fun en => { en with limits := { en.limits with stop := 65535 } }
  let s2 := freshLimits { s1 with power := { s1.power with
    change := none, opForce := c.target, masked := false, settled := settled, opStops := s.power.opStops + 1
    opStopTicks := s.power.opStopTicks + elapsed s c.since, latched := none
    slowRefMv := if settled then none else some (min (vidMv s.power.vidOld) (vidMv s.power.vidTarget)) } }
  match s.power.latched with
  | none => s2
  | some t => let t' := minPoint t (highestAllowed s2); if t' == c.target then s2 else beginChange s2 t' false

/-- OP_STOP_SETTLED (R41, R51, Table 1-2 steps 5 and 6): no stop is shorter than the fixed parts without a slew; VLOG that
settles after the limit re-arms the detectors against the new target. -/
def execOpStopSettled (s : State) : Res' :=
  .next <| match s.power.change with
    | some c =>
      if c.phase == .stop then (if passed s c.since 58 && !passed s c.since 492 then endStop s c true else s)
      else if s.power.settled then s else { s with power := { s.power with settled := true, slowRefMv := none } }
    | none => if s.power.settled then s else { s with power := { s.power with settled := true, slowRefMv := none } }

/-- OP_STOP_TIMEOUT (R51): issue resumes with VLOG `shortMv` short of its target. -/
def execOpStopTimeout (shortMv : Nat) (s : State) : Res' :=
  .next <| match s.power.change with
    | some c =>
      if c.phase != .stop || !passed s c.since 491 then s
      else
        let s1 := endStop s c false
        logDie { s1 with power := { s1.power with slowReg := s1.power.slowReg + 1 } } 0x0202 0xFF 1 (put 0 2 shortMv)
    | none => s

/-- APPROACH_TIMEOUT (R52). -/
def execApproachTimeout (e : EngineId) (s : State) : Res' :=
  .next <|
    let en := s.engines.get e
    if approachingNow s && inService s e && !atBoundary en && decide (8192 ≤ en.unheld) then engineFault s e 3 else s
where approachingNow (s : State) : Bool := match s.power.change with | some c => c.phase == .approach | none => false

end Sys2Proof.Machine
end

