-- ==== Sys2Proof/Machine/Loans.lean ====
section
/-! DEFINITION. Capacity, lending and borrowing (05 R284 to R310): what a reservation request needs, loans given and held, recalls
and recall rooms, and commands that wait for capacity. -/

namespace Sys2Proof.Machine

/-- The memory's bookkeeping changed. -/
def modMem (s : State) (f : Mem → Mem) : State := { s with mem := f s.mem }

/-! ## What a request needs (R285, R287, R292, R296) -/

/-- Two needs ask for the same capacity: the same tier and, on T2, the same channel, or either of them any channel. -/
def sameCapacity (x y : Need) : Bool := x.tier == y.tier && (x.tier != 2 || x.chan.isNone || y.chan.isNone || x.chan == y.chan)

/-- Granules that the requests accepted before request `req`, and still waiting for recalls or loans, are to have of the capacity a
need asks of (R295). -/
def claimed (s : State) (req : Nat) (x : Need) : Nat :=
  total ((s.mem.waiting.filter (·.req < req)).map fun w => total ((w.needs.filter (sameCapacity x)).map (·.n)))

/-- The request an owner waits for. -/
def reqOf (s : State) : Owner → Nat
  | .wait r => r
  | _ => s.mem.reqNext

/-- Granules free for a need of a request: what no reservation and no loan covers, less what requests before it are to have. -/
def freeFor (s : State) (req : Nat) (x : Need) : Nat :=
  (if x.tier == 2 then
    match x.chan with
    | some c => freeChan s c
    | none => if x.spread then freeOn s 2 else maxOf 0 ((fins 4).map (freeChan s))
  else freeOn s x.tier) - claimed s req x

/-- Granules a list of needs asks of the capacity of one of them. -/
def askedOn (l : List Need) (x : Need) : Nat :=
  if x.tier == 2 && x.chan.isNone && !x.spread then x.n else total ((l.filter fun y => y.tier == x.tier && (x.tier != 2 || x.chan.isNone || y.chan == x.chan)).map (·.n))

/-- The channel a T2 need is met on: the one it names, or the lowest-numbered with room for all its granules (R287). -/
def chanFor (s : State) (x : Need) : Option (McId × Option Nat) :=
  ((match x.chan with | some c => [c] | none => fins 4).filter fun c => decide (0 < chanAllocatable s c) && decide (x.n ≤ freeChan s c)).findSome? fun c =>
    if x.placed then (placeOn s 2 c x.n).map fun b => (c, some b) else some (c, none)

/-- Granules lent that a need could have back. -/
def lentFor (s : State) (x : Need) : Nat :=
  if x.tier == 2 then
    match x.chan with
    | some c => lentChan s c.1
    | none => if x.spread then lentOn s 2 else maxOf 0 ((fins 4).map fun c => lentChan s c.1)
  else lentOn s x.tier

/-- Take a need's granules for an owner; none where they are not free. T3 needs are met by loans, before this is asked. -/
def takeNeed (s : State) (o : Owner) (tenant : Nat) (x : Need) : Option State :=
  if x.n == 0 || x.tier == 3 then some s
  else if freeFor s (reqOf s o) x < x.n then none
  else if x.tier == 2 then
    if x.chan.isNone && x.spread then
      let r := (fins 4).foldl (fun (a : State × Nat) c =>
        let k := min a.2 (freeChan a.1 c)
        if k == 0 then a else (reserve a.1 o tenant 2 c.1 k none, a.2 - k)) (s, x.n)
      if r.2 == 0 then some r.1 else none
    else (chanFor s x).map fun c => reserve s o tenant 2 c.1.1 x.n c.2
  else if x.placed && x.tier == 1 then (placeOn s 1 0 x.n).map fun b => reserve s o tenant 1 0 x.n (some b)
  else some (reserve s o tenant x.tier 0 x.n none)

/-- Take every need, or none (R293). -/
def takeAll (s : State) (o : Owner) (tenant : Nat) : List Need → Option State
  | [] => some s
  | x :: r => (takeNeed s o tenant x).bind fun t => takeAll t o tenant r

/-- Granules that needs ask of a tier. -/
def needOn (l : List Need) (tier : Nat) : Nat := total ((l.filter (·.tier == tier)).map (·.n))

/-- A request would take the tenant beyond its quota on some tier (R292); `held` are T3 granules it already holds for this. -/
def needsOverQuota (s : State) (tenant : Nat) (l : List Need) (held : Nat) : Bool :=
  [0, 1, 2, 3].any fun t => decide (needOn l t != 0) && overQuota s tenant t (needOn l t - (if t == 3 then held else 0))

/-- Every need of a request could be met once what is lent has come back. -/
def withRecalls (s : State) (req : Nat) (l : List Need) : Bool := l.all fun x => x.tier == 3 || decide (askedOn l x ≤ freeFor s req x + lentFor s x)

/-- Every need of a request can be met from what is free now. -/
def withoutRecalls (s : State) (req : Nat) (l : List Need) : Bool := l.all fun x => x.tier == 3 || decide (askedOn l x ≤ freeFor s req x)

/-! ## Recalls, on the lender's side (R301, R302, R595) -/

/-- A recall notice is outstanding to a borrower. -/
def recallOut (s : State) (b : FabId) : Bool := s.mem.lent.any fun l => l.borrower == b && l.recallAt.isSome

/-- The newest loan due for recall whose borrower has no recall outstanding. -/
def nextRecall (s : State) : Option Lent :=
  (s.mem.lent.filter fun l => l.due && l.recallAt.isNone && !recallOut s l.borrower).foldl
    (fun b l => match b with | none => some l | some x => if x.serial < l.serial then some l else b) none

/-- Send the recall notices that may be sent, one to each borrower at a time. -/
def sendRecalls (s : State) : State :=
  s.mem.lent.foldl (fun t _ =>
    match nextRecall t with
    | none => t
    | some l =>
      let t1 := modMem t fun m => { m with lent := m.lent.map fun x => if x.serial == l.serial then { x with recallAt := some (now s) } else x }
      sendMgmt { t1 with fabric := { t1.fabric with recalledN := t1.fabric.recalledN + 1 } } l.borrower (.recallNotice l.base)) s

/-- Mark loans, newest first, until `short0` granules are due back; loans already due count toward it. -/
def markDue (s : State) (p : Lent → Bool) (short0 : Nat) : State :=
  let short := short0 - total ((s.mem.lent.filter fun l => p l && l.due).map (·.granules))
  let newest := (s.mem.lent.filter fun l => p l && !l.due).reverse
  let pick := newest.foldl (fun (a : List Nat × Nat) l => if short ≤ a.2 then a else (a.1 ++ [l.serial], a.2 + l.granules)) ([], 0)
  modMem s fun m => { m with lent := m.lent.map fun l => if pick.1.contains l.serial then { l with due := true } else l }

/-- Recall what the needs of a request are short of (R296). -/
def recallNeeds (s : State) (req : Nat) (l : List Need) : State :=
  sendRecalls (l.foldl (fun t x =>
    let short := askedOn l x - freeFor t req x
    if x.tier == 3 || short == 0 then t
    else markDue t (fun y => y.tier == x.tier && (match x.chan with | some c => window y.base == .t2 c.1 | none => true)) short) s)

/-- Complete the MEM_QUOTA_SET commands whose recall notices have all been sent (R595). -/
def finishLimits (s : State) : State :=
  if s.mem.lent.any fun l => l.due && l.recallAt.isNone then s
  else
    (s.mem.waiting.filter fun w => (w.cmd.map mailOpcode) == some 0x12).foldl (fun t w =>
      match w.cmd with
      | none => t
      | some m =>
        complete (modMem t fun x => { x with waiting := x.waiting.filter (·.req != w.req) }) m .ok
          (put 8 4 w.need + put 12 4 (lentOn t (arg m 10 1)))) s

/-- A loan given comes back. -/
def takeBack (s : State) (b : FabId) (base : Nat) : State :=
  finishLimits (sendRecalls (modMem s fun m => { m with lent := m.lent.filter fun l => !(l.borrower == b && glocal l.base == glocal base) }))

/-- Room to lend n granules of a tier (R297, R305, R308): within the lend limit, free, and not wanted by a command of this die. -/
def lendPlace (s : State) (tier n : Nat) : Option Nat :=
  let r := s.mem.reqNext
  if s.fabric.isolating.isSome || s.fabric.isolatedAt.isSome || !(tier == 1 || tier == 2) || n == 0 || decide (128 < n) then none
  else if nth s.mem.lendLimit.toList tier 0 < lentOn s tier + n || (s.mem.lent.any fun l => l.due && l.tier == tier) then none
  else if tier == 1 then (if n ≤ freeFor s r ⟨1, none, n, true, false⟩ then placeOn s 1 0 n else none)
  else (fins 4).findSome? fun c =>
    if decide (0 < chanAllocatable s c) && decide (n ≤ freeFor s r ⟨2, some c, n, true, false⟩) then placeOn s 2 c n else none

/-! ## Seeking loans (R299, R303, R304, R306, R360, R591) -/

/-- The loan search of a request is for only copies: sealed KV pages, and pages that leave a recall room. -/
def onlyCopyWait (w : Waiting) : Bool := match w.cmd with | none => true | some m => mailOpcode m != 0x10

/-- Rooms a die has assigned. -/
def roomOf (s : State) (l : FabId) : Option (Fin 8) := (fins 8).find? fun i => s.mem.rooms.get i == some l
def freeRoom (s : State) : Option (Fin 8) := (fins 8).find? fun i => (s.mem.rooms.get i).isNone

/-- A lender's room holds copies that a recall put there (R303). -/
def roomTaken (s : State) (l : FabId) : Bool := s.mem.roomUsed.any (·.1 == l)

/-- Hops to a die, by dimension order or over its via die. -/
def distance (f : Fabric) (d : FabId) : Option Nat :=
  match hops f f.id d with
  | some h => some h
  | none => match f.relay.lookup d with
    | some v => (match hops f f.id v, hops f v d with | some a, some b => some (a + b) | _, _ => none)
    | none => none

/-- Lenders a request may ask next, each for its T2 and then its T1: within the borrow radius and reachable, nearest first, and for
only copies those with a room first (R304) and none whose recall has used its room (R303). -/
def lenders (s : State) (w : Waiting) : List FabId :=
  let f := s.fabric
  let named := w.cmd.isSome && w.named != 0xFFFF
  let near :=
      let l := ((if named then [w.named] else allDies f).filterMap fun d => (distance f d).map fun h => (h, d)).filter fun x => x.2 != f.id && decide (x.1 ≤ s.mem.radius)
      (l.insertionSort fun a b => a.1 < b.1 || (a.1 == b.1 && decide (a.2.toNat ≤ b.2.toNat))).map (·.2)
  let ok := near.filter fun d => reachable s d && decide ((w.tried.filter (· == d)).length < 2)
  if !onlyCopyWait w then ok
  else if s.mem.fwArea.isNone then []
  else
    let ok' := ok.filter fun d => !roomTaken s d && !(w.cmd.isNone && d == w.named)
    (ok'.filter fun d => (roomOf s d).isSome) ++ (if (freeRoom s).isSome then ok'.filter fun d => (roomOf s d).isNone else [])

/-- Change a waiting request. -/
def modWait (s : State) (req : Nat) (f : Waiting → Waiting) : State :=
  modMem s fun m => { m with waiting := m.waiting.map fun w => if w.req == req then f w else w }

/-- Ask the next lender for a waiting request; gives whether one is left to ask. At most 8 packets stand unanswered to one die (R360). -/
def askLender (s : State) (req : Nat) : State × Bool :=
  match s.mem.waiting.find? (·.req == req) with
  | none => (s, true)
  | some w =>
    if w.ask.isSome then (s, true)
    else match lenders s w with
      | [] => (s, false)
      | d :: _ =>
        if !mayAsk s d then (s, true)
        else
          (sendMgmt (modWait s req fun w => { w with ask := some d }) d (.loanRequest req (if w.tried.contains d then 1 else 2) (min 128 w.need)), true)

/-- The same request asked again, once another was answered. -/
def askAll (s : State) : State := (s.mem.waiting.filter fun w => w.ask.isNone && w.need != 0 && (w.cmd.map mailOpcode) != some 0x12).foldl (fun t w => (askLender t w.req).1) s

/-- Put a request in the list of those that wait, with what it is to reserve here. -/
def addWaiting (s : State) (cmd : Option MailCmd) (need : Nat) (named : FabId) (img : Option Image) (needs : List Need) : State × Nat :=
  let r := s.mem.reqNext
  (modMem s fun m => { m with waiting := m.waiting ++ [⟨cmd, r, need, none, [], named, img, needs⟩], reqNext := r + 1 }, r)

/-- Drop a waiting request. -/
def dropWaiting (s : State) (req : Nat) : State := modMem s fun m => { m with waiting := m.waiting.filter (·.req != req) }

/-- The waiting record of a command. -/
def waitOf (s : State) (m : MailCmd) : Option Waiting := s.mem.waiting.find? fun w => match w.cmd with | some x => sameCmd m x | none => false

/-- The number of a command's request: the one it waits under, or the next. -/
def reqFor (s : State) (m : MailCmd) : Nat := match waitOf s m with | some w => w.req | none => s.mem.reqNext

/-- Give back the loans an owner holds: each is returned to its lender (R288). -/
def returnLoans (s : State) (o : Owner) : State :=
  (s.mem.reserved.filter fun r => r.owner == o && r.tier == 3).foldl (fun t r =>
    match r.base with
    | none => t
    | some b =>
      let t1 := modMem t fun m => { m with loans := m.loans.filter fun l => !(l.lender == gid b && l.base == b) }
      if t.mem.loans.any (fun l => l.base == b) then sendMgmt t1 (gid b) (.loanReturn (glocal b)) else t1) s

/-- An address lies in a run of granules. -/
def inRange (a base n : Nat) : Bool := decide (base ≤ a) && decide (a < base + n * 65536)

/-- A loan holds the only copies of something: what it was taken for, sealed pages, snapshots, or homes of items. -/
def holdsOnly (s : State) (l : Loan) : Bool :=
  let onPage (p : KvPage) : Bool := p.tier == 3 && inRange p.addr l.base l.granules
  l.onlyCopies || (s.streams.any fun st => st.pages.any onPage || st.frame.toList.any fun fr => fr.pages.any onPage)
  || (s.snaps.any fun x => x.tier == 3 && inRange x.base l.base l.granules)
  || s.itins.any fun it => it.homes.any fun x => inRange x.2 l.base l.granules

/-- Free the rooms of lenders that hold no only copy any more (R304). -/
def freeRooms (s : State) : State :=
  let keeps (l : FabId) : Bool := (s.mem.loans.any fun x => x.lender == l && holdsOnly s x) || roomTaken s l
  modMem s fun m => { m with rooms := vmap (fun r => r.filter keeps) m.rooms }

/-- Release everything an owner holds, its loans and their rooms included. -/
def releaseAll (s : State) (o : Owner) : State := freeRooms (releaseOwner (returnLoans s o) o)

/-- Assign a room to a lender that is to hold only copies. -/
def assignRoom (s : State) (l : FabId) : State :=
  if (roomOf s l).isSome then s
  else match freeRoom s with
    | some i => modMem s fun m => { m with rooms := vmod m.rooms i fun _ => some l }
    | none => s

/-- Assign rooms again to the lenders that hold only copies, once the firmware area is there again (R300, R304, R305). -/
def assignRooms (s : State) : State := (s.mem.loans.filter (holdsOnly s)).foldl (fun t l => assignRoom t l.lender) s

/-- A loan from a lender can be taken for a request: for only copies there must be a room for it (R300, R304). -/
def loanFits (s : State) (w : Waiting) (lender : FabId) : Bool :=
  !onlyCopyWait w || (s.mem.fwArea.isSome && ((roomOf s lender).isSome || (freeRoom s).isSome))

/-- A loan granted to a waiting request: it is held as a T3 reservation of the request. -/
def takeLoan (s : State) (w : Waiting) (tenant : Nat) (lender : FabId) (base n : Nat) : State :=
  let a := lender.toNat * 2 ^ 48 + glocal base
  let s1 := reserve s (.wait w.req) tenant 3 0 n (some a)
  let s2 := modMem s1 fun m => { m with loans := m.loans ++ [{ lender := lender, base := a, granules := n, onlyCopies := onlyCopyWait w }] }
  let s3 := if onlyCopyWait w then assignRoom s2 lender else s2
  modWait s3 w.req fun w => { w with need := w.need - n, ask := none }

/-- Hand a request's loans to their owner. -/
def ownLoans (s : State) (req : Nat) (o : Owner) : State :=
  modMem s fun m => { m with reserved := m.reserved.map fun r => if r.owner == .wait req then { r with owner := o } else r }

/-! ## Recalls, on the borrower's side (R300 to R305, R309, R310) -/

/-- Address of a recall room in the T2 firmware area: the pool is its upper half (Table 5-3; log entry 11). -/
def roomBase (s : State) (i : Fin 8) : Nat := s.mem.fwBase + 2 ^ 26 + i.1 * 2 ^ 23

/-- Change the pages of every stream, in the stream and in its frame. -/
def modPages (s : State) (f : KvPage → KvPage) : State :=
  { s with streams := s.streams.map fun st => { st with pages := st.pages.map f, frame := st.frame.map fun fr => { fr with pages := fr.pages.map f } } }

/-- Homes of itinerary items at addresses a change applies to. -/
def modHomes (s : State) (f : Nat → Nat) : State :=
  { s with itins := s.itins.map fun it => { it with homes := it.homes.map fun x => (x.1, f x.2) } }

/-- End a loan: it is returned, and a region on it holds nothing any more. -/
def endLoan (s : State) (l : Loan) : State :=
  let s1 := modMem s fun m => { m with
    loans := m.loans.filter fun x => x.base != l.base
    regions := m.regions.map fun r => if r.tier == 3 && r.base == l.base then { r with lost := true } else r }
  freeRooms (sendMgmt { s1 with fabric := { s1.fabric with returnedN := s1.fabric.returnedN + 1 } } l.lender (.loanReturn (glocal l.base)))

/-- A recall's move is under way. -/
def recallBusy (s : State) : Bool := s.mem.moves.any fun m => (match m.purpose with | .recall _ => true | _ => false) && m.issued.isSome

/-- Start a move of a recall's only copies, or hold it while another is under way (R310): from the loan, or from a recall room. -/
def recallMove (s : State) (lender : FabId) (src dstTier dst n : Nat) : State :=
  let go := !recallBusy s
  let own := gid src == s.fabric.id
  let m : Move :=
    { id := s.mem.moveNext, purpose := .recall lender, layer := 0, item := 0, srcTier := if own then 2 else 3, src := src, dstTier := dstTier
      dst := dst, len := n * 65536, switch := true, lastUse := 0, pin := false, issued := if go then some (now s) else none, timeout := 24576 }
  let s1 := modMem s fun x => { x with moves := x.moves ++ [m], moveNext := x.moveNext + 1 }
  if go && !own then readRemote s1 m.id src m.len else s1

/-- Issue the next held recall move, once none is under way. -/
def nextRecallMove (s : State) : State :=
  if recallBusy s then s
  else match s.mem.moves.find? fun m => (match m.purpose with | .recall _ => true | _ => false) && m.issued.isNone with
    | none => s
    | some m =>
      let s1 := modMem s fun x => { x with moves := x.moves.map fun y => if y.id == m.id then { y with issued := some (now s) } else y }
      if m.srcTier == 3 then readRemote s1 m.id m.src m.len else s1

/-- The search for a new lender for what leaves lender `l`. -/
def isSearch (l : FabId) (w : Waiting) : Bool := w.cmd.isNone && w.named == l

/-- Look for a new lender for only copies that are to leave lender `l`: those of a loan it recalls, or those in its room (R301, R303);
gives whether there is one to ask. -/
def seekFor (s : State) (l : FabId) (n : Nat) : State × Bool :=
  if s.mem.waiting.any (isSearch l) then (s, true)
  else
    let a := addWaiting s none n l none []
    let r := askLender a.1 a.2
    if r.2 then r else (dropWaiting r.1 a.2, false)

/-- The loan that lender `l` recalls whose only copies have neither a room nor a move. -/
def leaving (s : State) (l : FabId) : Option Loan :=
  s.mem.loans.find? fun x => x.lender == l && x.recalled.isSome && x.room.isNone
    && !s.mem.moves.any fun m => (match m.purpose with | .recall _ => true | _ => false) && m.src == x.base

/-- The only copies of a loan start to move to the recall room of its lender, where that is free (R301, R303, R305, R310). -/
def copyToRoom (s : State) (l : Loan) : State :=
  match s.mem.fwArea, roomOf s l.lender, roomTaken s l.lender with
  | some _, some i, false =>
    recallMove (modMem s fun x => { x with
      roomUsed := x.roomUsed ++ [(l.lender, l.granules)]
      loans := x.loans.map fun y => if y.base == l.base then { y with room := some i.1 } else y }) l.lender l.base 2 (gaddr s (roomBase s i)) l.granules
  | _, _, _ => s

/-- The only copies of a recalled loan are to go to another lender, or to the recall room where none is left to ask, or where this die
returns all it borrowed (R301, R305, R399). -/
def leaveLoan (s : State) (l : Loan) : State :=
  if s.fabric.isolating.isSome then copyToRoom s l
  else
    let r := seekFor s l.lender l.granules
    if r.2 then r.1 else copyToRoom r.1 l

/-- Serve a recall: other copies are dropped and the loan is returned at once; only copies leave it (R301, R305, R310). -/
def serveRecall (s : State) (l : Loan) : State :=
  let s1 := modMem s fun m => { m with loans := m.loans.map fun x => if x.base == l.base then { x with recalled := some (now s) } else x }
  if !holdsOnly s l then endLoan s1 l
  else leaveLoan ((s.mem.waiting.filter (isSearch l.lender)).foldl (fun t w => dropWaiting (releaseAll t (.wait w.req)) w.req) s1) l

/-- Ticks of notice of a recall (R301). -/
def noticeTicks : Nat := 24576

/-- The notice of a loan under recall has ended. -/
def noticeOver (s : State) (l : Loan) : Bool := match l.recalled with | some t => passed s t noticeTicks | none => false

/-- No lender is left for what leaves lender `l`: a loan's only copies go to its room, what is in the room stays there. -/
def searchEnds (s : State) (w : Waiting) : State :=
  let s1 := dropWaiting (releaseAll s (.wait w.req)) w.req
  match leaving s1 w.named with
  | some l => copyToRoom s1 l
  | none => s1

/-- Only copies that were not moved by the end of notice, or whose lender is lost, are lost: their pages are DAMAGED (R256, R307), and
items homed there are damaged. `lost` says that the lender is lost. -/
def loseLoan (lost : Bool) (s : State) (l : Loan) : State :=
  let s1 := modPages s fun p => if p.tier == 3 && inRange p.addr l.base l.granules then { p with damaged := true, lostHome := lost } else p
  let gone := s.itins.flatMap fun it => (it.homes.filter fun x => inRange x.2 l.base l.granules).map fun x => (it.handle, x.1)
  let ms := s.mem.moves.filter fun m => (match m.purpose with | .recall _ => true | _ => false) && m.src == l.base
  let s2 := ms.foldl (fun t m => dropOutstanding t m.id) s1
  nextRecallMove (freeRooms (modMem s2 fun m => { m with
    loans := m.loans.filter fun x => x.base != l.base
    moves := m.moves.filter fun x => !ms.any fun y => y.id == x.id
    roomUsed := if l.room.isSome then m.roomUsed.filter fun x => x.1 != l.lender else m.roomUsed
    waiting := if l.recalled.isSome && l.room.isNone then m.waiting.filter fun w => !isSearch l.lender w else m.waiting
    damagedItems := m.damagedItems ++ gone.filter fun x => !m.damagedItems.contains x
    regions := m.regions.map fun r => if r.tier == 3 && r.base == l.base then { r with lost := true } else r }))

/-- A recall's move failed: the copies stay where they are, a loan they were to go to is given back, and a new place is sought, until
the notice ends (R301, R307, R324). -/
def recallFailed (s : State) (m : Move) : State :=
  match s.mem.loans.find? fun l => l.base == m.src, s.mem.loans.find? fun l => l.base == m.dst with
  | some l, d =>
    if noticeOver s l then loseLoan false s l
    else
      let s1 := dropOutstanding (modMem s fun x => { x with
        moves := x.moves.filter fun y => y.id != m.id
        roomUsed := if l.room.isSome then x.roomUsed.filter fun y => y.1 != l.lender else x.roomUsed
        loans := x.loans.map fun y => if y.base == l.base then { y with room := none } else y }) m.id
      nextRecallMove (leaveLoan (d.toList.foldl endLoan s1) { l with room := none })
  | none, d => nextRecallMove (d.toList.foldl endLoan (dropOutstanding (modMem s fun x => { x with moves := x.moves.filter fun y => y.id != m.id }) m.id))

/-- Reads of frames that are under way from a place that only copies have left go to the new place; their timeout runs on (R252). -/
def redirectReads (s : State) (src dst n : Nat) : State :=
  let own := gid dst == s.fabric.id
  (s.mem.moves.filter fun m => (match m.purpose with | .frame _ => true | _ => false) && inRange m.src src n && (m.issued.isNone || stillOut s m.id)).foldl (fun t m =>
    let a := dst + (m.src - src)
    let t1 := modMem (dropOutstanding t m.id) fun x => { x with moves := x.moves.map fun y => if y.id == m.id then { y with src := a, srcTier := if own then 2 else 3 } else y }
    if own || m.issued.isNone then t1 else readRemote t1 m.id a m.len) s

/-- Only copies have a new place: pages, snapshots, homes, reservations and regions follow them, at one tick (R276). -/
def relocate (s : State) (src dst n : Nat) : State :=
  let own := gid dst == s.fabric.id
  let moved (a : Nat) := if inRange a src n then dst + (a - src) else a
  let pageAt (p : KvPage) : Nat := if p.tier == 3 then p.addr else if p.tier == 2 && p.addr != 0 then gaddr s p.addr else 0
  let s1 := modPages (modHomes s moved) fun p =>
    if 2 ≤ p.tier && pageAt p != 0 && inRange (pageAt p) src n then
      { p with tier := if own then 2 else 3, addr := if own then glocal (moved (pageAt p)) else moved (pageAt p), home := gid dst }
    else p
  let s2 := { s1 with snaps := s1.snaps.map fun x => if inRange x.base src n then { x with base := moved x.base } else x }
  redirectReads (modMem s2 fun m => { m with
    reserved := m.reserved.map fun r => if r.tier == 3 && r.base == some src then { r with base := some dst } else r
    regions := m.regions.map fun r => if r.tier == 3 && r.base == src then { r with base := dst, lender := some (gid dst) } else r }) src dst n

/-- A recall's move has its bytes in their new place: the old loan is returned, or the room is free again (R301, R303). -/
def recallDone (s : State) (m : Move) (lender : FabId) : State :=
  let s1 := modMem (relocate s m.src m.dst (m.len / 65536)) fun x => { x with moves := x.moves.filter fun y => y.id != m.id }
  let s2 := match s.mem.loans.find? fun l => l.base == m.src with
    | some l => endLoan s1 l
    | none => freeRooms (modMem s1 fun x => { x with roomUsed := x.roomUsed.filter fun y => y.1 != lender })
  nextRecallMove s2

/-- Free address of a page among the T3 reservations of a stream: the lowest place no page has; none while there is no firmware area
(R305). -/
def placeInLoans (s : State) (h bytes : Nat) : Option Nat :=
  let pb := 64 * cdiv bytes 64
  let used := s.streams.flatMap fun st => st.pages.map (·.addr) ++ st.frame.toList.flatMap fun fr => fr.pages.map (·.addr)
  if s.mem.fwArea.isNone then none
  else (s.mem.reserved.filter fun r => r.owner == .stream h && r.tier == 3).findSome? fun r =>
    match r.base with
    | none => none
    | some b =>
      if !(s.mem.loans.any fun l => l.base == b && l.recalled.isNone) then none
      else ((List.range (r.granules * 65536 / pb)).map fun i => b + i * pb).find? fun a => !used.contains a

end Sys2Proof.Machine
end

