-- ==== Sys2Proof/Machine/Repair.lean ====
section
/-! DEFINITION. Errors that reads of T0, T1 and T2 find in a row: counting them, and the repair of rows and columns (02 R134, R135,
14 R817, R818, R835 to R840). -/

namespace Sys2Proof.Machine

/-! ## Patrol passes (R817, R818) -/

/-- Ticks of a patrol pass: T0 and T1 every 10 s, T2 every 24 h. -/
def patrolPeriod (tier : Nat) : Nat := if tier == 2 then 2123366400000 else 245760000

/-- The patrol pass of a tier that is under way. -/
def passNo (s : State) (tier : Nat) : Nat := (nth s.mem.patrol.toList tier (0, none)).1

/-- The tick a tier's pass began: the end of the pass before it, or the start of the firmware. -/
def passStart (s : State) (tier : Nat) : Tick :=
  match (nth s.mem.patrol.toList tier (0, none)).2, s.fw.readyAt with
  | some t, _ => t
  | none, some t => t
  | none, none => now s

/-- A pass of a tier is complete; one that fell behind its period is logged, under a code the spec does not give (log entry 8). -/
def endPass (s : State) (tier : Fin 3) : State :=
  let s1 := modMem s fun m => { m with patrol := vmod m.patrol tier fun p => (p.1 + 1, some (now s)) }
  if passed s (passStart s tier.1) (patrolPeriod tier.1 + 1) then
    let f := takeFree s1
    logDie f.2 f.1 0xFF 1 (put 0 1 tier.1)
  else s1

/-! ## Repair (R835 to R840) -/

/-- A row needs repair (R836). -/
def needsRepair (e : RowError) (hard : Bool) : Bool := hard || decide (2 ≤ e.passes.length) || decide (2 ≤ e.bits.length)

/-- A spare row of an engine's tile store or of a depot bank is taken, where one is left. -/
def takeSpare (s : State) (x : PatrolHit) : Option State :=
  if x.tier == 0 then
    (if nth s.mem.t0Spares.toList x.unit 0 == 0 then none
     else some (modMem s fun m => { m with t0Spares := vmapIdx (fun i n => if i == x.unit then n - 1 else n) m.t0Spares }))
  else if nth s.mem.rowSpares.toList x.bank 0 == 0 then none
  else some (modMem s fun m => { m with rowSpares := vmapIdx (fun i n => if i == x.bank then n - 1 else n) m.rowSpares })

/-- UNIT of the repair records: an engine, or 0xF0 for the depot. -/
def repairUnit (x : PatrolHit) : Nat := if x.tier == 1 then 0xF0 else x.unit

/-- Four repaired rows of a bank with the same bit make a column repair for the next firmware start (R837). -/
def columnDue (s : State) (x : PatrolHit) : State :=
  let n := (s.mem.repairedRows.filter fun r => r.1 == 0xF0 && r.2.1 == x.bank && r.2.2.2 == x.bit).length
  if x.tier != 1 || decide (n < 4) || s.mem.colPending.contains (x.bank, x.bit) || nth s.mem.colSpares.toList x.bank 0 == 0 then s
  else modMem (faultStanding s 0x0703 0xF0 (put 1 1 x.bank + put 2 1 x.bit)) fun m => { m with colPending := m.colPending ++ [(x.bank, x.bit)] }

/-- Repair a row: with a spare row in T0 and T1, by soft PPR in T2; without a spare it stays in service and is recorded (R838). -/
def repairRow (s : State) (x : PatrolHit) : State :=
  let exhausted := faultHistory s 0x070B (repairUnit x) (put 0 1 (repairUnit x) + put 1 1 x.bank)
  if x.tier == 2 then
    if !x.softLeft then exhausted
    else
      modMem (faultStanding s 0x0704 x.unit (put 0 1 x.unit + put 1 1 x.rank + put 2 1 x.bank + put 4 4 x.row)) fun m => { m with
        channels := vmapIdx (fun i c => if i == x.unit then { c with repaired := c.repaired + 1, softLeft := c.softLeft - 1 } else c) m.channels
        rowErrors := m.rowErrors.filter fun e => !(e.tier == 2 && e.unit == x.unit && e.bank == x.bank && e.row == x.row) }
  else match takeSpare s x with
    | none => columnDue (modMem exhausted fun m => { m with repairedRows := m.repairedRows ++ [(repairUnit x, x.bank, x.row, x.bit)] }) x
    | some t =>
      let t1 := faultStanding t 0x0702 (repairUnit x) (put 0 1 (repairUnit x) + put 1 1 x.bank + put 4 4 x.row)
      columnDue (modMem t1 fun m => { m with
        repairedRows := m.repairedRows ++ [(repairUnit x, x.bank, x.row, x.bit)]
        rowErrors := m.rowErrors.filter fun e => !(e.tier == x.tier && e.unit == x.unit && e.bank == x.bank && e.row == x.row) }) x

/-- Record what a read found in a row, a patrol's with its pass, and repair the row once it needs it (R836). -/
def rowSeen (s : State) (x : PatrolHit) (patrol : Bool) : State :=
  let same (e : RowError) := e.tier == x.tier && e.unit == x.unit && e.bank == x.bank && e.row == x.row
  let old := (s.mem.rowErrors.find? same).getD ⟨x.tier, x.unit, x.bank, x.row, [], []⟩
  let add (n : Nat) (l : List Nat) := if l.contains n then l else l ++ [n]
  let new := { old with passes := if patrol then add (passNo s x.tier) old.passes else old.passes, bits := add x.bit old.bits }
  let s1 := modMem s fun m => { m with rowErrors := m.rowErrors.filter (fun e => !same e) ++ [new] }
  if needsRepair new x.uncorrectable && !needsRepair old false then repairRow s1 x else s1

/-- A correctable error in an engine's tile store is counted (R135). -/
def countT0 (s : State) (x : PatrolHit) : State :=
  if x.tier == 0 && !x.uncorrectable then modMem s fun m => { m with t0Corrected := vmapIdx (fun i n => if i == x.unit then n + 1 else n) m.t0Corrected } else s

/-- A read of an engine's tile store by its feed or its pipeline met an error: corrected in place and counted, or an engine fault (R134,
R135). Gives whether the engine goes on. -/
def readT0 (s : State) (e : EngineId) (hit : Option PatrolHit) : State × Bool :=
  match hit.filter fun x => x.tier == 0 && x.unit == e.1 with
  | none => (s, true)
  | some x =>
    let s1 := rowSeen (countT0 s x) x false
    if x.uncorrectable then (engineFault s1 e 2, false) else (s1, true)

end Sys2Proof.Machine
end

