-- ==== Sys2Proof/Machine/Engines.lean ====
section
/-! DEFINITION. The engines' commands (01, 02, 04): rate windows, pacer tokens, wavefronts and attention steps, bank drains,
segments and their commits, and the lay-by self-test. -/

namespace Sys2Proof.Machine

/-! ## Rates and pacers (R27 to R38) -/

/-- An engine that is present and reports rates: any that is not retired, the lay-by whether or not it is engaged (R31). -/
def reports (s : State) (e : EngineId) : Bool := hasEngine s.fuses.variant e.1 && (s.engines.get e).life != .retired

/-- A rate below the minimum of Table 1-1: a count C is a rate of C × 0.024 M/s (R32). -/
def belowMinimum (rate : Nat) (n : Fin 5) : Bool := decide (rate * 24 < nth [150, 285, 400, 525, 615] n.1 0 * 1000)

/-- The calibration factor, in 1/65,536: the wavefronts issued in the window's unpaced ticks, scaled to 1,024 ticks, over the raw
chain count; kept where fewer than 512 ticks were unpaced (R28; log entry 138). -/
def calibration (en : Engine) (chain : Nat) : Nat :=
  if 512 ≤ en.unpaced && chain != 0 then en.unpacedIssued * 1024 * 65536 / (en.unpaced * chain) else en.calib

/-- RATE_WINDOW_CLOSE (R27, R28): every 1,024 ticks; `chain` is the replica chain's raw count. -/
def execRateWindowClose (e : EngineId) (chain : Nat) (s : State) : Res' :=
  .next <|
    let en := s.engines.get e
    if !reports s e || !passed s en.rateWinAt 1024 then s
    else
      let rate := chain * en.calib / 65536
      let low := belowMinimum rate s.power.opForce
      modEngine s e fun en =>
        { en with
          rateWinAt := now s, windows := lastN 24 (en.windows ++ [⟨s.power.opForce, rate, en.productive, en.ballast⟩])
          calib := calibration en chain
          rateAt := vmod en.rateAt s.power.opForce fun _ => some rate
          lowWindows := if low then en.lowWindows + 1 else 0, productive := 0, ballast := 0, unpaced := 0, unpacedIssued := 0, unpacedMark := 0 }

/-- RATE_BELOW_MINIMUM (R32): 24 consecutive windows below the minimum are logged and indicate ageing; an indication during a
trim run is ignored (R751). -/
def execRateBelowMinimum (e : EngineId) (s : State) : Res' :=
  .next <|
    let en := s.engines.get e
    if !reports s e || decide (en.lowWindows < 24) then s
    else
      let rate := match en.windows.getLast? with | some w => w.rate | none => 0
      let s1 := logDie s 0x0201 e.1 1 (put 0 4 rate + put 4 1 s.power.opForce.1)
      let s2 := modEngine s1 e fun en => { en with lowWindows := 0 }
      if s.power.trimRun.isSome then s2 else { s2 with power := { s2.power with ageing := true } }

/-- The limit in force: the lowest of the sources' requests (R35). -/
def limitOf (l : Limits) : Nat := min (min (min l.powerCap l.thermal) (min l.steward l.ramp)) l.stop

/-- A bucket after one tick's credit; depth 64 tokens of 1,024 (R33, R38). -/
def credit (tokens lim : Nat) : Nat := if lim == 65535 then 65536 else min 65536 (tokens + lim)

/-- Whether an operating-point change is in its approach. -/
def approaching (s : State) : Bool := match s.power.change with | some c => c.phase == .approach | none => false

/-- PACER_TOKEN_CREDIT (R28, R33, R35 to R38, R52, R214): once each tick. A tick counts as unpaced where a wavefront has issued without
limit since the last credit, and toward R52 where nothing that the engine runs lacks a token. -/
def execPacerTokenCredit (e : EngineId) (s : State) : Res' :=
  .next <|
    let en := s.engines.get e
    if !hasEngine s.fuses.variant e.1 || en.creditAt == some (now s) then s
    else
      let lim := limitOf en.limits
      let token (t : Nat) : Bool := lim == 65535 || (lim != 0 && decide (1024 ≤ t))
      let free := (en.field.isSome || en.attn.isSome) && en.droopHold.isNone
        && (en.field.isNone || token en.tokens) && (en.attn.isNone || token en.attnTokens)
      modEngine s e fun en =>
        { en with
          creditAt := some (now s), limitNow := lim, tokens := credit en.tokens lim, attnTokens := credit en.attnTokens lim
          unpaced := if en.unpacedMark < en.unpacedIssued then en.unpaced + 1 else en.unpaced, unpacedMark := en.unpacedIssued
          unheld := if approaching s then (if free then en.unheld + 1 else en.unheld) else 0 }

/-! ## Issue (R92, R94, R98, R118, R126, R127, R130, R214) -/

/-- An engine may issue: in service, not held by the droop gate or by L = 0, with a token. -/
def mayIssue (s : State) (e : EngineId) (tokens : Nat) : Bool :=
  let en := s.engines.get e
  inService s e && en.droopHold.isNone && en.limitNow != 0 && en.limits.stop != 0 && (en.limitNow == 65535 || decide (1024 ≤ tokens))

/-- A bucket after one token is taken; no limit takes none. -/
def spend (lim tokens : Nat) : Nat := if lim == 65535 then tokens else tokens - 1024

/-- One more wavefront of the field, productive or ballast, on the counters of R28. -/
def countUnpaced (en : Engine) : Engine := if en.limitNow == 65535 then { en with unpacedIssued := en.unpacedIssued + 1 } else en

/-- Add to the count of a stream's work in the estimate window (R756). -/
def ranMore (en : Engine) (h : Nat) : List (Nat × Nat) := assocSet h (((en.ran.lookup h).getD 0) + 1) en.ran

/-- The data of the tile step at a running segment's cursor. -/
def cursorData (s : State) (f : FieldRun) (tile : Nat) : Option (Itin × Frame × LayerBody × List Byte × Block × StepData) := do
  let st ← streamOf s f.stream
  let it ← itinOf s st.itin
  let fr ← st.frame
  let ly ← layerAt it f.seg.layer
  let b := bodyOf ly fr.lean
  let (w, blk) ← tileStep st it fr f.seg.layer f.seg.unit tile
  pure (it, fr, b, w, blk, stepData it.img fr.replaced b w blk)

/-- Zero banks for the run at the cursor; none past the segment's last tile step. -/
def freshBanks (s : State) (f : FieldRun) : List (List Int) × List (List Int) :=
  if f.seg.t0 + f.seg.tn ≤ f.tile then ([], [])
  else match cursorData s f f.tile with
    | some (_, _, _, _, _, d) => (zeroBank d f.run, zeroCheck d)
    | none => ([], [])

/-- Swap the banks: the shadow bank takes the sums and starts to drain, and the field starts its next run from zero (R112, R126). -/
def swapBanks (s : State) (e : EngineId) (d : StepData) : State :=
  modEngine s e fun en =>
    match en.field with
    | none => en
    | some f =>
      let f1 := { nextRun d f with swapWanted := false }
      let z := freshBanks s f1
      { en with
        shadow := en.acc, shadowCheck := en.check, drain := some ⟨f.tile, f.pass, f.run, now s⟩
        acc := z.1, check := z.2, field := some f1, swapHeldAt := none }

/-- The running segment computes attention on the field (R9, R245). -/
def attnOnField (s : State) (f : FieldRun) : Bool :=
  match streamOf s f.stream, (streamOf s f.stream).bind fun st => itinOf s st.itin with
  | some st, some it => match st.frame, layerAt it f.seg.layer with
    | some fr, some ly => (bodyOf ly fr.lean).attn.isSome
    | _, _ => false
  | _, _ => false

/-- One wavefront of such a segment: the segment has as many as the pipeline would take steps (log entry 21). -/
def attnWave (f : FieldRun) (en : Engine) : Engine :=
  { countUnpaced en with
    field := some (if f.inStep + 1 < f.seg.cost then { f with inStep := f.inStep + 1 } else { f with inStep := 0, tile := f.tile + 1 })
    tokens := spend en.limitNow en.tokens, productive := en.productive + 1, estProductive := en.estProductive + 1
    ran := if f.seg.replay then en.ran else ranMore en f.stream }

/-- What WAVEFRONT_ISSUE does once the tile store has been read. A pre-ramp asked for during a segment takes effect on the engine at the
segment's end: until then its ballast is not issued there (R131). -/
def issueWave (e : EngineId) (ballast : Bool) (s : State) : State :=
    let en := s.engines.get e
    if ballast then
      let ready := match en.field with | some f => !f.swapWanted && decide (f.tile < f.seg.t0 + f.seg.tn) | none => (nextSeg s e .field).isSome && s.power.change.isNone
      if ready || (en.field.isSome && preRampBegun s) then s
      else modEngine s e fun en => { countUnpaced en with
        tokens := spend en.limitNow en.tokens, ballast := en.ballast + 1, estBallast := en.estBallast + 1 }
    else match en.field with
      | none => s
      | some f =>
        if f.swapWanted || decide (f.seg.t0 + f.seg.tn ≤ f.tile) then s
        else match cursorData s f f.tile with
          | none => if attnOnField s f then modEngine s e (attnWave f) else s
          | some (_, _, _, _, _, d) =>
            let n := advance d f
            let s1 := modEngine s e fun en => { countUnpaced en with
              acc := waveData d f.pass f.run f.inStep f.bit en.acc, check := waveCheck d f.pass f.run f.inStep f.bit en.check
              field := some n.1, tokens := spend en.limitNow en.tokens
              productive := en.productive + 1, estProductive := en.estProductive + 1
              ran := if f.seg.replay then en.ran else ranMore en f.stream }
            if !n.2 then s1
            else if en.drain.isSome then
              modEngine s1 e fun en => { en with field := some { n.1 with swapWanted := true }, swapHeldAt := some (now s) }
            else swapBanks s1 e d

/-- WAVEFRONT_ISSUE (R33, R94, R98, R118, R126, R130, R134, R135, R724, R730). A ballast wavefront takes a token and writes no accumulator, and
never displaces a ready productive one. -/
def execWavefrontIssue (e : EngineId) (ballast : Wave) (s : State) : Res' :=
  .next <|
    if !mayIssue s e (s.engines.get e).tokens then s
    else
      let reads := match (s.engines.get e).field with | some f => !ballast.ballast && !f.swapWanted && decide (f.tile < f.seg.t0 + f.seg.tn) | none => false
      let r := if reads then readT0 s e ballast.t0 else (s, true)
      if r.2 then issueWave e ballast.ballast r.1 else r.1

/-- One step of the pipeline. -/
def issueStep (e : EngineId) (s : State) : State :=
    let en := s.engines.get e
    match en.attn with
    | none => s
    | some a =>
        let rows : List RowRun :=
          match streamOf s a.stream with
          | none => a.rows
          | some st => match itinOf s st.itin, st.frame with
            | some it, some fr => match (layerAt it a.seg.layer).bind fun ly => (bodyOf ly fr.lean).attn with
              | some decl =>
                let per := stepsPer decl fr.feed.backward
                if fr.feed.backward || per == 0 || (a.steps + 1) % per != 0 then a.rows
                else
                  let qr := rowsFor st fr decl
                  match (attnUnits decl qr a.seg)[(a.steps + 1) / per - 1]? with
                  | some u => runUnit st fr.pages decl a.seg.layer (decl.query.filterMap (blockOf st it fr a.seg.layer)) qr a.rows u
                  | none => a.rows
              | none => a.rows
            | _, _ => a.rows
        modEngine s e fun en => { en with
          attn := some { a with steps := a.steps + 1, rows := rows }, attnTokens := spend en.limitNow en.attnTokens
          attnSteps := en.attnSteps + 1, estAttn := en.estAttn + 1
          ran := if a.seg.replay then en.ran else ranMore en a.stream }

/-- ATTENTION_STEP_ISSUE (R134, R135, R209 to R214, R816). -/
def execAttentionStepIssue (e : EngineId) (residueUpset : AttnStep) (s : State) : Res' :=
  .next <|
    let en := s.engines.get e
    match en.attn with
    | none => s
    | some a =>
      if !mayIssue s e en.attnTokens || decide (a.seg.cost ≤ a.steps) then s
      else if residueUpset.upset then engineFault s e 1
      else
        let r := readT0 s e residueUpset.t0
        if r.2 then issueStep e r.1 else r.1

/-! ## Segments (R108, R112, R204, R268, R443, R444) -/

/-- The chain state with which a field segment starts: zeros, or the partial record of the segment before it (R112). -/
def startChain (st : Stream) (it : Itin) (fr : Frame) (sg : Seg) : Chain :=
  if sg.idx == 0 then
    match tileStep st it fr sg.layer sg.unit sg.t0 with
    | some (w, blk) => zeroChain blk.rows (tileHdr w).rows
    | none => zeroChain 0 0
  else (fr.partials.lookup (sg.layer, sg.unit)).getD (zeroChain 0 0)

/-- The segment is an attention layer's. -/
def isAttn (it : Itin) (fr : Frame) (sg : Seg) : Bool :=
  match layerAt it sg.layer with | some ly => (bodyOf ly fr.lean).attn.isSome | none => false

/-- Begin a segment on an engine. -/
def beginSeg (s : State) (e : EngineId) (st : Stream) (it : Itin) (fr : Frame) (sg : Seg) : State :=
  let s1 := modFrame s st.handle fun fr => modSeg fr sg fun g => { g with st := .running, engine := e }
  let g := { sg with st := .running, engine := e }
  match sg.res with
  | .field =>
    let f : FieldRun := { stream := st.handle, seg := g, tile := sg.t0, pass := 0, run := 0, inStep := 0, bit := 0, swapWanted := false }
    let z := freshBanks s1 f
    modEngine s1 e fun en => { en with field := some f, acc := z.1, check := z.2, chain := startChain st it fr sg, high := [] }
  | .attn =>
    match (layerAt it sg.layer).bind fun ly => (bodyOf ly fr.lean).attn with
    | none => s1
    | some a =>
      let parts := (fr.attnParts.lookup (sg.layer, sg.unit)).getD []
      modEngine s1 e fun en => { en with attn := some ⟨st.handle, g, 0, startRows a sg parts⟩ }

/-- The home of a damaged read-only item that a segment reads (Table 14-3). -/
def damagedItem (s : State) (it : Itin) (fr : Frame) (sg : Seg) : Option Nat :=
  (s.mem.damagedItems.find? fun d => d.1 == it.handle && segReads it fr sg d.2).map fun d => homeOf it d.2

/-- SEGMENT_START (R268, R271, R443): the engine takes its next ready segment. The first segment of a layer starts the layer,
which issues its moves; a segment whose input has not landed then waits. A segment that would read a DAMAGED page ends its
frame (R257), as does one that would read a damaged home. During an operating-point change no segment starts (R131). -/
def execSegmentStart (e : EngineId) (res : Res) (s : State) : Res' :=
  .next <|
    if !inService s e || !resFree (s.engines.get e) res || (match s.power.change with | some c => c.phase == .approach || c.phase == .stop | none => false) then s
    else match nextSeg s e res with
      | none => s
      | some (st, sg) =>
        match itinOf s st.itin, st.frame with
        | some it, some fr =>
          if (res == .attn && !hasAttn s.fuses.variant e.1) then s
          else
            let s1 := if fr.started.contains sg.layer then s
              else frameStartsLayer (modFrame s st.handle fun fr => { fr with started := fr.started ++ [sg.layer] }) st.handle sg.layer
            match (streamOf s1 st.handle).bind (·.frame) with
            | none => s1
            | some fr1 =>
              if fr1.fault.isSome || !movesDone s1 st it fr1 sg then s1
              else match (if isAttn it fr1 sg then damagedPage fr1 sg.layer sg.unit else none) with
                | some p => endOnPage s1 st.handle p
                | none => match damagedItem s1 it fr1 sg with
                  | some a => tierFault s1 st.handle (tierOf s1 a) a
                  | none => beginSeg s1 e st it fr1 sg
        | _, _ => s

/-- BANK_DRAIN_COMPLETE (R97, R114, R130): the shadow bank, with the upsets a fault of the silicon put on it, is compared with
the check columns; a mismatch is an engine fault, and agreement combines the sums. A held swap then resumes. -/
def execBankDrainComplete (e : EngineId) (upsets : List Upset) (s : State) : Res' :=
  .next <|
    let en := s.engines.get e
    match en.drain, en.field with
    | some dr, some f =>
      match cursorData s f dr.tile with
      | none => s
      | some (it, fr, b, w, blk, d) =>
        let sh := upset (perRun d) en.shadow upsets
        if !bankOk d.k sh en.shadowCheck then engineFault s e 0
        else
          let first := d.passes == 2 && dr.pass == 0
          let s1 := modEngine s e fun en => { en with
            drain := none, shadow := [], shadowCheck := []
            high := if first then sh else []
            chain := if first then en.chain else combineRun it.img fr.replaced b w blk d dr.run en.high sh en.chain }
          if !f.swapWanted then s1
          else
            let held := match en.swapHeldAt with | some t => elapsed s t | none => 0
            match cursorData s f f.tile with
            | some (_, _, _, _, _, d1) => swapBanks (modEngine s1 e fun en => { en with drainStall := en.drainStall + held }) e d1
            | none => s1
    | _, _ => s

/-! ## Commits (R109, R110, R124, R165, R171 to R180, R194 to R196, R203, R205, R220 to R227, R240) -/

/-- The output scale of a layer in this frame (R173, R178, R179): from the steps earlier frames recorded, and this one. -/
def layerScale (st : Stream) (fr : Frame) (l : Nat) (d : Desc) : F32 :=
  outScale d ((st.hist.lookup l).getD [] ++ (fr.steps.filter (·.1 == l)).map (·.2))

/-- Record outputs' largest toward the layer's step maximum (R178, R179). -/
def noteMax (fr : Frame) (l : Nat) (m : F32) : Frame :=
  { fr with maxima := assocSet l (max32 ((fr.maxima.lookup l).getD 0) m) fr.maxima }

/-- Count the conversions of finished outputs, of the channels from `base` on, and their largest toward the step maximum: at the commit of
the segment that produced them (R165). -/
def countPart (st : Stream) (fr : Frame) (l : Nat) (ly : Layer) (d : Desc) (base : Nat) (ys : List (List F32)) : Stream × Frame :=
  let cs := ys.map (convertRow d (layerScale st fr l d) base)
  (if d.statsEn then putStats st (countTile (statsOf st l ly.width) base cs []) else st, if d.src == 1 then noteMax fr l (tileMax d base ys) else fr)

/-- Make the block of output tile `t` visible. -/
def makeBlock (st : Stream) (it : Itin) (fr : Frame) (l t : Nat) (ly : Layer) (b : LayerBody) (ys : List (List F32)) (tick : Tick) : Frame :=
  let d := desc b.desc
  let base := tileBase it.img ly b t
  let scale := layerScale st fr l d
  { fr with blocks := assocSet (l, t) (outBlock d scale base ys (ys.map (convertRow d scale base)) tick) fr.blocks }

/-- Convert the finished rows of output tile `t` and make the block visible. -/
def commitTile (st : Stream) (it : Itin) (fr : Frame) (l t : Nat) (ly : Layer) (b : LayerBody) (ys : List (List F32)) (tick : Tick) : Stream × Frame :=
  countPart st (makeBlock st it fr l t ly b ys tick) l ly (desc b.desc) (tileBase it.img ly b t) ys

/-- The invocation's last tile has committed: one more invocation of the statistics window, and its step maximum is formed (R179, R196). -/
def endInvocation (st : Stream) (fr : Frame) (ly : Layer) (l : Nat) (d : Desc) (tick : Tick) : Stream × Frame :=
  (if d.statsEn then putStats st (countInvocation (statsOf st l ly.width) d.window tick) else st,
   { fr with
     steps := fr.steps ++ ((fr.maxima.lookup l).map fun m => (l, m)).toList
     maxima := fr.maxima.filter (·.1 != l) })

/-- Write one token of one KV head into its page, making the page where it has none; the append that fills it seals it (R226). -/
def putToken (st : Stream) (home : FabId) (layer head slot pos : Nat) (isV : Bool) (tok : KvTok) (pages : List KvPage) : List KvPage :=
  let t := pageTokens st
  let n := pos / t
  let p := (pageOf pages layer head slot n).getD ⟨layer, head, slot, n, [], [], false, false, home, 1, 0, false⟩
  let i := pos % t
  let p1 := if isV then { p with v := p.v.take i ++ [tok] } else { p with k := p.k.take i ++ [tok] }
  let p2 := { p1 with isSealed := decide (t ≤ fill p1) }
  if (pageOf pages layer head slot n).isSome then
    pages.map fun x => if x.layer == layer && x.head == head && x.slot == slot && x.page == n then p2 else x
  else pages ++ [p2]

/-- What a KV code counts: saturated, underflowed or poisoned (R220, R221), with its error y - scale × code (R222). -/
def kvConv (scale : BitVec 16) (y : F32) (code : Int) (k : Nat) : Conv × F32 :=
  ({ code := twos 8 code, decoded := .fin (decide (code < 0)) code.natAbs 0, sat := k == 1, underflow := k == 2, poison := k == 3 },
   sub32 y (mul32 (fp16to32 scale) (ofInt32 code 0)))

/-- A KV block of 32 channels of a row: quantised for the stream's format (R220). -/
def rowQuant (st : Stream) (row : List F32) (i : Nat) : KvBlock := kvQuant (if st.kvFmt == 5 then 127 else 7) (slice row (32 * i) 32)

/-- Count the conversions of a KV-append layer's rows in some of their blocks of 32 channels; padding rows are not appended and not counted
(R222, R233). -/
def countAppend (st : Stream) (fr : Frame) (l : Nat) (ly : Layer) (a : AttnDecl) (d : Desc) (blocks : List Nat) (ys : List (List F32)) : Stream :=
  let real := ((rowsFor st fr a).zip ys).filterMap fun x => if x.1.pos.isSome then some x.2 else none
  if d.statsEn then
    blocks.foldl (fun st i => putStats st (countTile (statsOf st l ly.width) (32 * i) (real.map fun row =>
      let k := rowQuant st row i
      (slice row (32 * i) 32).mapIdx fun c y => kvConv k.scale y (nth k.codes c 0) (nth k.counts c 0)) [])) st
  else st

/-- Append a layer's rows to the cache (R203, R220, R221, R226). -/
def commitAppend (st : Stream) (fr : Frame) (home : FabId) (ly : Layer) (a : AttnDecl) (attnLayer : Nat) (isV : Bool) (ys : List (List F32)) : Frame :=
  { fr with pages := ((rowsFor st fr a).zip ys).foldl (fun ps (x : QRow × List F32) =>
      match x.1.pos with
      | none => ps
      | some p =>
        let q := (List.range (ly.width / 32)).map (rowQuant st x.2)
        (List.range a.kvHeads).foldl (fun ps h =>
          let bs := slice q (h * (a.headDim / 32)) (a.headDim / 32)
          putToken st home attnLayer h x.1.slot p isV ⟨bs.flatMap (·.codes), bs.map (·.scale)⟩ ps) ps) fr.pages }

/-- The chain of the section that a weight tile belongs to: whether escape is enabled for its layer, and its tiles, as writes of this frame
leave them, with the outlier channels of their blocks. -/
def chainWith (it : Itin) (fr : Frame) (writes : List (Nat × List Byte)) (off : Nat) : Option (Bool × List (List Byte × List Nat)) :=
  let sec := sectionOf it
  sec.layers.findSome? fun ly => ([ly.body] ++ ly.lean.toList).findSome? fun b => (b.chains.find? (·.tiles.contains off)).map fun c =>
    (b.escape, c.tiles.mapIdx fun i o => ((writes.lookup o).getD (itemBytes it.img fr.replaced o), ((b.srcs[i]?).map (srcOuts it.img sec)).getD []))

/-- Write the weight tile that output tile `t` of a layer is for, with a side list of its own (R166, R176), and recompute the COLSUM of the
chain that shares its scale record (R171); they take effect after the frame (R177). The spec gives no operation that replaces a
conversion descriptor, and none is replaced after ITIN_LOAD (log entry 150). -/
def commitWrite (st : Stream) (it : Itin) (fr : Frame) (l t off : Nat) (ly : Layer) (b : LayerBody) (ys : List (List F32)) : Stream × Frame :=
  let d := desc b.desc
  let old := itemBytes it.img fr.replaced off
  let h := tileHdr old
  let rec_ := (fr.writes.lookup h.scalePtr).getD (itemBytes it.img fr.replaced h.scalePtr)
  let cs := convertWritten d rec_ 0 (h.rows * h.cols / 64) ys
  let tile := writtenTile old cs
  let writes := assocSet off tile fr.writes
  let c := (chainWith it fr writes off).getD (d.escEn, [(tile, [])])
  let rec1 := withColsums rec_ ((List.range h.rows).map (chainColsum rec_ c.1 c.2))
  (if d.statsEn then putStats st (countTile (statsOf st l ly.width) (tileBase it.img ly b t) cs []) else st, { fr with writes := assocSet h.scalePtr rec1 writes })

/-- Rows of a layer, all its tiles side by side, from the staging area; zeros where a tile is not there yet. -/
def stagedRows (img : Image) (fr : Frame) (l : Nat) (ly : Layer) (b : LayerBody) : List (List F32) :=
  let tiles := (List.range (tileCount ly b)).map fun t => (fr.staging.lookup (l, t), tileWidth img ly b t)
  (List.range (maxOf 0 (tiles.map fun x => (x.1.getD []).length))).map fun v =>
    tiles.flatMap fun x => match x.1 with | some r => nth r v [] | none => List.replicate x.2 0

/-- Blocks of 32 channels that output tile `t` completes: every tile that holds some of their channels has finished. -/
def appendBlocks (img : Image) (fr : Frame) (l t : Nat) (ly : Layer) (b : LayerBody) : List Nat :=
  let meets (u i : Nat) : Bool :=
    let base := tileBase img ly b u
    decide (base < 32 * i + 32) && decide (32 * i < base + tileWidth img ly b u)
  (List.range (ly.width / 32)).filter fun i => meets t i && (List.range (tileCount ly b)).all fun u => !meets u i || (fr.staging.lookup (l, u)).isSome

/-- The attention layer that a KV-append layer serves, and whether with values. -/
def appendFor (it : Itin) (fr : Frame) (ly : Layer) : Option (Nat × Bool × AttnDecl) :=
  ly.append.bind fun x => ((layerAt it x.1).bind fun y => (bodyOf y fr.lean).attn).map fun a => (x.1, x.2, a)

/-- The commit of output tile `t` of a KV-append or weight-writing layer, once its rows are final: they convert and are counted (R165). -/
def commitStaged (st : Stream) (it : Itin) (fr : Frame) (l t : Nat) (ly : Layer) (b : LayerBody) (ys : List (List F32)) (blocks : List Nat) : Stream × Frame :=
  match appendFor it fr ly, ly.writes[t]? with
  | some (_, _, a), _ => (countAppend st fr l ly a (desc b.desc) blocks ys, fr)
  | none, some off => commitWrite st it fr l t off ly b (ys.map fun row => slice row (tileBase it.img ly b t) (tileWidth it.img ly b t))
  | none, none => (st, fr)

/-- Finish a layer whose rows are all staged. Rows that are normalised only now are final now, and convert and count here; others did at their
own segments' commits (`done`). Appended rows enter the cache, and blocks become visible. -/
def finishLayer (st : Stream) (it : Itin) (fr : Frame) (home : FabId) (l : Nat) (ly : Layer) (b : LayerBody) (done : Bool) (tick : Tick) : Stream × Frame :=
  let n := tileCount ly b
  let ys := (stagedRows it.img fr l ly b).map fun row => match b.norm with
    | some x => if bypassed b 7 then row else normalise x row
    | none => row
  let part (t : Nat) := ys.map fun row => slice row (tileBase it.img ly b t) (tileWidth it.img ly b t)
  let r : Stream × Frame := match appendFor it fr ly, ly.writes with
    | some (al, isV, a), _ =>
      (if done then st else countAppend st fr l ly a (desc b.desc) (List.range (ly.width / 32)) ys, commitAppend st fr home ly a al isV ys)
    | none, [] => (List.range n).foldl (fun (x : Stream × Frame) t =>
        if done then (x.1, makeBlock x.1 it x.2 l t ly b (part t) tick) else commitTile x.1 it x.2 l t ly b (part t) tick) (st, fr)
    | none, _ => if done then (st, fr) else (List.range n).foldl (fun (x : Stream × Frame) t => commitStaged x.1 it x.2 l t ly b ys []) (st, fr)
  endInvocation r.1 { r.2 with staging := r.2.staging.filter fun x => x.1.1 != l } ly l (desc b.desc) tick

/-- A layer's rows are final only once all its tiles have finished: it normalises them (R122). -/
def normed (b : LayerBody) : Bool := b.norm.isSome && !bypassed b 7

/-- Whether a layer's rows wait in staging until all its tiles have finished. -/
def stages (ly : Layer) (b : LayerBody) : Bool := normed b || ly.append.isSome || !ly.writes.isEmpty

/-- The layer has outlier inputs or escaped weights: a weight tile with a side list that is not empty (R193, R979). -/
def hasSide (st : Stream) (it : Itin) (fr : Frame) (l : Nat) (b : LayerBody) : Bool :=
  (b.chains.any fun c => c.tiles.any fun o => (tileHdr (itemBytes it.img fr.replaced o)).side != 0) || b.srcs.any fun q => match blockOf st it fr l q with | some x => !x.outs.isEmpty | none => false

/-- The segment's commit in its frame. -/
def markCommitted (fr : Frame) (sg : Seg) (tick : Tick) : Frame :=
  { modSeg fr sg (fun g => { g with st := .committed }) with
    lastCommit := tick, replayLat := if sg.replay then fr.replayLat + (tick - sg.faultAt) else fr.replayLat }

/-- Invalid input codes of a segment, counted at its commit (R169). -/
def countInvalid (st : Stream) (it : Itin) (l unit : Nat) (ly : Layer) (b : LayerBody) (inv : List Nat) : Stream :=
  if (desc b.desc).statsEn && inv.any (· != 0) then
    let base := tileBase it.img ly b unit
    let x := statsOf st l ly.width
    putStats st { x with running := x.running.mapIdx fun c k => if base ≤ c ∧ c < base + inv.length then { k with invalid := satInc k.invalid (nth inv (c - base) 0) } else k }
  else st

/-- Commit of a field segment: a partial record inside a chain, the finished outputs at its end (R109). -/
def commitField (st : Stream) (it : Itin) (fr : Frame) (home : FabId) (sg : Seg) (ch : Chain) (tick : Tick) : Stream × Frame :=
  let fr1 := markCommitted fr sg tick
  match layerAt it sg.layer with
  | none => (st, fr1)
  | some ly =>
    let b := bodyOf ly fr.lean
    let st1 := countInvalid st it sg.layer sg.unit ly b ch.invalid
    let ch1 := { ch with invalid := ch.invalid.map fun _ => 0 }
    if !sg.last then (st1, { fr1 with partials := assocSet (sg.layer, sg.unit) ch1 fr1.partials })
    else match tileStep st it fr sg.layer sg.unit 0 with
      | none => (st1, fr1)
      | some (w, blk) =>
        let floatW := isFloat (tileHdr w).fmt
        let ys := postChain it.img b (scaleRec it.img fr.replaced w) floatW (floatW || isFloat blk.fmt) (hasSide st it fr sg.layer b) blk ch1
        let fr2 := { fr1 with partials := fr1.partials.filter fun x => x.1 != (sg.layer, sg.unit) }
        if stages ly b then
          let fr3 := { fr2 with staging := assocSet (sg.layer, sg.unit) ys fr2.staging }
          let r := if normed b then (st1, fr3)
            else commitStaged st1 it fr3 sg.layer sg.unit ly b (stagedRows it.img fr3 sg.layer ly b) (appendBlocks it.img fr3 sg.layer sg.unit ly b)
          if (List.range (tileCount ly b)).all fun t => (fr3.staging.lookup (sg.layer, t)).isSome then finishLayer r.1 it r.2 home sg.layer ly b (!normed b) tick
          else r
        else
          let r := commitTile st1 it fr2 sg.layer sg.unit ly b ys tick
          if (List.range (tileCount ly b)).all fun t => (r.2.blocks.lookup (sg.layer, t)).isSome then endInvocation r.1 r.2 ly sg.layer (desc b.desc) tick else r

/-- Output gradients of attention layer `l` in a backward feed: the feed lists, for each attention layer in ascending order,
the column blocks of its gradient (log entry 18). -/
def gradRow (it : Itin) (fr : Frame) (l row head : Nat) (a : AttnDecl) : List F32 :=
  let before := total (((sectionOf it).layers.take l).map fun ly => match ly.body.attn with | some x => cdiv (x.group * x.kvHeads * x.headDim) 512 | none => 0)
  (List.range a.headDim).map fun i =>
    let e := head * a.headDim + i
    match fr.feed.inputs[before + e / 512]? with
    | some b => match fmtFloat b.fmt with | some f => fv32 (decodeF f (nth (nth b.codes row []) (e % 512) 0)) | none => 0
    | none => 0

/-- The query blocks of an attention layer; a backward frame takes those of its forward frame. -/
def queryBlocks (st : Stream) (it : Itin) (fr : Frame) (l : Nat) (a : AttnDecl) : List Block :=
  let fr1 := if fr.feed.backward then { fr with feed := { fr.feed with inputs := (st.kept.map (·.inputs)).getD [] } } else fr
  a.query.filterMap (blockOf st it fr1 l)

/-- A query head row of a backward step; none for a padding row, or one without a record. -/
def backRowOf (st : Stream) (it : Itin) (fr : Frame) (l : Nat) (a : AttnDecl) (rowN head : Nat) : Option BackRow :=
  match (rowsFor st fr a)[rowN]?, st.rowRecords.lookup (l, rowN, head) with
  | some row, some rec_ =>
    if row.pos.isNone then none else some ⟨rowN, head, row, queryOf a (queryBlocks st it fr l a) rowN head, gradRow it fr l rowN head a, rec_.2⟩
  | _, _ => none

/-- The (row, head) pairs of an attention segment. -/
def segRows (a : AttnDecl) (sg : Seg) : List (Nat × Nat) :=
  (List.range sg.rn).flatMap fun r => (List.range sg.hn).map fun h => (sg.r0 + r, sg.unit * a.group + sg.h0 + h)

/-- The sums D of a backward segment's rows over its chunks, from the partial record of the segment before (R983). -/
def backSums (st : Stream) (it : Itin) (fr : Frame) (sg : Seg) (a : AttnDecl) (parts : List RowRun) : List RowRun :=
  (segRows a sg).filterMap fun u => (backRowOf st it fr sg.layer a u.1 u.2).map fun b =>
    let before := if sg.c0 == 0 then 0 else ((parts.find? fun x => x.row == u.1 && x.head == u.2).map (·.l)).getD 0
    ⟨u.1, u.2, 0, backSum st fr.pages a sg.layer b (32 * sg.c0) (if sg.cn == 0 then b.row.vis else 32 * sg.cn) before, []⟩

/-- The gradients of a backward attention layer, once all its segments have committed: in ascending row order (R242). -/
def backLayer (st : Stream) (it : Itin) (fr : Frame) (l : Nat) (a : AttnDecl) : Stream :=
  let sums := (List.range a.kvHeads).flatMap fun h => (fr.attnParts.lookup (l, h)).getD []
  let units := (List.range (rowsFor st fr a).length).flatMap fun r => (List.range (a.kvHeads * a.group)).map fun h => (r, h)
  { st with gradients := units.foldl (fun g u =>
      match backRowOf st it fr l a u.1 u.2, sums.find? fun x => x.row == u.1 && x.head == u.2 with
      | some b, some x => backRow st fr.pages a l b x.l g
      | _, _ => g) st.gradients }

/-- The outputs of one head of a segment's rows, through stages 5 and 6. -/
def headOut (img : Image) (b : LayerBody) (runs : List RowRun) (head : Nat) : List (List F32) :=
  (runs.filter (·.head == head)).map fun r => (rowOut r).map (stage56 img b none)

/-- Count a forward segment's outputs: each of its heads on its own channels (R165, R215). -/
def countHeads (st : Stream) (it : Itin) (fr : Frame) (sg : Seg) (ly : Layer) (b : LayerBody) (a : AttnDecl) (runs : List RowRun) : Stream × Frame :=
  (runs.map (·.head)).eraseDups.foldl (fun x h => countPart x.1 x.2 sg.layer ly (desc b.desc) (h * a.headDim) (headOut it.img b runs h)) (st, fr)

/-- The outputs of a finished attention layer, row by row; a padding row saw no position, and is poisoned (R211, R232). -/
def attnRows (st : Stream) (it : Itin) (fr : Frame) (l : Nat) (b : LayerBody) (a : AttnDecl) : List (List F32) :=
  let all := (List.range a.kvHeads).flatMap fun h => (fr.attnParts.lookup (l, h)).getD []
  (List.range (rowsFor st fr a).length).map fun r => (List.range (a.kvHeads * a.group)).flatMap fun h =>
    match all.find? fun x => x.row == r && x.head == h with
    | some x => (rowOut x).map (stage56 it.img b none)
    | none => List.replicate a.headDim nan32

/-- Commit of an attention segment (R110, R215, R240, R983): its rows' outputs convert and count here, unless they are normalised; the layer's
blocks become visible when its last segment commits. -/
def commitAttn (st : Stream) (it : Itin) (fr : Frame) (home : FabId) (sg : Seg) (runs : List RowRun) (tick : Tick) : Stream × Frame :=
  let fr1 := markCommitted fr sg tick
  match layerAt it sg.layer with
  | none => (st, fr1)
  | some ly =>
    let b := bodyOf ly fr.lean
    match b.attn with
    | none => (st, fr1)
    | some a =>
      let old := (fr1.attnParts.lookup (sg.layer, sg.unit)).getD []
      let new := if fr.feed.backward then backSums st it fr sg a old else runs
      let parts := old.filter (fun x => !new.any fun y => y.row == x.row && y.head == x.head) ++ new
      let fr2 := { fr1 with attnParts := assocSet (sg.layer, sg.unit) parts fr1.attnParts }
      let clear (f : Frame) : Frame := { f with attnParts := f.attnParts.filter fun x => x.1.1 != sg.layer }
      if fr.feed.backward then (if layerDone fr2 sg.layer then (backLayer st it fr2 sg.layer a, clear fr2) else (st, fr2))
      else
        let recs := if st.backward && sg.last then runs.map fun r => ((sg.layer, r.row, r.head), (r.m, lse32 r.m r.l)) else []
        let st1 := { st with rowRecords := recs.foldl (fun l p => assocSet p.1 p.2 l) st.rowRecords }
        let early := !stages ly b && sg.last
        let r := if early then countHeads st1 it fr2 sg ly b a runs else (st1, fr2)
        if !layerDone fr2 sg.layer then r
        else
          let ys := attnRows st it fr2 sg.layer b a
          let fr3 := (List.range (tileCount ly b)).foldl (fun f t =>
            { f with staging := assocSet (sg.layer, t) (ys.map fun row => slice row (512 * t) (min 512 (ly.width - 512 * t))) f.staging }) (clear r.2)
          finishLayer r.1 it fr3 home sg.layer ly b (!stages ly b) tick

/-- Sealed pages of a frame that the itinerary homes below T1 start to move there (R227). -/
def moveSealed (s : State) (h : Nat) (before : List KvPage) : State :=
  match streamOf s h, (streamOf s h).bind fun st => itinOf s st.itin with
  | some st, some it =>
    match st.frame with
    | none => s
    | some fr =>
      if it.img.kvTier < 2 then s
      else
        let fresh := fr.pages.filter fun p => p.isSealed && p.tier == 1 && !(before.any fun x => x.layer == p.layer && x.head == p.head && x.slot == p.slot && x.page == p.page && x.isSealed)
        fresh.foldl (fun t p =>
          let d := match (layerAt it p.layer).bind (·.body.attn) with | some a => a.headDim | none => 0
          addMove t st it p.layer (kvItem p.layer p.head p.slot p.page) (gaddr t 0) (pageBytes st.pageLog2 st.kvFmt d) it.img.kvTier 0 false true) s
  | _, _ => s

/-- Put a committed frame and stream back, release the copies its layer used last, and move sealed pages (R227, R270). -/
def storeCommit (s : State) (h layer : Nat) (before : List KvPage) (r : Stream × Frame) : State :=
  let s1 := modStream s h fun _ => { r.1 with frame := some r.2 }
  let s2 := if layerDone r.2 layer then releaseAfter s1 h layer else s1
  moveSealed s2 h before

/-- Attention rows computed on the field: a fallback's results need not be the pipeline's bits (R246), so each output is a free
value (log entry 21). -/
def freeRows (it : Itin) (fr : Frame) (sg : Seg) (n : Nat) : List RowRun :=
  match (layerAt it sg.layer).bind fun ly => (bodyOf ly fr.lean).attn with
  | none => []
  | some a => (startRows a sg []).mapIdx fun i r =>
      { r with m := 0, l := 0x3F800000, o := (List.range a.headDim).map fun k => BitVec.ofNat 32 (Config.freeNat (n + i * a.headDim + k)) }

/-- WAYMARK_COMMIT (R110): a segment whose work has all been issued and drained commits at this tick; a residue mismatch in the
post unit is an engine fault (R116). -/
def execWaymarkCommit (e : EngineId) (res : Res) (residueUpset : Bool) (s : State) : Res' :=
  .next <|
    let en := s.engines.get e
    match res with
    | .field =>
      match en.field with
      | none => s
      | some f =>
        if en.drain.isSome || f.swapWanted || decide (f.tile < f.seg.t0 + f.seg.tn) then s
        else if residueUpset then engineFault s e 1
        else
          let s1 := modEngine s e emptied'
          match streamOf s f.stream, (streamOf s f.stream).bind fun st => itinOf s st.itin, (streamOf s f.stream).bind (·.frame) with
          | some st, some it, some fr =>
            if isAttn it fr f.seg then
              let rows := freeRows it fr f.seg s.free
              storeCommit { s1 with free := s.free + rows.length * 256 } f.stream f.seg.layer fr.pages (commitAttn st it fr s.fabric.id f.seg rows (now s))
            else storeCommit s1 f.stream f.seg.layer fr.pages (commitField st it fr s.fabric.id f.seg en.chain (now s))
          | _, _, _ => s1
    | .attn =>
      match en.attn with
      | none => s
      | some a =>
        if a.steps < a.seg.cost then s
        else if residueUpset then engineFault s e 1
        else
          let s1 := modEngine s e fun en => { en with attn := none }
          match streamOf s a.stream, (streamOf s a.stream).bind fun st => itinOf s st.itin, (streamOf s a.stream).bind (·.frame) with
          | some st, some it, some fr => storeCommit s1 a.stream a.seg.layer fr.pages (commitAttn st it fr s.fabric.id a.seg a.rows (now s))
          | _, _, _ => s1
where
  /-- The field left free; the attention pipeline keeps its work. -/
  emptied' (en : Engine) : Engine := { en with field := none, acc := [], check := [], high := [], chain := zeroChain 0 0 }

/-! ## Lay-by self-test (R91, R826, R832) -/

/-- LAYBY_SELF_TEST: once every 16,777,216 ticks while E6 is free, the first as part of discovery (R905). -/
def execLaybySelfTest (s : State) : Res' :=
  .next <|
    let en := s.engines.get 6
    if en.life != .laybyFree || en.selfTest.isSome || !ready s || (s.fw.laybyTested && !passed s en.testAt 16777216) then s
    else modEngine s 6 fun en => { en with selfTest := some true, testAt := now s }

/-- At a firmware start, E6 that has passed takes the place of the lowest-numbered retired active engine, without an event
(R824). -/
def engageAtStart (s : State) : State :=
  match (fins 7).find? fun e => e != 6 && hasEngine s.fuses.variant e.1 && (s.engines.get e).life == .retired with
  | none => s
  | some e =>
    moveMapping (modEngine (modEngine s 6 fun x => { x with life := .laybyEngaged, partner := some e }) e fun x => { x with partner := some 6 }) e

/-- LAYBY_SELF_TEST_DONE: a failure uses the lay-by up. -/
def execLaybySelfTestDone (pass : Bool) (detail : Byte) (s : State) : Res' :=
  .next <|
    let en := s.engines.get 6
    if en.life != .laybyFree || en.selfTest != some true then s
    else if pass then
      let s1 := modEngine s 6 fun en => { en with selfTest := none }
      if s.fw.laybyTested then s1 else engageAtStart { s1 with fw := { s1.fw with laybyTested := true } }
    else { laybyFailed s 4 detail with fw := { (laybyFailed s 4 detail).fw with laybyTested := true } }

end Sys2Proof.Machine
end

