-- ==== Sys2Proof/Machine/Governor.lean ====
section
/-! DEFINITION. The governor (12): the power estimate and its calibration, pacer limits, throttle accounting, droop, thermal
limits, the ageing trim, energy, and the power commands of the mailbox. -/

namespace Sys2Proof.Machine

/-! ## Limits (R704, R711, R723, R736, R738) -/

/-- The THERMAL source's limit: the controller's fraction while a sensor is at THROTTLE or above, 0 at CRITICAL; and how long
it has been below half (R736 to R738). -/
def thermalControl (s : State) : State :=
  let lv := hottestLevel s
  let hot := (sensorsOf s).foldl (fun a n => max a (s.power.sensors.get n).reading) (-640)
  let phi := if lv == 3 then 0 else if lv == 2 then min 65536 (Config.thermalLaw s.power.thermPhi hot s.free) else 65536
  let s1 := { s with free := s.free + 1, power := { s.power with
    thermPhi := if lv == 3 then s.power.thermPhi else phi
    thermLowSince := if phi < 32768 then (match s.power.thermLowSince with | some t => some t | none => some (now s)) else none } }
  applyThermal s1

/-! ## The estimate (R693 to R696, R721, R722, R755, R756) -/

/-- Readings of a domain. -/
def domIdx : Domain → Fin 6
  | .vlog => 0 | .vmem => 1 | .vlnk => 2 | .vddqm => 3 | .vaon => 4 | .vddqmx => 5

/-- Power of one domain from its latest readings, raised by 10 % while they are lost (R695, R701). -/
def domainMw (s : State) (d : Fin 6) : Nat :=
  let r := s.power.readings.get d
  let p := r.voutMv * r.ioutMa / 1000
  if r.stopped then p * 11 / 10 else p

/-- CAL_GAIN × raw, rounded down. -/
def gainTimes (g : F32) (raw : Nat) : Int :=
  match val32 g with
  | .fin n m e => let q := scale2 (m * raw) e; if n then -((q.1 / q.2 : Nat) : Int) else ((q.1 / q.2 : Nat) : Int)
  | _ => 0

/-- P_VLOG in mW (R694, R701). -/
def vlogEst (p : Power) (raw : Nat) : Nat :=
  let v := gainTimes p.calGain raw + p.calOffset
  (if p.guard then v * 11 / 10 else v).toNat

/-- Mean die temperature, in 1/16 degree. -/
def meanTemp (s : State) : Int :=
  let l := (sensorsOf s).map fun n => (s.power.sensors.get n).reading
  l.foldl (· + ·) 0 / (max 1 l.length : Nat)

/-! ### What the rules leave of the free terms (R705, R706, R711, R722, R725, R729)

The terms of the estimate are free values (log entry 12). What the spec promises of the estimate bounds them: the mean of R705 and the change
between windows of R722. -/

/-- Every engine in service stands at the floor of R711. -/
def atFloor (s : State) : Bool := (servingEngines s).all fun e => (s.engines.get e).limits.powerCap == 256

/-- Windows that began 49,152 ticks or more after the cap target last changed (R705, R706). -/
def heldWindows (s : State) : Nat := (elapsed s s.power.targetAt - 49152) / 246

/-- 1.02 × T over 24,576 ticks, in mW and ticks (R705). -/
def capBudget (s : State) : Nat := capTarget s * 102 * 24576 / 100

/-- The most that the estimates of windows, oldest first, come to over an interval of 24,576 ticks: 99 whole windows and 222 ticks of the one at
either end. -/
def intervalSum (l : List Nat) : Nat :=
  max (246 * total (lastN 99 l) + 222 * total (l.take (l.length - 99))) (246 * total (l.take 99) + 222 * total (l.drop 99))

/-- An interval of 24,576 ticks of the windows held is above 1.02 × T (R705). -/
def overCap (s : State) : Bool := decide (capBudget s < intervalSum (lastN (min 100 (heldWindows s)) s.power.estHist))

/-- What R705 leaves for the estimate of the window that closes now; no bound before T has been held, or at the floor (R711). -/
def capRoom (s : State) : Option Nat :=
  if heldWindows s == 0 || atFloor s then none
  else
    let l := lastN (min 99 (heldWindows s - 1)) s.power.estHist
    some (min ((capBudget s - (246 * total (lastN 98 l) + 222 * total (l.take (l.length - 98)))) / 246) ((capBudget s - 246 * total l) / 222))

/-- The current may fall faster than the slope allows in this window (R725); a descent or a rail loss ends the firmware. -/
def unshapedFall (s : State) : Bool :=
  s.power.unshaped || hottestLevel s == 3 || s.engines.toList.any fun en => en.droopHold.isSome

/-- A change of the mean current between two windows that R722 allows: of ΔI at most, exactly ΔI included (R729), or an unshaped fall. -/
def slopeKept (s : State) (old new : Nat) : Bool :=
  decide (new ≤ old + slopeStepMa s) && (unshapedFall s || decide (old ≤ new + slopeStepMa s))

/-- The gain as a fraction. -/
def gainFrac (g : F32) : Nat × Nat := match val32 g with | .fin _ m e => scale2 m e | _ => (1, 1)

/-- The largest raw estimate whose P_VLOG is at most `mw`. -/
def rawAtMost (p : Power) (mw : Nat) : Nat :=
  let w : Int := (if p.guard then ((10 * mw + 9) / 11 : Nat) else mw) - p.calOffset
  if w < 0 then 0 else ((w.toNat + 1) * (gainFrac p.calGain).2 - 1) / (gainFrac p.calGain).1

/-- The smallest raw estimate whose P_VLOG is at least `mw`. -/
def rawAtLeast (p : Power) (mw : Nat) : Nat :=
  let w : Int := (if p.guard then ((10 * mw + 10) / 11 : Nat) else mw) - p.calOffset
  let q := gainFrac p.calGain
  (w.toNat * q.2 + (q.1 - 1)) / q.1

/-- Power of the other domains that count, VAON apart (R695). -/
def otherMw (s : State) : Nat := domainMw s 1 + domainMw s 2 + domainMw s 3 + domainMw s 5

/-- The raw estimate within what the rules leave: not above the slope's rise or R705's room, and not below the slope's fall, which a lower limit
follows too (Table 12-1). -/
def boundRaw (s : State) (raw : Nat) : Nat :=
  let p := s.power
  let mv := vidMv p.vid
  let cap := match capRoom s with | some r => min raw (rawAtMost p (r - otherMw s)) | none => raw
  match p.lastMa with
  | none => cap
  | some old =>
    let lo := if unshapedFall s then 0 else rawAtLeast p (((old - slopeStepMa s) * mv + 999) / 1000)
    max lo (min cap (rawAtMost p (((old + slopeStepMa s + 1) * mv - 1) / 1000)))

/-- Picojoules of a power in mW over one estimate window. -/
def windowPj (mw : Nat) : Nat := mw * 246 * 1000000 / 24576

/-- The terms of the present engines in the window just closed. -/
def engineTerms (s : State) : List (EngineId × Nat) :=
  ((fins 7).filter fun e => hasEngine s.fuses.variant e.1).map fun e =>
    let en := s.engines.get e
    (e, Config.engineTermMw s.power.opForce.1 en.estProductive en.estBallast en.estAttn (s.free + e.1))

/-- Share each engine's productive part of the window, no more than the window's raw estimate, among the streams it ran (R756). -/
def chargeWindow (s : State) (raw : Nat) : State :=
  ((fins 7).filter fun e => hasEngine s.fuses.variant e.1).foldl (fun t e =>
    let en := s.engines.get e
    let n := en.estProductive + en.estAttn
    let term := windowPj (min raw (Config.engineTermMw s.power.opForce.1 en.estProductive 0 en.estAttn (s.free + e.1)))
    en.ran.foldl (fun t x => chargeStream t x.1 (if n == 0 then 0 else term * x.2 / n)) t) s

/-! ## Throttle accounting (R640, R752 to R754) -/

/-- Reason numbers of THROTTLE_BEGIN. -/
def rPowerCap : Fin 6 := 0
def rThermal : Fin 6 := 1
def rDroop : Fin 6 := 2
def rPdn : Fin 6 := 3
def rSteward : Fin 6 := 4
def rRamp : Fin 6 := 5

/-- The alarm target is what the cap controller works to. -/
def pdnRules (s : State) : Bool := match alarmTarget s with | some a => decide (a < capInForce s) | none => false

/-- The reason that holds an engine (R752). -/
def heldReason (s : State) (e : EngineId) : Option (Fin 6) :=
  let en := s.engines.get e
  let l := en.limits
  let lim := min (min (min l.powerCap l.thermal) (min l.steward l.ramp)) 65535
  let wants := hasReady s e || (match s.power.change with | some c => c.phase == .approach && !atBoundary en | none => false)
  if !inService s e || !wants || lim == 65535 || decide (rateAvail s e ≤ lim) then none
  else if l.steward == lim then some rSteward
  else if l.thermal == lim then some rThermal
  else if l.powerCap == lim then some (if pdnRules s then rPdn else rPowerCap)
  else some rRamp

/-- Engines a reason holds. -/
def heldBy' (s : State) (r : Fin 6) : List EngineId :=
  (fins 7).filter fun e =>
    if r == rDroop then inService s e && (s.engines.get e).droopHold.isSome && hasReady s e else heldReason s e == some r

/-- Change one reason's episode. -/
def modEpisode (s : State) (r : Fin 6) (f : Episode → Episode) : State := { s with power := { s.power with episodes := vmod s.power.episodes r f } }

/-- Microseconds of a tick count. -/
def usOf (t : Nat) : Nat := t * 125 / 3072

/-- Events of DROOP and RAMP wait for the close of their interval (R640). -/
def waitsForInterval (r : Fin 6) : Bool := r == rDroop || r == rRamp

/-- Account one reason over a window of `ticks` (R753, R754). -/
def accountReason (s : State) (r : Fin 6) (ticks : Nat) : State :=
  let es := heldBy' s r
  if es.isEmpty then modEpisode s r fun e => { e with active := false }
  else
    let begun := (s.power.episodes.get r).openAt.isNone
    let s1 := modEpisode s r fun e => { e with ticks := e.ticks + ticks, active := true, lastActive := now s, openAt := if begun then some (now s) else e.openAt }
    let mask := total (es.map fun e => 2 ^ e.1)
    let lim := minOf 65535 (es.map fun e => (s.engines.get e).limitNow)
    let pay := put 16 1 r.1 + put 17 1 mask + put 18 2 lim + put 20 4 (capInForce s)
    if !begun then s1
    else if waitsForInterval r then
      modEpisode s1 r fun e => match e.heldBegin with
        | some _ => { e with heldEnd := none }
        | none => { e with heldBegin := some pay }
    else postEvent s1 0x20 pay

/-- THROTTLE_END (R754): 2,048 inactive ticks end an episode. -/
def execThrottleEnd (reason : Fin 6) (s : State) : Res' :=
  .next <|
    let e := s.power.episodes.get reason
    match e.openAt with
    | none => s
    | some t =>
      if !ready s || e.active || !passed s e.lastActive 2048 then s
      else
        let pay := put 16 1 reason.1 + put 20 8 (usOf (e.lastActive - t)) + put 28 8 (usOf e.ticks)
        let s1 := modEpisode s reason fun e => { e with openAt := none }
        if waitsForInterval reason then modEpisode s1 reason fun e => { e with heldEnd := some pay } else postEvent s1 0x21 pay

/-- Post what the interval held of one reason: the end of an earlier episode before the begin of one still open. -/
def closeInterval (s : State) (r : Fin 6) : State :=
  let e := s.power.episodes.get r
  let b : List (Nat × Nat) := e.heldBegin.toList.map fun p => (0x20, p)
  let d : List (Nat × Nat) := e.heldEnd.toList.map fun p => (0x21, p)
  let l := if e.openAt.isSome then d ++ b else b ++ d
  l.foldl (fun t x => postEvent t x.1 x.2) (modEpisode s r fun e => { e with heldBegin := none, heldEnd := none })

/-- THROTTLE_EVENT_INTERVAL_CLOSE (R640). -/
def execThrottleEventIntervalClose (s : State) : Res' :=
  .next <|
    if !ready s || !passed s s.power.throttleAt 24576 then s
    else closeInterval (closeInterval { s with power := { s.power with throttleAt := now s } } rDroop) rRamp

/-! ## The window (R693 to R696, R704, R711, R723, R726) -/

/-- The pre-ramp's target for the earliest release fixed at least 2,048 ticks ahead (R726); none while a change is under way (R49). -/
def preRampOf (s : State) : Option (Nat × Tick) :=
  match s.power.preRamp with
  | some (ma, t) => if reached s t then none else some (ma, t)
  | none =>
    let changing : Bool := match s.power.change with | some c => c.phase != .deferred | none => false
    if changing then none
    else
      let due := s.streams.filterMap fun st => match st.nextRelease with
        | some t => if st.frame.isNone && !within s t 2048 then some (t, st.handle) else none
        | none => none
      (due.foldl (fun b x => match b with | none => some x | some y => if x.1 < y.1 then some x else some y) none).map fun x => (Config.preRampMa x.2, x.1)

/-- Close the engines' counts of the window and set the RAMP limit. -/
def closeWindow (s : State) (ramp : Nat) : State :=
  modEngines s fun en => { en with estProductive := 0, estBallast := 0, estAttn := 0, ran := [], limits := { en.limits with ramp := min 65535 ramp } }

/-- ESTIMATE_WINDOW (R693 to R696, R704 to R706, R711, R722, R723, R726, R753, R755, R756). Where the mean of R705 would be above its bound all
the same, the controller goes to the floor of R711 (log entry 153). -/
def execEstimateWindow (s : State) : Res' :=
  .next <|
    if !ready s || !passed s s.power.windowAt 246 then s
    else estimate (noteTarget s)
where
  /-- The window's estimate, and what follows from it. -/
  estimate (s : State) : State :=
      let p := s.power
      let raw := boundRaw s (total ((engineTerms s).map (·.2)) + Config.uncoreMw (s.free + 7) + Config.leakMw p.vid (meanTemp s))
      let pv := vlogEst p raw
      let est := pv + otherMw s
      let hist := lastN 100 (p.estHist ++ [est])
      let mean := total hist / hist.length
      let t := capTarget s
      let high := overCap { s with power := { p with estHist := hist } }
      let phi := if high then 1 else max 1 (min 65536 (Config.capLaw p.phi t mean (s.free + 8)))
      let cur := pv * 1000 / vidMv p.vid
      let e := est * 246 + p.energyRem
      let s1 := chargeWindow s raw
      let ballast := (fins 7).any fun i => (s.engines.get i).estBallast != 0
      let s2 := { s1 with free := s.free + 10, power := { p with
        estMw := est, estHist := hist, calRaw := lastN 1000 (p.calRaw ++ [raw]), phi := phi
        energyUj := p.energyUj + e / 24576, energyRem := e % 24576, preRamp := preRampOf s, windowAt := now s
        rampDown := ballast && !preRampBegun s && (match p.lastMa with | some l => decide (cur < l) | none => false)
        lastMa := some cur, unshaped := false } }
      let s3 := (fins 6).foldl (fun t r => accountReason t r (elapsed s p.windowAt)) s2
      let s4 := applySteward (applyCap (closeWindow s3 (Config.rampLimit cur (slopeStepMa s) (s.free + 9))))
      let due := match p.floorLogAt with | none => true | some a => passed s a 24576000
      let s5 := if atFloor s4 && decide (t < mean) && due then
          logDie { s4 with power := { s4.power with floorLogAt := some (now s) } } 0x0605 0xFF 1 (put 0 4 t + put 4 4 mean)
        else s4
      match s5.power.change with
      | some c => if c.phase == .waiting && !s5.power.rampDown then
          { s5 with power := { s5.power with change := some { c with phase := .approach, since := now s } } } else s5
      | none => s5

/-! ## Calibration (R697 to R701) -/

/-- A pair for the fit (R697, R698): the mean raw estimate since the last reading and the measured power; discarded where the 10
ms held any part of a stop. -/
def calPair (s : State) (measMw : Nat) : State :=
  let p := s.power
  let stopNow := match p.change with | some c => c.phase == .stop | none => false
  let pair := (total p.calRaw / max 1 p.calRaw.length, measMw, p.stopSeen || stopNow)
  { s with power := { p with calRaw := [], calPairs := if p.calRaw.isEmpty then p.calPairs else lastN 10 (p.calPairs ++ [pair]), stopSeen := stopNow } }

/-- A fit: gain as a fraction (numerator, denominator) and offset in mW. -/
def fitPairs (g : F32) (l : List (Nat × Nat)) : (Int × Nat) × Int :=
  let n : Int := l.length
  let xs := l.map (·.1)
  let sx : Int := total xs
  let sy : Int := total (l.map (·.2))
  let sxx : Int := total (l.map fun p => p.1 * p.1)
  let sxy : Int := total (l.map fun p => p.1 * p.2)
  let den := n * sxx - sx * sx
  if maxOf 0 xs - minOf 0 xs ≥ 5000 then
    let num := n * sxy - sx * sy
    ((num, den.toNat), (sy * den - num * sx) / (n * den))
  else
    let q := gainFrac g
    (((q.1 : Int), q.2), (sy * q.2 - q.1 * sx) / (n * q.2))

/-- A quarter of the way from a gain to a fit, as FP32. -/
def gainToward (g : F32) (num den : Nat) : F32 :=
  let q := gainFrac g
  round32 false (3 * q.1 * den + num * q.2) (4 * q.2 * den) 0

/-- CALIBRATION_UPDATE (R697 to R701). -/
def execCalibrationUpdate (s : State) : Res' :=
  .next <|
    let p := s.power
    if !ready s || !passed s p.calAt 2457600 || (p.readings.get 0).stopped then s
    else
      let good := (p.calPairs.filter fun x => !x.2.2).map fun x => (x.1, x.2.1)
      let s1 := { s with power := { p with calAt := now s, calPairs := [] } }
      if good.length < 4 then s1
      else
        let f := fitPairs p.calGain good
        let bad := decide (2 * f.1.1 < f.1.2) || decide (2 * (f.1.2 : Int) < f.1.1) || decide (10000 < f.2.natAbs)
        if bad then
          logDie s1 0x0603 0xFF 1 (put 0 4 (round32 (decide (f.1.1 < 0)) f.1.1.natAbs (max 1 f.1.2) 0).toNat + put 4 4 (twos 32 f.2))
        else
          { s1 with power := { s1.power with
            calGain := gainToward p.calGain f.1.1.toNat f.1.2, calOffset := p.calOffset + (f.2 - p.calOffset) / 4
            calOk := now s, guard := false } }

/-- CALIBRATION_FREEZE_GUARD (R701). -/
def execCalibrationFreezeGuard (s : State) : Res' :=
  .next <|
    let p := s.power
    if !ready s || p.guard || !(p.readings.get 0).stopped || !passed s p.calOk 12288000 then s
    else logDie { s with power := { p with guard := true } } 0x0604 0 1 (put 0 1 0)

/-! ## The return to a higher point (R709) -/

/-- OP_RETURN_HOLD_EXPIRY: the highest point up to the one wanted that has stayed allowed for 1 s. -/
def execOpReturnHoldExpiry (s : State) : Res' :=
  .next <|
    let held := (fins 5).filter fun n => match s.power.allowedAt.get n with
      | some t => decide (n.1 ≤ (wantedPoint s).1) && decide (n.1 ≤ (highestAllowed s).1) && decide (s.power.opForce.1 < n.1) && passed s t 24576000
      | none => false
    if !ready s || s.power.change.isSome then s
    else match held.getLast? with
      | some n => requestOp s n .limit
      | none => s

/-! ## Droop (R715 to R720) -/

/-- A sag below the VID target, against what the detectors are referenced to: the lower of the old and new targets while VLOG has not settled
after a stop (R51). -/
def refSag (s : State) (sagMv : Nat) : Nat :=
  match s.power.slowRefMv with
  | some r => sagMv - (vidMv s.power.vidTarget - r)
  | none => sagMv

/-- DROOP_TRIP (R715, R717 to R719). -/
def execDroopTrip (e : EngineId) (quadrant : Fin 4) (sagMv : Nat) (s : State) : Res' :=
  .next <|
    let en := s.engines.get e
    if !hasEngine s.fuses.variant e.1 || s.power.masked || en.detMask.get quadrant || en.droopHold.isSome || decide (refSag s sagMv ≤ 40) then s
    else modEngine { s with power := { s.power with unshaped := true } } e fun en => { en with droopHold := some (now s), droopTold := false }

/-- DROOP_RELEASE: every detector of the engine that is not masked has seen VLOG within 20 mV for 64 ns. -/
def execDroopRelease (e : EngineId) (sags : Vector Nat 4) (s : State) : Res' :=
  .next <|
    let en := s.engines.get e
    if en.droopHold.isNone || !((fins 4).all fun q => en.detMask.get q || decide (refSag s (sags.get q) ≤ 20)) then s
    else modEngine s e fun en => { en with droopHold := none }

/-- DROOP_HOLD_TIMEOUT (R720). -/
def execDroopHoldTimeout (e : EngineId) (quadrant : Fin 4) (senseSagMv : Nat) (s : State) : Res' :=
  .next <|
    let en := s.engines.get e
    match en.droopHold with
    | none => s
    | some t =>
      if en.droopTold || !passed s t 24576 then s
      else if senseSagMv ≤ 20 then
        logDie (modEngine s e fun en => { en with detMask := vmod en.detMask quadrant fun _ => true, droopHold := none }) 0x0602 e.1 1
          (put 0 1 e.1 + put 1 1 quadrant.1)
      else
        let s1 := logDie (modEngine s e fun en => { en with droopTold := true }) 0x0601 e.1 1 (put 0 1 e.1 + put 1 2 senseSagMv)
        let n := s.power.opForce
        if n == 0 then s1
        else
          let below : Fin 5 := ⟨(n.1 - 1) % 5, Nat.mod_lt _ (by decide)⟩
          limitCheck { s1 with power := { s1.power with droopLimit := match s.power.droopLimit with
            | some l => some (minPoint l below)
            | none => some below } }

/-! ## Thermal limits (R734 to R742) -/

/-- Entry values of the levels 1 to 3, in 1/16 degree, with the steward's offsets (Table 12-4, R740). -/
def thermalEntry (s : State) (lv : Nat) : Int :=
  let base : Int := if lv == 1 then 95 else if lv == 2 then 100 else 110
  let off := match lv with | 1 => s.power.entryOff.get 0 | 2 => s.power.entryOff.get 1 | _ => s.power.entryOff.get 2
  (base - off) * 16

/-- The level of a reading: the highest level entered, or held above its leaving value (R735, R741). -/
def levelOf (s : State) (old : Nat) (r : Int) : Nat :=
  maxOf 0 ([1, 2, 3].filter fun k => decide (thermalEntry s k ≤ r) || (decide (k ≤ old) && decide (thermalEntry s k - 48 ≤ r)))

/-- A sensor takes a reading: its level, and THERMAL at a change (R735). -/
def takeReading (s : State) (n : SensorId) (r : Int) : State :=
  let old := (s.power.sensors.get n).level
  let lv := levelOf s old r
  let s1 := { s with power := { s.power with sensors := vmod s.power.sensors n fun x =>
    { x with reading := r, level := lv, below92 := if r < 92 * 16 then (match x.below92 with | some t => some t | none => some (now s)) else none } } }
  if lv == old then s1
  else
    let th := if old < lv then thermalEntry s lv else thermalEntry s (lv + 1) - 48
    postEvent s1 0x61 (put 16 1 n.1 + put 17 1 lv + put 18 2 (twos 16 r) + put 20 2 (twos 16 th))

/-- The hottest reading of the other sensors plus 5 degrees (R742). -/
def substituteReading (s : State) (n : SensorId) : Int :=
  ((sensorsOf s).filter fun m => m != n && !(s.power.sensors.get m).faulty).foldl (fun a m => max a (s.power.sensors.get m).reading) (-640) + 80

/-- THERMAL_SENSOR_READ (R734 to R738, R741, R742): a reading in 1/16 degree, or none. -/
def execThermalSensorRead (n : SensorId) (reading : Option Int) (s : State) : Res' :=
  .next <|
    let x := s.power.sensors.get n
    if !ready s || !sensorPresent s.fuses.variant n.1 then s
    else
      let missed := if reading.isNone then x.missed + 1 else 0
      let bad := decide (4 ≤ missed) || (match reading with | some r => decide (r < -640) || decide (2400 < r) | none => false)
      let set (t : State) (f : Sensor → Sensor) : State := { t with power := { t.power with sensors := vmod t.power.sensors n f } }
      let s1 := if bad && !x.faulty then logDie (set s fun x => { x with faulty := true, missed := missed }) 0x0608 0xFF 1 (put 0 1 n.1)
        else set s fun x => { x with missed := missed }
      let s2 := if x.faulty || bad then takeReading s1 n (substituteReading s1 n)
        else match reading with | some r => takeReading s1 n r | none => s1
      limitCheck (thermalControl s2)

/-- THERMAL_POINT_DROP (R737). -/
def execThermalPointDrop (s : State) : Res' :=
  .next <| match s.power.thermLowSince with
    | some t =>
      if !ready s || !passed s t 24576000 then s
      else limitCheck { s with power := { s.power with thermalDrop := min 4 (s.power.thermalDrop + 1), thermLowSince := some (now s) } }
    | none => s

/-- THERMAL_POINT_RETURN (R737). -/
def execThermalPointReturn (s : State) : Res' :=
  .next <|
    let cool := (sensorsOf s).all fun n => match (s.power.sensors.get n).below92 with
      | some t => passed s t 24576000
      | none => false
    if !ready s || s.power.thermalDrop == 0 || !cool then s
    else limitCheck { s with power := { s.power with
      thermalDrop := s.power.thermalDrop - 1, sensors := vmap (fun x => { x with below92 := x.below92.map fun _ => now s }) s.power.sensors } }

/-! ## Ageing trim (R743 to R751) -/

/-- A trim step applied: at once at boot, as a deferred change of the same point in service (R747). -/
def applyTrim (s : State) (mv : Int) : State :=
  let s1 := { s with power := { s.power with trimMv := mv } }
  if ready s then requestOp s1 s.power.opForce .trim
  else
    let code := vidCode s1 3
    emit { s1 with power := { s1.power with vid := code, vidTarget := code } } (.vid code)

/-- A run ends (R749): AGEING_TRIM is posted. -/
def endTrim (s : State) (r : TrimRun) : State :=
  let s1 := { s with power := { s.power with
    trimRun := none, ageing := false, trimAt := if r.cause == 2 then s.power.trimAt else now s, bootTrimmed := s.power.bootTrimmed || r.cause == 0 } }
  postEvent s1 0x23 (put 16 1 r.cause.1 + put 18 2 (twos 16 r.oldMv) + put 20 2 (twos 16 s.power.trimMv) + put 22 2 s.fuses.marginMv)

/-- A run of this cause is due (R745). -/
def trimDue (s : State) (cause : Fin 3) : Bool :=
  if cause == 0 then s.fw.state == .loading && !s.power.bootTrimmed
  else if cause == 1 then ready s && passed s s.power.trimAt 2123366400000
  else ready s && s.power.ageing

/-- AGEING_TRIM_RUN (R745 to R751): one measurement of the run, with the canary counts of all engines and windows. -/
def execAgeingTrimRun (cause : Fin 3) (counts : List Nat) (s : State) : Res' :=
  .next <|
    let run := match s.power.trimRun with
      | some r => some r
      | none => if trimDue s cause then some (⟨cause, s.power.trimMv, false⟩ : TrimRun) else none
    match run with
    | none => s
    | some r =>
      if s.power.change.isSome || counts.isEmpty then s
      else
        let op : Fin 5 := if ready s then s.power.opForce else 3
        let target := s.fuses.canaryTarget.get op
        let c := minOf 0 counts
        let t := s.power.trimMv
        let keep (r' : TrimRun) (x : State) : State := { x with power := { x.power with trimRun := some r' } }
        if c < target then
          if r.lowered then endTrim (applyTrim s (t + 5)) r
          else if t + 5 ≤ (s.fuses.marginMv : Int) + 30 then keep r (applyTrim s (t + 5))
          else logDie (endTrim s r) 0x0606 0xFF 1 (put 0 2 (twos 16 t) + put 2 4 c)
        else if !r.lowered && r.cause != 2 && decide (103 * target ≤ 100 * c) && decide ((s.fuses.marginMv : Int) - 30 ≤ t - 5) then
          keep { r with lowered := true } (applyTrim s (t - 5))
        else endTrim s r

/-! ## Energy between dies (R758) -/

/-- ENERGY_CHARGE_SEND. -/
def execEnergyChargeSend (s : State) : Res' :=
  .next <|
    if !ready s || !passed s s.power.chargeAt 2457600 then s
    else
      let due := s.streams.filter fun st => st.home != s.fabric.id && decide (1000000 ≤ st.chargePj)
      let s1 := due.foldl (fun t st => sendMgmt (modStream t st.handle fun x => { x with chargePj := x.chargePj % 1000000 }) st.home
        (.energyCharge st.handle (st.chargePj / 1000000))) s
      { s1 with power := { s1.power with chargeAt := now s } }

/-- ENERGY_CHARGE_RECEIVE. -/
def execEnergyChargeReceive (p : PortId) (h : Nat) (uj : Nat) (s : State) : Res' :=
  .next <|
    if (s.fabric.ports.get p).st != .active then s
    else modStream s h fun st => if st.home == s.fabric.id then { st with energyPj := st.energyPj + uj * 1000000 } else st

/-! ## Power commands (Table 10-11) -/

/-- PWR_CAP_SET (R702, R708, R712). -/
def execPwrCapSet (m : MailCmd) (s : State) : Res' :=
  .next <| onMail m 0x30 s fun s =>
    let cap := arg m 8 4
    if reserved m || (cap != 0 && (decide (cap < 15000) || decide (130000 < cap))) then complete s m .badArgument 0
    else
      let s1 := limitCheck { s with power := { s.power with hostCap := if cap == 0 then none else some cap } }
      complete s1 m .ok (put 8 4 cap + put 12 4 (s.power.stewardCap.getD 0) + put 16 4 (capInForce s1) + put 20 1 (highestAllowed s1).1)

/-- One engine's entry of PWR_REPORT (Table 10-12, R29, R31). -/
def pwrEntry (s : State) (e : EngineId) : Nat :=
  let en := s.engines.get e
  let n := max 1 en.windows.length
  let flags := b2n (en.life == .retired) + 2 * b2n (e == 6) + 4 * b2n (en.life == .laybyEngaged) + 8 * b2n (hasAttn s.fuses.variant e.1)
  let head := put 0 1 e.1 + put 1 1 flags
  if en.life == .retired then head
  else
    let rates := en.windows.map (·.rate)
    head + put 4 4 (satTo 32 ((en.windows.getLast?.map (·.rate)).getD 0)) + put 8 4 (satTo 32 (minOf 0 rates)) + put 12 4 (satTo 32 (maxOf 0 rates))
    + put 16 4 (satTo 32 (total (en.windows.map (·.productive)) / n)) + put 20 4 (satTo 32 (total (en.windows.map (·.ballast)) / n))
    + put 24 2 en.limitNow + put 28 4 (satTo 32 en.drainStall)

/-- The PWR_REPORT record. -/
def pwrRecord (s : State) : List Byte :=
  let es := (fins 7).filter fun e => hasEngine s.fuses.variant e.1
  let ep (r : Fin 6) := s.power.episodes.get r
  let head := put 0 2 (128 + 32 * es.length) + put 2 1 1 + put 3 1 es.length + put 4 8 (now s) + put 12 1 s.power.opBase.1
    + put 13 1 s.power.opForce.1 + put 14 1 (b2n (boostActive s)) + put 16 4 (satTo 32 s.power.estMw) + put 20 4 (capInForce s)
    + put 24 4 (satTo 32 s.power.opStops) + put 28 8 (usOf s.power.opStopTicks) + put 36 4 (satTo 32 s.power.slowReg)
    + put 40 4 s.power.calGain.toNat + put 44 4 (twos 32 s.power.calOffset)
    + total ((fins 6).map fun r => put (64 + 8 * r.1) 8 (usOf (ep r).ticks))
    + put 112 1 (total ((fins 6).map fun r => b2n (ep r).active * 2 ^ r.1))
  record 128 head ++ es.flatMap fun e => record 32 (pwrEntry s e)

/-- PWR_REPORT. -/
def execPwrReport (m : MailCmd) (s : State) : Res' :=
  .next <| onMail m 0x31 s fun s =>
    if reserved m then complete s m .badArgument 0
    else writeRecord s m (arg m 8 8) (arg m 16 4) (pwrRecord s) 0

/-- OP_SET (R44 to R47, R622). A change it makes waits for OP_CHANGE_GAP_START and shows DEFERRED 1, also where a gap is there already
(log entry 137). -/
def execOpSet (m : MailCmd) (s : State) : Res' :=
  .next <| onMail m 0x32 s fun s =>
    let n := arg m 8 1
    if reserved m || decide (3 < n) then complete s m .badArgument 0
    else
      let base : Fin 5 := ⟨n % 5, Nat.mod_lt _ (by decide)⟩
      let s1 := { s with power := { s.power with opBase := base } }
      let s2 := requestOp s1 (wantedPoint s1) .host
      let def_ := match s2.power.change with | some c => c.phase == .deferred | none => false
      complete s2 m .ok (put 8 1 n + put 9 1 s2.power.opForce.1 + put 10 1 (b2n def_))

/-- ENERGY_READ (R755, R758). -/
def execEnergyRead (m : MailCmd) (s : State) : Res' :=
  .next <| onMail m 0x33 s fun s =>
    let scope := arg m 8 1
    if reserved m || decide (1 < scope) then complete s m .badArgument 0
    else if scope == 0 then
      complete s m .ok (put 8 8 (s.power.energyUj / 1000) + put 16 8 s.fw.startTick + put 24 8 (now s))
    else onStream s m (arg m 10 2) (fun _ => false) fun st =>
      complete s m .ok (put 8 8 (st.energyPj / 1000000000) + put 16 8 st.openTick + put 24 8 (now s))

end Sys2Proof.Machine
end

