-- ==== Sys2Proof/Machine/Grid.lean ====
section
/-! DEFINITION. The sample grid of the audio ports, and the slots of streams on it or on their own releases (07 R413, R414, 08 R481
to R491). -/

namespace Sys2Proof.Machine

/-- Sample rates of Table 8-1, in Hz. -/
def rateHz (r : Nat) : Nat := nth [44100, 48000, 88200, 96000, 176400, 192000] r 48000

/-- Ceiling of a quotient of integers. -/
def cdivInt (a : Int) (b : Nat) : Int := -(-a / (b : Int))

/-- By how much, in 1/64 tick, the starts of a master's frames still lag the MSC's corrections: one of a tick is spread evenly over the 64
frames after it (R483). -/
def skew64 (p : AudioPort) (j : Int) : Int := (p.corr.map fun x => if x.1 < j then x.2 * max 0 (64 - (j - x.1)) else 0).foldl (· + ·) 0

/-- The start of sample frame `j` of a port, rounded up to a whole tick: exact on a master port's grid, with the corrections being spread
(R482, R483); on a slave's from the stamp of its last frame and the period (R484, R511). -/
def frameStart (p : AudioPort) (j : Int) : Int :=
  match p.cfg with
  | some c =>
    if c.slave then cdivInt (p.lastFrame64 + (j - p.lastJ) * p.period64) 64
    else p.anchor + cdivInt (j * 24576000 * 64 + rateHz c.rate * skew64 p j) (rateHz c.rate * 64)
  | none => p.anchor

/-- First frame index whose start is at or after a tick. -/
def frameAt (p : AudioPort) (t : Int) : Int :=
  match p.cfg with
  | some c =>
    if c.slave then p.lastJ + cdivInt (t * 64 - p.lastFrame64) (max 1 p.period64)
    else
      let j := cdivInt ((t - p.anchor) * (rateHz c.rate)) 24576000
      if t ≤ frameStart p (j - 1) then j - 1 else if frameStart p j < t then j + 1 else j
  | none => 0

/-- A slave port with a valid clock has stamped the start of a frame, in 1/64 tick (R484). -/
def stamped (p : AudioPort) (j : Int) (stamp : Nat) : AudioPort :=
  if (match p.cfg with | some c => c.slave | none => false) && p.clockValid then
    { p with lastFrame64 := stamp, lastJ := j, period64 := if p.lastJ < j then (stamp - p.lastFrame64) / (j - p.lastJ).toNat else p.period64 }
  else p

/-- A discipline correction of `d` ticks at tick `t` begins to be spread over a master's next 64 frames (R483). -/
def noteCorrection (t : Tick) (d : Int) (p : AudioPort) : AudioPort :=
  if match p.cfg with | some c => c.slave | none => true then p
  else
    let j := frameAt p (t + 1) - 1
    { p with corr := (p.corr.filter fun x => decide (j < x.1 + 64)) ++ [(j, d)] }

/-- The frame period of a rate, in ticks, times a count of frames, rounded down and up. -/
def framesFloor (rate n : Nat) : Nat := n * 24576000 / rateHz rate
def framesCeil (rate n : Nat) : Nat := cdiv (n * 24576000) (rateHz rate)

/-- Change an audio port. -/
def modAp (s : State) (p : ApId) (f : AudioPort → AudioPort) : State := { s with audio := vmod s.audio p f }

/-- Change the binding of a stream on a port, in one direction. -/
def modBind (s : State) (p : ApId) (h : Nat) (isIn : Bool) (f : Bind → Bind) : State :=
  modAp s p fun a => { a with binds := a.binds.map fun b => if b.stream == h && (if isIn then b.dirIn else b.dirOut) then f b else b }

/-- The port and binding of a stream's input, and of its output. -/
def bindOf (s : State) (h : Nat) (isIn : Bool) : Option (ApId × Bind) :=
  (fins 2).findSome? fun p => ((s.audio.get p).binds.find? fun b => b.stream == h && (if isIn then b.dirIn else b.dirOut)).map fun b => (p, b)

/-- The port and binding whose block grid gives a stream its slots (R490, R491). -/
def gridOf (s : State) (h : Nat) : Option (ApId × Bind) := match bindOf s h true with | some x => some x | none => bindOf s h false

/-- A stream has an audio binding. -/
def audioBound (s : State) (h : Nat) : Bool := (gridOf s h).isSome

/-- The end of block `k` of a binding (R490). -/
def blockEnd (p : AudioPort) (b : Bind) (k : Nat) : Nat := (frameStart p (b.j0.getD 0 + ((k + 1) * b.block : Nat))).toNat

/-- The slot of block `k`. -/
def blockSlot (p : AudioPort) (b : Bind) (k : Nat) : Nat := blockEnd p b k + 96

/-- First block whose slot is at or after `t` and, where one is given, after `prev`. -/
def firstBlock (p : AudioPort) (b : Bind) (t : Nat) (prev : Option Nat) : Nat :=
  let guess := ((frameAt p ((t : Int) - 96)) - b.j0.getD 0) / (max 1 b.block : Nat)
  let k0 := (guess - 3).toNat
  (((List.range 12).map (· + k0)).find? fun k =>
    decide (t ≤ blockSlot p b k) && (match prev with | some x => decide (x < blockSlot p b k) | none => true)).getD (k0 + 12)

/-- The slot of the next frame of a stream for a feed accepted at `t` (R414, R491). -/
def nextSlot (s : State) (st : Stream) (prev : Option Tick) (t : Tick) : Tick :=
  match gridOf s st.handle with
  | some (p, b) => blockSlot (s.audio.get p) b (firstBlock (s.audio.get p) b t prev)
  | none =>
    if st.period == 0 then max st.n0 t
    else
      let lo := max t (match prev with | some x => x + 1 | none => 0)
      if lo ≤ st.n0 then st.n0 else st.n0 + st.period * cdiv (lo - st.n0) st.period

/-- The first frames of a stream's bindings: the first multiple of BLOCK on the grid whose start is at least 1,024 ticks after `t`,
at one tick on the two ports where they differ. -/
def firstFrame (s : State) (h : Nat) (t : Tick) : Option (ApId × Int) :=
  (gridOf s h).map fun (p, b) =>
    let lo := max (t + 1024) (maxOf 0 ((fins 2).map fun q => if (s.audio.get q).binds.any (fun x => x.stream == h) then (s.audio.get q).anchor else 0))
    let j := max 0 (frameAt (s.audio.get p) lo)
    (p, cdivInt j (max 1 b.block) * (max 1 b.block : Nat))

/-- Start the block grid of a stream's bindings (08 "The block path", R514). -/
def startGrid (s : State) (h : Nat) (t : Tick) : State :=
  match firstFrame s h t with
  | none => s
  | some (p, j) =>
    let start := frameStart (s.audio.get p) j
    { s with audio := vmapIdx (fun i a =>
        let j0 := if i == p.1 then j else frameAt a start
        { a with binds := a.binds.map fun b => if b.stream == h then
            { b with j0 := some j0, nextIn := 0, nextOut := 0, outs := [], fault := [] } else b }) s.audio }

end Sys2Proof.Machine
end

