-- ==== Sys2Proof/Machine/Load.lean ====
section
/-! DEFINITION. Loading itineraries: what ITIN_LOAD checks in an image, the homes it gives its items, and ITIN_UNLOAD
(00 R6 to R16, 02, 03, 04, 05, 07, 10 R598 to R601). -/

namespace Sys2Proof.Machine

/-! ## Items (R104, R975, R978) -/

/-- The item at an image offset. -/
def itemAt (img : Image) (off : Nat) : Option ItemDecl := img.items.find? (·.off == off)

/-- The bytes of the item at an offset. -/
def itemRaw (img : Image) (i : ItemDecl) : List Byte := slice img.bytes i.off i.len

/-- Header of the tile at an offset, where an item of that kind lies there. -/
def tileOfKind (img : Image) (off kind : Nat) : Option TileHdr :=
  (itemAt img off).bind fun i =>
    let h := tileHdr (itemRaw img i)
    if h.kind == kind then some h else none

/-- Every conversion descriptor's OUTLIER_LIST with the channels it names. -/
def outlierLists (img : Image) : List (Nat × List (BitVec 16)) :=
  ([img.main] ++ img.fallback.toList).flatMap fun sec => sec.layers.flatMap fun ly =>
    ([ly.body] ++ ly.lean.toList).filterMap fun b => if fld b.desc.bits 24 8 == 0 then none else some (fld b.desc.bits 24 8, b.desc.outliers)

/-- The item is a list of outlier channels. -/
def isOutlierList (img : Image) (off : Nat) : Bool := (outlierLists img).any (·.1 == off)

/-- An activation scale record's zero points fit the format (R164). -/
def zpsOk (f : Fmt) (rec_ : List Byte) (rows : Nat) : Bool :=
  (List.range rows).all fun v => if isZp f then decide (zpOf rec_ v < 2 ^ fmtWidth f) else zpOf rec_ v == 0

/-- The consuming layers of a weight item, and their escape declarations (R979). -/
def escapesOf (sec : Section) (off : Nat) : List Bool :=
  sec.layers.flatMap fun ly => ([ly.body] ++ ly.lean.toList).filterMap fun b => if b.chains.any (fun c => c.tiles.contains off) then some b.escape else none

/-- A weight tile has ESC set, and no layer reads it or one that does has its weight escape off (R104, R979). -/
def escBad (img : Image) (i : ItemDecl) : Bool :=
  let l := ([img.main] ++ img.fallback.toList).flatMap fun sec => escapesOf sec i.off
  bit (tileHdr (itemRaw img i)).flags 0 && (l.isEmpty || !l.all id)

/-- The scale record that a carried tile names, for the kinds that name one (R975). -/
def recordOf (img : Image) (h : TileHdr) : Option TileHdr :=
  if h.kind == 0 then tileOfKind img h.scalePtr 2 else if h.kind == 1 then tileOfKind img h.scalePtr 3 else none

/-- A tile of a kind that names a scale record names none of the image's of that kind. -/
def noRecord (img : Image) (h : TileHdr) : Bool := decide (h.kind ≤ 1) && (recordOf img h).isNone

/-- Every other breach of R104, R164 and R975 by a carried tile: its reserved bits, padding and addresses left out. -/
def contentBad (img : Image) (i : ItemDecl) : Bool :=
  let b := itemRaw img i
  let h := tileHdr b
  !tileSound b || escBad img i
  || (if h.kind == 0 then !okWeight h.fmt else if h.kind == 1 then !okAct h.fmt else h.scalePtr != 0)
  || (match recordOf img h with | some r => r.rows != h.rows | none => false)
  || (h.kind == 1 && match itemAt img h.scalePtr with | some j => !zpsOk h.fmt (itemRaw img j) h.rows | none => false)

/-- The faults of one item, as offsets. R973 names the byte concerned for a reserved bit, a padding bit or an unlisted encoding, and R104
the tile's header for every breach it lists, reserved and padding bits among them: the model takes the byte for those, the field for
R978's cases, and the header for the rest (log entry 139). -/
def itemFaults (img : Image) (i : ItemDecl) : List Nat :=
  let b := itemRaw img i
  let h := tileHdr b
  let limit := img.bytes.length - 4
  let clash := img.items.any fun j => j != i && decide (i.off < j.off + j.len) && decide (j.off < i.off + i.len)
  let place := i.off == 0 || decide (limit < i.off + i.len) || clash || decide (4 < i.tier) || i.tier == 0 || decide (3 < i.chan)
  if isOutlierList img i.off then
    (if place || (outlierLists img).any (fun x => x.1 == i.off && (x.2.flatMap fun c => leBytes 2 c.toNat) != b.take (2 * x.2.length)) then [i.off] else [])
  else
    (if place || contentBad img i then [i.off] else []) ++ (if h.flags / 2 == 0 then [] else [i.off + 1])
    ++ (if noRecord img h then [i.off + 8] else []) ++ (if h.home != i.off then [i.off + 16] else [])
    ++ (match badPadding b h with | some j => [i.off + 32 + j] | none => [])

/-! ## Layers (R93, R121, R122, R128, R146 to R151, R192, R202, R203, R217, R976, R977, R979) -/

/-- What a block is: format, rows, columns, and its outlier channels. -/
structure Shape where
  fmt : Fmt
  rows : Nat
  cols : Nat
  outs : List Nat
  deriving DecidableEq, Repr

/-- Shape of the block a source names. -/
def srcShape (img : Image) (sec : Section) : BlockSrc → Option Shape
  | .input i => (img.inputs[i]?).map fun x => ⟨x.fmt, x.rows, x.cols, x.outliers⟩
  | .layer l t => (sec.layers[l]?).bind fun ly =>
      if decide (t < tileCount ly ly.body) && ly.append.isNone && ly.writes.isEmpty then
        some ⟨(desc ly.body.desc).fmt, ly.rows, tileWidth img ly ly.body t, tileOuts img ly t⟩
      else none
  | .carried off => (tileOfKind img off 1).map fun h => ⟨h.fmt, h.rows, h.cols, []⟩

/-- All elements equal. -/
def allSame {α : Type} [BEq α] : List α → Bool
  | [] => true
  | a :: r => r.all (· == a)

/-- One chain: its tiles agree, each fits its block, the side lists and formats its layer allows, and the cuts cover it within the
segment limit (R108, R192, R976, R977, R979). -/
def chainOk (img : Image) (b : LayerBody) (shapes : List (Option Shape)) (c : ChainDecl) : Bool :=
  let hs := c.tiles.map fun off => tileOfKind img off 0
  let hdrs := hs.filterMap id
  let pairs := hdrs.zip (shapes.filterMap id)
  let costs := pairs.map fun p => tileCost p.1 p.2.fmt b.fold
  let cuts := if c.cuts.isEmpty then [c.tiles.length] else c.cuts
  hs.all (·.isSome) && decide (1 ≤ c.tiles.length ∧ c.tiles.length ≤ 16384) && c.tiles.length == shapes.length && shapes.all (·.isSome)
  && allSame (hdrs.map fun h => (h.fmt, h.rows, h.scalePtr))
  && pairs.all (fun p => p.1.cols == p.2.cols && okAct p.2.fmt && (b.escape || (p.1.side == 0 && !bit p.1.flags 0))
      && !(b.escape && isCb p.1.fmt && isFloat p.2.fmt))
  && total cuts == c.tiles.length && cuts.all (fun n => n != 0)
  && (cuts.mapIdx fun i n => decide (total (slice costs (total (cuts.take i)) n) ≤ 32768)).all id

/-- COLSUM of a chain's scale record agrees with what the die recomputes; 0 for floating-point weights (R170, R171). -/
def colsumOk (img : Image) (b : LayerBody) (shapes : List (Option Shape)) (c : ChainDecl) : Bool :=
  let tiles := c.tiles.map fun off => itemBytes img [] off
  match tiles with
  | [] => true
  | t0 :: _ =>
    let h := tileHdr t0
    let rec_ := scaleRec img [] t0
    (List.range h.rows).all fun ch =>
      let sum := if isFloat h.fmt then 0 else
        chainColsum rec_ b.escape (tiles.zip (shapes.map fun x => (x.map (·.outs)).getD [])) ch
      wColsum rec_ ch == sum

/-- The one producer of a query column block: a layer, or the host by its query input (R202). -/
def producerOf (img : Image) : BlockSrc → Option (Bool × Nat)
  | .layer l _ => some (false, l)
  | .input i => (img.inputs[i]?).bind fun x => x.queryPart.map fun q => (true, q)
  | .carried _ => none

/-- Outlier channels that the producer of a query block has, on any of its tiles. -/
def producerOuts (img : Image) (sec : Section) : BlockSrc → List Nat
  | .layer l _ => ((sec.layers[l]?).map fun ly => ([ly.body] ++ ly.lean.toList).flatMap fun b => (desc b.desc).outliers).getD []
  | .input i => ((img.inputs[i]?).bind fun x => x.queryPart.map fun q => (img.inputs.filter (·.queryPart == some q)).flatMap (·.outliers)).getD []
  | .carried _ => []

/-- The query blocks of an attention layer follow R202. -/
def queryOk (img : Image) (sec : Section) (a : AttnDecl) : Bool :=
  let n := a.group * a.kvHeads * a.headDim
  let shapes := a.query.map (srcShape img sec)
  let makers := a.query.map (producerOf img)
  a.query.length == cdiv n 512 && makers.all (·.isSome) && allSame makers && shapes.all (·.isSome)
  && allSame (shapes.filterMap fun x => x.map fun y => (y.fmt, y.rows))
  && ((shapes.filterMap id).mapIdx fun i x => x.fmt == a.qFmt && x.cols == min 512 (n - 512 * i)).all id
  && a.query.all fun q => (producerOuts img sec q).isEmpty

/-- The attributes of Table 4-1 within Table 4-3. -/
def attnOk (a : AttnDecl) : Bool :=
  a.headDim % 32 == 0 && decide (32 ≤ a.headDim ∧ a.headDim ≤ 256) && decide (1 ≤ a.kvHeads ∧ a.kvHeads ≤ 64)
  && decide (1 ≤ a.group ∧ a.group ≤ 16) && decide (a.group * a.kvHeads ≤ 256) && decide (a.causal ≤ 1) && isPosNormal a.smScale
  && (a.qFmt == .int8 || a.qFmt == .int4)

/-- A layer's variants: the main one, and the lean one where it has one. -/
def variants (ly : Layer) : List LayerBody := [ly.body] ++ ly.lean.toList

/-- The appends of a section: exactly one of keys and one of values for each attention layer, of its width (R203). -/
def appendsOk (sec : Section) : Bool :=
  let of (l : Nat) (isV : Bool) : List (Nat × Layer) := (sec.layers.mapIdx fun i ly => (i, ly)).filter fun p => p.2.append == some (l, isV)
  (sec.layers.mapIdx fun l ly => (l, ly)).all fun p =>
    (match p.2.body.attn with
     | none => true
     | some a =>
       let w := a.kvHeads * a.headDim
       (match of p.1 false, of p.1 true with
        | [k], [v] => k.2.width == w && v.2.width == w && k.1 == a.keyLayer && v.1 == a.valLayer
        | _, _ => false))
    && (variants p.2).all (fun b => match b.attn with | some a => decide (a.lead ≤ p.1) | none => true)
    && (match p.2.append with
        | some (l, _) => (match (sec.layers[l]?).bind (·.body.attn) with | some _ => true | none => false)
          && (variants p.2).all fun b => (desc b.desc).fmt == .int8 && (desc b.desc).src == 2
        | none => true)

/-- The offsets at which a conversion descriptor fails: its reserved bytes (R973), its OUTLIER_LIST (R978), or its own place for the
conditions of R151 and the formats of its slot (R146). -/
def descFaults (img : Image) (r : RawDesc) (width : Nat) (written fmtOk : Bool) : List Nat :=
  let lst := fld r.bits 24 8
  let listOk := if fld r.bits 10 1 % 128 == 0 then lst == 0 else (itemAt img lst).isSome
  (if descOk r width written && fmtOk then [] else [r.off]) ++ (descReserved r).map (r.off + ·) ++ (if listOk then [] else [r.off + 24])

/-- The faults of a layer's conversion descriptors. -/
def layerDescFaults (img : Image) (ly : Layer) : List Nat :=
  (variants ly).flatMap fun b =>
    let d := desc b.desc
    descFaults img b.desc ly.width (!ly.writes.isEmpty) (if !ly.writes.isEmpty then okWritten d.fmt else ly.append.isSome || okOut d.fmt)

/-- The faults of the descriptor that converts a port's input block (R147, R151, R492). -/
def portDescFaults (img : Image) : List Nat :=
  match img.portIn.bind fun i => img.inputs[i]? with
  | some x => descFaults img img.portDesc x.cols false (okAct (desc img.portDesc).fmt && (desc img.portDesc).fmt == x.fmt)
  | none => []

/-- The weight tiles a layer writes, one for each of its output tiles, have the format and the shape of what it writes there (R976), and
the layers that read them the writer's escape setting (R979). -/
def writesOk (img : Image) (sec : Section) (ly : Layer) (b : LayerBody) : Bool :=
  ly.writes.length == tileCount ly b && (ly.writes.mapIdx fun t off =>
    (match tileOfKind img off 0 with
     | some h => h.fmt == (desc b.desc).fmt && h.rows == ly.rows && h.cols == tileWidth img ly b t
     | none => false)
    && (escapesOf sec off).all (· == (desc b.desc).escEn)).all id

/-- One variant of a layer. -/
def bodyOk (img : Image) (sec : Section) (ly : Layer) (b : LayerBody) : Bool :=
  let shapes := b.srcs.map (srcShape img sec)
  let width := if b.chains.isEmpty then ly.width else total (b.chains.map fun c => (((c.tiles[0]?).bind fun o => tileOfKind img o 0).map (·.rows)).getD 0)
  width == ly.width
  && (ly.writes.isEmpty || writesOk img sec ly b)
  && (match b.table with | some t => decide (t < img.tables.length) | none => true)
  && (b.norm.isNone || decide (ly.width ≤ 8192))
  && (match b.attn with
      | some a => attnOk a && queryOk img sec a && b.chains.isEmpty
      | none =>
        (b.fold == 2 || b.fold == 4 || b.fold == 8) && !b.chains.isEmpty
        && allSame (shapes.filterMap fun x => x.map fun y => (y.fmt, y.rows)) && shapes.all (·.isSome)
        && (shapes.filterMap id).all (fun x => x.rows == ly.rows && decide (x.rows * b.fold ≤ 512))
        && decide (total ((shapes.filterMap id).map (·.outs.length)) ≤ 64)
        && b.chains.all (chainOk img b shapes) && b.chains.all (colsumOk img b shapes))

/-- A lean variant writes what its main variant writes (R253, R455). -/
def leanOk (a b : LayerBody) : Bool :=
  (desc a.desc).fmt == (desc b.desc).fmt && (desc a.desc).outliers == (desc b.desc).outliers && a.chains.length == b.chains.length
  && (match a.attn, b.attn with
      | none, none => true
      | some x, some y => x.headDim == y.headDim && x.kvHeads == y.kvHeads && x.group == y.group && x.causal == y.causal
          && x.keyLayer == y.keyLayer && x.valLayer == y.valLayer
      | _, _ => false)

/-- The bytes of a schedule entry at which it fails: its SRC names no tile or record (R978), its DEST is no listed encoding, reserved bits
are set (R973, Table 5-4), or, counted at its first byte, its trigger comes after the first layer that reads the item (R269) or its
logical engine is none of the section's. -/
def schedFaults (img : Image) (sec : Section) (e : BitVec 128) : List Nat :=
  let readers := (sec.layers.mapIdx fun l ly => (l, ly)).filter fun p => (variants p.2).any fun b =>
    b.chains.any (fun c => c.tiles.any fun o => o == schedSrc e || (tileHdr (itemBytes img [] o)).scalePtr == schedSrc e)
    || b.srcs.any fun q => match q with | .carried o => o == schedSrc e || (tileHdr (itemBytes img [] o)).scalePtr == schedSrc e | _ => false
  (if (itemAt img (schedSrc e)).isSome && !isOutlierList img (schedSrc e) && readers.all (fun p => decide (schedTrigger e ≤ p.1))
      && (schedDest e != 0 || decide (schedEngine e < sec.costs.length)) then [] else [0])
  ++ (if decide (schedDest e ≤ 1) && fld e 12 1 &&& 0x8C == 0 then [] else [12])
  ++ (if fld e 13 1 / 2 == 0 then [] else [13]) ++ (if fld e 14 1 == 0 then [] else [14]) ++ (if fld e 15 1 == 0 then [] else [15])

/-- The faults of a section's schedule. -/
def scheduleFaults (img : Image) (sec : Section) : List Nat :=
  (sec.schedule.mapIdx fun i e => (schedFaults img sec e).map (sec.schedOff + 16 * i + ·)).flatten

/-- Steps of a section on this die (R985). -/
def stepCount (sec : Section) : Nat :=
  total (sec.layers.map fun ly => match ly.body.attn with
    | some a => a.kvHeads
    | none => max ly.body.chains.length ((ly.lean.map fun b => b.chains.length).getD 0))

/-- Bytes of a layer's output: its activation blocks with their scale records and companions (R285). -/
def outputBytes (img : Image) (ly : Layer) : Nat :=
  if ly.append.isSome || !ly.writes.isEmpty then 0
  else
    let d := desc ly.body.desc
    total ((List.range (tileCount ly ly.body)).map fun t =>
      let w := tileWidth img ly ly.body t
      32 + ly.rows * rowBytes w (fmtWidth d.fmt) + 32 + 64 * cdiv ly.rows 8
      + (if d.outliers.isEmpty then 0 else 32 + ly.rows * rowBytes (tileOuts img ly t).length 16))

/-- Tile-store staging of a normalising layer: V × N × 4 bytes (R122). -/
def normBytes (ly : Layer) : Nat := if (variants ly).any (·.norm.isSome) then ly.rows * ly.width * 4 else 0

/-- Tile-store staging of a section's normalisations: on each logical engine, that of its largest layer (R122). -/
def normStaging (sec : Section) : Nat :=
  total ((List.range sec.costs.length).map fun lg => maxOf 0 ((sec.layers.filter (·.engine == lg)).map normBytes))

/-- Bytes that the schedule has staged in a tier while layer `l` runs: the pinned copies, and those between their trigger and their last
use. -/
def stagedAt (img : Image) (sec : Section) (tier l : Nat) : Nat :=
  total ((sec.schedule.filter fun e => schedDest e == tier && (schedPin e || (decide (schedTrigger e ≤ l) && decide (l ≤ schedLast e)))).map fun e =>
    ((itemAt img (schedSrc e)).map (·.len)).getD 0)

/-- Bytes of the gradients that a backward step writes for an attention layer's rows: dQ, and dK and dV of as many positions (R242). -/
def gradientBytes (ly : Layer) : Nat := match ly.body.attn with | some a => ly.rows * (a.group + 2) * a.kvHeads * a.headDim * 4 | none => 0

/-- Bytes of writable data that the section's steps have in T1 at least: the recurrent state, the largest other output, and the
gradients. -/
def writtenBytes (img : Image) (sec : Section) : Nat :=
  total ((sec.layers.filter (·.stateful)).map (outputBytes img)) + maxOf 0 ((sec.layers.filter fun ly => !ly.stateful).map (outputBytes img))
  + (if img.hasBackward then total (sec.layers.map gradientBytes) else 0)

/-- Declared sizes cover what is staged at once in each tier, and what the steps write (R285; log entry 141). -/
def sizesOk (img : Image) (sec : Section) : Bool :=
  let staged (t : Nat) := maxOf 0 (sec.layers.mapIdx fun l _ => stagedAt img sec t l)
  decide (staged 0 ≤ sec.peakT0) && decide (staged 1 ≤ sec.peakT1) && decide (writtenBytes img sec ≤ sec.writableT1)

/-- Distinct activation tables of a logical engine's layers (R987). -/
def tablesOf (sec : Section) (lg : Nat) : List Nat :=
  ((sec.layers.filter (·.engine == lg)).flatMap fun ly => ([ly.body] ++ ly.lean.toList).filterMap (·.table)).eraseDups

/-- One section. -/
def sectionOk (img : Image) (sec : Section) : Bool :=
  decide (stepCount sec ≤ 4096) && decide (sec.costs.length ≤ 8)
  && (sec.layers.filter (·.body.attn.isSome)).length ≤ 128
  && sec.layers.all (fun ly => decide (ly.engine < sec.costs.length) && bodyOk img sec ly ly.body
      && (match ly.lean with | some b => bodyOk img sec ly b && leanOk ly.body b | none => true))
  && appendsOk sec && sizesOk img sec && needsExist sec.needs
  && (List.range sec.costs.length).all (fun lg => decide ((tablesOf sec lg).length ≤ 8))
  && img.outputs.all (fun o => decide (o < sec.layers.length))
  && (match img.portOut with | some o => decide (o < sec.layers.length) | none => true)
where
  /-- The units a section names exist on some variant (R11, Table 0-2). -/
  needsExist (x : Needs) : Bool :=
    x.audio.all (fun n => decide (n < 2)) && x.causeway.all (fun n => decide (n < 8)) && x.channels.all fun n => decide (n < 4)

/-- What a layer gives to the outside of its section: its rows, its column blocks, their format, its outlier channels, and whether it is
recurrent state. -/
structure Face where
  rows : Nat
  blocks : List Nat
  fmt : Fmt
  outs : List Nat
  stateful : Bool
  deriving DecidableEq, Repr

/-- The face of a layer. -/
def face (img : Image) (ly : Layer) : Face :=
  let d := desc ly.body.desc
  ⟨ly.rows, (List.range (tileCount ly ly.body)).map (tileWidth img ly ly.body), d.fmt, d.outliers, ly.stateful⟩

/-- The face of a section's layer by its index. -/
def faceOf (img : Image) (sec : Section) (l : Nat) : Option Face := (sec.layers[l]?).map (face img)

/-- A fallback section writes what the main section writes: the outputs, a port's among them, the recurrent state, the KV cache and the
weights written on the device, each in the same format, shape and cut (R974). -/
def fallbackOk (img : Image) (fb : Section) : Bool :=
  let attns (s : Section) := s.layers.filterMap fun ly => ly.body.attn.map fun a => (a.headDim, a.kvHeads, a.group, a.causal)
  let state (s : Section) := (s.layers.filter (·.stateful)).map (face img)
  let writes (s : Section) := s.layers.flatMap fun ly => ly.writes.map fun off => (off, (desc ly.body.desc).fmt, (desc ly.body.desc).escEn)
  (img.outputs ++ img.portOut.toList).all (fun o => faceOf img img.main o == faceOf img fb o) && attns img.main == attns fb
  && state img.main == state fb && (writes img.main).all (writes fb).contains && (writes fb).all (writes img.main).contains

/-- An activation table is sound (R120). -/
def tableOk (t : ActTable) : Bool := t.knots.length == 257 && t.knots.all isFin32 && isFin32 t.lo && isFin32 t.hi && lt32 t.lo t.hi

/-- The faults of a section: its descriptors', its schedule's, and its own place for the rest. -/
def sectionFaults (img : Image) (sec : Section) : List Nat :=
  sec.layers.flatMap (layerDescFaults img) ++ scheduleFaults img sec ++ (if sectionOk img sec then [] else [sec.off])

/-- Byte offset of the first thing in the image that fails, or none (R598). -/
def imageFault (img : Image) : Option Nat :=
  let n := img.bytes.length
  if n < 4 || bfld img.bytes (n - 4) 4 != (crc32c (img.bytes.take (n - 4))).toNat then some 0
  else
    let global := img.tables.all tableOk && decide (img.spares.length ≤ 4) && nodup (img.dies ++ img.spares)
      && img.inputs.all (fun i => okAct i.fmt && ascending i.outliers && i.outliers.all fun c => decide (c < i.cols))
      && img.gradInputs.all (fun i => i.fmt == .fp16 || i.fmt == .fp32)
      && (match img.portIn with | some i => decide (i < img.inputs.length) | none => true)
    let faults := (if global then [] else [img.main.off]) ++ img.items.flatMap (itemFaults img)
      ++ portDescFaults img ++ sectionFaults img img.main
      ++ (match img.fallback with | some fb => sectionFaults img fb ++ (if fallbackOk img fb then [] else [fb.off]) | none => [])
    match faults with
    | [] => none
    | a :: r => some (r.foldl min a)

/-! ## Units (R6 to R9, R14, R15, R599) -/

/-- Items that a section reads or writes: its weight tiles and carried blocks with their scale records, its outlier lists, what its schedule
moves, and the tiles it writes. -/
def usesItem (img : Image) (sec : Section) (off : Nat) : Bool :=
  let named (o : Nat) : Bool := o == off || (tileHdr (itemBytes img [] o)).scalePtr == off
  sec.schedule.any (fun e => schedSrc e == off)
  || sec.layers.any fun ly => ly.writes.any named || (variants ly).any fun b =>
      fld b.desc.bits 24 8 == off || b.chains.any (fun c => c.tiles.any named)
      || b.srcs.any fun q => match q with | .carried o => named o | _ => false

/-- The image as a die takes it with its main section, or with its fallback: the items of the section left out have no home (R8). -/
def taken (img : Image) (fallback : Bool) : Image :=
  match img.fallback with
  | none => img
  | some fb =>
    let use := if fallback then fb else img.main
    let other := if fallback then img.main else fb
    { img with items := img.items.filter fun i => usesItem img use i.off || !usesItem img other i.off }

/-- What an itinerary needs of die `d` with its main or its fallback section: the units the section declares, an attention pipeline
wherever a main section computes attention (R9), and the T2 channels on which its items have their homes there. -/
def needsAt (img : Image) (fallback : Bool) (d : FabId) : Needs :=
  let sec := if fallback then img.fallback.getD img.main else img.main
  { sec.needs with
    attention := sec.needs.attention || (!fallback && sec.layers.any (·.body.attn.isSome))
    channels := sec.needs.channels ++ ((taken img fallback).items.filter fun i => i.die == d && i.tier == 2).map (·.chan) }

/-- Kinds of unit (FALLBACK_KINDS bits) that are needed and that a variant lacks. -/
def lacking (v : Variant) (x : Needs) : List Nat :=
  (if x.attention && attnCount v == 0 then [0] else []) ++ (if x.audio.any (fun n => decide (apCount v ≤ n)) then [1] else [])
  ++ (if x.causeway.any (fun n => !hasPort v n) then [2] else []) ++ (if x.channels.any (fun n => decide (mcCount v ≤ n)) then [3] else [])

/-- How a die takes the itinerary: its main section, the fallback for these kinds, or not at all for lack of this kind. -/
inductive Fit where
  | main | fallback (kinds : List Nat) | lacks (kind : Nat)
  deriving DecidableEq, Repr

/-- How a die of a variant takes the itinerary (R7, R8): it loads the fallback where the main section needs a unit the die lacks, unless the
fallback needs one too. Of several kinds lacking, the lowest is named (log entry 140). -/
def fitOf (v : Variant) (img : Image) (d : FabId) : Fit :=
  match lacking v (needsAt img false d) with
  | [] => .main
  | k :: ks => if img.fallback.isNone then .lacks k else match lacking v (needsAt img true d) with
    | [] => .fallback (k :: ks)
    | x :: _ => .lacks x

/-- This die's fit. -/
def fitHere (s : State) (img : Image) : Fit := fitOf s.fuses.variant img s.fabric.id

/-- Another die's variant: what a neighbour's training set or its own PRESENT said (R911); SV-6118 in a system that extends beyond W, and never SV-6112, which has no
ports (R3, Table 0-2); else a free value (log entry 8). -/
def variantThere (s : State) (d : FabId) : Variant × State :=
  match (fins 8).find? fun p => (s.fabric.ports.get p).st == .active && (s.fabric.ports.get p).peer == d with
  | some p => ((s.fabric.ports.get p).peerPart, s)
  | none =>
    match s.fabric.parts.lookup d with
    | some v => (v, s)
    | none =>
    if (fins 4).any fun i => i != 0 && s.fabric.sizes.get i != 1 then (.sv6118, s)
    else let f := takeFree s; (nth [.sv6118, .sv6116, .sv6114] (f.1 % 3) .sv6118, f.2)

/-- Another die's fit, checked in the same way (R14). -/
def fitThere (s : State) (img : Image) (d : FabId) : Fit × State := let v := variantThere s d; (fitOf v.1 img d, v.2)

/-- The first of the other dies that lacks a unit, in the image's order, and the number of them that take the fallback (R14, R599; log
entry 140). -/
def fitOthers (s : State) (img : Image) : (Option (FabId × Nat) × Nat) × State :=
  ((img.dies ++ img.spares).filter (· != s.fabric.id)).foldl (fun a d =>
    let f := fitThere a.2 img d
    match f.1 with
    | .main => (a.1, f.2)
    | .fallback _ => ((a.1.1, a.1.2 + 1), f.2)
    | .lacks k => ((match a.1.1 with | some x => some x | none => some (d, k), a.1.2), f.2)) ((none, 0), s)

/-! ## Homes (R277, R285, R978) -/

/-- Bytes of this die's items on a tier, and on a channel of T2. -/
def itemsOn (s : State) (img : Image) (tier chan : Nat) : List ItemDecl :=
  img.items.filter fun i => i.die == s.fabric.id && i.tier == tier && (tier != 2 || i.chan == chan)

/-- Bytes of items, each on a 64-byte boundary (R262). -/
def packedBytes (l : List ItemDecl) : Nat := total (l.map fun i => 64 * cdiv i.len 64)

/-- What an image needs reserved on this die: the homes of its items, and the tile-store staging of its normalisations (R122, R285). -/
def itinNeeds (s : State) (img : Image) (fallback : Bool) : List Need :=
  let sec := if fallback then img.fallback.getD img.main else img.main
  let need (t : Nat) (c : Option McId) : Need := ⟨t, c, granules (packedBytes (itemsOn s (taken img fallback) t ((c.map (·.1)).getD 0))), true, false⟩
  ([⟨0, none, granules (normStaging sec), false, false⟩, need 1 none] ++ (fins 4).map (fun c => need 2 (some c)) ++ [need 3 none]).filter fun x => x.n != 0

/-- Addresses of items packed one after the other from a base. -/
def packHomes (base : Nat) : List ItemDecl → List (Nat × Nat)
  | [] => []
  | i :: r => (i.off, base) :: packHomes (base + 64 * cdiv i.len 64) r

/-- Take room from the first run that has it: its address, and the runs left. -/
def fromRun (n : Nat) : List (Nat × Nat) → Option Nat × List (Nat × Nat)
  | [] => (none, [])
  | (b, k) :: r => if n ≤ k then (some b, (b + n, k - n) :: r) else let x := fromRun n r; (x.1, (b, k) :: x.2)

/-- Addresses of items over runs of granules, each in the first run with room. -/
def packLoans (runs : List (Nat × Nat)) (l : List ItemDecl) : List (Nat × Nat) :=
  (l.foldl (fun (a : List (Nat × Nat) × List (Nat × Nat)) i =>
    let x := fromRun (64 * cdiv i.len 64) a.1
    (x.2, match x.1 with | some b => a.2 ++ [(i.off, b)] | none => a.2)) (runs, [])).2

/-- Where every item of the image has its home, from the reservations of the itinerary; an item homed on another die lies where that
die's firmware puts it, which is a free value here. -/
def giveHomes (s : State) (o : Owner) (img : Image) (src : Nat) : List (Nat × Nat) × State :=
  let held (t c : Nat) := (s.mem.reserved.filter fun r => r.owner == o && r.tier == t && (t != 2 || r.chan == c)).filterMap fun r => r.base.map fun b => (b, r.granules * 65536)
  let own := (match held 1 0 with | (b, _) :: _ => packHomes (gaddr s b) (itemsOn s img 1 0) | [] => [])
    ++ (fins 4).flatMap (fun c => match held 2 c.1 with | (b, _) :: _ => packHomes (gaddr s b) (itemsOn s img 2 c.1) | [] => [])
    ++ packLoans (held 3 0) (itemsOn s img 3 0) ++ (itemsOn s img 4 0).map fun i => (i.off, src + i.off)
  (img.items.filter fun i => i.die != s.fabric.id).foldl (fun a i =>
    let f := takeFree a.2
    let local_ := if i.tier == 2 then t2BaseOf i.chan + 64 * (f.1 % 2 ^ 28) else if i.tier == 4 then src % 2 ^ 48 + i.off else 64 * (f.1 % (t1Size / 64))
    (a.1 ++ [(i.off, if i.tier == 4 then src + i.off else i.die.toNat * 2 ^ 48 + local_)], f.2)) (own, s)

/-- The bytes of a tile or record as its home holds them: image offsets replaced by global addresses, and the header sum with them. -/
def homedBytes (homes : List (Nat × Nat)) (off : Nat) (b : List Byte) : List Byte :=
  let at_ (o : Nat) := (homes.lookup o).getD 0
  let hd := b.take 8 ++ leBytes 8 (at_ (tileHdr b).scalePtr) ++ leBytes 8 (at_ off) ++ slice b 24 7
  hd ++ [sumByte hd] ++ b.drop 32

/-- The bytes of an item as its home holds them. -/
def homeBytes (img : Image) (homes : List (Nat × Nat)) (i : ItemDecl) : List Byte :=
  if isOutlierList img i.off then itemRaw img i else homedBytes homes i.off (itemRaw img i)

/-- Copy the items to their homes: into this die's T1 and T2, and by MOVE to lenders and to the other dies that the itinerary names
(R978). -/
def storeHomes (s : State) (img : Image) (homes : List (Nat × Nat)) : State :=
  (img.items.filter fun i => decide (i.tier ≤ 3)).foldl (fun t i =>
    match homes.lookup i.off with
    | none => t
    | some a =>
      if gid a == t.fabric.id then modMem t fun m => { m with cells := writeBytes m.cells (glocal a) (homeBytes img homes i) }
      else moveRemote t none a (64 * cdiv i.len 64) (homeBytes img homes i)) s

/-! ## Addresses that commands name (R264 to R267, R352) -/

/-- The status of a source range: absent units first (R266), else BAD_ARGUMENT where it is not valid. -/
def srcStatus (s : State) (a len : Nat) : Option Status :=
  if gid a == s.fabric.id then
    (if rangeAbsent s (glocal a) then some .absentUnit
     else match window (glocal a) with
       | .t0 _ => some .badArgument
       | _ => if rangeOk s (glocal a) len then none else some .badArgument)
  else if !knownId s (gid a) && !s.fabric.lost.contains (gid a) then some .badArgument
  else match window (glocal a) with
    | .t1 => if glocal a + len ≤ t1Size then none else some .badArgument
    | .t2 n => if glocal a + len ≤ t2BaseOf (n + 1) then none else some .badArgument
    | _ => some .badArgument

/-- How a read of a command's source ends (R313, R315, R322, R588): what the environment says, a die that cannot be reached, or the
host link down. -/
def readStatus (s : State) (a len : Nat) (e : ReadEnd) : Option Status :=
  if gid a != s.fabric.id && !reachable s (gid a) then some .neighbourLost
  else if gid a == s.fabric.id && window (glocal a) == .t4 && !s.host.linkUp then some .tierFault
  else if gid a == s.fabric.id && s.mem.bad.any (fun b => decide (glocal a ≤ b) && decide (b < glocal a + len)) then some .tierFault
  else match e with
    | .ok => none
    | .late => some .tierFault
    | .bad => some .tierFault
    | .lost => some .neighbourLost

/-- The mapped region that holds an address, by handle; 0 for none. -/
def mappedRegion (s : State) (a : Nat) : Nat :=
  match s.mem.regions.find? fun r => r.tier == 4 && gid a == s.fabric.id && decide (r.base ≤ glocal a) && decide (glocal a < r.base + r.bytes) with
  | some r => r.handle
  | none => 0

/-! ## ITIN_LOAD and ITIN_UNLOAD -/

/-- Granules an owner holds on this die. -/
def granulesHere (s : State) (o : Owner) : Nat := total ((s.mem.reserved.filter fun r => r.owner == o && r.tier != 3).map (·.granules))

/-- The next itinerary handle. -/
def nextItin (s : State) : Nat := nextHandle (s.itins.map (·.handle)) 65536 s.fw.itinNext

/-- Bits of the unit kinds a fallback was taken for. -/
def kindBits (l : List Nat) : Nat := total (l.map fun k => 2 ^ k)

/-- The load, once every check has passed and its reservations are held by `o`: the itinerary takes its handle and its homes. -/
def loadNow (s : State) (m : MailCmd) (o : Owner) (img : Image) (fb : List Nat) (others : Nat) : State :=
  let h := nextItin s
  let used := taken img (!fb.isEmpty)
  let g := giveHomes s o used (arg m 8 8)
  let s1 := storeHomes g.2 used g.1
  let s2 := modMem s1 fun x => { x with reserved := x.reserved.map fun r => if r.owner == o then { r with owner := .itin h } else r }
  let sec := if fb.isEmpty then img.main else img.fallback.getD img.main
  let it : Itin :=
    { handle := h, tenant := mailTenant s m, crc := BitVec.ofNat 32 (bfld img.bytes (img.bytes.length - 4) 4), img := img, fallback := !fb.isEmpty, fbDies := others
      homes := g.1, granules := granulesHere s2 (.itin h), steps := stepCount sec, srcRegion := mappedRegion s (arg m 8 8), replaced := [] }
  complete { s2 with itins := s2.itins ++ [it], fw := { s2.fw with itinNext := afterHandle h } } m .ok
    (put 8 2 h + put 10 2 (img.dies ++ img.spares).length + put 12 1 (kindBits fb) + put 14 2 (others + b2n (!fb.isEmpty))
      + put 16 4 it.granules + put 20 4 it.steps)

/-- Give up a request that waits or has waited: what it holds is returned. -/
def giveUp (s : State) (m : MailCmd) (st : Status) : State :=
  match waitOf s m with
  | some w => complete (dropWaiting (releaseAll s (.wait w.req)) w.req) m st 0
  | none => complete s m st 0

/-- Hold a command, once. -/
def holdOnce (s : State) (m : MailCmd) : State := if s.host.running.any (sameCmd m) then s else hold s m

/-- T3 granules a waiting command already holds. -/
def heldLoans (s : State) (m : MailCmd) : Nat := match waitOf s m with | some w => ownerGranules s (.wait w.req) | none => 0

/-- Meet the needs of a command (R292 to R296, R306): quota, then capacity; where loans or recalls are needed the command waits, and
`go` runs with the owner that holds everything once all is there. -/
def acquire (s : State) (m : MailCmd) (named : FabId) (img : Option Image) (l : List Need) (go : State → Owner → State) : State :=
  let held := heldLoans s m
  let n3 := needOn l 3
  if needsOverQuota s (mailTenant s m) l held then giveUp s m .quotaExceeded
  else if !withRecalls s (reqFor s m) l then giveUp s m .noReservation
  else
    let a := match waitOf s m with | some w => (s, w.req) | none => addWaiting s (some m) (n3 - held) named img l
    if held < n3 then
      let r := askLender (holdOnce a.1 m) a.2
      if r.2 then r.1 else giveUp r.1 m .noReservation
    else match takeAll a.1 (.wait a.2) (mailTenant s m) l with
      | some s1 => go (dropWaiting s1 a.2) (.wait a.2)
      | none => if withoutRecalls s a.2 l then giveUp a.1 m .noReservation else recallNeeds (holdOnce a.1 m) a.2 l

/-- ITIN_LOAD's effect, from its read on (R7, R8, R14, R583, R584, R598 to R600). Of several dies that lack a unit, this die is named first,
then the others in the image's order (log entry 140). -/
def loadItin (s : State) (m : MailCmd) (img : Image) : State :=
  match imageFault img with
  | some off => complete s m .badArgument (put 8 4 off)
  | none =>
    if (img.dies ++ img.spares ++ img.items.map (·.die)).any fun d => !knownId s d && !s.fabric.lost.contains d then
      complete s m .badArgument (put 8 4 img.main.off)
    else if img.items.any fun i => i.die == s.fabric.id && i.tier == 4 && (mappedRegion s (arg m 8 8) == 0 || (arg m 8 8 + i.off) % 64 != 0) then
      complete s m .badArgument (put 8 4 img.main.off)
    else
      let o := fitOthers s img
      match fitHere s img, o.1.1 with
      | .lacks k, _ => complete s m .absentUnit (put 8 2 s.fabric.id.toNat + put 10 1 k)
      | _, some (d, k) => complete o.2 m .absentUnit (put 8 2 d.toNat + put 10 1 k)
      | fit, none =>
        let fb := match fit with | .fallback l => l | _ => []
        if !discovered s then complete o.2 m .notReady 0
        else if needsOverQuota s (mailTenant s m) (itinNeeds s img (!fb.isEmpty)) (heldLoans s m) then giveUp o.2 m .quotaExceeded
        else if 32 ≤ s.itins.length then giveUp o.2 m .noReservation
        else if (img.dies ++ img.items.map (·.die)).any fun d => !reachable s d then giveUp o.2 m .neighbourLost
        else acquire o.2 m 0xFFFF (some img) (itinNeeds s img (!fb.isEmpty)) fun t w => loadNow t m w img fb o.1.2

/-- ITIN_LOAD. -/
def execItinLoad (m : MailCmd) (img : Image) (read : ReadEnd) (s : State) : Res' :=
  .next <| onMail m 0x20 s fun s =>
    let a := arg m 8 8
    let n := arg m 16 4
    if srcStatus s a n == some .absentUnit then complete s m .absentUnit 0
    else if reserved m || n % 64 != 0 || n == 0 then complete s m .badArgument 0
    else match srcStatus s a n with
      | some st => complete s m st 0
      | none => match readStatus s a n read with
        | some st => complete s m st 0
        | none => loadItin s m { img with bytes := img.bytes.take n }

/-- ITIN_UNLOAD (R288, R601, R843). -/
def execItinUnload (m : MailCmd) (s : State) : Res' :=
  .next <| onMail m 0x21 s fun s =>
    match namedItin s m (arg m 8 2) with
    | none => complete s m .badArgument 0
    | some it =>
      if reserved m then complete s m .badArgument 0
      else if s.streams.any fun st => st.itin == it.handle then complete s m .busy 0
      else
        let n := ownerGranules s (.itin it.handle)
        let s1 := releaseAll { s with itins := s.itins.filter fun x => x.handle != it.handle } (.itin it.handle)
        complete (modMem s1 fun x => { x with
          staged := x.staged.filter fun c => c.itin != it.handle
          damagedItems := x.damagedItems.filter fun d => d.1 != it.handle }) m .ok (put 8 4 n)

end Sys2Proof.Machine
end

