-- ==== Sys2Proof/Machine/Streams.lean ====
section
/-! DEFINITION. Opening, starting, feeding, draining and closing jobs and streams, and their policy (07, 10 R602 to R616). -/

namespace Sys2Proof.Machine

/-! ## Parameters (Tables 7-2, 4-2, 10-6) -/

/-- The arguments of STREAM_OPEN, bytes 8 to 33. -/
structure OpenArgs where
  itin : Nat
  prio : Nat
  guar : Bool
  quiet : Bool
  ratio : Nat
  order : Nat
  dflt : Bool
  kvFmt : Nat
  pageLog2 : Nat
  ragged : Bool
  backward : Bool
  period : Nat
  deadline : Nat
  snapEvery : Nat
  maxSeqs : Nat
  maxPos : Nat
  maxRows : Nat
  snapRegion : Nat
  deriving DecidableEq, Repr

/-- Fields at their offsets. -/
def openArgs (e : Nat) : OpenArgs :=
  let f (off len : Nat) := (e >>> (8 * off)) % 2 ^ (8 * len)
  let d := bit (f 11 1) 7
  { itin := f 8 2, prio := bits (f 10 1) 0 3, guar := !bit (f 10 1) 3, quiet := bit (f 10 1) 4
    ratio := if d then 16 else bits (f 11 1) 0 6, order := if d then 0x39 else f 12 1
    dflt := d && (bits (f 11 1) 0 6 != 0 || f 12 1 != 0)
    kvFmt := bits (f 13 1) 0 4, pageLog2 := bits (f 13 1) 4 4, ragged := bit (f 14 1) 0, backward := bit (f 14 1) 1
    period := f 16 4, deadline := f 20 4, snapEvery := f 24 2, maxSeqs := f 26 2, maxPos := f 28 2, maxRows := f 30 2, snapRegion := f 32 2 }

/-- CU_ORDER's slots. -/
def cuSlots (v : Nat) : List Nat := [bits v 0 2, bits v 2 2, bits v 4 2]

/-- CU_ORDER is valid (R409). -/
def cuOrderOk (v : Nat) : Bool :=
  let l := cuSlots v
  nodup (l.filter (· != 0)) && decide (v < 64) &&
    (match l with | [a, b, c] => (a != 0 || (b == 0 && c == 0)) && (b != 0 || c == 0) | _ => false)

/-- Codes of Table 7-2's measures. -/
def measureCode : Measure → Nat
  | .boost => 1 | .lean => 2 | .postpone => 3

/-- The measures a CU_ORDER names. -/
def cuMeasures (v : Nat) : List Measure :=
  (cuSlots v).filterMap fun x => if x == 1 then some .boost else if x == 2 then some .lean else if x == 3 then some .postpone else none

/-- CU_ORDER of measures. -/
def cuCode (l : List Measure) : Nat := total (l.mapIdx fun i m => measureCode m <<< (2 * i))

/-- A class and its parameters are within Table 7-2 (R409, R421). -/
def ranksOk (period deadline ratio order : Nat) (guar : Bool) : Bool :=
  decide (1 ≤ ratio ∧ ratio ≤ 32) && cuOrderOk order &&
    (if period == 0 then (deadline == 0 && !guar) || decide (64 ≤ deadline)
     else decide (256 ≤ period ∧ 64 ≤ deadline ∧ deadline ≤ period))

/-- A region that may receive snapshots: live, nameable, and in a lower tier other than host memory, which the die never writes (R279, R596). -/
def snapRegionOk (s : State) (m : MailCmd) (r : Nat) : Bool := match namedRegion s m r with | some x => x.tier == 2 || x.tier == 3 | none => false

/-- The attention parameters are within Table 4-2 (R208). -/
def attnParamsOk (p : OpenArgs) : Bool :=
  (p.kvFmt == 5 || p.kvFmt == 2) && decide (4 ≤ p.pageLog2 ∧ p.pageLog2 ≤ 10) && decide (1 ≤ p.maxSeqs ∧ p.maxSeqs ≤ 1024)
  && decide (1 ≤ p.maxPos ∧ p.maxPos ≤ 32768) && decide (1 ≤ p.maxRows ∧ p.maxRows ≤ 32768)

/-- Attention layers run a fallback section on some die (R247). -/
def attnFallback (it : Itin) : Bool :=
  (it.img.main.layers.any fun l => l.body.attn.isSome) && (it.fallback || it.fbDies != 0)

/-! ## What a stream reserves (R225, R241, R284 to R286, R200) -/

/-- Pages of an attention layer: in all, and of them tail pages. -/
def layerPages (p : OpenArgs) (a : AttnDecl) : Nat × Nat :=
  (a.kvHeads * p.maxSeqs * cdiv p.maxPos (2 ^ p.pageLog2), a.kvHeads * p.maxSeqs)

/-- The attention layers of a section. -/
def attnsOf (sec : Section) : List AttnDecl := sec.layers.filterMap (·.body.attn)

/-- Layers with SCALE_SRC 1, which keep a running-maximum history. -/
def histLayers (sec : Section) : Nat := (sec.layers.filter fun l => (desc l.body.desc).src == 1).length

/-- Output channels of layers with statistics. -/
def statChannels (sec : Section) : Nat := total (sec.layers.map fun l => if (desc l.body.desc).statsEn then l.width else 0)

/-- What STREAM_OPEN reserves on this die. -/
def streamNeeds (it : Itin) (p : OpenArgs) : List Need :=
  let sec := sectionOf it
  let as := attnsOf sec
  let bytes (a : AttnDecl) (n : Nat) := n * pageBytes p.pageLog2 p.kvFmt a.headDim
  let tails := total (as.map fun a => bytes a (layerPages p a).2)
  let rest := total (as.map fun a => bytes a ((layerPages p a).1 - (layerPages p a).2))
  let recs := if p.backward then total (as.map fun a => 8 * p.maxRows * (a.kvHeads * a.group)) else 0
  let t1 := total ([sec.writableT1, 64 * histLayers sec, 64 * statChannels sec, recs, tails].map granules)
  let kv := it.img.kvTier
  let l : List Need := [⟨0, none, granules sec.peakT0, false, false⟩, ⟨1, none, t1 + (if kv ≤ 1 then granules rest else 0), true, false⟩,
    ⟨1, none, granules sec.peakT1, false, false⟩, ⟨2, none, if kv == 2 then granules rest else 0, false, true⟩,
    ⟨3, none, if kv == 3 then granules rest else 0, false, false⟩]
  l.filter fun x => x.n != 0

/-! ## STREAM_OPEN (R406, R432 to R436, R602 to R604) -/

/-- The task of a stream to be opened, for the tollgate. -/
def openTask (it : Itin) (p : OpenArgs) : Task :=
  ⟨0, p.prio, if p.period == 0 then p.deadline else p.period, p.deadline, it, [], p.maxRows, p.maxPos, p.ragged, p.backward⟩

/-- The handle of the next stream (R581). -/
def nextStream (s : State) : Nat := nextHandle (s.streams.map (·.handle)) 65536 s.fw.streamNext

/-- A stream as STREAM_OPEN makes it. -/
def newStream (s : State) (m : MailCmd) (it : Itin) (p : OpenArgs) (map : List EngineId) : Stream :=
  let attn := hasAttnLayers it
  { handle := nextStream s, itin := it.handle, tenant := mailTenant s m, ch := m.ch, st := .opened, started := false, period := p.period
    deadline := p.deadline, prio := p.prio, guaranteed := p.guar, cuRatio := p.ratio, cuOrder := cuMeasures p.order, snapEvery := p.snapEvery
    quiet := p.quiet, snapRegion := p.snapRegion, timeouts := #v[4915, 49152, 49152], kvFmt := p.kvFmt, pageLog2 := p.pageLog2
    ragged := p.ragged, backward := attn && p.backward, maxSeqs := p.maxSeqs, maxPos := p.maxPos, maxRows := p.maxRows, n0 := 0, feeds := []
    frame := none, prevSlot := none, prevRelease := 0, nextRelease := none, minRelease := 0, debt := 0, maxDebt := 0, cuFrames := 0
    catchup := false, active := [], used := [], demoted := false, emptySlots := 0, finished := 0, late := 0, drainedFrames := 0, advances := 0
    lastAdvSlot := 0, map := map, home := s.fabric.id, energyPj := 0, chargePj := 0, openTick := now s, hist := [], stats := []
    lengths := if attn then List.replicate p.maxSeqs 0 else [], pages := [], recurrent := [], rowRecords := [], gradients := [], kept := none
    snapSeq := 0, snapping := none, drainCmd := none, lostDie := 0, dies := it.img.dies, rebase := false, rowsBad := none }

/-- Admission of a stream (R406, R434, R435): its refusals in the order of R584, and then, once everything is reserved, `go` with the
new stream in state OPENED. -/
def admitStream (s : State) (m : MailCmd) (it : Itin) (p : OpenArgs) (go : State → Stream → State) : State :=
  let needs := streamNeeds it p
  if needsOverQuota s (mailTenant s m) needs (heldLoans s m) then giveUp s m .quotaExceeded
  else match admitEngines s p.guar (openTask it p) with
    | none => giveUp s m .noReservation
    | some map =>
      if 64 ≤ s.streams.length ∨ 16384 < strandsHeld s + it.steps then giveUp s m .noReservation
      else if it.img.dies.any fun d => !reachable s d then giveUp s m .neighbourLost
      else acquire s m 0xFFFF none needs fun t w =>
        let st := newStream t m it p map
        let t1 := modMem t fun x => { x with reserved := x.reserved.map fun r => if r.owner == w then { r with owner := .stream st.handle } else r }
        go { t1 with streams := t1.streams ++ [st], fw := { t1.fw with streamNext := afterHandle st.handle } } st

/-- Bits of the engines a mapping names. -/
def engineMask (l : List EngineId) : Nat := total (l.eraseDups.map fun e => 2 ^ e.1)

/-- The arguments are bad (R208, R239, R409, R421, R581, R602, Table 10-6). -/
def openBad (s : State) (m : MailCmd) (it : Itin) (p : OpenArgs) : Bool :=
  p.dflt || !ranksOk p.period p.deadline p.ratio p.order p.guar || (p.snapEvery != 0 && p.snapRegion == 0)
  || (p.snapRegion != 0 && !snapRegionOk s m p.snapRegion)
  || (hasAttnLayers it && (!attnParamsOk p || (it.img.hasBackward && !p.backward)))

/-- STREAM_OPEN's effect; a command that waited for capacity comes here again. -/
def openStream (s : State) (m : MailCmd) : State :=
  let p := openArgs m.entry.toNat
  match namedItin s m p.itin with
  | none => giveUp s m .badArgument
  | some it =>
    if reserved m || openBad s m it p then giveUp s m .badArgument
    else if p.backward && attnFallback it then giveUp s m .absentUnit
    else if !discovered s then giveUp s m .notReady
    else admitStream s m it p fun t st => complete t m .ok
      (put 8 2 st.handle + put 10 2 it.img.dies.length + put 12 1 (engineMask st.map) + put 16 4 (granulesHere t (.stream st.handle)))

/-- STREAM_OPEN. -/
def execStreamOpen (m : MailCmd) (s : State) : Res' := .next <| onMail m 0x22 s fun s => openStream s m

/-! ## Slots, releases and catch-up (R413 to R419, R447 to R452) -/

/-- The events of R448 and R452. -/
def missEvent (s : State) (st : Stream) (slot debt : Nat) (again : Bool) (k : Option Measure) : State :=
  postEvent s 0x10 (put 16 2 st.handle + put 18 1 (b2n again) + put 19 1 ((k.map measureCode).getD 0) + put 20 8 slot + put 28 8 debt
    + put 36 4 st.period)

/-- OP4 is returned when no stream holds it any more (R47, R461). -/
def returnBoost (s : State) (had : Bool) : State := if had && !boostActive s then requestOp s s.power.opBase .boostReturn else s

/-- A stream leaves catch-up: its measures end and CATCHUP_DONE is posted (R451). -/
def leaveCatchup (s : State) (st : Stream) (slot : Nat) : State :=
  let bit (m : Measure) := if st.used.contains m then 2 ^ (measureCode m - 1) else 0
  let s1 := modStream s st.handle fun t => { t with catchup := false, active := [], used := [], maxDebt := 0, cuFrames := 0 }
  returnBoost (postEvent s1 0x11 (put 16 2 st.handle + put 18 1 (bit .boost + bit .lean + bit .postpone) + put 20 8 slot
    + put 28 8 st.maxDebt + put 36 4 st.cuFrames)) (st.active.contains .boost)

/-- A release is fixed with its debt (R447, R448, R451). -/
def fixRelease (s : State) (h slot release : Nat) : State :=
  let s1 := modStream s h fun st => { st with nextRelease := some release, debt := release - slot }
  match streamOf s1 h with
  | none => s1
  | some st =>
    if st.period == 0 then s1
    else if release ≤ slot then (if st.catchup then leaveCatchup s1 st slot else s1)
    else
      let d := release - slot
      let s2 := if st.catchup then s1
        else
          let a := activateNext (modStream s1 h fun st => { st with catchup := true, maxDebt := 0, cuFrames := 0, used := [] }) h
          missEvent a.1 st slot d false a.2
      modStream s2 h fun st => { st with maxDebt := max st.maxDebt d, cuFrames := st.cuFrames + 1 }

/-- H of a frame in catch-up (R447, R459). -/
def catchGap (st : Stream) : Nat := st.period - st.period * st.cuRatio / 64

/-- Ticks after which the next frame may start: no earlier than the finish of the previous one, and in catch-up H after its
release. -/
def earliest (st : Stream) : Nat := max st.minRelease (if st.catchup then st.prevRelease + catchGap st else 0)

/-- The first slots that a rebase takes for the feeds awaiting release (R454, R502): of an input-bound stream the input blocks before
the release are dropped, other audio-bound streams take slots of the grid, and N_0 moves for the rest. -/
def rebaseFeeds (s : State) (st : Stream) (release : Nat) : State :=
  match gridOf s st.handle with
  | some (p, b) =>
    if b.dirIn then
      let skip := st.feeds.filter fun f => decide (f.slot < release)
      let s1 := modStream s st.handle fun t => { t with feeds := t.feeds.filter fun f => !decide (f.slot < release) }
      modBind s1 p st.handle true fun b => { b with counts := vmod b.counts 6 (· + skip.length) }
    else
      let r := st.feeds.foldl (fun (a : List Feed × Option Tick) f =>
        let sl := nextSlot s st a.2 (match a.2 with | none => release | some _ => f.accepted)
        (a.1 ++ [{ f with slot := sl }], some sl)) ([], none)
      modStream s st.handle fun t => { t with feeds := r.1, prevSlot := r.2 }
  | none =>
    let d := match st.feeds with | f :: _ => release - f.slot | [] => 0
    modStream s st.handle fun t => { t with n0 := t.n0 + d, feeds := t.feeds.map fun f => { f with slot := f.slot + d }, prevSlot := t.prevSlot.map (· + d) }

/-- Fix the next release, once the frame before has finished and a feed waits (R414, R416, R419, R447). -/
def tryFix (s : State) (h : Nat) : State :=
  match streamOf s h with
  | none => s
  | some st =>
    if st.frame.isSome || st.nextRelease.isSome || !st.started || st.st == .lost || st.st == .resuming then s
    else match st.feeds with
      | [] => s
      | f :: _ =>
        let r := max (max (earliest st) f.slot) (if st.period == 0 then now s else 0)
        if st.rebase && st.period != 0 then
          let s1 := modStream (rebaseFeeds s st r) h fun t => { t with rebase := false }
          match (streamOf s1 h).bind fun t => t.feeds.head? with
          | some g => fixRelease s1 h g.slot (max r g.slot)
          | none => modStream s1 h fun t => { t with rebase := true }
        else if st.period == 0 then
          fixRelease (modStream s h fun t => { t with feeds := t.feeds.mapIdx fun i x => if i == 0 then { x with slot := r } else x }) h r r
        else fixRelease s h f.slot r

/-- Give a feed its slot (R414, R419, R422, R491). -/
def assignSlot (s : State) (st : Stream) (prev : Option Tick) (f : Feed) : Feed :=
  { f with slot := nextSlot s st (if st.period == 0 then none else prev) f.accepted }

/-- Give slots to the feeds accepted before the start, in order. -/
def assignAll (s : State) (st : Stream) : List Feed × Option Tick :=
  st.feeds.foldl (fun (a : List Feed × Option Tick) f => let g := assignSlot s st a.2 f; (a.1 ++ [g], some g.slot)) ([], none)

/-! ## STREAM_START (R73, R413, R489) -/

/-- The stream is bound to a slave port whose clock is not valid. -/
def clockMissing (s : State) (h : Nat) : Bool :=
  (fins 2).any fun p =>
    let a := s.audio.get p
    (a.binds.any (·.stream == h)) && (match a.cfg with | some c => c.slave | none => true) && !a.clockValid

/-- STREAM_START. -/
def execStreamStart (m : MailCmd) (s : State) : Res' :=
  .next <| onMail m 0x23 s fun s => onStream s m (arg m 8 2) (fun _ => reserved m) fun st =>
    let first := arg m 16 8
    let audio := audioBound s st.handle
    if st.st != .opened then complete s m .badCommand 0
    else if reserved m || (audio && first != 0) || (!audio && first != 0 && within s first 256) then complete s m .badArgument 0
    else if s.time.state == .unaligned || clockMissing s st.handle then complete s m .notReady 0
    else
      let s0 := if audio then startGrid s st.handle (now s) else s
      let n0 := match gridOf s0 st.handle with
        | some (p, b) => blockSlot (s0.audio.get p) b 0
        | none => if st.period == 0 then now s else if first == 0 then now s + 1024 else first
      let s1 := modStream s0 st.handle fun t => { t with st := .running, started := true, n0 := n0 }
      let s2 := match streamOf s1 st.handle with
        | some t => let a := assignAll s1 t; modStream s1 st.handle fun t => { t with feeds := a.1, prevSlot := a.2 }
        | none => s1
      complete (tryFix s2 st.handle) m .ok (put 8 8 (if st.period == 0 then 0 else n0))

/-! ## STREAM_FEED (R104, R148, R164, R187, R189, R202, R218, R219, R236, R426, R611 to R615, R989) -/

/-- What stands at each place of IN_ADDR: the input's index and whether it is its block, its companion or its scale record. -/
def feedLayout (l : List InputDecl) : List (Nat × Nat) :=
  (l.mapIdx fun i d => [(i, 0)] ++ (if d.outliers.isEmpty then [] else [(i, 1)]) ++ [(i, 2)]).flatten

/-- One item of a feed fits its place. -/
def feedItemOk (d : InputDecl) (rows kind : Nat) (b : List Byte) : Bool :=
  let h := tileHdr b
  tileOk b && h.scalePtr == 0 && h.home == 0 && h.rows == rows &&
    (if kind == 0 then h.kind == 1 && h.fmt == d.fmt && h.cols == d.cols
     else if kind == 1 then h.kind == 1 && h.fmt == .fp16 && h.cols == d.outliers.length
     else h.kind == 3 && zpsOk d.fmt b rows)

/-- A sequence-table entry (Table 4-7). -/
def seqEntry (e : BitVec 64) : SeqEntry := ⟨fld e 0 2, fld e 2 2, e.getLsbD 32, e.getLsbD 33⟩

/-- The index of the first entry that fails validation (R236, R973). -/
def badSeq (st : Stream) (l : List (BitVec 64)) : Option Nat :=
  (List.range l.length).find? fun i =>
    let e := nth l i 0
    let x := seqEntry e
    bits e.toNat 34 30 != 0 || decide (st.maxSeqs ≤ x.slot) || decide (32768 < x.new) || (l.take i).any fun y => (seqEntry y).slot == x.slot

/-- The length that R230 checks for an entry. -/
def checkedLen (st : Stream) (x : SeqEntry) : Nat :=
  let open_ := st.frame.toList.map (·.feed) ++ st.feeds
  if x.reset then x.new
  else lenOf st.lengths x.slot + total (open_.flatMap fun f => (f.seqs.filter fun y => y.slot == x.slot).map (·.new)) + x.new

/-- The blocks of accepted inputs. -/
def feedBlocks (decls : List InputDecl) (items : List (List Byte)) : List Block :=
  let lay := feedLayout decls
  let at_ (i k : Nat) : List Byte := match lay.findIdx? (· == (i, k)) with | some j => nth items j [] | none => []
  decls.mapIdx fun i d =>
    let b := blockFrom (at_ i 0) (at_ i 2) d.outliers []
    if d.outliers.isEmpty then b else { b with comp := (tileCodes (at_ i 1) (tileHdr (at_ i 1))).map fun r => r.map fun c => BitVec.ofNat 16 c }

/-- The largest fold of the section's layers that run on the field (R93). -/
def fieldFold (it : Itin) : Nat := maxOf 0 ((sectionOf it).layers.map fun ly => if ly.body.attn.isSome then 0 else maxOf ly.body.fold (ly.lean.toList.map (·.fold)))

/-- Query column blocks of one input carry the same scales (R202). -/
def queryScalesOk (decls : List InputDecl) (bs : List Block) : Bool :=
  (decls.zip bs).all fun x => (decls.zip bs).all fun y => x.1.queryPart.isNone || x.1.queryPart != y.1.queryPart || x.2.aScale == y.2.aScale

/-- The first listed item whose address a test answers, with its index. -/
def firstAddr (addrs : List Nat) (items : List (List Byte)) (n : Nat) (f : Nat → Nat → Option Status) : Option (Status × Nat) :=
  (List.range n).findSome? fun j => match addrs[j]? with
    | some a => (f a (nth items j []).length).map fun x => (x, j)
    | none => none

/-- The first status that refuses a feed, with the index of the item at fault (R93, R262, R264 to R267, R322, R426, R614, R615). `addrs` are
the global addresses that IN_ADDR lists, `items` what lies there. -/
def feedFault (s : State) (m : MailCmd) (st : Stream) (it : Itin) (addrs : List Nat) (items : List (List Byte)) (seqs : List (BitVec 64)) (read : ReadEnd) :
    Option (Status × Nat) :=
  let back := bit (arg m 10 1) 0
  let n := arg m 12 2
  let k := arg m 14 2
  let attn := hasAttnLayers it
  let decls := if back then it.img.gradInputs else it.img.inputs
  let lay := feedLayout decls
  let table := seqs.map seqEntry
  let inOk := n != 0 && decide (n ≤ 64)
  let seqBad := decide (1024 < k) || (k == 0) == attn || (k == 0 && arg m 24 8 != 0)
  let src (a len : Nat) : Option Status := if len == 0 then none else srcStatus s a len
  let rd (a len : Nat) : Option Status := if len == 0 || (srcStatus s a len).isSome then none else readStatus s a len read
  let rows (d : InputDecl) := if attn then rowCount st.ragged table else d.rows
  let absent := firstAddr addrs items n fun a len => if srcStatus s a len == some .absentUnit then some .absentUnit else none
  let unread := firstAddr addrs items n fun a len => if a % 64 != 0 || (srcStatus s a len).isSome then none else readStatus s a len .ok
  let badAddr := firstAddr addrs items n fun a len => if a % 64 != 0 || (srcStatus s a len).isSome then some .badArgument else none
  let wide := attn && !back && decide (512 < rowCount st.ragged table * fieldFold it)
  let badItem : Option Nat := ((List.range (max n lay.length)).find? fun j =>
    match lay[j]?, items[j]? with
    | some (i, kind), some b => decide (n ≤ j) || !(match decls[i]? with | some d => feedItemOk d (rows d) kind b | none => false)
    | _, _ => true).map fun j => if j < n then j else 0xFFFF
  let state := st.st == .opened || st.st == .running || (st.st == .drained && st.period != 0)
  let job := st.period == 0 && (!st.feeds.isEmpty || st.frame.isSome || decide (0 < st.finished))
  let fwd := st.kept.isSome || (st.frame.toList.map (·.feed) ++ st.feeds).any fun f => !f.backward
  if !state || job || (bindOf s st.handle true).isSome then some (.badCommand, 0xFFFF)
  else if src (arg m 16 8) (8 * n) == some .absentUnit || src (arg m 24 8) (8 * k) == some .absentUnit then some (.absentUnit, 0xFFFF)
  else if inOk && absent.isSome then absent
  else if inOk && !seqBad && (rd (arg m 16 8) (8 * n)).isSome then (rd (arg m 16 8) (8 * n)).map fun x => (x, 0xFFFF)
  else if inOk && !seqBad && (rd (arg m 24 8) (8 * k)).isSome then (rd (arg m 24 8) (8 * k)).map fun x => (x, 0xFFFF)
  else if inOk && !seqBad && unread.isSome then unread
  else if reserved m || !inOk || seqBad || addrs.length != n || wide || arg m 32 8 % 64 != 0 || decide (arg m 40 4 < it.img.outBytes) || (back && !(st.backward && it.img.hasBackward && fwd))
      || (src (arg m 16 8) (8 * n)).isSome || (src (arg m 24 8) (8 * k)).isSome || seqs.length != k then some (.badArgument, 0xFFFF)
  else if badAddr.isSome then badAddr
  else match badItem, badSeq st seqs with
    | some j, _ => some (.badArgument, j)
    | none, some j => some (.badArgument, j)
    | none, none =>
      let bs := feedBlocks decls items
      if !queryScalesOk decls bs then some (.badArgument, 0xFFFF)
      else match table.findIdx? fun x => decide (32768 < checkedLen st x) with
        | some j => some (.lengthLimit, j)
        | none => match table.findIdx? fun x => decide (st.maxPos < checkedLen st x) with
          | some j => some (.noReservation, j)
          | none =>
            if attn && decide (st.maxRows < rowCount st.ragged table) then some (.noReservation, 0xFFFF)
            else if 16 ≤ st.feeds.length then some (.busy, 0xFFFF)
            else none

/-- Slots after the last one assigned or counted empty, before a feed's slot: no feed has them (R415). -/
def slotsBetween (s : State) (st : Stream) (slot : Tick) : Nat :=
  match gridOf s st.handle with
  | some (p, b) =>
    let a := s.audio.get p
    firstBlock a b slot none - (match st.prevSlot with | some x => firstBlock a b x none + 1 | none => 0)
  | none => if st.period == 0 then 0 else (match st.prevSlot with | some x => (slot - x) / st.period - 1 | none => (slot - st.n0) / st.period)

/-- An accepted feed is copied to T1, joins its stream and takes its slot; the slots passed over are empty (R414, R415, R611, R756; Table 7-3). -/
def acceptFeed (s : State) (m : MailCmd) (st : Stream) (it : Itin) (items : List (List Byte)) (seqs : List (BitVec 64)) : State :=
  let back := bit (arg m 10 1) 0
  let f0 : Feed :=
    { cmd := some m, accepted := now s, slot := 0, inputs := feedBlocks (if back then it.img.gradInputs else it.img.inputs) items
      seqs := seqs.map seqEntry, outBuf := arg m 32 8, backward := back, inRing := false }
  let f := if st.started then assignSlot s st st.prevSlot f0 else f0
  let s1 := modStream (chargeMove (hold s m) st.handle 4 1 (total (items.map (·.length)) + 8 * seqs.length)) st.handle fun t =>
    { t with
      emptySlots := t.emptySlots + if st.started then slotsBetween s st f.slot else 0
      feeds := t.feeds ++ [f], prevSlot := if st.started then some f.slot else t.prevSlot, st := if t.st == .drained then .running else t.st }
  tryFix s1 st.handle

/-- CMD_HEAD passes a feed's entry once its inputs are read or it is refused (R611). -/
def passFeed (s : State) (m : MailCmd) : State :=
  modChan s m.ch fun c => if c.feedHead then { c with feedHead := false, cmdHead := c.cmdHead + 1 } else c

/-- STREAM_FEED. A resuming stream is BUSY, which ranks last (R426, R586). -/
def execStreamFeed (m : MailCmd) (inputs : FeedList) (seqs : List (BitVec 64)) (read : ReadEnd) (s : State) : Res' :=
  .next <|
    if !ready s || !s.host.accepted.any (sameCmd m) || mailOpcode m != 0x24 then s
    else
      let s0 := passFeed s m
      let no (st : Status) (i : Nat) := complete s0 m st (put 8 2 i)
      if m.fwFault then complete s0 m .internal 0
      else match namedStream s0 m (arg m 8 2) with
        | none => no .badArgument 0xFFFF
        | some st =>
          if st.st == .lost then no .streamLost 0xFFFF
          else match itinOf s0 st.itin with
            | none => no .internal 0xFFFF
            | some it =>
              let busy := st.st == .resuming
              match feedFault s0 m (if busy then { st with st := .running } else st) it inputs.addrs inputs.items seqs read with
              | some (x, i) => no x i
              | none => if busy then no .busy 0xFFFF else acceptFeed s0 m st it inputs.items seqs

/-! ## STREAM_DRAIN and STREAM_CLOSE (R427, R428, R503, R586, R637) -/

/-- A draining stream whose last frame has finished is DRAINED, and its command completes. -/
def drainCheck (s : State) (h : Nat) : State :=
  match streamOf s h with
  | none => s
  | some st =>
    if st.st != .draining || st.frame.isSome || !st.feeds.isEmpty then s
    else
      let s1 := modStream s h fun t => { t with st := .drained, drainCmd := none }
      match st.drainCmd with | some m => complete s1 m .ok (put 8 4 st.drainedFrames) | none => s1

/-- STREAM_DRAIN. -/
def execStreamDrain (m : MailCmd) (s : State) : Res' :=
  .next <| onMail m 0x25 s fun s => onStream s m (arg m 8 2) (fun _ => reserved m) fun st =>
    if st.st != .running then complete s m .badCommand 0
    else if reserved m then complete s m .badArgument 0
    else drainCheck (modStream (hold s m) st.handle fun t => { t with st := .draining, drainCmd := some m, drainedFrames := 0 }) st.handle

/-- Remove a stream's audio bindings with their reservations (R637). -/
def dropBinds (s : State) (h : Nat) : State :=
  (fins 2).foldl (fun t p =>
    releaseAll (modAp t p fun a => { a with binds := a.binds.filter fun b => b.stream != h }) (.bind p h)) s

/-- A stream is gone with everything it holds (R288, R270). -/
def removeStream (s : State) (h : Nat) : State :=
  let boost := match streamOf s h with | some st => st.active.contains .boost | none => false
  let ms := s.mem.moves.filter fun m => m.purpose == .frame h || m.purpose == .resume h
  let s1 := ms.foldl (fun t m => dropOutstanding t m.id) (clearStream s h)
  let s2 := modMem s1 fun x => { x with
    moves := x.moves.filter fun m => !(m.purpose == .frame h || m.purpose == .resume h), staged := x.staged.filter fun c => c.stream != h }
  let s3 := releaseAll (dropBinds s2 h) (.stream h)
  returnBoost { s3 with streams := s3.streams.filter fun t => t.handle != h } boost

/-- Feeds discarded unreleased: each completes (R539), with a status the spec does not give (log entry 8). -/
def discardFeeds (s : State) (st : Stream) : State :=
  st.feeds.foldl (fun t f => match f.cmd with
    | some m => let v := takeFree t; completeCode v.2 m (v.1 % 256) 0
    | none => t) s

/-- STREAM_CLOSE. -/
def execStreamClose (m : MailCmd) (s : State) : Res' :=
  .next <| onMail m 0x26 s fun s =>
    match namedStream s m (arg m 8 2) with
    | none => complete s m .badArgument 0
    | some st =>
      if reserved m then complete s m .badArgument 0
      else if st.st == .resuming || (st.started && st.st != .lost && (st.frame.isSome || !st.feeds.isEmpty)) || st.snapping.isSome then complete s m .busy 0
      else complete (removeStream (discardFeeds s st) st.handle) m .ok
        (put 8 8 (st.energyPj / 10 ^ 9) + put 16 4 st.finished + put 20 4 st.late)

/-! ## STREAM_POLICY (R421, R429, R441, R454, R466, R472, R609, R610) -/

/-- Ranges of Table 5-5. -/
def timeoutsOk (t2 t3 t4 : Nat) : Bool :=
  decide (1229 ≤ t2 ∧ t2 ≤ 49152) && decide (12288 ≤ t3 ∧ t3 ≤ 491520) && decide (12288 ≤ t4 ∧ t4 ≤ 491520)

/-- The stream with the fields that VALID selects. -/
def policyApplied (m : MailCmd) (st : Stream) : Stream :=
  let v := arg m 10 2
  let b := arg m 12 1
  { st with
    prio := if bit v 0 then bits b 0 3 else st.prio
    guaranteed := if bit v 1 then !bit b 3 else st.guaranteed, demoted := if bit v 1 then false else st.demoted
    cuRatio := if bit v 2 then arg m 13 1 else st.cuRatio, cuOrder := if bit v 3 then cuMeasures (arg m 14 1) else st.cuOrder
    snapEvery := if bit v 4 then arg m 16 2 else st.snapEvery, quiet := if bit v 5 then bit b 4 else st.quiet
    timeouts := if bit v 6 then #v[arg m 20 4, arg m 24 4, arg m 28 4] else st.timeouts
    snapRegion := if bit v 8 then arg m 18 2 else st.snapRegion }

/-- The fields whose VALID bit is clear are 0 (R609). -/
def unusedZero (m : MailCmd) : Bool :=
  let v := arg m 10 2
  let b := arg m 12 1
  (bit v 0 || bits b 0 3 == 0) && (bit v 1 || !bit b 3) && (bit v 2 || arg m 13 1 == 0) && (bit v 3 || arg m 14 1 == 0)
  && (bit v 4 || arg m 16 2 == 0) && (bit v 5 || !bit b 4) && (bit v 6 || arg m 20 12 == 0) && (bit v 7 || !bit b 5) && (bit v 8 || arg m 18 2 == 0)

/-- The change is bad. -/
def policyBad (s : State) (m : MailCmd) (st t : Stream) : Bool :=
  let v := arg m 10 2
  reserved m || !unusedZero m || (bit v 2 && !decide (1 ≤ t.cuRatio ∧ t.cuRatio ≤ 32)) || (bit v 3 && !cuOrderOk (arg m 14 1))
  || (st.period == 0 && t.guaranteed && st.deadline == 0) || (bit v 6 && !timeoutsOk (arg m 20 4) (arg m 24 4) (arg m 28 4))
  || (bit v 8 && t.snapRegion != 0 && !snapRegionOk s m t.snapRegion) || (bit v 4 && t.snapEvery != 0 && t.snapRegion == 0)

/-- The change is one that R441 tests, and it passes. -/
def policyAdmitted (s : State) (st t : Stream) : Bool :=
  let v := isGuar t && (!isGuar st || decide (t.prio < st.prio)) && !(t.period == 0 && t.st == .drained)
  if !v then true
  else match itinOf s st.itin with
    | none => false
    | some it => passAll s ((guarTasks s).filter (fun x => x.handle != st.handle) ++ [taskOf it t]) && spanOk s (taskOf it t)

/-- REBASE (R454): the release already fixed, or the next one fixed, becomes its slot. -/
def rebaseNow (s : State) (h : Nat) : State :=
  match streamOf s h with
  | none => s
  | some st =>
    if st.period == 0 then s
    else match st.nextRelease with
      | none => modStream s h fun t => { t with rebase := true }
      | some r =>
        if st.debt == 0 then s
        else tryFix (modStream s h fun t => { t with rebase := true, nextRelease := none, cuFrames := t.cuFrames - 1, minRelease := max t.minRelease r }) h

/-- The 16 bytes of policy in force that STREAM_POLICY reports. -/
def policyResult (st : Stream) : Nat :=
  put 8 1 (st.prio + b2n (!isGuar st) * 8 + b2n st.quiet * 16) + put 9 1 st.cuRatio + put 10 1 (cuCode st.cuOrder) + put 12 2 st.snapEvery + put 16 8 st.n0

/-- STREAM_POLICY. -/
def execStreamPolicy (m : MailCmd) (s : State) : Res' :=
  .next <| onMail m 0x29 s fun s => onStream s m (arg m 8 2) (fun st => policyBad s m st (policyApplied m st)) fun st =>
    let t := policyApplied m st
    if policyBad s m st t then complete s m .badArgument 0
    else if !policyAdmitted s st t then complete s m .noReservation 0
    else
      let s1 := modStream s st.handle fun _ => t
      let s2 := if bit (arg m 10 2) 7 && bit (arg m 12 1) 5 then rebaseNow s1 st.handle else s1
      match streamOf s2 st.handle with
      | some t => complete s2 m .ok (policyResult t)
      | none => s2

end Sys2Proof.Machine
end

