-- ==== Sys2Proof/Machine/Snap.lean ====
section
/-! DEFINITION. Snapshots of streams, their resume, and the loss of a stream (10 R605 to R608, 14 R847 to R863, Tables 14-4, 14-5). -/

namespace Sys2Proof.Machine

/-! ## Size and place of a snapshot -/

/-- Bytes of an activation block with its scale record and companion, each on a 64-byte boundary. -/
def blockBytes (b : Block) : Nat :=
  let pad (n : Nat) := 64 * cdiv n 64
  pad (32 + b.rows * rowBytes b.cols (fmtWidth b.fmt)) + pad (32 + 64 * cdiv b.rows 8)
  + (if b.outs.isEmpty then 0 else pad (32 + b.rows * rowBytes b.outs.length 16))

/-- Bytes of the pages of a stream. -/
def pagesBytes (st : Stream) (it : Itin) : Nat :=
  total (st.pages.map fun p => match (layerAt it p.layer).bind (·.body.attn) with
    | some a => 64 * cdiv (pageBytes st.pageLog2 st.kvFmt a.headDim) 64
    | none => 0)

/-- Sections of a snapshot: recurrent steps, histories, the lengths of record, and the pages of each layer (Table 14-5). -/
def snapSections (st : Stream) : Nat :=
  st.recurrent.length + st.hist.length + b2n (!st.lengths.isEmpty) + (st.pages.map (·.layer)).eraseDups.length

/-- Bytes of a snapshot: its header, its section directory, and its sections. -/
def snapBytes (st : Stream) (it : Itin) : Nat :=
  128 + 64 * cdiv (16 * snapSections st) 64 + total (st.recurrent.map fun x => blockBytes x.2) + 64 * st.hist.length
  + 64 * cdiv (2 * st.lengths.length) 64 + pagesBytes st it

/-- Bytes of one area of a region (R858). -/
def areaBytes (r : Region) : Nat := r.bytes / 2 / 64 * 64

/-- Where a region lies, as a global address. -/
def regionAddr (s : State) (r : Region) : Nat := match r.lender with | some _ => r.base | none => gaddr s r.base

/-- The valid snapshots of a region, and the one in use: the highest SEQ (R860). -/
def snapsOf (s : State) (tier base : Nat) : List Snapshot := s.snaps.filter fun x => x.tier == tier && x.base == base && x.valid
def newestSnap (s : State) (tier base : Nat) : Option Snapshot :=
  (snapsOf s tier base).foldl (fun b x => match b with | none => some x | some y => if y.seq < x.seq then some x else some y) none

/-- The channel of a T2 address has failed. -/
def chanFailed (s : State) (a : Nat) : Bool :=
  match window a with
  | .t2 n => if h : n < 4 then (s.mem.channels.get ⟨n, h⟩).st != .inService else true
  | _ => false

/-- A region cannot be read or written: its lender is lost or out of reach, it lost its loan, or its channel has failed. -/
def regionFault (s : State) (r : Region) : Option Status :=
  match r.lender with
  | some d => if !reachable s d then some .neighbourLost else if r.lost then some .tierFault else none
  | none => if r.tier == 2 && chanFailed s r.base then some .tierFault else none

/-- STREAM_OPEN's bytes 10 to 33 with the values in force (Table 14-4). -/
def paramBits (st : Stream) : Nat :=
  (put 10 1 (st.prio + b2n (!isGuar st) * 8 + b2n st.quiet * 16) + put 11 1 st.cuRatio + put 12 1 (cuCode st.cuOrder)
    + put 13 1 (st.kvFmt + st.pageLog2 * 16) + put 14 1 (b2n st.ragged + b2n st.backward * 2) + put 16 4 st.period + put 20 4 st.deadline
    + put 24 2 st.snapEvery + put 26 2 st.maxSeqs + put 28 2 st.maxPos + put 30 2 st.maxRows + put 32 2 st.snapRegion) >>> 80

/-! ## Capture (R251, R605 to R607, R857 to R859) -/

/-- The status of a move that a command makes, from how it ended (R313, R315, R984; log entry 147). -/
def endStatus : ReadEnd → Option Status
  | .ok => none
  | .late => some .tierFault
  | .bad => some .tierFault
  | .lost => some .neighbourLost

/-- A snapshot that cannot be made ends its command, or, of an automatic one, is logged (R607). -/
def snapFailed (s : State) (h : Nat) (cmd : Option MailCmd) (st : Status) : State :=
  let s1 := modStream s h fun t => { t with snapping := none }
  match cmd with
  | some m => complete s1 m st 0
  | none => logDie s1 0x0402 0xFF 1 (put 0 2 h + put 2 1 st.code)

/-- Layers of the section in use that meet a test, and a layer's number among them. A snapshot names layers so, because a main section
and a fallback, between which snapshots move, number their layers differently (R245; log entry 148). -/
def layersWhere (it : Itin) (f : Layer → Bool) : List Nat := (List.range (sectionOf it).layers.length).filter fun l => ((layerAt it l).map f).getD false
def attnLayers (it : Itin) : List Nat := layersWhere it fun ly => ly.body.attn.isSome
def rmLayers (it : Itin) : List Nat := layersWhere it fun ly => (desc ly.body.desc).src == 1
def keptLayers (it : Itin) : List Nat := layersWhere it (·.stateful)
def ordOf (l : List Nat) (x : Nat) : Nat := (l.findIdx? (· == x)).getD 0

/-- The capture of the stream's state between two frames, into the area that does not hold the newest valid snapshot. -/
def captureNow (s : State) (h : Nat) (cmd : Option MailCmd) (r : Region) : State :=
  match streamOf s h, (streamOf s h).bind fun st => itinOf s st.itin with
  | some st, some it =>
    let n := snapBytes st it
    let a := regionAddr s r
    match regionFault s r with
    | some x => snapFailed s h cmd x
    | none =>
      if areaBytes r < n then snapFailed s h cmd .noReservation
      else
        let area : Fin 2 := match newestSnap s r.tier a with | some x => (if x.area == 0 then 1 else 0) | none => 0
        let x : Snapshot :=
          { tier := r.tier, base := a, area := area, valid := false, auto := cmd.isNone, advances := st.advances, itinCrc := it.crc
            stream := h, homeId := s.fabric.id, seq := st.snapSeq + 1, snapSlot := st.lastAdvSlot, capture := now s
            params := BitVec.ofNat 192 (paramBits st), timeouts := st.timeouts, lengths := st.lengths
            pages := st.pages.map fun p => { p with layer := ordOf (attnLayers it) p.layer }, hist := st.hist.map fun x => (ordOf (rmLayers it) x.1, x.2)
            recurrent := st.recurrent.map fun x => ((ordOf (keptLayers it) x.1.1, x.1.2), x.2), bytes := n }
        let s1 := { s with snaps := s.snaps.filter fun y => !(y.tier == r.tier && y.base == a && y.area == area) }
        modStream s1 h fun t => { t with snapSeq := t.snapSeq + 1, snapping := some (x, cmd) }
  | _, _ => snapFailed s h cmd .internal

/-- A snapshot that waits for the frame in flight: nothing is captured yet. -/
def pendingSnap (s : State) (r : Region) : Snapshot :=
  { tier := r.tier, base := regionAddr s r, area := 0, valid := false, auto := false, advances := 0, itinCrc := 0, stream := 0, homeId := 0
    seq := 0, snapSlot := 0, capture := 0, params := 0, timeouts := #v[0, 0, 0], lengths := [], pages := [], hist := [], recurrent := [], bytes := 0 }

/-- Whether a snapshot still waits for its capture. -/
def waitsCapture (x : Snapshot) : Bool := x.bytes == 0

/-- The region that lies at a snapshot's place. -/
def regionAt (s : State) (x : Snapshot) : Option Region := s.mem.regions.find? fun r => r.tier == x.tier && regionAddr s r == x.base

/-- Make the capture that waited for the end of a frame, and the automatic snapshot that the frame's advance calls for, by the interval and
the region in force at the frame's release (R429). -/
def captureDue (s : State) (h : Nat) (advanced : Bool) (every region : Nat) : State :=
  match streamOf s h with
  | none => s
  | some st =>
    let auto := advanced && every != 0 && st.advances % every == 0
    match st.snapping with
    | some (x, cmd) =>
      let s1 := if auto then logDie s 0x0402 0xFF 1 (put 0 2 h + put 2 1 Status.busy.code) else s
      if !waitsCapture x then s1
      else match regionAt s1 x with
        | some r => captureNow s1 h cmd r
        | none => snapFailed s1 h cmd .badArgument
    | none =>
      if !auto then s
      else match regionOf s region with
        | some r => captureNow s h none r
        | none => snapFailed s h none .badArgument

/-- STREAM_SNAPSHOT (R605, R606). -/
def execStreamSnapshot (m : MailCmd) (s : State) : Res' :=
  .next <| onMail m 0x27 s fun s => onStream s m (arg m 8 2) (fun st => reserved m || !snapRegionOk s m (if arg m 10 2 == 0 then st.snapRegion else arg m 10 2)) fun st =>
    let rid := if arg m 10 2 == 0 then st.snapRegion else arg m 10 2
    if st.st != .running then complete s m .badCommand 0
    else if reserved m || !snapRegionOk s m rid then complete s m .badArgument 0
    else match namedRegion s m rid with
      | none => complete s m .badArgument 0
      | some r =>
        if st.snapping.isSome then complete s m .busy 0
        else if st.frame.isSome then modStream (hold s m) st.handle fun t => { t with snapping := some (pendingSnap s r, some m) }
        else captureNow (hold s m) st.handle (some m) r

/-- SNAPSHOT_COMPLETE (R313, R324, R757, R859, R861): the body, the sealed pages, then the header with VALID; or the write, or the read of a
sealed page, was late, bad or cut off by the loss of a die, which ends the snapshot and leaves the other area's in use. -/
def execSnapshotComplete (h : SnapEnd) (s : State) : Res' :=
  let result := h.result
  let h := h.h
  .next <|
    match (streamOf s h).bind (·.snapping) with
    | none => s
    | some (x, cmd) =>
      if waitsCapture x then s
      else match regionAt s x with
        | none => snapFailed s h cmd .badArgument
        | some r => match (regionFault s r).or (endStatus result) with
          | some st => snapFailed s h cmd st
          | none =>
            let s1 := modStream (chargeMove { s with snaps := s.snaps ++ [{ x with valid := true }] } h 1 x.tier x.bytes) h fun t => { t with snapping := none }
            match cmd with
            | some m => complete s1 m .ok (put 8 8 x.snapSlot + put 16 8 x.bytes + put 24 8 x.capture)
            | none => s1

/-! ## Resume (R608, R853 to R856, R860) -/

/-- A page restored from a snapshot: a tail page in T1, a sealed page where the itinerary homes them. -/
def restorePage (s : State) (h : Nat) (it : Itin) (st : Stream) (pages : List KvPage) (p : KvPage) : List KvPage :=
  let t := if p.isSealed && decide (2 ≤ it.img.kvTier) then it.img.kvTier else 1
  let used := { s with streams := s.streams.map fun x => if x.handle == h then { x with pages := pages } else x }
  let d := match (layerAt it p.layer).bind (·.body.attn) with | some a => a.headDim | none => 0
  let a := if t == 3 then (placeInLoans used h (pageBytes st.pageLog2 st.kvFmt d)).getD 0 else 0
  pages ++ [{ p with home := if t == 3 then gid a else s.fabric.id, tier := t, addr := a, damaged := false, lostHome := false }]

/-- The state a snapshot holds, put into a stream; what it does not hold starts afresh. -/
def restore (s : State) (it : Itin) (x : Snapshot) (st : Stream) : Stream :=
  { st with
    lengths := x.lengths
    pages := (x.pages.map fun p => { p with layer := nth (attnLayers it) p.layer 0 }).foldl (restorePage s st.handle it st) []
    hist := x.hist.map fun y => (nth (rmLayers it) y.1 0, y.2), recurrent := x.recurrent.map fun y => ((nth (keptLayers it) y.1.1 0, y.1.2), y.2)
    stats := [], rowRecords := [], rowsBad := none, gradients := [], kept := none, snapSeq := x.seq, lastAdvSlot := x.snapSlot }

/-- STREAM_RESUME's effect once its region has been read; a command that waited for capacity comes here again. -/
def resumeStream (s : State) (m : MailCmd) : State :=
  match namedItin s m (arg m 8 2), namedRegion s m (arg m 10 2) with
  | some it, some r =>
    match newestSnap s r.tier (regionAddr s r) with
    | none => giveUp s m .badArgument
    | some x =>
      let p := { openArgs (put 8 2 it.handle + x.params.toNat <<< 80) with }
      if x.itinCrc != it.crc then giveUp s m .badArgument
      else if p.backward && attnFallback it then giveUp s m .absentUnit
      else admitStream s m it p fun t st =>
        let t1 := modStream t st.handle fun y => { restore t it x y with timeouts := x.timeouts }
        complete t1 m .ok (put 8 2 st.handle + put 16 8 x.snapSlot)
  | _, _ => giveUp s m .badArgument

/-- STREAM_RESUME. -/
def execStreamResume (m : MailCmd) (read : ReadEnd) (s : State) : Res' :=
  .next <| onMail m 0x28 s fun s =>
    match namedItin s m (arg m 8 2), namedRegion s m (arg m 10 2) with
    | some _, some r =>
      if reserved m || r.tier == 4 then complete s m .badArgument 0
      else if !discovered s then complete s m .notReady 0
      else match regionFault s r with
        | some st => complete s m st 0
        | none => match readStatus s (regionAddr s r) r.bytes read with
          | some st => complete s m st 0
          | none => resumeStream s m
    | _, _ => complete s m .badArgument 0

/-! ## Loss of a stream (R847 to R863) -/

/-- The completion of a frame or feed with the fault layout (Table 10-10). -/
def faultResult (slot flags debt run tier kind : Nat) (info : W64) : Nat :=
  put 8 6 slot + put 14 1 (flags + 16) + put 15 1 (tier + kind * 8) + put 16 4 (satTo 32 debt) + put 20 4 (satTo 32 run) + put 24 8 info.toNat

/-- Complete a feed: on its command, or unsolicited for a port's block (R541). -/
def completeFeed (s : State) (st : Stream) (f : Feed) (code result : Nat) : State :=
  match f.cmd with
  | some m => completeCode s m code result
  | none => { s with host := { s.host with outbox := s.host.outbox ++ [⟨st.ch.castSucc, cmpEntry st.handle code 0x24 2 result, true⟩] } }

/-- A frame's flags (Table 10-10). -/
def frameFlags (st : Stream) (fr : Frame) : Nat := b2n fr.lean + b2n fr.boost * 2 + b2n fr.replayed * 4 + b2n st.demoted * 8

/-- End the frame in flight of a lost or resuming stream with a status, and take it off the engines. -/
def cutFrame (s : State) (h : Nat) (st : Status) (tier kind : Nat) (info : W64) : State :=
  let s1 := endFrame s h st tier kind info
  match streamOf s1 h with
  | none => s1
  | some t => match t.frame with
    | none => s1
    | some fr =>
      let f := fr.fault.getD (st.code, tier, kind, info)
      let s2 := modStream s1 h fun x => { x with frame := none, finished := x.finished + 1, prevRelease := fr.release, minRelease := now s1 }
      completeFeed s2 t fr.feed f.1 (faultResult fr.slot (frameFlags t fr) (fr.release - fr.slot) (elapsed s1 fr.release) f.2.1 f.2.2.1 f.2.2.2)

/-- A stream is lost (R852): STREAM_LOST, then the frame in flight, then the accepted feeds and the commands that wait on it. -/
def loseStream (s : State) (h cause : Nat) (die : FabId) (st : Status) (tier kind : Nat) (info : W64) : State :=
  match streamOf s h with
  | none => s
  | some t =>
    if t.st == .lost then s
    else
      let n := t.feeds.length + b2n t.frame.isSome + b2n t.drainCmd.isSome + b2n ((t.snapping.bind (·.2)).isSome)
      let s1 := postEvent s 0x40 (put 16 2 h + put 18 1 cause + put 20 2 die.toNat + put 22 2 n + put 24 8 t.lastAdvSlot)
      let s2 := cutFrame s1 h st tier kind info
      let s3 := t.feeds.foldl (fun x f => completeFeed x t f Status.streamLost.code (faultResult f.slot (b2n t.demoted * 8) 0 0 7 0 0)) s2
      let s4 := t.drainCmd.toList.foldl (fun x m => complete x m .streamLost 0) s3
      let s5 := (t.snapping.bind (·.2)).toList.foldl (fun x m => complete x m .streamLost 0) s4
      returnBoost (modStream s5 h fun x => { x with
        st := .lost, feeds := [], nextRelease := none, drainCmd := none, snapping := none, catchup := false, active := [], used := [], lostDie := die })
        (t.active.contains .boost)

/-- The dies of a stream after a loss: the lost die is replaced by the first live spare that has the units the itinerary needs there, or a
fallback for them and did not rejoin after the load (R16, R925), and on which admission passes, which is for that die to say and so a free value here (R850). -/
def remapDie (s : State) (it : Itin) (st : Stream) (d : FabId) : State × Option (List FabId) :=
  let r := (it.img.spares.filter fun x => !st.dies.contains x && !s.fabric.lost.contains x && !it.barred.contains x && x != d).foldl
    (fun (a : State × Option FabId) x =>
      if a.2.isSome then a
      else
        let f := if x == s.fabric.id then (fitHere a.1 it.img, a.1) else fitThere a.1 it.img x
        let v := takeFree f.2
        (v.2, if v.1 % 2 == 0 && (match f.1 with | .lacks _ => false | _ => true) then some x else none)) (s, none)
  (r.1, r.2.map fun x => st.dies.map fun y => if y == d then x else y)

/-- A stream meets the loss of a die it has writable homes on: it resumes where R849 holds, else it is lost. -/
def streamDieLost (s : State) (h : Nat) (d : FabId) : State :=
  match streamOf s h, (streamOf s h).bind fun st => itinOf s st.itin with
  | some st, some it =>
    if st.st == .lost || !st.dies.contains d then s
    else
      let info : W64 := BitVec.ofNat 64 (match s.mem.moves.find? fun m => m.purpose == .frame h && gid m.src == d with
        | some m => m.src
        | none => d.toNat * 2 ^ 48)
      let snap := (regionOf s st.snapRegion).filter (fun r => (regionFault s r).isNone) |>.bind fun r => newestSnap s r.tier (regionAddr s r)
      let r := remapDie s it st d
      match (if st.snapEvery != 0 && st.started then snap else none), r.2 with
      | some _, some dies =>
        let s1 := cutFrame r.1 h .neighbourLost 3 1 info
        let s2 := (st.snapping.bind (·.2)).toList.foldl (fun x m => complete x m .neighbourLost 0) s1
        returnBoost (modStream s2 h fun x => { x with
          st := .resuming, dies := dies, lostDie := d, snapping := none, nextRelease := none, catchup := false, active := [], used := [] })
          (st.active.contains .boost)
      | _, _ => loseStream r.1 h 1 d .neighbourLost 3 1 info
  | _, _ => s

/-- RESUME_COMPLETE (R853 to R856, R468, R514): the snapshot has been read, or its read failed and the stream is lost. -/
def execResumeComplete (h : Nat) (read : ReadEnd) (s : State) : Res' :=
  .next <|
    match streamOf s h, (streamOf s h).bind fun st => itinOf s st.itin with
    | some st, some it =>
      if st.st != .resuming then s
      else
        let r := (regionOf s st.snapRegion).filter fun r => (regionFault s r).isNone && (readStatus s (regionAddr s r) r.bytes read).isNone
        match r.bind fun r => newestSnap s r.tier (regionAddr s r) with
        | none => loseStream s h 1 st.lostDie .neighbourLost 3 0 0
        | some x =>
          let s1 := if audioBound s h then startGrid s h (now s) else s
          let n0 := match gridOf s1 h with | some (p, b) => blockSlot (s1.audio.get p) b 0 | none => now s + 1024
          let s2 := modStream s1 h fun y => { restore s1 it x y with
            st := if y.drainCmd.isSome then .draining else .running, n0 := n0, debt := 0, prevSlot := none, prevRelease := 0, minRelease := 0
            maxDebt := 0, cuFrames := 0, advances := x.advances }
          let s3 := match streamOf s2 h with
            | some y => let a := assignAll s2 y; modStream s2 h fun z => { z with feeds := a.1, prevSlot := a.2 }
            | none => s2
          let s4 := postEvent s3 0x41 (put 16 2 h + put 18 2 s.fabric.id.toNat + put 20 8 x.snapSlot + put 28 8 n0 + put 36 4 (st.advances - x.advances))
          drainCheck (tryFix s4 h) h
    | _, _ => s

end Sys2Proof.Machine
end

