-- ==== Sys2Proof/Machine/Frames.lean ====
section
/-! DEFINITION. Frames: their release, empty slots, and their finish (07 R401 to R425, R446 to R467, 10 Table 10-10, R616 to R621). -/

namespace Sys2Proof.Machine

/-! ## Release (R228, R235, R401, R429, R447, R452, R456, R466, R467) -/

/-- Frame of a feed at its release. A backward frame takes the rows and the blocks of the last forward frame (R242). -/
def newFrame (s : State) (st : Stream) (it : Itin) (f : Feed) : Frame :=
  let lean := st.active.contains .lean && (sectionOf it).layers.any fun l => l.lean.isSome
  let k := if f.backward then st.kept else none
  let reset (slot : Nat) := !f.backward && f.seqs.any fun e => e.slot == slot && e.reset
  { slot := f.slot, release := now s, feed := match k with | some x => { f with seqs := x.seqs } | none => f
    segs := [], blocks := match k with | some x => x.blocks | none => [], partials := [], attnParts := [], staging := [], maxima := []
    lean := lean, boost := st.active.contains .boost, replayed := false, replayLat := 0, fault := none, deadline := st.deadline
    lengths := match k with | some x => x.lengths | none => st.lengths, pages := st.pages.filter fun p => !reset p.slot
    replaced := it.replaced, writes := [], started := [], lastCommit := now s, prio := st.prio, guar := isGuar st, quiet := st.quiet
    timeouts := st.timeouts, catchH := if st.catchup then some (catchGap st) else none, snapEvery := st.snapEvery, snapRegion := st.snapRegion
    cuOrder := st.cuOrder }

/-- Measures that CU_ORDER no longer names end at a release (R466). -/
def dropMeasures (s : State) (st : Stream) : State :=
  let keep := st.active.filter st.cuOrder.contains
  returnBoost (modStream s st.handle fun t => { t with active := keep }) (st.active.contains .boost && !keep.contains .boost)

/-- Release a stream's frame now; a backward frame whose row records were damaged ends at once (Table 14-3). -/
def releaseNow (s : State) (st0 : Stream) (it : Itin) (f : Feed) : State :=
  let h := st0.handle
  let s1 := dropMeasures s st0
  let s2 := if decide (8 * st0.period < st0.debt) && st0.catchup && decide (2 ≤ st0.cuFrames) then missEvent s1 st0 f.slot st0.debt true none else s1
  match streamOf s2 h with
  | none => s2
  | some st =>
    let fr0 := newFrame s2 st it f
    let fr := { fr0 with segs := frameSegs st it fr0 }
    let s3 := modStream s2 h fun t => { t with
      feeds := t.feeds.drop 1, nextRelease := none, frame := some fr
      rowRecords := if f.backward then t.rowRecords else [], kept := if f.backward then t.kept else none
      rowsBad := none, gradients := if f.backward then [] else t.gradients }
    match (if f.backward then st.rowsBad else none) with
    | some a => tierFault s3 h 1 a
    | none => if fr.segs.any (fun g => g.st != .committed) && (servingEngines s3).isEmpty then endFrame s3 h .internal 7 0 0 else s3

/-- FRAME_RELEASE: at the fixed release tick, or, where postponement held the frame, once it has ended; the release is then fixed
again (R467). A backward frame whose forward frame has left no records completes with BAD_ARGUMENT (R244). -/
def execFrameRelease (h : Nat) (s : State) : Res' :=
  .next <|
    match streamOf s h, (streamOf s h).bind fun st => itinOf s st.itin with
    | some st, some it =>
      match st.nextRelease, st.feeds with
      | some r, f :: _ =>
        if !ready s || st.frame.isSome || st.st == .lost || st.st == .resuming || !reached s r || postponed s st then s
        else if f.backward && st.kept.isNone then
          let s1 := modStream s h fun t => { t with feeds := t.feeds.drop 1, nextRelease := none, minRelease := now s }
          drainCheck (tryFix (completeFeed s1 st f Status.badArgument.code 0) h) h
        else
          let s1 := if r == now s then s
            else fixRelease (modStream s h fun t => { t with cuFrames := if t.debt == 0 then t.cuFrames else t.cuFrames - 1 }) h f.slot (now s)
          match streamOf s1 h with
          | some st1 => releaseNow s1 st1 it f
          | none => s1
      | _, _ => s
    | _, _ => s

/-- EMPTY_SLOT (R415): the next slot has passed and no feed has it. -/
def execEmptySlot (h : Nat) (s : State) : Res' :=
  .next <|
    match streamOf s h with
    | none => s
    | some st =>
      if !st.started || st.period == 0 || !st.feeds.isEmpty || st.st == .lost || st.st == .resuming || (bindOf s h true).isSome then s
      else
        let t := nextSlot s st st.prevSlot 0
        if !reached s (t + 1) then s else modStream s h fun x => { x with emptySlots := x.emptySlots + 1, prevSlot := some t }

/-! ## Outputs (R233, R616) -/

/-- Bytes of a block as the die writes them, with the global addresses SCALE_PTR and HOME, which the spec leaves to the die. -/
def tileBytes (kind : Nat) (fmt : Fmt) (rows cols : Nat) (ptr home : Nat) (body : List Byte) : List Byte :=
  let head := [BitVec.ofNat 8 (fmtCode fmt + 16 * kind), 0] ++ leBytes 2 rows ++ leBytes 2 cols ++ [0, 0] ++ leBytes 8 ptr ++ leBytes 8 home
    ++ leBytes 4 (crc32c body).toNat ++ leBytes 2 (body.length / 64) ++ [1]
  let b := head ++ [sumByte head] ++ body
  b ++ List.replicate (64 * cdiv b.length 64 - b.length) 0

/-- Bytes of an output block, its companion and its scale record; padding rows are returned as zero codes (R233). `layer` are the blocks of
its layer: the companion carries every channel of the layer's OUTLIER_LIST (R187). The three lie in this die's T1, where is a free
value, and name each other there (R975; log entry 77). -/
def blockOut (id : FabId) (b : Block) (layer : List Block) (pads : List Nat) (n : Nat) : List Byte :=
  let zero (r : Nat) (l : List Nat) := if pads.contains r then l.map fun _ => 0 else l
  let codes := (b.codes.mapIdx zero).flatMap (packRow (fmtWidth b.fmt))
  let outs := total (layer.map (·.outs.length))
  let comp := ((List.range b.rows).map fun r => zero r ((layer.flatMap fun x => nth x.comp r []).map (·.toNat))).flatMap (packRow 16)
  let recs := (List.range b.rows).flatMap fun v => leBytes 4 (nth b.aScale v 0).toNat ++ leBytes 2 (nth b.zp v 0) ++ [0, 0]
  let at_ (i : Nat) := id.toNat * 2 ^ 48 + 64 * (Config.freeNat (n + i) % (t1Size / 64))
  tileBytes 1 b.fmt b.rows b.cols (at_ 2) (at_ 0) codes
  ++ (if b.outs.isEmpty then [] else tileBytes 1 .fp16 b.rows outs 0 (at_ 1) comp)
  ++ tileBytes 3 .int2 b.rows 0 0 (at_ 2) (recs ++ List.replicate (64 * cdiv recs.length 64 - recs.length) 0)

/-- Rows of the frame that are padding, where its itinerary has attention layers. -/
def padRows (st : Stream) (it : Itin) (fr : Frame) : List Nat :=
  if !hasAttnLayers it then [] else
    ((rowsOf st.ragged true fr.lengths fr.feed.seqs).mapIdx fun i q => (i, q.pos.isNone)).filterMap fun x => if x.2 then some x.1 else none

/-- Output blocks of a frame in the order the itinerary lists them, each with the blocks of its layer. -/
def outBlocks (it : Itin) (fr : Frame) : List (Block × List Block) :=
  it.img.outputs.flatMap fun l => match layerAt it l with
    | some ly =>
      let bs := (List.range (tileCount ly (bodyOf ly fr.lean))).filterMap fun t => fr.blocks.lookup (l, t)
      bs.map fun b => (b, bs)
    | none => []

/-- Write a frame's outputs to OUT_BUF before its completion (R616); while the PCIe link is down nothing is written. -/
def writeOutputs (s : State) (st : Stream) (it : Itin) (fr : Frame) : State :=
  let bs := outBlocks it fr
  if fr.feed.cmd.isNone || bs.isEmpty || !s.host.linkUp then s
  else
    let pads := padRows st it fr
    let bytes := (bs.mapIdx fun i b => blockOut s.fabric.id b.1 b.2 pads (s.free + 3 * i)).flatten
    emit (chargeMove { s with free := s.free + 3 * bs.length } st.handle 1 4 bytes.length) (.hostWrite fr.feed.outBuf bytes)

/-! ## Finish (R179, R182, R183, R229, R235, R248, R249, R255, R410, R417, R418, R436, R446 to R451, R463, R464) -/

/-- What a frame that completes in the success range leaves to its stream. -/
def advanceStream (it : Itin) (fr : Frame) (st : Stream) : Stream :=
  if fr.feed.backward then { st with advances := st.advances + 1, lastAdvSlot := fr.slot }
  else
    let ended (slot : Nat) := fr.feed.seqs.any fun e => e.slot == slot && e.fin
    let lengths := st.lengths.mapIdx fun i n => match fr.feed.seqs.find? fun e => e.slot == i with
      | some e => if e.fin then 0 else baseLen fr.lengths e + e.new
      | none => n
    let keep (l : Nat) : Nat := match layerAt it l with | some ly => maxOf 1 (([ly.body] ++ ly.lean.toList).map fun b => (desc b.desc).rmN) | none => 1
    let hist := fr.steps.foldl (fun (a : List (Nat × List F32)) p => assocSet p.1 (lastN (keep p.1) ((a.lookup p.1).getD [] ++ [p.2])) a) st.hist
    let rec_ := fr.blocks.foldl (fun (a : List ((Nat × Nat) × Block)) p =>
      match layerAt it p.1.1 with | some ly => if ly.stateful then assocSet p.1 p.2 a else a | none => a) st.recurrent
    { st with
      lengths := lengths, pages := fr.pages.filter fun p => !ended p.slot, hist := hist, recurrent := rec_
      advances := st.advances + 1, lastAdvSlot := fr.slot
      kept := if st.backward then some ⟨fr.feed.seqs, fr.lengths, fr.blocks, fr.feed.inputs⟩ else none }

/-- Change an itinerary. -/
def modItin (s : State) (h : Nat) (f : Itin → Itin) : State := { s with itins := s.itins.map fun x => if x.handle == h then f x else x }

/-- A tile or record written on device takes a home of its own in T1, where there is room; the home that an earlier write gave it is released
(R278; log entry 149). -/
def homeWrite (s : State) (it : Itin) (w : Nat × List Byte) : State :=
  let o : Owner := .itin it.handle
  match takeNeed s o it.tenant ⟨1, none, granules w.2.length, true, false⟩ with
  | none => s
  | some t => match t.mem.reserved.getLast?.bind (·.base) with
    | none => s
    | some b =>
      let old := if it.replaced.any (·.1 == w.1) then it.homes.lookup w.1 else none
      let t1 := modMem t fun m => { m with reserved := m.reserved.filter fun r => !(r.owner == o && r.tier == 1 && old.isSome && r.base.map (gaddr t) == old) }
      modItin t1 it.handle fun x => { x with homes := assocSet w.1 (gaddr t b) x.homes }

/-- Weights written on device take effect after the frame that wrote them (R177, R278): the itinerary's references switch to the new tiles and
records in T1. -/
def applyWrites (s : State) (it : Itin) (fr : Frame) : State :=
  if fr.writes.isEmpty then s
  else
    let s1 := fr.writes.foldl (fun t w => homeWrite t it w) s
    let s2 := modItin s1 it.handle fun x => { x with replaced := fr.writes.foldl (fun a p => assocSet p.1 p.2 a) x.replaced }
    let s3 := modMem s2 fun m => { m with
      damagedItems := m.damagedItems.filter fun d => !(d.1 == it.handle && fr.writes.any (·.1 == d.2))
      staged := m.staged.filter fun c => !(c.itin == it.handle && (fr.writes.any (·.1 == c.item)) && (match itinOf s2 it.handle with | some x => tierOf s2 (homeOf x c.item) == 1 | none => true)) }
    match itinOf s3 it.handle with
    | none => s3
    | some x => fr.writes.foldl (fun t w => match x.homes.lookup w.1 with
      | some a => if tierOf t a == 1 || tierOf t a == 2 then modMem t fun m => { m with cells := writeBytes m.cells (glocal a) (homedBytes x.homes w.1 w.2) } else t
      | none => t) s3

/-- A finished frame's output block, or its fault, goes to the port it plays on (R493, R513). -/
def audioResult (s : State) (st : Stream) (it : Itin) (fr : Frame) : State :=
  match bindOf s st.handle false with
  | none => s
  | some (p, b) =>
    let k := firstBlock (s.audio.get p) b fr.slot none
    match fr.fault, it.img.portOut.bind fun l => fr.blocks.lookup (l, 0) with
    | none, some blk => modBind s p st.handle false fun b => { b with outs := b.outs ++ [(k, blk, blk.commit)] }
    | _, _ => modBind s p st.handle false fun b => { b with fault := b.fault ++ [k] }

/-- The status of a finished frame (R417, R463). -/
def frameStatus (fr : Frame) : Nat :=
  match fr.fault with
  | some (c, _, _, _) => c
  | none => if fr.deadline != 0 && decide (fr.slot + fr.deadline < fr.lastCommit) then Status.okLate.code
      else if fr.replayed then Status.okReplayed.code else Status.ok.code

/-- RESULT of a frame's completion (Table 10-10, R617 to R621). -/
def frameResult (st : Stream) (fr : Frame) : Nat :=
  let run := fr.lastCommit - fr.release
  match fr.fault with
  | some (_, tier, kind, info) => faultResult fr.slot (frameFlags st fr) (fr.release - fr.slot) run tier kind info
  | none =>
    let ovr := if fr.deadline == 0 then 0 else fr.lastCommit - (fr.slot + fr.deadline)
    put 8 6 fr.slot + put 14 1 (frameFlags st fr) + put 16 4 (satTo 32 (fr.release - fr.slot)) + put 20 4 (satTo 32 run) + put 24 4 (satTo 32 ovr)
    + put 28 2 (satTo 16 fr.replayLat)

/-- The frame's completion; with QUIET, a frame that completes OK posts none (R418). -/
def completeFrame (s : State) (st : Stream) (fr : Frame) : State :=
  if fr.quiet && frameStatus fr == Status.ok.code then
    match fr.feed.cmd with
    | some m => { s with host := { s.host with running := dropFirst (sameCmd m) s.host.running } }
    | none => s
  else completeFeed s st fr.feed (frameStatus fr) (frameResult st fr)

/-- Every output of the frame has committed, or it has been ended. -/
def frameOver (fr : Frame) : Bool := fr.fault.isSome || fr.segs.all (·.st == .committed)

/-- FRAME_FINISH. -/
def execFrameFinish (h : Nat) (s : State) : Res' :=
  .next <|
    match streamOf s h, (streamOf s h).bind fun st => itinOf s st.itin with
    | some st, some it =>
      match st.frame with
      | none => s
      | some fr =>
        if !ready s || !frameOver fr then s
        else
          let good := fr.fault.isNone
          let late := fr.deadline != 0 && decide (fr.slot + fr.deadline < fr.lastCommit)
          let s1 := if good then writeOutputs (applyWrites s it fr) st it fr else s
          let s2 := modStream s1 h fun t =>
            let a := if good then advanceStream it fr t else t
            { a with
              frame := none, finished := t.finished + 1, late := t.late + b2n late, prevRelease := fr.release, minRelease := fr.lastCommit
              drainedFrames := t.drainedFrames + b2n (t.st == .draining), st := if t.period == 0 && t.st == .running then .drained else t.st }
          let s3 := audioResult s2 st it fr
          let s4 := captureDue s3 h good fr.snapEvery fr.snapRegion
          let slow := match fr.catchH with | some x => st.catchup && decide (x < fr.lastCommit - fr.release) | none => false
          let s5 := if slow then (activateBy s4 h fr.cuOrder).1 else s4
          drainCheck (completeFrame (tryFix s5 h) st fr) h
    | _, _ => s

end Sys2Proof.Machine
end

