-- ==== Sys2Proof/Machine/Serial.lean ====
section
/-! DEFINITION. Serial framing of the audio ports: FS, the BCLK periods of each slot, and the samples in them (08 R474 to R476, R496). -/

namespace Sys2Proof.Machine

/-- The BCLK periods from the FS edge to slot 0's MSB: one in I²S (R474), DATA_DELAY in TDM (R475). -/
def dataDelay (c : ApCfg) : Nat := if c.tdm then b2n c.dataDelay else 1

/-- The BCLK period, from the frame's FS edge, of bit `i` of slot `k`, the MSB being bit 0. -/
def bitPeriod (c : ApCfg) (k i : Nat) : Nat := k * c.slotW + i + dataDelay c

/-- The level of FS in a BCLK period: in I²S low for slot 0 and high for slot 1; in TDM a frame begins at the rising edge, and FS stays high
for one BCLK or for half the frame (Table 8-1). -/
def fsHigh (c : ApCfg) (i : Nat) : Bool :=
  if c.tdm then (if c.fsPulse then i == 0 else decide (2 * i < c.frameBits)) else decide (c.frameBits ≤ 2 * i)

/-- FS over a frame. -/
def fsLevels (c : ApCfg) : BitVec 512 := BitVec.ofNat 512 (total ((List.range c.frameBits).map fun i => b2n (fsHigh c i) <<< i))

/-- The sample in slot `k` of captured SDI levels: two's complement, MSB first, left-justified; what lies below the word is ignored (R476). -/
def slotSample (c : ApCfg) (sdi : BitVec 513) (k : Nat) : Int :=
  signed c.word (total ((List.range c.word).map fun i => b2n (sdi.getLsbD (bitPeriod c k i)) <<< (c.word - 1 - i)))

/-- The slot and the bit of it that a BCLK period carries; none beyond the slots (R475). -/
def periodSlot (c : ApCfg) (i : Nat) : Option (Nat × Nat) :=
  if i < dataDelay c then none
  else
    let j := i - dataDelay c
    if j < c.slots * c.slotW then some (j / max 1 c.slotW, j % max 1 c.slotW) else none

/-- What a port drives in one frame for a binding that plays `words` in `slots`. Bits below the word are 0 (R476). Slots of other bindings
are theirs; those that none owns, and periods beyond the slots, follow UNUSED_OUT (R496; log entry 152). -/
def serialFrame (c : ApCfg) (slots others : List Nat) (words : List Int) : SerialFrame :=
  let bit_ (i : Nat) : Bool × Bool :=
    match periodSlot c i with
    | some (k, b) =>
      (match slots.findIdx? (· == k) with
       | some n => (decide (b < c.word) && (BitVec.ofInt 32 (nth words n 0)).getLsbD (c.word - 1 - b), true)
       | none => (false, !others.contains k && !c.unusedHiZ))
    | none => (false, !c.unusedHiZ)
  let ps := (List.range c.frameBits).map (· + dataDelay c)
  { data := BitVec.ofNat 513 (total (ps.map fun i => b2n (bit_ i).1 <<< i)), drive := BitVec.ofNat 513 (total (ps.map fun i => b2n (bit_ i).2 <<< i))
    fs := if c.slave then none else some (fsLevels c) }

/-- Slots that a mask names, ascending. -/
def slotsOf (mask : BitVec 16) : List Nat := (List.range 16).filter fun i => mask.getLsbD i

end Sys2Proof.Machine
end

