-- ==== Sys2Proof/Machine/Audio.lean ====
section
/-! DEFINITION. The audio ports: AUDIO_CONFIG and AUDIO_BIND, input blocks, output blocks and fills, and slave clocks (08, 10
R635 to R638). -/

namespace Sys2Proof.Machine

/-! ## Settings and bindings (R477 to R479, R482, R486 to R488) -/

/-- Settings of AUDIO_CONFIG (Table 10-20). -/
def apArgs (m : MailCmd) : ApCfg :=
  let b := arg m 9 1
  let c := arg m 16 1
  { tdm := bit b 0, slave := bit b 1, rate := arg m 10 1, word := arg m 11 1, slotW := arg m 12 1, frameBits := arg m 14 2, slots := arg m 13 1
    fsPulse := !bit b 2, dataDelay := bit b 3, bclkEdge := bit b 4, unusedHiZ := bit b 5, mclk := bits c 0 2, slew := bits c 4 2 }

/-- MCLK_OUT as a multiple of fs. -/
def mclkTimes (c : ApCfg) : Nat := if c.mclk == 0 then 0 else 64 * 2 ^ c.mclk

/-- The settings are those of Table 8-1 and pass R477. -/
def apOk (c : ApCfg) : Bool :=
  let fs := rateHz c.rate
  let bclk := fs * c.frameBits
  decide (c.rate ≤ 5) && [16, 24, 32].contains c.word && [16, 32].contains c.slotW && [32, 64, 128, 256, 512].contains c.frameBits
  && (if c.tdm then decide (1 ≤ c.slots ∧ c.slots ≤ 16) else c.slots == 2)
  && decide (c.word ≤ c.slotW) && decide (c.slots * c.slotW ≤ c.frameBits) && (c.tdm || c.frameBits == 2 * c.slotW)
  && decide (bclk ≤ if c.rate % 2 == 1 then 24576000 else 22579200) && decide (mclkTimes c * fs ≤ 49152000)
  && !(c.slave && c.mclk != 0) && !(c.slew == 0 && ((!c.slave && decide (12288000 < bclk)) || decide (12288000 < mclkTimes c * fs)))

/-- Number of slots a mask names. -/
def popcount (v : BitVec 16) : Nat := total ((List.range 16).map fun i => b2n (v.getLsbD i))

/-- One binding passes R486 under a port's settings. -/
def bindFits (c : ApCfg) (st : Stream) (it : Itin) (b : Bind) : Bool :=
  let mask := if b.dirIn then b.inMask else b.outMask
  let fs := rateHz c.rate
  mask != 0 && decide (mask.toNat < 2 ^ c.slots) && st.period != 0 && st.period == framesFloor c.rate b.block
  && (!b.dirIn || (match it.img.portIn.bind fun i => it.img.inputs[i]? with
      | some d => d.rows == b.block && d.cols == popcount b.inMask && d.outliers.isEmpty
      | none => false))
  && (!b.dirOut || ((match it.img.portOut.bind fun l => layerAt it l with
      | some ly => ly.rows == b.block && ly.width == popcount b.outMask && (desc ly.body.desc).fmt != .fp32
      | none => false)
    && decide ((224 + st.deadline) * fs ≤ b.playSamples * 24576000) && decide (b.playSamples ≤ 4 * b.block)))

/-- A binding agrees with another of its stream: the same BLOCK, and on two ports both masters at one RATE. -/
def bindsAgree (p q : ApId) (cp cq : ApCfg) (a b : Bind) : Bool :=
  a.block == b.block && (p == q || (!cp.slave && !cq.slave && cp.rate == cq.rate))

/-- Bytes a binding reserves (R488). -/
def bindBytes (b : Bind) : Nat :=
  ((if b.dirIn then b.inDepth * popcount b.inMask else 0) + (if b.dirOut then 5 * popcount b.outMask else 0)) * b.block * 4

/-- The ports of this die. -/
def portHere (s : State) (p : Nat) : Bool := decide (p < apCount s.fuses.variant)

/-- A binding keeps to R486 under new settings of its port (R479). -/
def bindKeeps (s : State) (p : ApId) (c : ApCfg) (b : Bind) : Bool :=
  match streamOf s b.stream, (streamOf s b.stream).bind fun st => itinOf s st.itin with
  | some st, some it =>
    bindFits c st it b && (match bindOf s b.stream (!b.dirIn) with
      | some (q, x) => (match (if q == p then some c else (s.audio.get q).cfg) with | some cq => bindsAgree p q c cq b x | none => false)
      | none => true)
  | _, _ => true

/-- AUDIO_CONFIG (R477 to R480, R482, R484). -/
def execAudioConfig (m : MailCmd) (s : State) : Res' :=
  .next <| onMail m 0x71 s fun s =>
    let n := arg m 8 1
    let c := apArgs m
    if reserved m || decide (2 ≤ n) || !apOk c then complete s m .badArgument 0
    else if !portHere s n then complete s m .absentUnit 0
    else
      let p : ApId := ⟨n % 2, Nat.mod_lt _ (by decide)⟩
      let binds := (s.audio.get p).binds
      let live (b : Bind) := match streamOf s b.stream with | some st => st.st == .running || st.st == .draining || st.st == .resuming | none => false
      if binds.any live || !(binds.all (bindKeeps s p c)) then complete s m .busy 0
      else
        let anchor := if c.slave then 0 else 81920 * cdiv (now s + 1024) 81920
        complete (modAp s p fun a => { a with cfg := some c, anchor := anchor, clockValid := !c.slave, corr := [] }) m .ok (put 8 8 anchor + put 16 1 (b2n (!c.slave)))

/-- The bindings AUDIO_BIND asks for, one for each direction. -/
def bindArgs (m : MailCmd) : List Bind :=
  let d := arg m 11 1
  let base : Bind :=
    { stream := arg m 8 2, dirIn := false, dirOut := false, inMask := BitVec.ofNat 16 (arg m 12 2), outMask := BitVec.ofNat 16 (arg m 14 2)
      block := arg m 16 2, playSamples := arg m 18 2, fill := arg m 20 1, inDepth := if arg m 21 1 == 0 then 4 else arg m 21 1 }
  (if bit d 0 then [{ base with dirIn := true }] else []) ++ (if bit d 1 then [{ base with dirOut := true }] else [])

/-- Give back granules of a binding's reservation. -/
def shrink (s : State) (o : Owner) (n : Nat) : State :=
  modMem s fun x => { x with reserved := (x.reserved.foldl (fun (a : List Resv × Nat) r =>
    if r.owner != o then (a.1 ++ [r], a.2)
    else let k := min a.2 r.granules; (if r.granules ≤ k then a.1 else a.1 ++ [{ r with granules := r.granules - k }], a.2 - k)) ([], n)).1 }

/-- UNBIND (R636). -/
def unbind (s : State) (m : MailCmd) (st : Stream) : State :=
  let d := arg m 11 1
  let dirs := (if bit d 0 then [true] else []) ++ (if bit d 1 then [false] else [])
  if arg m 10 1 != 0 || arg m 12 10 != 0 || dirs.isEmpty || dirs.any (fun i => (bindOf s st.handle i).isNone) then complete s m .badArgument 0
  else
    complete (dirs.foldl (fun t i => match bindOf t st.handle i with
      | some (p, b) => modAp (shrink t (.bind p st.handle) b.granules) p fun a =>
          { a with binds := a.binds.filter fun x => !(x.stream == st.handle && x.dirIn == b.dirIn) }
      | none => t) s) m .ok 0

/-- Values of AUDIO_BIND outside Table 8-2. -/
def bindRangeBad (m : MailCmd) : Bool :=
  reserved m || decide (2 ≤ arg m 10 1) || bits (arg m 11 1) 0 2 == 0 || !([8, 16, 32, 64, 128, 256].contains (arg m 16 2))
  || decide (2 < arg m 20 1) || !(arg m 21 1 == 0 || decide (2 ≤ arg m 21 1 ∧ arg m 21 1 ≤ 16))

/-- R487: an output slot that another stream plays, or a fifth input binding. -/
def bindBusy (a : AudioPort) (h : Nat) (bs : List Bind) : Bool :=
  bs.any fun b =>
    if b.dirIn then decide (4 ≤ (a.binds.filter (·.dirIn)).length)
    else a.binds.any fun x => x.dirOut && x.stream != h && x.outMask &&& b.outMask != 0

/-- AUDIO_BIND's effect; a command that waited for capacity comes here again. -/
def bindStream (s : State) (m : MailCmd) (st : Stream) : State :=
  if bindRangeBad m then giveUp s m .badArgument
  else if !portHere s (arg m 10 1) then giveUp s m .absentUnit
  else
    let p : ApId := ⟨arg m 10 1 % 2, Nat.mod_lt _ (by decide)⟩
    let bs := bindArgs m
    match (s.audio.get p).cfg, itinOf s st.itin with
    | some c, some it =>
      let masks := BitVec.toNat (BitVec.ofNat 16 (arg m 12 2)) ||| arg m 14 2
      let agree := bs.all fun b => match bindOf s st.handle (!b.dirIn) with
        | some (q, x) => (match (s.audio.get q).cfg with | some cq => bindsAgree p q c cq b x | none => false)
        | none => true
      if !(bs.all (bindFits c st it)) || decide (2 ^ c.slots ≤ masks) || bs.any (fun b => (bindOf s st.handle b.dirIn).isSome) || !agree then
        giveUp s m .badArgument
      else
        let all := granules (total (bs.map bindBytes))
        let out := granules (total ((bs.filter (·.dirOut)).map bindBytes))
        let need : Need := ⟨1, none, all, true, false⟩
        if needsOverQuota s (mailTenant s m) [need] 0 then giveUp s m .quotaExceeded
        else if !withRecalls s (reqFor s m) [need] then giveUp s m .noReservation
        else if bindBusy (s.audio.get p) st.handle bs then giveUp s m .busy
        else acquire s m 0xFFFF none [need] fun t w =>
          let t1 := modMem t fun x => { x with reserved := x.reserved.map fun r => if r.owner == w then { r with owner := .bind p st.handle } else r }
          let mine := bs.map fun b => { b with
            granules := if b.dirOut then out else all - out
            fillCh := List.replicate (if b.dirOut then popcount b.outMask else 0) ⟨0, 0⟩ }
          let play := if bs.any (·.dirOut) then framesCeil c.rate (arg m 18 2) else 0
          complete (modAp t1 p fun a => { a with binds := a.binds ++ mine }) m .ok (put 8 4 all + put 12 4 play)
    | _, _ => giveUp s m .badArgument

/-- AUDIO_BIND. -/
def execAudioBind (m : MailCmd) (s : State) : Res' :=
  .next <| onMail m 0x70 s fun s => onStream s m (arg m 8 2) (fun _ => bindRangeBad m) fun st =>
    if st.st != .opened then complete s m .badCommand 0
    else if bit (arg m 11 1) 7 then (if reserved m then complete s m .badArgument 0 else unbind s m st)
    else bindStream s m st

/-! ## Input blocks (R490, R492, R501, R503, R505, R511) -/

/-- A sample word as FP32 (R492). -/
def sampleValue (word : Nat) (v : Int) : F32 := ofInt32 v (1 - (word : Int))

/-- The input block of captured sample frames: the slots of IN_MASK in ascending order. -/
def portBlock (c : ApCfg) (it : Itin) (b : Bind) (sdi : List (BitVec 513)) (t : Tick) : Block :=
  let d := desc it.img.portDesc
  let ys := (List.range b.block).map fun r => (slotsOf b.inMask).map fun i => sampleValue c.word (slotSample c (nth sdi r 0) i)
  let scale := outScale d []
  outBlock d scale 0 ys (ys.map (convertRow d scale 0)) t

/-- The inputs of a port-fed frame: the port's block in its place. -/
def portInputs (it : Itin) (blk : Block) : List Block :=
  it.img.inputs.mapIdx fun i d => if it.img.portIn == some i then blk else zeroBlock d.fmt d.rows d.cols 0

/-- AUDIO_BLOCK_END: block `nextIn` of an input binding has ended. -/
def execAudioBlockEnd (p : ApId) (h : Nat) (samples : Captured) (s0 : State) : Res' :=
  .next <|
    let a0 := s0.audio.get p
    match a0.cfg, a0.binds.find? (fun b => b.stream == h && b.dirIn), streamOf s0 h, (streamOf s0 h).bind fun st => itinOf s0 st.itin with
    | some c, some b, some st, some it =>
      let a := stamped a0 (b.j0.getD 0 + ((b.nextIn + 1) * b.block : Nat)) samples.stamp
      let e := blockEnd a b b.nextIn
      let s := modAp s0 p fun _ => a
      if !ready s || st.st != .running || b.j0.isNone || !reached s e then s0
      else
        let ovr := decide (b.inDepth ≤ (st.feeds.filter (·.inRing)).length)
        let lost := c.slave && !a.clockValid
        let blk := portBlock c it b (if ovr || lost then [] else samples.sdi) (now s)
        let f : Feed :=
          { cmd := none, accepted := now s, slot := e + 96, inputs := portInputs it blk, seqs := [], outBuf := 0, backward := false, inRing := !ovr }
        let count (i : Nat) (on : Bool) (v : Vector Nat 7) : Vector Nat 7 := vmapIdx (fun j x => if j == i && on then x + 1 else x) v
        let s1 := modBind s p h true fun b => { b with nextIn := b.nextIn + 1, captured := b.captured + 1, counts := count 5 ovr (count 4 (lost && !ovr) b.counts) }
        tryFix (modStream s1 h fun t => { t with feeds := t.feeds ++ [f], prevSlot := some f.slot }) h
    | _, _, _, _ => s0

/-! ## Output blocks and fills (R493 to R500, R506 to R510, R513, R514) -/

/-- R of XFADE. -/
def fadeLen (c : ApCfg) : Nat := (2 * rateHz c.rate + 500) / 1000

/-- f(n) of R506. -/
def fadeOut (r : Nat) (h : F32) (n : Nat) : F32 := if n < r then div32 (mul32 h (nat32 (r - n))) (nat32 r) else 0

/-- One fill sample of a channel. -/
def fillSample (policy r : Nat) (h : F32) (n : Nat) : F32 := if policy == 0 then 0 else if policy == 1 then h else fadeOut r h n

/-- One played sample under the crossfade of R506: `n0` fill samples in the run, `k` samples played since. -/
def crossSample (r : Nat) (h x : F32) (n0 k : Nat) : F32 :=
  if k < r then add32 (div32 (mul32 x (nat32 (k + 1))) (nat32 r)) (div32 (mul32 (fadeOut r h (n0 + k)) (nat32 (r - 1 - k))) (nat32 r)) else x

/-- The value of an output element (R494). -/
def outValue (b : Block) (r c : Nat) : F32 :=
  let code := nth (nth b.codes r []) c 0
  let v := match fmtFloat b.fmt with
    | some f => fv32 (decodeF f code)
    | none => ofInt32 (intCode b.fmt code - (if isZp b.fmt then ((nth b.zp r 0 : Nat) : Int) else 0)) 0
  mul32 (nth b.aScale r 0) v

/-- The word of a value, and whether it saturated; the word of a NaN is not given and so a free value. -/
def sampleWord (word : Nat) (free : Nat) (v : F32) : Int × Bool :=
  let top : Int := 2 ^ (word - 1)
  let x := val32 (mul32 v (ofInt32 1 (word - 1)))
  match x with
  | .nan => (signed word (Config.freeNat free), false)
  | .inf n => (if n then -top else top - 1, true)
  | _ => let k := rintFV x; if top ≤ k then (top - 1, true) else if k < -top then (-top, true) else (k, false)

/-- What the port puts out for a block: rows of values, channel by channel. -/
structure Played where
  rows : List (List F32)
  bind : Bind

/-- A fill block (R506, R507). -/
def fillBlock (c : ApCfg) (b : Bind) (reason slot : Nat) (t : Tick) : Played :=
  let fresh := b.fillRun == 0
  let ch := if fresh then b.fillCh.map fun x => { x with h := x.last } else b.fillCh
  let n := if fresh then 0 else b.fillSamples
  let rows := (List.range b.block).map fun i => ch.map fun x => fillSample b.fill (fadeLen c) x.h (n + i)
  let last := nth rows (b.block - 1) []
  ⟨rows, { b with
    fillRun := b.fillRun + 1, fillSamples := n + b.block, fade := 0, fillCh := ch.mapIdx fun i x => { x with last := nth last i 0 }
    fillSlot := if fresh then slot else b.fillSlot, fillReason := reason, fillPost := if fresh then t else b.fillPost
    counts := vmapIdx (fun j x => if j == reason then x + 1 else x) b.counts }⟩

/-- A played block: under XFADE the crossfade after a run goes on across blocks. -/
def playBlock (c : ApCfg) (b : Bind) (blk : Block) : Played :=
  let k0 := if b.fillRun != 0 then 0 else b.fade
  let n0 := if b.fill == 2 then b.fillSamples else 0
  let rows := (List.range b.block).map fun i => b.fillCh.mapIdx fun j x =>
    let v := outValue blk i j
    if n0 == 0 then v else crossSample (fadeLen c) x.h v n0 (k0 + i)
  let last := nth rows (b.block - 1) []
  let left := n0 != 0 && decide (k0 + b.block < fadeLen c)
  ⟨rows, { b with
    fillRun := 0, fade := if left then k0 + b.block else 0, fillSamples := if left then n0 else 0
    fillCh := b.fillCh.mapIdx fun i x => { x with last := nth last i 0 }, played := b.played + 1 }⟩

/-- Zero samples where a slot has no frame (R495). -/
def zeroPlay (b : Bind) : Played :=
  ⟨List.replicate b.block (b.fillCh.map fun _ => 0), { b with fillRun := 0, fillSamples := 0, fade := 0, fillCh := b.fillCh.map fun x => { x with last := 0 } }⟩

/-- The output block of block `k`'s frame, where one has committed: handed over at the frame's finish, or of the frame still in flight. -/
def outOf (st : Stream) (it : Itin) (b : Bind) (slot k : Nat) : Option (Block × Tick) :=
  match b.outs.find? fun x => x.1 == k with
  | some x => some x.2
  | none => match st.frame with
    | some fr => if fr.slot == slot && fr.fault.isNone then (it.img.portOut.bind fun l => fr.blocks.lookup (l, 0)).map fun x => (x, x.commit) else none
    | none => none

/-- A frame stands for a slot. -/
def hasFrame (st : Stream) (b : Bind) (slot k : Nat) : Bool :=
  b.outs.any (fun x => x.1 == k) || b.fault.contains k || (match st.frame with | some fr => fr.slot == slot | none => false) || st.feeds.any (·.slot == slot)

/-- What plays at play start `t` of block `k`, and whether it is a fill. -/
def playOf (s : State) (c : ApCfg) (a : AudioPort) (b : Bind) (st : Stream) (it : Itin) (k t : Nat) (readBad : Bool) : Played × Bool :=
  let slot := blockSlot a b k
  let fill (r : Nat) := (fillBlock c b r slot (now s), true)
  if st.st == .lost || st.st == .resuming then fill 2
  else if c.slave && !a.clockValid then fill 3
  else if !hasFrame st b slot k then (zeroPlay b, false)
  else match outOf st it b slot k with
    | some (blk, commit) => if t < commit + 128 then fill 0 else if readBad then fill 1 else (playBlock c b blk, false)
    | none => if b.fault.contains k || (match st.frame with | some fr => fr.slot == slot && fr.fault.isSome | none => false) then fill 1 else fill 0

/-- AUDIO_FILL (Table 10-21). -/
def fillEvent (s : State) (p : ApId) (b : Bind) : State :=
  postEvent s 0x12 (put 16 1 p.1 + put 17 1 b.fillReason + put 18 2 b.stream + put 20 8 b.fillSlot + put 28 4 b.fillRun)

/-- AUDIO_PLAY_START: the play start of block `nextOut` of an output binding. -/
def execAudioPlayStart (p : ApId) (h : Nat) (readBad : PlayStart) (s0 : State) : Res' :=
  .next <|
    let a0 := s0.audio.get p
    match a0.cfg, a0.binds.find? (fun b => b.stream == h && b.dirOut), streamOf s0 h, (streamOf s0 h).bind fun st => itinOf s0 st.itin with
    | some c, some b, some st, some it =>
      let k := b.nextOut
      let j := b.j0.getD 0 + ((k + 1) * b.block + b.playSamples : Nat)
      let a := stamped a0 j readBad.stamp
      let t := (frameStart a j).toNat
      let s := modAp s0 p fun _ => a
      if !ready s || b.j0.isNone || !reached s t then s0
      else
        let x := playOf s c a b st it k t readBad.bad
        let ws := x.1.rows.mapIdx fun i r => r.mapIdx fun j v => sampleWord c.word (s.free + i * 16 + j) v
        let b1 := { x.1.bind with
          nextOut := k + 1, outs := b.outs.filter (fun y => decide (k < y.1)), fault := b.fault.filter fun y => decide (k < y)
          sat := b.sat + total (ws.map fun r => (r.filter (·.2)).length) }
        let s1 := modBind { s with free := s.free + 16 * b.block } p h false fun _ => b1
        let others := (a.binds.filter fun y => y.dirOut && y.stream != h).flatMap fun y => slotsOf y.outMask
        let s2 := if c.slave && !a.clockValid then s1 else emit s1 (.audio p (ws.map fun r => serialFrame c (slotsOf b.outMask) others (r.map (·.1))))
        if x.2 && b.fillRun == 0 then fillEvent s2 p b1 else s2
    | _, _, _, _ => s0

/-- AUDIO_FILL_REPOST (R510). -/
def execAudioFillRepost (p : ApId) (h : Nat) (s : State) : Res' :=
  .next <|
    match (s.audio.get p).binds.find? fun b => b.stream == h && b.dirOut with
    | none => s
    | some b =>
      if !ready s || b.fillRun == 0 || !passed s b.fillPost 24576 then s
      else fillEvent (modBind s p h false fun b => { b with fillPost := now s }) p b

/-! ## Slave clocks (R484, R485, R511, R512) -/

/-- A frame period in 1/64 tick is within 1,000 ppm of T_f (R485). -/
def periodOk (c : ApCfg) (period : Nat) : Bool :=
  let t : Int := 64 * 24576000
  decide (((period * rateHz c.rate : Nat) : Int) - t ≤ t / 1000) && decide (t - ((period * rateHz c.rate : Nat) : Int) ≤ t / 1000)

/-- SLAVE_CLOCK_VALID: the external clock is valid from the frame start given in 1/64 tick; running bindings re-anchor, their next
block ending BLOCK frames after it. -/
def execSlaveClockValid (p : ApId) (start period : Nat) (s : State) : Res' :=
  .next <|
    let a := s.audio.get p
    match a.cfg with
    | none => s
    | some c =>
      if !c.slave || a.clockValid || !periodOk c period then s
      else modAp s p fun a =>
        { a with
          clockValid := true, anchor := cdiv start 64, lastFrame64 := start, lastJ := 0, period64 := period
          binds := a.binds.map fun b => match b.j0 with
            | none => b
            | some _ =>
              let k := if b.dirIn then b.nextIn else match a.binds.find? fun x => x.stream == b.stream && x.dirIn with
                | some x => x.nextIn
                | none => firstBlock a b (now s + 96) none
              { b with j0 := some (-((k * b.block : Nat) : Int)) } }

/-- SLAVE_CLOCK_LOST: no FS edge for 4 frame periods, or the average left the tolerance; the grid goes on from the last period. -/
def execSlaveClockLost (p : ApId) (s : State) : Res' :=
  .next <|
    match (s.audio.get p).cfg with
    | some c => if c.slave && (s.audio.get p).clockValid then modAp s p fun a => { a with clockValid := false } else s
    | none => s

end Sys2Proof.Machine
end

