-- ==== Sys2Proof/Machine/Crypto.lean ====
section
/-! DEFINITION. SHA-384, HMAC-SHA-384 and ECDSA over P-384, which image verification (14 R871) and the side band's
authentication (13 R812) name. Words are natural numbers below 2^64. -/

namespace Sys2Proof.Machine

/-- Reduce to a 64-bit word. -/
def w64 (n : Nat) : Nat := n % 2 ^ 64

/-- Rotate a 64-bit word right. -/
def rotr (n x : Nat) : Nat := (x >>> n) ||| w64 (x <<< (64 - n))

/-- The round constants of SHA-384. -/
def shaK : List Nat :=
  [0x428A2F98D728AE22, 0x7137449123EF65CD, 0xB5C0FBCFEC4D3B2F, 0xE9B5DBA58189DBBC] ++
  [0x3956C25BF348B538, 0x59F111F1B605D019, 0x923F82A4AF194F9B, 0xAB1C5ED5DA6D8118] ++
  [0xD807AA98A3030242, 0x12835B0145706FBE, 0x243185BE4EE4B28C, 0x550C7DC3D5FFB4E2] ++
  [0x72BE5D74F27B896F, 0x80DEB1FE3B1696B1, 0x9BDC06A725C71235, 0xC19BF174CF692694] ++
  [0xE49B69C19EF14AD2, 0xEFBE4786384F25E3, 0x0FC19DC68B8CD5B5, 0x240CA1CC77AC9C65] ++
  [0x2DE92C6F592B0275, 0x4A7484AA6EA6E483, 0x5CB0A9DCBD41FBD4, 0x76F988DA831153B5] ++
  [0x983E5152EE66DFAB, 0xA831C66D2DB43210, 0xB00327C898FB213F, 0xBF597FC7BEEF0EE4] ++
  [0xC6E00BF33DA88FC2, 0xD5A79147930AA725, 0x06CA6351E003826F, 0x142929670A0E6E70] ++
  [0x27B70A8546D22FFC, 0x2E1B21385C26C926, 0x4D2C6DFC5AC42AED, 0x53380D139D95B3DF] ++
  [0x650A73548BAF63DE, 0x766A0ABB3C77B2A8, 0x81C2C92E47EDAEE6, 0x92722C851482353B] ++
  [0xA2BFE8A14CF10364, 0xA81A664BBC423001, 0xC24B8B70D0F89791, 0xC76C51A30654BE30] ++
  [0xD192E819D6EF5218, 0xD69906245565A910, 0xF40E35855771202A, 0x106AA07032BBD1B8] ++
  [0x19A4C116B8D2D0C8, 0x1E376C085141AB53, 0x2748774CDF8EEB99, 0x34B0BCB5E19B48A8] ++
  [0x391C0CB3C5C95A63, 0x4ED8AA4AE3418ACB, 0x5B9CCA4F7763E373, 0x682E6FF3D6B2B8A3] ++
  [0x748F82EE5DEFB2FC, 0x78A5636F43172F60, 0x84C87814A1F0AB72, 0x8CC702081A6439EC] ++
  [0x90BEFFFA23631E28, 0xA4506CEBDE82BDE9, 0xBEF9A3F7B2C67915, 0xC67178F2E372532B] ++
  [0xCA273ECEEA26619C, 0xD186B8C721C0C207, 0xEADA7DD6CDE0EB1E, 0xF57D4F7FEE6ED178] ++
  [0x06F067AA72176FBA, 0x0A637DC5A2C898A6, 0x113F9804BEF90DAE, 0x1B710B35131C471B] ++
  [0x28DB77F523047D84, 0x32CAAB7B40C72493, 0x3C9EBE0A15C9BEBC, 0x431D67C49C100D4C] ++
  [0x4CC5D4BECB3E42B6, 0x597F299CFC657E2A, 0x5FCB6FAB3AD6FAEC, 0x6C44198C4A475817]

/-- The initial hash value of SHA-384. -/
def shaInit : List Nat := [0xCBBB9D5DC1059ED8, 0x629A292A367CD507, 0x9159015A3070DD17, 0x152FECD8F70E5939,
  0x67332667FFC00B31, 0x8EB44A8768581511, 0xDB0C2E0D64F98FA7, 0x47B5481DBEFA4FA4]

/-- Bytes as one number, most significant first. -/
def beNat (l : List Byte) : Nat := l.foldl (fun a b => a * 256 + b.toNat) 0

/-- A number as `n` bytes, most significant first. -/
def beBytes (n v : Nat) : List Byte := (leBytes n v).reverse

/-- The message schedule, extended by `k` words; `ws` holds the last words, newest first. -/
def shaSched : Nat → List Nat → List Nat
  | 0, ws => ws
  | k + 1, ws =>
    let x := nth ws 1 0
    let y := nth ws 14 0
    let s1 := rotr 19 x ^^^ rotr 61 x ^^^ (x >>> 6)
    let s0 := rotr 1 y ^^^ rotr 8 y ^^^ (y >>> 7)
    shaSched k (w64 (s1 + nth ws 6 0 + s0 + nth ws 15 0) :: ws)

/-- One round on the eight working words. -/
def shaRound (st : List Nat) (kw : Nat × Nat) : List Nat :=
  match st with
  | [a, b, c, d, e, f, g, h] =>
    let s1 := rotr 14 e ^^^ rotr 18 e ^^^ rotr 41 e
    let ch := (e &&& f) ^^^ ((2 ^ 64 - 1 - e) &&& g)
    let t1 := h + s1 + ch + kw.1 + kw.2
    let s0 := rotr 28 a ^^^ rotr 34 a ^^^ rotr 39 a
    let maj := (a &&& b) ^^^ (a &&& c) ^^^ (b &&& c)
    [w64 (t1 + s0 + maj), a, b, c, w64 (d + t1), e, f, g]
  | l => l

/-- One 128-byte block. -/
def shaBlock (hs : List Nat) (blk : List Byte) : List Nat :=
  let ws := (shaSched 64 ((List.range 16).map fun i => beNat (slice blk (8 * i) 8)).reverse).reverse
  (((shaK.zip ws).foldl shaRound hs).zip hs).map fun p => w64 (p.1 + p.2)

/-- The message with its padding. -/
def shaPad (m : List Byte) : List Byte :=
  let z := (128 - (m.length + 17) % 128) % 128
  m ++ (0x80 :: List.replicate z 0) ++ beBytes 16 (8 * m.length)

/-- The blocks of a padded message. -/
def shaBlocks (m : List Byte) : List (List Byte) := (List.range (m.length / 128)).map fun i => slice m (128 * i) 128

/-- SHA-384. -/
def sha384 (m : List Byte) : List Byte := (((shaBlocks (shaPad m)).foldl shaBlock shaInit).take 6).flatMap (beBytes 8)

/-- HMAC-SHA-384 with a 48-byte key. -/
def hmac384 (key m : List Byte) : List Byte :=
  let k := key ++ List.replicate (128 - key.length) 0
  sha384 (k.map (· ^^^ 0x5C) ++ sha384 (k.map (· ^^^ 0x36) ++ m))

/-! ## P-384 -/

/-- The field prime, the group order, and the curve's b. -/
def p384 : Nat := 2 ^ 384 - 2 ^ 128 - 2 ^ 96 + 2 ^ 32 - 1
def n384 : Nat := 0xFFFFFFFFFFFFFFFFFFFFFFFFFFFFFFFFFFFFFFFFFFFFFFFFC7634D81F4372DDF581A0DB248B0A77AECEC196ACCC52973
def b384 : Nat := 0xB3312FA7E23EE7E4988E056BE3F82D19181D9C6EFE8141120314088F5013875AC656398D8A2ED19D2A85C8EDD3EC2AEF

/-- The base point. -/
def g384 : Nat × Nat :=
  (0xAA87CA22BE8B05378EB1C71EF320AD746E1D3B628BA79B9859F741E082542A385502F25DBF55296C3A545E3872760AB7,
   0x3617DE4A96262C6F5D9E98BF9292DC29F8F41DBD289A147CE9DA3113B5F0B8C00A60B1CE1D7E819D7A431D7C90EA0E5F)

/-- b^e modulo m, from the low bits of e. -/
def powMod (m : Nat) : Nat → Nat → Nat → Nat → Nat
  | 0, _, _, acc => acc
  | k + 1, b, e, acc => powMod m k (b * b % m) (e / 2) (if e % 2 == 1 then acc * b % m else acc)

/-- Inverse modulo a prime below 2^384. -/
def invMod (m a : Nat) : Nat := powMod m 384 (a % m) (m - 2) 1

/-- Difference modulo p. -/
def subP (a b : Nat) : Nat := (a % p384 + p384 - b % p384) % p384

/-- A point in Jacobian coordinates; z = 0 is the neutral element. -/
structure JPoint where
  x : Nat
  y : Nat
  z : Nat
  deriving DecidableEq, Repr

/-- Twice a point (a = -3). -/
def jDouble (q : JPoint) : JPoint :=
  if q.z == 0 then q
  else
    let zz := q.z * q.z % p384
    let yy := q.y * q.y % p384
    let m := 3 * subP q.x zz * ((q.x + zz) % p384) % p384
    let s := 4 * q.x * yy % p384
    let x := subP (m * m) (2 * s)
    ⟨x, subP (m * subP s x) (8 * yy * yy), 2 * q.y * q.z % p384⟩

/-- The sum of two points. -/
def jAdd (a b : JPoint) : JPoint :=
  if a.z == 0 then b
  else if b.z == 0 then a
  else
    let za := a.z * a.z % p384
    let zb := b.z * b.z % p384
    let u1 := a.x * zb % p384
    let u2 := b.x * za % p384
    let s1 := a.y * zb * b.z % p384
    let s2 := b.y * za * a.z % p384
    if u1 == u2 then (if s1 == s2 then jDouble a else ⟨0, 1, 0⟩)
    else
      let h := subP u2 u1
      let r := subP s2 s1
      let hh := h * h % p384
      let hhh := hh * h % p384
      let v := u1 * hh % p384
      let x := subP (r * r) (hhh + 2 * v)
      ⟨x, subP (r * subP v x) (s1 * hhh), h * a.z % p384 * b.z % p384⟩

/-- k times a point, from the low bits of k. -/
def jMul : Nat → Nat → JPoint → JPoint → JPoint
  | 0, _, _, acc => acc
  | f + 1, k, q, acc => jMul f (k / 2) (jDouble q) (if k % 2 == 1 then jAdd acc q else acc)

/-- A point on the curve other than the neutral element. -/
def onCurve (q : Nat × Nat) : Bool :=
  decide (q.1 < p384) && decide (q.2 < p384) && q.2 * q.2 % p384 == (q.1 * q.1 % p384 * q.1 + 3 * (p384 - q.1) + b384) % p384

/-- ECDSA verification of a digest under a public key. -/
def ecdsaOk (key : Nat × Nat) (digest : List Byte) (r s : Nat) : Bool :=
  if r == 0 || s == 0 || decide (n384 ≤ r) || decide (n384 ≤ s) || !onCurve key then false
  else
    let w := invMod n384 s
    let u1 := beNat digest % n384 * w % n384
    let u2 := r * w % n384
    let q := jAdd (jMul 384 u1 ⟨g384.1, g384.2, 1⟩ ⟨0, 1, 0⟩) (jMul 384 u2 ⟨key.1, key.2, 1⟩ ⟨0, 1, 0⟩)
    if q.z == 0 then false
    else
      let zi := invMod p384 q.z
      q.x * zi % p384 * zi % p384 % n384 == r

end Sys2Proof.Machine
end

