-- ==== Sys2Proof/Machine/Host.lean ====
section
/-! DEFINITION. The host interface (09): command fetch, doorbells, channel enables, interrupts, BAR0 writes, the bootstrap
mailbox's simple commands, completions and their overflow log, and the resets of the host interface. -/

namespace Sys2Proof.Machine

/-! ## Opcodes -/

/-- The opcodes of Table 10-2. -/
def opcodes : List Nat :=
  [0x01, 0x02, 0x03, 0x04, 0x10, 0x11, 0x12, 0x13, 0x14, 0x20, 0x21, 0x22, 0x23, 0x24, 0x25, 0x26, 0x27, 0x28, 0x29,
   0x30, 0x31, 0x32, 0x33, 0x40, 0x41, 0x42, 0x50, 0x51, 0x52, 0x53, 0x60, 0x61, 0x62, 0x70, 0x71]

/-- The opcodes accepted on channel 0 only (Table 10-2). -/
def chan0Only : List Nat := [0x03, 0x12, 0x30, 0x32, 0x41, 0x42, 0x50, 0x51, 0x52, 0x53, 0x60, 0x71]

/-! ## Command fetch (R548 to R553, R560 to R562) -/

/-- Whether a command of the channel has been accepted and has not completed. -/
def outstandingOn (s : State) (ch : ChanId) : Bool := s.host.accepted.any (·.ch == ch) || s.host.running.any (·.ch == ch)

/-- The entry a channel has read and holds under FENCE (R561). -/
def fencedOf (s : State) (ch : ChanId) : Option (BitVec 512) := s.host.fenced.lookup ch

/-- Whether the die can take a command from a channel: it is ENABLED, and it holds a fenced entry whose wait is over or has
an entry to read. A feed whose inputs are not read yet keeps CMD_HEAD on its entry (R611). -/
def canServe (s : State) (ch : ChanId) : Bool :=
  let c := s.host.channels.get ch
  c.st == .enabled && !c.feedHead &&
    (match fencedOf s ch with
     | some _ => !outstandingOn s ch
     | none => c.cmdHead != c.cmdTail)

/-- The channel served next: channel 0 first, then ascending from the channel after the last one served (R562). -/
def nextChannel (s : State) : Option ChanId :=
  if canServe s 0 then some 0
  else
    let order := (List.range 15).map fun i => (s.host.lastServed + i) % 15 + 1
    ((order.map fun c => (⟨c % 16, Nat.mod_lt _ (by decide)⟩ : ChanId)).filter (canServe s)).head?

/-- Put a channel in ERROR and raise CH_ERROR (R544, R545, R552, R553). -/
def chanError (s : State) (ch : ChanId) (e : ChErr) : State :=
  raiseIrq (modChan s ch fun c => { c with st := .error, err := e }) causeChError

/-- Accept an entry: CMD_HEAD moves past it, except for a feed, and an opcode that is not listed or is not for this channel
completes with BAD_COMMAND (R543). -/
def acceptEntry (s : State) (ch : ChanId) (e : BitVec 512) : State :=
  let op := fld e 0 1
  let m : MailCmd := ⟨ch, e, false⟩
  let bad := !opcodes.contains op || (ch != 0 && chan0Only.contains op)
  let s1 := { s with host := { s.host with
    fenced := s.host.fenced.filter (fun x => x.1 != ch)
    lastServed := if ch == 0 then s.host.lastServed else ch.1 } }
  let s2 := modChan s1 ch fun c => if op == 0x24 then { c with feedHead := true } else { c with cmdHead := c.cmdHead + 1 }
  if bad then complete s2 m .badCommand 0
  else { s2 with host := { s2.host with accepted := s2.host.accepted ++ [m] } }

/-- COMMAND_FETCH (R548): look for work and read one entry; `data` is what the read returns, none where it fails. -/
def execCommandFetch (data : Option (BitVec 512)) (s : State) : Res' :=
  .next <|
    if !ready s || !s.host.linkUp || quiescing s then s
    else match nextChannel s with
      | none => s
      | some ch =>
        match fencedOf s ch, data with
        | some e, _ => acceptEntry s ch e
        | none, none => chanError s ch .fetchFault
        | none, some e =>
          if bit (fld e 1 1) 0 && outstandingOn s ch then { s with host := { s.host with fenced := s.host.fenced ++ [(ch, e)] } }
          else acceptEntry s ch e

/-! ## Doorbells and heads (R545 to R547) -/

/-- Entries in use between two free-running indices (R532). -/
def inUse (tail head : BitVec 16) : Nat := (tail - head).toNat

/-- A write of CMD_TAIL. -/
def writeCmdTail (s : State) (ch : ChanId) (v : W32) : State :=
  let c := s.host.channels.get ch
  let t := v.setWidth 16
  if t == c.cmdTail then s
  else if c.st == .enabled && decide (2 ^ c.cmdLog2 < inUse t c.cmdHead) then chanError s ch .badTail
  else modChan s ch fun c => { c with cmdTail := t }

/-- A write of CMP_HEAD. -/
def writeCmpHead (s : State) (ch : ChanId) (v : W32) : State :=
  let c := s.host.channels.get ch
  let h := v.setWidth 16
  if 2 ^ c.cmpLog2 < inUse c.cmpTail h then s else modChan s ch fun c => { c with cmpHead := h }

/-- A write of EVT_HEAD. -/
def writeEvtHead (s : State) (v : W32) : State :=
  let h := v.setWidth 16
  if 2 ^ s.host.evtLog2 < inUse s.host.evtTail h then s else { s with host := { s.host with evtHead := h } }

/-- CMD_TAIL_WRITE (R545, R547). -/
def execCmdTailWrite (ch : ChanId) (v : W32) (s : State) : Res' := .next (if s.host.linkUp then writeCmdTail s ch v else s)

/-- CMP_HEAD_WRITE (R546, R547). -/
def execCmpHeadWrite (ch : ChanId) (v : W32) (s : State) : Res' := .next (if s.host.linkUp then writeCmpHead s ch v else s)

/-- EVT_HEAD_WRITE (R546). -/
def execEvtHeadWrite (v : W32) (s : State) : Res' := .next (if s.host.linkUp then writeEvtHead s v else s)

/-! ## Channel enables (R533, R534, R544, R550, R553) -/

/-- The fields of CFG other than ENABLE, written while ENABLE is clear; TENANT of channel 0 stays 0. -/
def setCfg (ch : ChanId) (v : Nat) (c : Chan) : Chan :=
  { c with cmdLog2 := bits v 0 4, cmpLog2 := bits v 4 4, vector := bits v 8 5, tenant := if ch == 0 then 0 else bits v 16 4 }

/-- The faults of R544. -/
def badConfig (s : State) (ch : ChanId) (c : Chan) : Bool :=
  let badLog (n : Nat) := decide (n < 4 ∨ 12 < n)
  let badBase (a : W64) := a.toNat % 4096 != 0
  badLog c.cmdLog2 || badLog c.cmpLog2 || badBase c.cmdBase || badBase c.cmpBase
  || (ch == 0 && (badLog s.host.evtLog2 || badBase s.host.evtBase))

/-- A write of CFG. -/
def writeCfg (s : State) (ch : ChanId) (v : W32) : State :=
  let c := s.host.channels.get ch
  let en := v.getLsbD 31
  match c.st, en with
  | .disabled, false => modChan s ch (setCfg ch v.toNat)
  | .disabled, true =>
    let c1 := { setCfg ch v.toNat c with
      cmdHead := 0, cmdTail := 0, cmpHead := 0, cmpTail := 0, counted := 0, firstAt := none, feedHead := false, err := .none, st := .enabled }
    let s1 := modChan s ch fun _ => c1
    let s2 := if ch == 0 then { s1 with host := { s1.host with evtHead := 0, evtTail := 0 } } else s1
    if badConfig s ch c1 then chanError s2 ch .badConfig else s2
  | _, true => s
  | _, false =>
    let s1 := modChan s ch fun c => { c with st := .disabled, err := .none, feedHead := false }
    { s1 with host := { s1.host with fenced := s1.host.fenced.filter (fun x => x.1 != ch) } }

/-- CHANNEL_ENABLE (R534, R544): a write of CFG with ENABLE set. -/
def execChannelEnable (ch : ChanId) (cfg : W32) (s : State) : Res' :=
  .next (if s.host.linkUp then writeCfg s ch (cfg ||| 0x80000000) else s)

/-- CHANNEL_DISABLE (R550, R553): a write of CFG with ENABLE clear. -/
def execChannelDisable (ch : ChanId) (cfg : W32) (s : State) : Res' :=
  .next (if s.host.linkUp then writeCfg s ch (cfg &&& 0x7FFFFFFF) else s)

/-! ## Interrupts (R555 to R559) -/

/-- A write of IRQ_CAUSE: write 1 to clear. -/
def writeCause (s : State) (v : W32) : State := { s with host := { s.host with irqCause := s.host.irqCause &&& ~~~v } }

/-- A write of IRQ_MASK: bits 15 to 6 read 0; a cause unmasked while set sends its message at once. -/
def writeMask (s : State) (v : W32) : State :=
  let m := v &&& 0xFFFF003F
  let freed := s.host.irqMask &&& ~~~m &&& s.host.irqCause
  ((List.range 32).filter fun b => freed.getLsbD b).foldl (fun t b => sendMsix t (causeVector t b)) { s with host := { s.host with irqMask := m } }

/-- Send the pending messages that no mask holds any more (R559). -/
def sendPending (s : State) : State :=
  if s.host.fnMask then s
  else
    let due := (fins 32).filter fun i => s.host.pba.getLsbD i.1 && !(s.host.msix.get i).mask
    due.foldl (fun t i => sendMsix { t with host := { t.host with pba := t.host.pba &&& ~~~(1#32 <<< i.1) } } i.1) s

/-- IRQ_CAUSE_WRITE (R556). -/
def execIrqCauseWrite (v : W32) (s : State) : Res' := .next (if s.host.linkUp then writeCause s v else s)

/-- IRQ_MASK_WRITE (R556). -/
def execIrqMaskWrite (v : W32) (s : State) : Res' := .next (if s.host.linkUp then writeMask s v else s)

/-- MSIX_VECTOR_UNMASK (R559): a vector, or the function where none is named, is unmasked. -/
def execMsixVectorUnmask (vec : Option (Fin 32)) (s : State) : Res' :=
  .next <|
    if !s.host.linkUp then s
    else match vec with
      | none => sendPending { s with host := { s.host with fnMask := false } }
      | some i => sendPending { s with host := { s.host with msix := vmod s.host.msix i fun e => { e with mask := false } } }

/-- MSC_LO_READ (R59): a 32-bit read of MSC_LO captures the upper half. -/
def execMscLoRead (s : State) : Res' :=
  .next <|
    if !s.host.linkUp then s
    else emit { s with time := { s.time with hiSnap := BitVec.ofNat 32 (s.time.msc >>> 32) } } (.regRead (BitVec.ofNat 64 (s.time.msc % 2 ^ 32)))

/-! ## BAR0 writes (R520, R521) -/

/-- A 32-bit half of a 64-bit register replaced. -/
def setHalf (r : W64) (hi : Bool) (v : W64) : W64 :=
  if hi then (r &&& 0x00000000FFFFFFFF) ||| ((v &&& 0xFFFFFFFF) <<< 32) else (r &&& 0xFFFFFFFF00000000) ||| (v &&& 0xFFFFFFFF)

/-- A write of `size` bytes at offset `d` (0 or 4) of a 64-bit register. -/
def setReg (r : W64) (d size : Nat) (v : W64) : W64 := if size == 8 then v else setHalf r (d == 4) v

/-- The bootstrap opcodes (Table 9-7). -/
def bootOpcodes : List Nat := [1, 2, 3, 4]

/-- A bootstrap command ends: results, STATUS, then DONE with BUSY clear, and BOOT_DONE (R524). -/
def bootEnd (s : State) (st : Status) (args : Vector W64 6) : State :=
  raiseIrq { s with host := { s.host with bootArg := args, bootStatus := BitVec.ofNat 8 st.code, bootBusy := false, bootDone := true } } causeBootDone

/-- A write to BOOT_CMD (R524 to R526). -/
def writeBootCmd (s : State) (r : W64) : State :=
  if s.host.bootBusy then s
  else
    let s1 := { s with host := { s.host with bootCmd := r &&& 0xFFFF, bootBusy := true, bootDone := false, bootSeq := BitVec.ofNat 8 (r.toNat >>> 8) } }
    if bootOpcodes.contains (r.toNat % 256) then s1 else bootEnd s1 .badCommand s1.host.bootArg

/-- A write inside a channel block at offset `o`. Bases, CFG and EVT_CFG are ignored while ENABLE is set (R534). -/
def writeChanReg (s : State) (ch : ChanId) (o size : Nat) (v : W64) : State :=
  let off := (s.host.channels.get ch).st == .disabled
  let r := o / 8 * 8
  let d := o % 8
  if r == 0x00 then (if off then modChan s ch fun c => { c with cmdBase := setReg c.cmdBase d size v } else s)
  else if r == 0x08 then (if off then modChan s ch fun c => { c with cmpBase := setReg c.cmpBase d size v } else s)
  else if r == 0x10 then
    let irq (t : State) (w : Nat) := modChan t ch fun c => { c with count := bits w 0 8, delay := bits w 8 16 }
    if size == 8 then irq (writeCfg s ch (v.setWidth 32)) (v.toNat >>> 32)
    else if d == 0 then writeCfg s ch (v.setWidth 32) else irq s v.toNat
  else if r == 0x18 then (if d == 0 then writeCmdTail s ch (v.setWidth 32) else s)
  else if r == 0x20 then
    if size == 8 then writeCmpHead s ch (BitVec.ofNat 32 (v.toNat >>> 32)) else if d == 4 then writeCmpHead s ch (v.setWidth 32) else s
  else if ch != 0 then s
  else if r == 0x28 then (if off then { s with host := { s.host with evtBase := setReg s.host.evtBase d size v } } else s)
  else if r == 0x30 then
    let cfg (t : State) := if off then { t with host := { t.host with evtLog2 := bits v.toNat 0 4 } } else t
    if size == 8 then writeEvtHead (cfg s) (BitVec.ofNat 32 (v.toNat >>> 32)) else if d == 0 then cfg s else writeEvtHead s (v.setWidth 32)
  else s

/-- A write inside the MSI-X table at offset `o`. -/
def writeMsix (s : State) (o size : Nat) (v : W64) : State :=
  let i : Fin 32 := ⟨o / 16 % 32, Nat.mod_lt _ (by decide)⟩
  let d := o % 16
  let set (f : Msix → Msix) : State := { s with host := { s.host with msix := vmod s.host.msix i f } }
  if d < 8 then set fun e => { e with addr := setReg e.addr d size v }
  else if size == 8 then sendPending (set fun e => { e with data := v.setWidth 32, mask := v.getLsbD 32 })
  else if d == 8 then set fun e => { e with data := v.setWidth 32 }
  else sendPending (set fun e => { e with mask := v.getLsbD 0 })

/-- A write to BAR0: aligned 32-bit or 64-bit, to a writable register; every other write is ignored. -/
def writeBar (s : State) (off size : Nat) (v : W64) : State :=
  if !((size == 4 || size == 8) && off % size == 0) then s
  else if 0x100 ≤ off ∧ off < 0x108 then writeBootCmd s (setReg s.host.bootCmd (off - 0x100) size v)
  else if 0x108 ≤ off ∧ off < 0x138 then
    { s with host := { s.host with bootArg := vmod s.host.bootArg ⟨(off - 0x108) / 8 % 6, Nat.mod_lt _ (by decide)⟩ fun r => setReg r (off % 8) size v } }
  else if 0x1000 ≤ off ∧ off < 0x1400 then
    writeChanReg s ⟨(off - 0x1000) / 64 % 16, Nat.mod_lt _ (by decide)⟩ ((off - 0x1000) % 64) size v
  else if off == 0x2000 then
    (if size == 8 then writeMask (writeCause s (v.setWidth 32)) (BitVec.ofNat 32 (v.toNat >>> 32)) else writeCause s (v.setWidth 32))
  else if off == 0x2004 then writeMask s (v.setWidth 32)
  else if 0x4000 ≤ off ∧ off < 0x4200 then writeMsix s (off - 0x4000) size v
  else s

/-- REGISTER_WRITE (R520). -/
def execRegisterWrite (off size : Nat) (v : W64) (s : State) : Res' := .next (if s.host.linkUp then writeBar s off size v else s)

/-! ## Bootstrap commands (R524, Table 9-7) -/

/-- The bootstrap command under way. -/
def bootRuns (s : State) (op : Nat) : Bool := s.host.bootBusy && s.host.bootCmd.toNat % 256 == op

/-- Entries of the fault record: standing and history (R888). -/
def faultEntries (s : State) : Nat := s.island.standing.length + s.island.history.length

/-- BOOT_QUERY. -/
def execBootQuery (s : State) : Res' :=
  .next <|
    if !bootRuns s 1 then s
    else bootEnd s .ok (((s.host.bootArg.set 0 (BitVec.ofNat 64 (fwStateReg s))).set 1
      (BitVec.ofNat 64 (s.fw.stage % 256 + s.fw.fault % 256 * 256))).set 2 (BitVec.ofNat 64 (faultEntries s)))

/-- A log record as its 32 bytes (Table 10-16). -/
def logBytes (r : LogRec) : List Byte :=
  leBytes 4 r.seq ++ leBytes 8 r.msc ++ leBytes 2 r.code.toNat ++ [r.unit, r.sev] ++ leBytes 16 r.data.toNat

/-- BOOT_LOG: the boot log is the die log, oldest record first, as whole 32-byte records (log entry 20). -/
def execBootLog (s : State) : Res' :=
  .next <|
    if !bootRuns s 2 then s
    else
      let a := (s.host.bootArg.get 0).toNat
      let n := (s.host.bootArg.get 1).toNat
      if a % 64 != 0 || decide (n < 64) || decide (65536 < n) || n % 64 != 0 then bootEnd s .badArgument s.host.bootArg
      else
        let bs := (s.fw.dieLog.flatMap logBytes).take n
        bootEnd (emit s (.hostWrite a bs)) .ok (s.host.bootArg.set 0 (BitVec.ofNat 64 bs.length))

/-! ## Completions and events (R537 to R539, R569 to R576) -/

/-- A ring's number as a channel: the event ring (16) belongs to channel 0. -/
def ringChan (r : Fin 17) : ChanId := ⟨r.1 % 16, Nat.mod_lt _ (by decide)⟩

/-- The ring has a free entry. -/
def ringRoom (s : State) (r : Fin 17) : Bool :=
  let c := s.host.channels.get (ringChan r)
  if r.1 == 16 then decide (inUse s.host.evtTail s.host.evtHead < 2 ^ s.host.evtLog2)
  else decide (inUse c.cmpTail c.cmpHead < 2 ^ c.cmpLog2)

/-- The ring can be written: link up, channel ENABLED, not full (R569). -/
def ringOpen (s : State) (r : Fin 17) : Bool :=
  s.host.linkUp && (s.host.channels.get (ringChan r)).st == .enabled && ringRoom s r

/-- PHASE for an index of a ring of 2^n entries: the inverse of bit n (R538). -/
def phaseOf (idx : BitVec 16) (n : Nat) : Nat := b2n (!idx.toNat.testBit n)

/-- The LOSS bit and LOST count put into an entry (R574). -/
def withLoss (r : Fin 17) (lost : Nat) (e : BitVec 512) : BitVec 512 :=
  if lost == 0 then e
  else if r.1 == 16 then e ||| BitVec.ofNat 512 (put 1 1 8 + put 2 2 (min lost 0xFFFF))
  else e ||| BitVec.ofNat 512 (put 4 1 8 + put 6 2 (min lost 0xFFFF))

/-- The MSC that DEV_QUERY and TIME_QUERY give is that of the write (Table 10-3). -/
def withMsc (s : State) (r : Fin 17) (e : BitVec 512) : BitVec 512 :=
  if r.1 == 16 || fld e 2 1 != 0 then e
  else if fld e 3 1 == 0x01 then e ||| BitVec.ofNat 512 (put 24 8 (now s))
  else if fld e 3 1 == 0x04 then e ||| BitVec.ofNat 512 (put 8 8 (now s))
  else e

/-- One completion more that counts toward the channel's interrupt (R557). -/
def countCmp (s : State) (ch : ChanId) : State :=
  let c := s.host.channels.get ch
  if c.counted + 1 ≥ max 1 c.count then
    raiseIrq (modChan s ch fun c => { c with counted := 0, firstAt := none }) (causeCmp ch.1)
  else modChan s ch fun c => { c with counted := c.counted + 1, firstAt := if c.counted == 0 then some (now s) else c.firstAt }

/-- Write an entry at its ring's tail in one posted write, advance the tail, and signal it (R537, R538, R557, R558, R568). -/
def ringWrite (s : State) (p : Post) (fromLog : Bool) : State :=
  let ch := ringChan p.ring
  let c := s.host.channels.get ch
  let e := withMsc s p.ring p.entry
  if p.ring.1 == 16 then
    let n := s.host.evtLog2
    let e1 := e ||| BitVec.ofNat 512 (put 1 1 (phaseOf s.host.evtTail n + b2n fromLog * 4))
    let s1 := emit s (.hostWrite (s.host.evtBase.toNat + s.host.evtTail.toNat % 2 ^ n * 64) (leBytes 64 e1.toNat))
    raiseIrq { s1 with host := { s1.host with evtTail := s1.host.evtTail + 1 } } causeEvent
  else
    let n := c.cmpLog2
    let e1 := e ||| BitVec.ofNat 512 (put 4 1 (phaseOf c.cmpTail n + b2n fromLog * 4))
    let s1 := emit s (.hostWrite (c.cmpBase.toNat + c.cmpTail.toNat % 2 ^ n * 32) (leBytes 32 e1.toNat))
    let s2 := modChan s1 ch fun c => { c with cmpTail := c.cmpTail + 1 }
    if p.counts then countCmp s2 ch else s2

/-- Entries of a ring that the overflow log holds. -/
def logHeld (s : State) (r : Fin 17) : Nat := (s.host.log.filter (·.ring == r)).length

/-- COMPLETION_OVERFLOW (R572, Table 10-21). -/
def overflowEvent (s : State) (r : Fin 17) (kind : Nat) : State :=
  postEvent s 0x50 (put 16 1 r.1 + put 17 1 kind + put 18 2 (logHeld s r) + put 20 4 (s.host.lostTotal.get r))

/-- Entries the overflow log holds at most. -/
def logSize : Nat := 4096

/-- Place an entry in the overflow log, or lose it where the log is full (R570, R572 to R574). -/
def logPost (s : State) (p : Post) : State :=
  if s.host.log.length ≥ logSize then
    let first := s.host.lost.get p.ring == 0
    let s1 := raiseIrq { s with host := { s.host with
      lost := vmod s.host.lost p.ring (· + 1), lostTotal := vmod s.host.lostTotal p.ring (· + 1) } } causeLoss
    if first then overflowEvent s1 p.ring 1 else s1
  else
    let first := logHeld s p.ring == 0
    let e := withLoss p.ring (s.host.lost.get p.ring) p.entry
    let s1 := raiseIrq { s with host := { s.host with
      log := s.host.log ++ [{ p with entry := e }], lost := vmod s.host.lost p.ring fun _ => 0 } } causeOverflow
    if first then overflowEvent s1 p.ring 0 else s1

/-- One completion or event goes to its ring, to the log, or is lost (R569). -/
def deliver (s : State) (p : Post) : State :=
  if ringOpen s p.ring && logHeld s p.ring == 0 then
    let e := withLoss p.ring (s.host.lost.get p.ring) p.entry
    ringWrite { s with host := { s.host with lost := vmod s.host.lost p.ring fun _ => 0 } } { p with entry := e } false
  else logPost s p

/-- COMPLETION_WRITE (R569): the oldest completion or event due is written. -/
def execCompletionWrite (s : State) : Res' :=
  .next <|
    if !ready s then s
    else match s.host.outbox with
      | [] => s
      | p :: r => deliver { s with host := { s.host with outbox := r } } p

/-- OVERFLOW_LOG_DRAIN (R551, R571): the oldest log entry of a ring is written to it where the ring has space. -/
def execOverflowLogDrain (ch : Fin 17) (s : State) : Res' :=
  .next <|
    if !ready s || !ringOpen s ch then s
    else match s.host.log.find? (·.ring == ch) with
      | none => s
      | some p => ringWrite { s with host := { s.host with log := dropFirst (·.ring == ch) s.host.log } } p true

/-- IRQ_DELAY_EXPIRY (R557): DELAY ticks since the first completion that no message has signalled. -/
def execIrqDelayExpiry (ch : ChanId) (s : State) : Res' :=
  .next <|
    let c := s.host.channels.get ch
    match c.firstAt with
    | none => s
    | some t =>
      if c.delay == 0 || !passed s t c.delay then s
      else raiseIrq (modChan s ch fun c => { c with counted := 0, firstAt := none }) (causeCmp ch.1)

/-- HEARTBEAT_INCREMENT (R523): every 245,760 ticks in READY. -/
def execHeartbeatIncrement (s : State) : Res' :=
  .next <|
    if !ready s || !passed s s.fw.beatAt 245760 then s
    else { s with fw := { s.fw with heartbeat := s.fw.heartbeat + 1, beatAt := now s } }

/-! ## Resets of the host interface (R519) -/

/-- The host interface as PERST_N or a Function Level Reset leaves it: engines, streams, outstanding commands, the overflow
log, its lost counts and the event sequence are not affected (R519, R576). -/
def resetHostIf (s : State) : State :=
  { s with host := { s.host with
      channels := Vector.replicate 16 {}, evtBase := 0, evtLog2 := 0, evtHead := 0, evtTail := 0, irqCause := 0, irqMask := 0
      msix := Vector.replicate 32 {}, fnMask := false, pba := 0, bootCmd := 0, bootArg := Vector.replicate 6 0, bootStatus := 0
      bootSeq := 0, bootBusy := false, bootDone := false, lastServed := 15, fenced := [] } }

/-- PERST_RESET (R519, R690): PERST_N goes low or high. While it is low the link is down. -/
def execPerstReset (low : Bool) (s : State) : Res' :=
  .next <|
    if low then
      let s1 := resetHostIf s
      { s1 with seq := { s1.seq with perst := true }, host := { s1.host with linkUp := false } }
    else { s with seq := { s.seq with perst := false } }

/-- FUNCTION_LEVEL_RESET (R519). -/
def execFunctionLevelReset (s : State) : Res' := .next (if s.host.linkUp then resetHostIf s else s)

/-- PCIE_LINK_DOWN (R322, R569). -/
def execPcieLinkDown (s : State) : Res' := .next { s with host := { s.host with linkUp := false } }

/-- PCIE_LINK_UP (R690): the link trains only in S5 or S6 with PERST_N high. -/
def execPcieLinkUp (s : State) : Res' :=
  .next <|
    if (s.seq.state == .s5 || s.seq.state == .s6) && !s.seq.perst then { s with host := { s.host with linkUp := true } } else s

end Sys2Proof.Machine
end

