-- ==== Sys2Proof/Machine/Restart.lean ====
section
/-! DEFINITION. What resets and restarts of the main die leave: firmware restarts, internal reset, and loss of power
(09 R554, 10 R587 to R590, 11 R677, R688, 14 R824, 15 Table 15-6). -/

namespace Sys2Proof.Machine

/-- FW_STATE changes, which sets IRQ_CAUSE.FW_STATE (Table 9-12). -/
def setFw (s : State) (st : FwState) : State :=
  if s.fw.state == st then s else raiseIrq { s with fw := { s.fw with state := st } } causeFwState

/-- Boot stage codes (Table 15-4). -/
def stageFuses : Nat := 1
def stageSelfTest : Nat := 2
def stageIsland : Nat := 3
def stageLoad : Nat := 4
def stageInit : Nat := 5
def stageReady : Nat := 6
def stageStopped : Nat := 7

/-- Standing entry that retires engine `e`: its CAUSE. -/
def retiredCause (s : State) (e : Nat) : Option Nat :=
  (s.island.standing.find? fun r => r.code == 0x0701 && r.unit.toNat == e).map fun r => bits r.data.toNat 8 8

/-- An engine at a firmware start: retired where a standing entry says so (R823, R824, R826); detectors and calibration as new. -/
def freshEngine (s : State) (e : Nat) (en : Engine) : Engine :=
  { (({} : Engine)) with
    calib := en.calib
    life := match retiredCause s e with
      | some c => if e == 6 && (c == 4 || c == 5) then .selfTestFailed else .retired
      | none => if e == 6 then .laybyFree else .inService }

/-- The governor at a firmware start: what the steward and the regulators hold stays (R699, R702, R721, R748, R753, R755). -/
def freshPower (p : Power) : Power :=
  { (({} : Power)) with
    stewardCap := p.stewardCap, slope := p.slope, entryOff := p.entryOff, stewardHalf := p.stewardHalf, trimMv := p.trimMv
    trimAt := p.trimAt, vid := p.vid, vidTarget := p.vidTarget, opForce := p.opForce, readings := p.readings }

/-- The fabric view at a firmware start: the position and the shape stay (R347, R907). -/
def freshFabric (f : Fabric) : Fabric :=
  { (({} : Fabric)) with id := f.id, sizes := f.sizes, wraps := f.wraps, census := [f.id] }

/-- Standing entries of a code whose first two DATA bytes satisfy a test. -/
def entriesOf (l : List LogRec) (code : BitVec 16) (p : Nat → Nat → Bool) : Nat :=
  (l.filter fun r => r.code == code && p (bits r.data.toNat 0 8) (bits r.data.toNat 8 8)).length

/-- Memory bookkeeping at a firmware start: contents and channels stay, nothing is reserved, mapped or lent. The repairs of the standing
entries are applied again, and only they (R835, R839, R889). -/
def freshMem (l : List LogRec) (m : Mem) : Mem :=
  { (({} : Mem)) with
    cells := m.cells, bad := m.bad, channels := m.channels, fwArea := m.fwArea, fwBase := m.fwBase
    rowSpares := vmapIdx (fun i _ => 16 - entriesOf l 0x0702 fun u b => u == 0xF0 && b == i) m.rowSpares
    t0Spares := vmapIdx (fun i _ => 48 - entriesOf l 0x0702 fun u _ => u == i) m.t0Spares
    colSpares := vmapIdx (fun i _ => 4 - entriesOf (l.filter fun r => bit r.data.toNat 24) 0x0703 fun _ b => b == i) m.colSpares
    colPending := m.colPending.filter fun c => l.any fun r => r.code == 0x0703 && bits r.data.toNat 8 8 == c.1 && bits r.data.toNat 16 8 == c.2
    repairedRows := m.repairedRows, patrol := vmap (fun p => (p.1, none)) m.patrol
    t2Size := total (m.channels.toList.map fun c => if c.st == .inService then c.gib * 16384 else 0) }

/-- Time state at a firmware start; a lost reference stays lost (R81). -/
def freshTime (t : Time) : Time :=
  { t with
    state := if t.refPresent then .unaligned else .refLost, before := .unaligned, rootId := 0, hops := 0, leader := none
    offset64 := 0, corr := 0, exchanges := 0, bestRtt := none, bestOffset := 0, exchOut := none
    nextExch := t.msc }

/-- Firmware records at a firmware start; the handle counters start again with the firmware (R581, log entry 5). -/
def freshFw (f : Fw) : Fw :=
  { (({} : Fw)) with
    state := f.state, image := f.image, bootSel := f.bootSel, hostImage := f.hostImage, heartbeat := f.heartbeat, dieLog := f.dieLog, logSeq := f.logSeq, s5At := f.s5At
    slotWrite := f.slotWrite.map fun w => { w with cmd := none }, version := f.version }

/-- The host interface at a firmware restart: every channel DISABLED, commands void, the overflow log and its counts cleared
(R554, R576, R587, R927). -/
def freshHost (h : HostIf) : HostIf :=
  { h with
    channels := vmap (fun c => { c with st := .disabled, err := .none, feedHead := false }) h.channels
    accepted := [], running := [], outbox := [], log := [], lost := Vector.replicate 17 0, lostTotal := Vector.replicate 17 0
    fenced := [], evtSeq := 0, lastServed := 15 }

/-- Everything the firmware holds goes with it (R554, R587, R590). -/
def clearFirmware (s : State) : State :=
  { s with
    host := freshHost s.host, fw := freshFw s.fw, mem := freshMem s.island.standing s.mem, engines := vmapIdx (freshEngine s) s.engines
    itins := [], streams := [], power := freshPower s.power, audio := Vector.replicate 2 {}
    fabric := freshFabric s.fabric, time := freshTime s.time }

/-- A boot-flash write cut off by a descent or a power loss leaves a slot that fails verification (R884). -/
def cutSlotWrite (s : State) : State :=
  match s.fw.slotWrite with
  | none => s
  | some w =>
    let f := w.slots.foldl (fun (f : Flash) i =>
      if w.target == 0 then { f with die := f.die.set i.1 none, verdict := f.verdict.set i.1 .fail }
      else { f with island := f.island.set i.1 none, islandBad := f.islandBad.set i.1 true }) s.flash
    { s with flash := f, fw := { s.fw with slotWrite := none } }

/-- The main die's internal reset is asserted: the firmware and the PCIe link go, and the die is in S4 (Table 11-8 step 2, R689). -/
def assertReset (s : State) : State :=
  let s0 := if s.seq.state == .s6 then { s with seq := { s.seq with s6Ticks := s.seq.s6Ticks + elapsed s (s.fw.readyAt.getD (now s)) } } else s
  let s1 := clearFirmware (cutSlotWrite s0)
  { s1 with
    host := { (resetHostIf s1).host with linkUp := false }
    fw := { s1.fw with state := .bootstrap, stage := stageIsland, fault := 0 }
    seq := { s1.seq with internalReset := true, state := .s4, step := none } }

/-- Contents of T0, T1 and T2 are lost, and the channels are to be trained again (R327, R677). -/
def loseMemory (s : State) : State :=
  { s with
    mem := { s.mem with
      cells := [], bad := [], t2Size := 0, channels := vmap (fun c => { c with st := .untrained, badReads := [] }) s.mem.channels }
    snaps := s.snaps.filter fun x => decide (3 ≤ x.tier) }

/-- The firmware starts again from the image selected for boot, power and T2 kept (R589, Table 15-6): host interface as by FLR. -/
def warmRestart (s : State) : State :=
  let s1 := clearFirmware (resetHostIf s)
  let s2 := setFw { s1 with fw := { s1.fw with stage := stageLoad, fault := 0 }, seq := { s1.seq with state := .s5 } } .loading
  { s2 with fw := { s2.fw with s5At := now s } }

/-- A log record for which the spec gives no code: the code is a free value (log entry 8). -/
def logUncoded (s : State) (unit : Nat) : State :=
  let f := takeFree s
  logIsland f.2 f.1 unit 1 0

end Sys2Proof.Machine
end

