-- ==== Sys2Proof/Machine/Sequencer.lean ====
section
/-! DEFINITION. The sequencer, its requests and steps, rail loss and thermal trip, the reset pins, and the connection
resistance (11). -/

namespace Sys2Proof.Machine

/-- Change the sequencer. -/
def modSeq (s : State) (f : Seqr → Seqr) : State := { s with seq := f s.seq }

/-! ## Descent (Table 11-8, R676, R677, R682) -/

/-- S1 is reached: everything the die held is lost; COLD asks for the ascent (R327, R677, R678). -/
def reachS1 (s : State) : State :=
  let s1 := loseMemory { s with island := { s.island with admitted := false, capAfterRequest := false } }
  modSeq s1 fun q => { q with
    state := .s1, step := none, s1At := some (now s), request := if q.cold then some true else q.request
    requestAt := if q.cold then now s else q.requestAt, cold := false }

/-- The first step of Table 11-8 from step `n` on that applies to a rail that is on. -/
def descendFrom (s : State) (n : Nat) : State :=
  let q := s.seq
  let begin_ (k : Nat) (f : Seqr → Seqr) := modSeq s fun q => { f q with step := some ⟨false, k, now s⟩ }
  if n ≤ 3 ∧ q.vddqm.en then begin_ 3 fun q => { q with vddqm := { q.vddqm with en := false } }
  else if n ≤ 4 ∧ (q.vlnk.en ∨ q.vddqmx.en) then begin_ 4 fun q => { q with vlnk := { q.vlnk with en := false }, vddqmx := { q.vddqmx with en := false } }
  else if n ≤ 5 ∧ q.vlog.en then begin_ 5 fun q => { q with vlog := { q.vlog with en := false } }
  else if n ≤ 6 ∧ q.vmem.en then begin_ 6 fun q => { q with vmem := { q.vmem with en := false } }
  else reachS1 s

/-- Step 2 and on: internal reset asserted, then the rails. -/
def descendReset (s : State) : State := descendFrom (assertReset s) 3

/-- An off request is acted on: quiescence first in S6; in S5 a load is abandoned and step 1 ends at once (R901). -/
def beginDescent (s : State) : State :=
  let s1 := modSeq s fun q => { q with request := none }
  if s1.seq.state == .s6 then modSeq s1 fun q => { q with step := some ⟨false, 1, now s⟩ }
  else if s1.seq.state == .s5 then descendReset s1
  else descendFrom (cutSlotWrite s1) 3

/-! ## Ascent (Table 11-7, R675, R678, R684) -/

/-- S5 is entered: internal reset released, the boot ROM starts, the ports may train (Table 15-3 step 5). -/
def enterS5 (s : State) : State :=
  { s with
    seq := { s.seq with state := .s5, step := none, internalReset := false }
    fw := { s.fw with state := .bootstrap, stage := stageFuses, fault := 0, s5At := now s }
    time := { s.time with replica := s.time.msc } }

/-- Step n of the ascent begins. -/
def ascend (s : State) (n : Nat) : State :=
  let go (f : Seqr → Seqr) := modSeq s fun q => { f q with step := some ⟨true, n, now s⟩ }
  if n == 1 then go fun q => { q with vmem := { q.vmem with en := true } }
  else if n == 3 then
    let s1 := go fun q => { q with vlog := { q.vlog with en := true } }
    emit { s1 with power := { s1.power with vid := 40, vidTarget := 40, opForce := 1 } } (.vid 40)
  else if n == 5 then go fun q => { q with vlnk := { q.vlnk with en := true }, vddqmx := { q.vddqmx with en := true } }
  else if n == 6 then go fun q => { q with vddqm := { q.vddqm with en := true } }
  else go id

/-- Whether an ascent may begin now: S1 with nothing running, an on request, the island ready and, in a tray, the die admitted,
the shut and leak latches clear, and the hold after the last descent over (R678, R684, R795, R806, R896). -/
def mayAscend (s : State) : Bool :=
  let q := s.seq
  q.state == .s1 && q.step.isNone && q.request == some true && !q.shut && s.island.ready
    && !s.island.leakLatch && (!s.island.trayEn || s.island.admitted) && (match q.s1At with | some t => passed s t 245760 | none => true)

/-- A die that has heard no HEARTBEAT is admitted 1 s after the island's start, with a steward cap of 15,000 mW until a CAP
reaches it (R805, R806). -/
def admitAlone (s : State) : State :=
  if s.island.trayEn && !s.island.admitted && !s.island.beatSeen && s.island.ready && passed s s.island.startAt 24576000 && s.seq.request == some true then
    { s with island := { s.island with admitted := true }, power := { s.power with stewardCap := some (s.power.stewardCap.getD 15000) } }
  else s

/-- Begin the ascent where it may begin. -/
def tryAscend (s : State) : State :=
  let s1 := admitAlone s
  if mayAscend s1 then ascend (modSeq s1 fun q => { q with request := none }) 1 else s1

/-- The die ascends, or stands in S5 on its way to READY. -/
def goingUp (s : State) : Bool := (match s.seq.step with | some st => st.up | none => false) || s.seq.state == .s5 || s.seq.state == .s4
/-- The die descends. -/
def goingDown (s : State) : Bool := match s.seq.step with | some st => !st.up | none => false

/-- An on request (R670, R679, R681, R683, R795): ignored and logged while shut or wet, ignored in the direction already in progress. -/
def requestOn (s : State) : State :=
  if s.seq.aonRst then s
  else if s.seq.shut || s.island.leakLatch then logUncoded s 0xFF
  else if s.seq.state == .s6 && !goingDown s || goingUp s && !goingDown s then modSeq s fun q => { q with request := none }
  else tryAscend (modSeq s fun q => { q with request := some true, requestAt := now s, retried := false })

/-- An off request (R679, R681 to R683, R901): acted on at the end of a step, at once where none runs. -/
def requestOff (s : State) : State :=
  if s.seq.aonRst then s
  else if goingDown s || s.seq.state == .s1 && s.seq.step.isNone || s.seq.state == .s0 then modSeq s fun q => { q with request := none }
  else
    let s1 := modSeq s fun q => { q with request := some false, requestAt := now s }
    if s1.seq.step.isNone then beginDescent s1 else s1

/-- POWER_ON_REQUEST (Table 11-6, R679 to R684). -/
def execPowerOnRequest (src : ReqSrc) (s : State) : Res' :=
  .next <| if src == .auto && !s.seq.pwrAuto then s else requestOn s

/-- POWER_OFF_REQUEST. Only the pin, the side band, the steward and COLD ask for an off (Table 11-6). -/
def execPowerOffRequest (src : ReqSrc) (s : State) : Res' :=
  .next <| if src == .auto then s else requestOff (if src == .cold then modSeq s fun q => { q with cold := true } else s)

/-- What follows a finished step of the ascent: a latched off request descends, SYS_RST_N low stops at S4, else the next step
(R681, R682, R689). -/
def afterUp (s : State) (n : Nat) : State :=
  if s.seq.request == some false then beginDescent (modSeq s fun q => { q with step := none })
  else if n == 6 && s.seq.sysRst then modSeq s fun q => { q with step := none }
  else ascend s (n + 1)

/-- Mark the rails of an up step good, and its state (Table 11-7). -/
def upDone (q : Seqr) (n : Nat) : Seqr :=
  if n == 1 then { q with vmem := { q.vmem with good := true }, state := .s2 }
  else if n == 3 then { q with vlog := { q.vlog with good := true }, state := .s3 }
  else if n == 5 then { q with vlnk := { q.vlnk with good := true }, vddqmx := { q.vddqmx with good := true } }
  else if n == 6 then { q with vddqm := { q.vddqm with good := true }, state := .s4 }
  else q

/-- Mark the rails of a down step off, and its state (Table 11-8). -/
def downDone (q : Seqr) (n : Nat) : Seqr :=
  if n == 3 then { q with vddqm := {} }
  else if n == 4 then { q with vlnk := {}, vddqmx := {}, state := .s3 }
  else if n == 5 then { q with vlog := {}, state := .s2 }
  else if n == 6 then { q with vmem := {} }
  else q

/-- Steps of Table 11-7 that wait for a rail. -/
def railStep (n : Nat) : Bool := n == 1 || n == 3 || n == 5 || n == 6

/-- RAIL_STEP_DONE (R674, R675, R680): within the step's bounds. -/
def execRailStepDone (s : State) : Res' :=
  .next <| match s.seq.step with
    | none => s
    | some st =>
      if passed s st.since 245761 then s
      else if st.up then
        (if railStep st.n && passed s st.since 2458 then afterUp (modSeq s fun q => upDone q st.n) st.n else s)
      else if 3 ≤ st.n then descendFrom (modSeq s fun q => downDone q st.n) (st.n + 1)
      else s

/-- The domain of a step's rail, as the fault record numbers domains. -/
def stepDomain (up : Bool) (n : Nat) : Nat :=
  if up then (if n == 1 then 1 else if n == 3 then 0 else if n == 5 then 2 else 3)
  else (if n == 3 then 3 else if n == 4 then 2 else if n == 5 then 0 else 1)

/-- Number of a sequencer state. -/
def seqCode : SeqState → Nat
  | .s0 => 0 | .s1 => 1 | .s2 => 2 | .s3 => 3 | .s4 => 4 | .s5 => 5 | .s6 => 6

/-- The state the island answers and reports with while it runs: before it is ready, that of a die in S1 (R902). -/
def shownState (s : State) : SeqState := if s.seq.state == .s0 then .s1 else s.seq.state

/-- A sequence fault or rail loss in the fault record (0x0708). -/
def recordSeqFault (s : State) (dom : Nat) : State := faultHistory s 0x0708 dom (put 0 1 dom + put 1 1 (seqCode s.seq.state))

/-- RAIL_STEP_TIMEOUT (R682, R685, R686). A sequence fault descends and makes one more ascent. -/
def execRailStepTimeout (s : State) : Res' :=
  .next <| match s.seq.step with
    | none => s
    | some st =>
      if !passed s st.since 245761 then s
      else if st.up then
        if !railStep st.n then s
        else if s.seq.request == some false then beginDescent (modSeq s fun q => { q with step := none })
        else
          let s1 := recordSeqFault s (stepDomain true st.n)
          let again := !s.seq.retried
          descendFrom (modSeq s1 fun q => { q with
            faulted := true, retried := true, request := if again then some true else none, requestAt := if again then now s else q.requestAt }) 3
      else if 3 ≤ st.n then descendFrom (recordSeqFault (modSeq s fun q => downDone q st.n) (stepDomain false st.n)) (st.n + 1)
      else s

/-- SEQUENCER_HOLD_EXPIRY (R675, R689): the holds of steps 2, 4 and 7. -/
def execSequencerHoldExpiry (s : State) : Res' :=
  .next <| match s.seq.step with
    | none => s
    | some st =>
      if !st.up then s
      else if st.n == 2 || st.n == 4 then (if !passed s st.since 2458 then s else afterUp s st.n)
      else if st.n == 7 then
        if !passed s st.since 24576 || s.seq.sysRst then s
        else if s.seq.request == some false then beginDescent (modSeq s fun q => { q with step := none })
        else enterS5 s
      else s

/-- The hold after the last descent is over (R678). -/
def holdOver (s : State) : Bool := match s.seq.s1At with | some t => passed s t 245760 | none => true

/-- ASCENT_HOLDOFF_EXPIRY (R678, R683, R684, R795): a latched on request whose moment has come. A request met by the shut latch or the
leak latch is ignored and logged. -/
def execAscentHoldoffExpiry (s : State) : Res' :=
  .next <|
    if s.seq.state == .s1 && s.seq.step.isNone && s.seq.request == some true && holdOver s && (s.seq.shut || s.island.leakLatch) then
      logUncoded (modSeq s fun q => { q with request := none }) 0xFF
    else tryAscend s

/-- FIRMWARE_QUIESCED (R676): reported by firmware that runs. -/
def execFirmwareQuiesced (s : State) : Res' :=
  .next <| match s.seq.step with
    | some st => if !st.up && st.n == 1 && ready s then descendReset s else s
    | none => s

/-- QUIESCE_TIMEOUT (R676). -/
def execQuiesceTimeout (s : State) : Res' :=
  .next <| match s.seq.step with
    | some st => if !st.up && st.n == 1 && passed s st.since 491520 then descendReset s else s
    | none => s

/-! ## Rail loss and thermal trip (R687, R739) -/

/-- The rail of a domain, where the island enables it. -/
def railOf (q : Seqr) : Domain → Option Rail
  | .vlog => some q.vlog | .vmem => some q.vmem | .vlnk => some q.vlnk | .vddqm => some q.vddqm | .vddqmx => some q.vddqmx | .vaon => none

/-- A rail's power-good is low. -/
def railBad (q : Seqr) : Domain → Seqr
  | .vlog => { q with vlog := { q.vlog with good := false } }
  | .vmem => { q with vmem := { q.vmem with good := false } }
  | .vlnk => { q with vlnk := { q.vlnk with good := false } }
  | .vddqm => { q with vddqm := { q.vddqm with good := false } }
  | .vddqmx => { q with vddqmx := { q.vddqmx with good := false } }
  | .vaon => q

/-- A descent in hardware at once, from any state above S1, without quiescence. A latched on request stays latched (R683). -/
def hardDescent (s : State) : State :=
  let s1 := modSeq s fun q => { q with request := if q.request == some true then some true else none, step := none }
  if s1.seq.state == .s5 || s1.seq.state == .s6 then descendReset s1 else descendFrom (cutSlotWrite s1) 3

/-- The number a domain has in events and records (Table 10-21); VDDQ_M auxiliary follows the others. -/
def domCode (d : Domain) : Nat := (domIdx d).1

/-- RAIL_LOSS (R687): a power-good that falls while its rail should be on. -/
def execRailLoss (d : Domain) (s : State) : Res' :=
  .next <| match railOf s.seq d with
    | none => s
    | some r => if !r.en || !r.good then s else hardDescent (recordSeqFault (modSeq s fun q => railBad q d) (domCode d))

/-- THERMAL_TRIP (R739). -/
def execThermalTrip (n : SensorId) (reading : Int) (s : State) : Res' :=
  .next <|
    if !sensorPresent s.fuses.variant n.1 || decide (reading < 120 * 16) || s.seq.internalReset then s
    else hardDescent (faultHistory s 0x070A 0xFF (put 0 1 n.1 + put 2 2 (twos 16 reading)))

/-! ## Reset pins (R55, R688 to R690) -/

/-- What the island's flash holds across its resets: fault record, key, network values, marks (13, 14). -/
def islandStored (i : Island) : Island :=
  { (({} : Island)) with
    standing := i.standing, history := i.history, faultSeq := i.faultSeq, key := i.key, seqFloor := i.seqFloor
    net := i.net, slew := i.slew, log := i.log, logSeq := i.logSeq
    leak := vmap (fun l => { (({} : LeakIn)) with enabled := l.enabled, thrMv := l.thrMv, filterUs := l.filterUs }) i.leak
    lamps := vmap (fun l => { (({} : Lamp)) with driveUa := l.driveUa, dark := l.dark }) i.lamps }

/-- What the island store holds of a domain's connection resistance (Table 13-2): the baseline, or what has been learned toward it. -/
def storedPdn (p : Pdn) : Pdn :=
  { (({} : Pdn)) with baseline := p.baseline, baseTemp := p.baseTemp, samples := p.samples, learnFrom := p.learnFrom, monitored := p.monitored }

/-- AON_RESET (R688): AON_RST_N low. Every enable falls at once. -/
def execAonReset (s : State) : Res' :=
  .next <|
    let s1 := loseMemory (assertReset s)
    { s1 with
      seq := { (({} : Seqr)) with pdn := vmap storedPdn s1.seq.pdn, shut := s1.seq.shut, sysRst := s1.seq.sysRst, perst := s1.seq.perst, s6Ticks := s1.seq.s6Ticks }
      island := islandStored s1.island
      power := { s1.power with stewardCap := none, slope := 8, entryOff := Vector.replicate 3 0, stewardHalf := false, vid := 40, vidTarget := 40 } }

/-- AON_RESET_RELEASE (R55, Table 15-3 step 1): the MSC clears, the straps are sampled, the island's ROM starts. -/
def execAonResetRelease (trayEn : Bool) (slot : SlotId) (auto : Bool) (s : State) : Res' :=
  .next <|
    if !s.seq.aonRst then s
    else { s with
      time := { s.time with msc := 0, replica := 0, hiSnap := 0, lastCorr := 0, nextExch := 0 }
      seq := { s.seq with aonRst := false, pwrAuto := auto }
      island := { s.island with trayEn := trayEn, slot := slot, startAt := 0 } }

/-- SYS_RESET_ASSERT (R689). -/
def execSysResetAssert (s : State) : Res' :=
  .next <|
    let s1 := modSeq s fun q => { q with sysRst := true }
    if s1.seq.state == .s5 || s1.seq.state == .s6 then
      (if goingDown s1 then descendReset s1 else if s1.seq.request == some false then beginDescent s1 else assertReset s1)
    else match s1.seq.step with
      | some st => if st.up && st.n == 7 then modSeq s1 fun q => { q with step := none } else s1
      | none => s1

/-- SYS_RESET_RELEASE (R689). -/
def execSysResetRelease (s : State) : Res' :=
  .next <|
    let s1 := modSeq s fun q => { q with sysRst := false }
    if s1.seq.state == .s4 && s1.seq.step.isNone then ascend s1 7 else s1

/-! ## PMBus readings and connection resistance (R658 to R672) -/

/-- A regulator failed to answer, or failed packet error checking (R671): three in a row stop the checks. -/
def readFailed (s : State) (d : Domain) : State :=
  let r := s.power.readings.get (domIdx d)
  let s1 := { s with power := { s.power with readings := vmod s.power.readings (domIdx d) fun r => { r with fails := r.fails + 1, goods := 0, stopped := r.stopped || decide (3 ≤ r.fails + 1) } } }
  if !r.stopped && decide (3 ≤ r.fails + 1) then logUncoded s1 (domCode d) else s1

/-- A good read (R671): ten in a row resume the checks. -/
def readGood (s : State) (d : Domain) (f : Reading → Reading) : State :=
  { s with power := { s.power with readings := vmod s.power.readings (domIdx d) fun r =>
      { f r with fails := 0, goods := r.goods + 1, stopped := r.stopped && decide (r.goods + 1 < 10) } } }

/-- Peak current of a domain, in mA (Table 11-2). -/
def peakMa (v : Variant) : Domain → Nat
  | .vlog => match v with | .sv6118 => 165000 | .sv6116 => 165000 | .sv6114 => 115000 | .sv6112 => 90000
  | .vmem => 20000
  | .vlnk => match v with | .sv6118 => 12000 | .sv6116 => 4000 | .sv6114 => 4000 | .sv6112 => 2000
  | .vddqm => if mcCount v == 4 then 4000 else 2000
  | .vddqmx => 1000
  | .vaon => 500

/-- A resistance in µΩ normalised from temperature `t` to `base`, both in 1/16 degree (R661). -/
def resAtBase (r : Nat) (t base : Int) : Nat := ((r : Int) * 160000 / max 1 (160000 + 39 * (t - base))).toNat

/-- Ticks between two reads of a domain's current (R658). -/
def readPeriod : Nat := 245760

/-- The ticks since `t` of which a domain's samples tell: those up to one period after the last usable sample (R668). -/
def sampledFor (s : State) (p : Pdn) (t : Tick) : Nat := elapsed s t - (elapsed s p.lastAt - readPeriod)

/-- Ticks the die has spent in S6. -/
def s6Time (s : State) : Tick := s.seq.s6Ticks + (if s.seq.state == .s6 then elapsed s (s.fw.readyAt.getD (now s)) else 0)

/-- A usable sample of a domain (R659 to R663, R667, R668): a time without usable samples moves the start of a count on. A
baseline is learned from the first 30 minutes in S6. -/
def takeSample (s : State) (d : Domain) (raw : Nat) (t : Int) : State :=
  { s with seq := { s.seq with pdn := vmod s.seq.pdn (domIdx d) fun p =>
    match p.baseline with
    | none => { p with last := raw, samples := if s.seq.state == .s6 && decide (s6Time s < p.learnFrom + 44236800000) then p.samples ++ [(raw, t)] else p.samples }
    | some b =>
      let r := resAtBase raw t p.baseTemp
      let since (o : Option Tick) : Option Tick := match o with | some x => some (x + (elapsed s p.lastAt - readPeriod)) | none => some (now s)
      { p with
        last := r, lastAt := now s, over30Since := if 13 * b < 10 * r then since p.over30Since else none
        over60 := if 16 * b < 10 * r then p.over60 + 1 else 0
        under20Since := if 10 * r ≤ 12 * b then since p.under20Since else none } } }

/-- PMBUS_IOUT_READ (R658, R659, R661, R668, R671, R672, R697): READ_IOUT, and the drop averaged over the same 10 ms. VDDQ_M
auxiliary has no board monitor ball. -/
def execPmbusIoutRead (d : Domain) (ioutMa : Nat) (dropUv : Nat) (meanTemp : Int) (connected ok : Bool) (s : State) : Res' :=
  .next <|
    let on := match railOf s.seq d with | some r => r.en | none => true
    if !on || s.seq.aonRst || !s.island.up then s
    else if !ok then readFailed s d
    else
      let s1 := readGood s d fun r => { r with ioutMa := ioutMa }
      let s2 := if d == .vlog && ready s1 then calPair s1 (ioutMa * (s1.power.readings.get 0).voutMv / 1000) else s1
      if d == .vddqmx then s2
      else if !connected then
        let p := s2.seq.pdn.get (domIdx d)
        let s3 := { s2 with seq := { s2.seq with pdn := vmod s2.seq.pdn (domIdx d) fun p => { p with monitored := false } } }
        if p.monitored then logUncoded s3 (domCode d) else s3
      else if (s2.power.readings.get (domIdx d)).stopped || decide (10 * ioutMa < peakMa s.fuses.variant d) || ioutMa == 0 then s2
      else takeSample s2 d (dropUv * 1000 / ioutMa) meanTemp

/-- PMBUS_STATUS_READ (R658, R671). -/
def execPmbusStatusRead (d : Domain) (voutMv : Nat) (temp : Int) (status : BitVec 16) (ok : Bool) (s : State) : Res' :=
  .next <|
    let on := match railOf s.seq d with | some r => r.en | none => false
    if !on || s.seq.aonRst || !s.island.up then s
    else if !ok then readFailed s d
    else readGood s d fun r => { r with voutMv := voutMv, temp := temp, status := status }

/-- PMBUS_ALERT (R658): STATUS_WORD is read. -/
def execPmbusAlert (d : Domain) (status : BitVec 16) (s : State) : Res' :=
  .next <|
    let on := match railOf s.seq d with | some r => r.en | none => false
    if !on || s.seq.aonRst || !s.island.up then s
    else { s with power := { s.power with readings := vmod s.power.readings (domIdx d) fun r => { r with status := status } } }

/-- The median of a domain's samples, with its temperature: the middle one in ascending order. -/
def medianSample (l : List (Nat × Int)) : Option (Nat × Int) := (l.insertionSort fun a b => a.1 ≤ b.1)[l.length / 2]?

/-- BASELINE_LEARNED (R662). -/
def execBaselineLearned (d : Domain) (s : State) : Res' :=
  .next <|
    let p := s.seq.pdn.get (domIdx d)
    if p.baseline.isSome || decide (s6Time s < p.learnFrom + 44236800000) then s
    else match medianSample p.samples with
      | none => s
      | some m => { s with seq := { s.seq with pdn := vmod s.seq.pdn (domIdx d) fun p => { p with baseline := some m.1, baseTemp := m.2, samples := [] } } }

/-- Post PDN_ALARM for a domain (Table 10-21). -/
def pdnEvent (s : State) (d : Domain) (action : Nat) : State :=
  let p := s.seq.pdn.get (domIdx d)
  let b := p.baseline.getD 0
  postEvent s 0x22 (put 16 1 (domCode d) + put 17 1 action + put 18 2 (satTo 16 (p.last * 100 / max 1 b - 100)) + put 20 4 b + put 24 4 p.last)

/-- Write an alarm or shut to the fault record (R666). -/
def pdnRecord (s : State) (d : Domain) (action : Nat) : State :=
  let p := s.seq.pdn.get (domIdx d)
  faultStanding s 0x0709 (domCode d) (put 0 1 (domCode d) + put 1 1 action + put 4 4 (p.baseline.getD 0) + put 8 4 p.last)

/-- PDN_ALARM_RAISE (R663, R668, R669). -/
def execPdnAlarmRaise (d : Domain) (s : State) : Res' :=
  .next <|
    let p := s.seq.pdn.get (domIdx d)
    match p.over30Since with
    | none => s
    | some t =>
      if p.alarm || s.seq.shut || p.baseline.isNone || decide (sampledFor s p t < 24576000) then s
      else
        let cap := capInForce s
        let s1 := { s with seq := { s.seq with pdn := vmod s.seq.pdn (domIdx d) fun p => { p with alarm := true, alarmTarget := some (cap / 2), under20Since := none } } }
        limitCheck (pdnEvent (pdnRecord s1 d 0) d 0)

/-- PDN_SHUT (R664, R670, R684): latched; the die descends as for an off request. An on request latched in a descent stays latched. -/
def execPdnShut (d : Domain) (s : State) : Res' :=
  .next <|
    let p := s.seq.pdn.get (domIdx d)
    if s.seq.shut || p.baseline.isNone || decide (p.over60 < 3) then s
    else
      let s1 := pdnEvent (pdnRecord s d 1) d 1
      let s2 := modSeq s1 fun q => { q with shut := true }
      if goingDown s2 then s2 else requestOff s2

/-- PDN_ALARM_CLEAR (R665, R668). -/
def execPdnAlarmClear (d : Domain) (s : State) : Res' :=
  .next <|
    let p := s.seq.pdn.get (domIdx d)
    match p.under20Since with
    | none => s
    | some t =>
      if !p.alarm || decide (sampledFor s p t < 1474560000) then s
      else
        let s1 := { s with seq := { s.seq with pdn := vmod s.seq.pdn (domIdx d) fun p => { p with alarm := false, alarmTarget := none, over30Since := none } } }
        limitCheck (pdnEvent s1 d 2)

end Sys2Proof.Machine
end

