-- ==== Sys2Proof/Machine/Island.lean ====
section
/-! DEFINITION. The steward island (13): STAT lines, election and roles, tray messages and caps, cooling, leak cut-off, and
lamps. -/

namespace Sys2Proof.Machine

/-- Change the island. -/
def modIsland (s : State) (f : Island → Island) : State := { s with island := f s.island }

/-- The island's own firmware runs, not its ROM mode (R886). -/
def islandRuns (s : State) : Bool := s.island.up && !s.island.romMode && !s.seq.aonRst

/-- The island works in a tray. -/
def inTray (s : State) : Bool := islandRuns s && s.island.trayEn

/-! ## Notices over Wairiq (R814, Table 13-11) -/

/-- A Wairiq message's header (Table 13-10). -/
def wqHeader (type seq tray slot result len msc echo : Nat) : BitVec 256 :=
  BitVec.ofNat 256 (put 0 2 0x5157 + put 2 1 1 + put 3 1 type + put 4 4 seq + put 8 2 tray + put 10 1 slot + put 11 1 result + put 12 2 len
    + put 16 8 msc + put 24 8 echo)

/-- The tag of a message (R812). -/
def wqTag (key : BitVec 384) (header : BitVec 256) (body : List Byte) : BitVec 128 :=
  BitVec.ofNat 128 (leNat ((hmac384 (leBytes 48 key.toNat) (leBytes 32 header.toNat ++ body)).take 16))

/-- Send a Wairiq message. -/
def sendWairiq (s : State) (type result : Nat) (echo : Nat) (body : List Byte) : State :=
  let h := wqHeader type s.island.wqSeq s.island.net.tray.toNat (slotByte s) result body.length (now s) echo
  emit (modIsland s fun i => { i with wqSeq := i.wqSeq + 1 }) (.wairiq h body (wqTag (s.island.key.getD 0) h body))

/-- The payload of a RELAY: the TYPE, a RESULT, an ECHO of eight bytes, and the body (R814; log entry 24). -/
def relayLoad (type result echo : Nat) (body : List Byte) : List Byte := leBytes 10 (put 0 1 type + put 1 1 result + put 2 8 echo) ++ body

/-- Send a notice to the rack manager: the primary itself, any other island by RELAY (Table 13-3). -/
def wairiqNotice (s : State) (code slot data : Nat) : State :=
  let body := leBytes 2 (code + slot * 256) ++ leBytes 44 (data >>> 160)
  if !s.island.trayEn || s.island.role == .primary then (if hasEth s.fuses.variant then sendWairiq s 0x09 0 0 body else s)
  else sendTray s s.island.primary (.relay (relayLoad 0x09 0 0 body))

/-- A notice on every die of the tray (Table 13-6): posted here, and sent to the other islands by a RELAY to all (log entry 24). -/
def noticeAll (s : State) (code slot data : Nat) : State :=
  sendTray (notify s code slot data) none (.relay (relayLoad 0x09 0 0 (leBytes 2 (code + slot * 256) ++ leBytes 44 (data >>> 160))))

/-! ## STAT (R766 to R768) -/

/-- An error of R767 holds. -/
def statError (s : State) : Bool :=
  s.seq.shut || s.seq.faulted || s.fw.state == .halted || (ready s && passed s s.fw.beatAt 2457600) || !s.flash.storeOk

/-- What STAT_OUT shows (Table 13-4): high where the watchdog holds it, low while an error of R767 holds or the firmware does not run, else the
square wave. -/
def statLine (s : State) : StatOut :=
  match s.island.statOut with
  | .high => .high
  | x => if !islandRuns s || statError s then .low else x

/-- Slots classified healthy. -/
def healthy (s : State) (n : SlotId) : Bool := (s.island.statIn.get n).cls == .healthy

/-- A slot's island has Ethernet: its STATE says so; before one has come, as this die's own. -/
def slotEth (s : State) (n : SlotId) : Bool := match s.island.tray.get n with | some b => b.eth | none => hasEth s.fuses.variant

/-- Eligible slots, ascending (13 "Election and roles", R780). -/
def eligible (s : State) : List SlotId :=
  let h := (fins 16).filter (healthy s)
  if h.any (slotEth s) then h.filter (slotEth s) else h

/-- No hold on role requests runs (R771, R775, R777). -/
def mayAskRole (s : State) : Bool := s.island.noReqUntil == 0 || reached s s.island.noReqUntil

/-- Send a ROLE_REQUEST to a slot. -/
def requestRole (s : State) (dest : SlotId) : State := sendTray (modIsland s fun i => { i with roleReq := some (now s) }) (some dest) .roleRequest

/-- STAT_TOGGLE (R766, R767, R772, R876): the firmware kicks the watchdog and the square wave toggles; an error holds it low. A kick that
comes late starts an image's trial time again. -/
def execStatToggle (s : State) : Res' :=
  .next <|
    if !islandRuns s || now s % 1228800 != 0 then s
    else
    let s := if passed s s.island.statKick 2457601 then modIsland s fun i => { i with trialAt := now s } else s
    if statError s then
      let s1 := modIsland s fun i => { i with statOut := .low, statKick := now s }
      match s1.island.standby with
      | some d => if s1.island.role == .primary && s1.island.roleReq.isNone && s1.island.swapAt.isNone && mayAskRole s1 then requestRole s1 d else s1
      | none => s1
    else modIsland s fun i => { i with statOut := .wave (now s / 1228800 % 2 == 1), statKick := now s }

/-- STAT_WATCHDOG_EXPIRY (R766). -/
def execStatWatchdogExpiry (s : State) : Res' :=
  .next <| if !islandRuns s || !passed s s.island.statKick 4915200 then s else modIsland s fun i => { i with statOut := .high }

/-- One sample of one STAT_IN input (R768). -/
def statSample (t : Tick) (x : StatIn) (lv : Bool) : StatIn :=
  let y := if x.level == lv then x else { x with level := lv, since := t, rise := if lv then some t else x.rise, fall := if lv then x.fall else some t }
  let recent (o : Option Tick) : Bool := match o with | some a => decide (apart a t ≤ 3686400) | none => false
  let cls := if recent y.rise && recent y.fall then .healthy
    else if 7372800 ≤ apart y.since t then (if lv then .hung else .error)
    else y.cls
  { y with cls := cls }

/-- STAT_IN_SAMPLE (R768). -/
def execStatInSample (levels : BitVec 16) (s : State) : Res' :=
  .next <| if !inTray s then s else modIsland s fun i => { i with statIn := vmapIdx (fun n x => statSample (now s) x (levels.getLsbD n)) i.statIn }

/-! ## Roles (R769 to R785) -/

/-- Code of a role in events and records. -/
def roleCode : Role → Nat
  | .none => 0 | .primary => 1 | .standby => 2

/-- Write a role change to the steward log (0x0502). -/
def logRole (s : State) (r : Role) (cause : Nat) (peer : Nat) : State := logIsland s 0x0502 0xFF 0 (put 0 1 (roleCode r) + put 1 1 cause + put 2 1 peer)

/-- The dies and caps a new primary goes on with (R774): after an election none. After a swap or a takeover, the dies whose slots are not
in error and the old primary's, each with the cap this die holds, until their STATE says otherwise (log entry 133). -/
def startPrimary (s : State) (cause peer : Nat) : State :=
  let goesOn := cause == 1 || cause == 2
  let up (n : SlotId) : Bool := goesOn &&
    (if n == s.island.slot then s.seq.state != .s0 && s.seq.state != .s1 else n.1 == peer || (s.island.statIn.get n).cls != .error)
  let mw := s.power.stewardCap.getD (match s.island.trayCapW with | some w => min 130000 (w * 1000 / max 1 s.island.fitted) | none => 130000)
  modIsland s fun i => { i with
    tray := Vector.replicate 16 none, pushes := Vector.replicate 16 none, capAt := now s, counted := (fins 16).filter up
    caps := vmapIdx (fun k _ => if (fins 16).any fun n => n.1 == k && up n then mw else 0) i.caps }

/-- Take a role: the primary arms its cooling watchdog, every other role disarms it (R782). -/
def takeRole (s : State) (r : Role) (cause peer : Nat) : State :=
  if s.island.role == r then s
  else
    let s1 := if r == .primary then startPrimary s cause peer else s
    logRole (modIsland s1 fun i => { i with
      role := r, coolArmed := r == .primary, coolKick := if r == .primary then now s else i.coolKick
      coolMax := if r == .primary then i.coolMax else false, beatAt := if r == .primary then now s + 2 ^ 64 - 2457600 else i.beatAt }) r cause peer

/-- ROLE_CHANGED with KIND 2, where the firmware can post it. -/
def roleEvent (s : State) (r : Role) (peer : Nat) : State :=
  if ready s then postEvent s 0x33 (put 16 1 2 + put 18 1 (roleCode r) + put 20 2 peer) else s

/-- A slot as a byte, 0xFF for none. -/
def slotOr (o : Option SlotId) : Nat := match o with | some n => n.1 | none => 0xFF

/-- ELECTION (R769, R770, R776). -/
def execElection (s : State) : Res' :=
  .next <|
    if !inTray s || s.island.elected || !passed s s.island.startAt 24576000 then s
    else if s.island.beatSeen then modIsland s fun i => { i with elected := true }
    else
      let l := eligible s
      let p := l.head?
      let b := (l.drop 1).head?
      let s1 := modIsland s fun i => { i with elected := true, primary := p, standby := b }
      let r : Role := if p == some s.island.slot then .primary else if b == some s.island.slot then .standby else .none
      tryAscend (takeRole s1 r 0 (if r == .primary then slotOr b else slotOr p))

/-- The HEARTBEAT the primary sends (Table 13-3, R813). -/
def beatOf (s : State) : Beat :=
  { primary := s.island.slot, standby := s.island.standby, trayCapW := s.island.trayCapW, demand := s.island.demand, slope := s.power.slope
    warnOff := s.power.entryOff.get 0, throttleOff := s.power.entryOff.get 1, criticalOff := s.power.entryOff.get 2
    stewardHalf := s.power.stewardHalf, gen := s.island.gen, seqMark := s.island.seqMark }

/-- Send a HEARTBEAT now; the primary's own count as received (R784). -/
def sendBeat (s : State) : State :=
  let s1 := sendTray s none (.heartbeat (beatOf s))
  modIsland s1 fun i => { i with beatAt := now s, lastBeat := now s, beatSeen := true, shutdownAt := none, shutDone := false }

/-- HEARTBEAT_SEND (R769). -/
def execHeartbeatSend (s : State) : Res' :=
  .next <| if !inTray s || s.island.role != .primary || !passed s s.island.beatAt 2457600 then s else sendBeat s

/-- A tray message with a bad PEC is dropped and counted (R764). -/
def dropBadPec (s : State) (kind : Nat) : State :=
  logIsland (modIsland s fun i => { i with pecDropped := i.pecDropped + 1 }) 0x0509 0xFF 1 (put 0 1 kind + put 4 4 (s.island.pecDropped + 1))

/-- Take a tray message of a kind. -/
def onTray (s : State) (t : TrayHead) (kind : Nat) (f : State → State) : State :=
  if !inTray s then s else if !t.pecOk then dropBadPec s kind else f s

/-- The stored floor above a SEQ, raised in steps of 65,536 (R813). -/
def floorAbove (floor seq : Nat) : Nat := if floor ≤ seq then floor + ((seq - floor) / 65536 + 1) * 65536 else floor

/-- Put the values the primary sets on every die in force here (R721, R740, R808). A STEWARD limit being lowered lets the current fall
unshaped (R725). -/
def stewardValues (s : State) (slope : Nat) (off : Vector Nat 3) (half : Bool) : State :=
  limitCheck (applySteward { s with power := { s.power with
    slope := slope, entryOff := off, stewardHalf := half, unshaped := s.power.unshaped || (half && !s.power.stewardHalf) } })

/-- TRAY_HEARTBEAT (R721, R740, R770, R774, R784, R808, R813). -/
def execTrayHeartbeat (t : TrayHead) (b : Beat) (s : State) : Res' :=
  .next <| onTray s t 0x01 fun s =>
    if s.island.role == .primary && decide (s.island.slot.1 < t.src.1) then s
    else
      let own := s.island.slot
      let r : Role := if b.primary == own then .primary else if b.standby == some own then .standby else .none
      let s1 := modIsland s fun i => { i with
        primary := some b.primary, standby := b.standby, trayCapW := b.trayCapW, demand := b.demand, gen := max i.gen b.gen
        seqMark := max i.seqMark b.seqMark, seqFloor := if i.seqMark < b.seqMark then floorAbove i.seqFloor b.seqMark else i.seqFloor, lastBeat := now s, beatSeen := true, shutdownAt := none, shutDone := false }
      stewardValues (takeRole s1 r 0 b.primary.1) b.slope #v[b.warnOff, b.throttleOff, b.criticalOff] b.stewardHalf

/-! ## STATE and caps (R802 to R807) -/

/-- An on request waits for admission (R806). -/
def onPending (s : State) : Bool := s.seq.request == some true && !s.island.admitted && (s.seq.state == .s0 || s.seq.state == .s1)

/-- This die's STATE (Table 13-3). -/
def stateOfDie (s : State) : TrayStateBody :=
  { seqState := seqCode (shownState s), estMw := total s.power.estHist / max 1 s.power.estHist.length, capMw := s.power.stewardCap
    leak := s.island.leakLatch, pdn := s.seq.pdn.toList.any (·.alarm), eth := hasEth s.fuses.variant, healthy := !statError s
    onPending := onPending s, hottest := (sensorsOf s).foldl (fun a n => max a (s.power.sensors.get n).reading) (-640) }

/-- Dies fitted in the tray set the range of C (R802). -/
def capRangeOk (s : State) (w : Nat) : Bool := decide (15 * s.island.fitted ≤ w) && decide (w ≤ 130 * s.island.fitted)

/-- Lower the largest cap by 1 mW, k times (R802); of equal ones the lowest slot's (log entry 154). -/
def shave : Nat → List (SlotId × Nat) → List (SlotId × Nat)
  | 0, l => l
  | k + 1, l =>
    let m := maxOf 0 (l.map (·.2))
    match l.find? fun x => x.2 == m with
    | some x => shave k (l.map fun y => if y.1 == x.1 then (y.1, y.2 - 1) else y)
    | none => l

/-- The caps of a set of dies that share `mw` milliwatts (R802). Without a tray cap each die may draw 130,000 mW. -/
def shareCaps (s : State) (mw : Option Nat) (l : List SlotId) : List (SlotId × Nat) :=
  match mw with
  | none => l.map fun n => (n, 130000)
  | some c =>
    if !s.island.demand then l.map fun n => (n, min 130000 (c / max 1 l.length))
    else
      let d (n : SlotId) := max 15000 (min 130000 (((s.island.tray.get n).map (·.estMw)).getD 0 * 110 / 100 + 5000))
      let sum := total (l.map d)
      let caps := l.map fun n => (n, max 15000 (min 130000 (c * d n / max 1 sum)))
      shave (total (caps.map (·.2)) - c) caps

/-- A push that was given up: the die counts as holding the higher cap (R807). -/
def gaveUp (s : State) (n : SlotId) : Bool := match s.island.pushes.get n with | some p => decide (4 ≤ p.tries) && p.sentAt.isNone | none => false

/-- A push to a slot is open: it waits to be sent, or has been sent and is not acknowledged. -/
def pushing (s : State) (n : SlotId) : Bool := (s.island.pushes.get n).isSome && !gaveUp s n

/-- The caps of the counted dies. -/
def computeCaps (s : State) : List (SlotId × Nat) :=
  let stuck := s.island.counted.filter (gaveUp s)
  let held := total (stuck.map fun n => s.island.caps.get n)
  shareCaps s (s.island.trayCapW.map fun w => w * 1000 - held) ((s.island.counted.filter fun n => !gaveUp s n).insertionSort (·.1 ≤ ·.1))

/-- A push waits to be sent, or has been sent and not acknowledged. -/
def openPushes (s : State) : List (SlotId × CapPush) :=
  (fins 16).filterMap fun n => match s.island.pushes.get n with | some p => if gaveUp s n then none else some (n, p) | none => none

/-- The island applies a CAP as its steward cap, and says so (R805, Table 10-22). -/
def applyOwnCap (s : State) (mw : Nat) : State :=
  let s1 := limitCheck { s with power := { s.power with stewardCap := some mw } }
  notify s1 0x08 (slotByte s1) (put 20 4 mw + put 24 4 (s.island.trayCapW.getD 0))

/-- A CAP counts toward the admission of this die: a latched request is admitted, else the CAP stands ahead of a POWER on. -/
def capAdmits (s : State) : State :=
  if s.seq.request == some true then tryAscend (modIsland s fun i => { i with admitted := true, capAfterRequest := false })
  else modIsland s fun i => { i with capAfterRequest := true }

/-- An on request carried by POWER, after the CAP that admits it. -/
def powerOnHere (s : State) : State :=
  let s1 := if s.island.capAfterRequest then modIsland s fun i => { i with admitted := true, capAfterRequest := false } else s
  requestOn s1

/-- Note a slot's cap as in force, and power it on where the push was for that. -/
def capInPlace (s : State) (n : SlotId) (p : CapPush) : State :=
  let s1 := modIsland s fun i => { i with caps := vmod i.caps n fun _ => p.cap, pushes := vmod i.pushes n fun _ => none }
  if !p.powerOn then s1
  else if n == s.island.slot then powerOnHere s1
  else sendTray s1 (some n) (.power true)

/-- Send one CAP; the primary's own applies at once. -/
def sendCap (s : State) (n : SlotId) (p : CapPush) : State :=
  if n == s.island.slot then capInPlace (capAdmits (applyOwnCap s p.cap)) n p
  else sendTray (modIsland s fun i => { i with pushes := vmod i.pushes n fun _ => some { p with tries := p.tries + 1, sentAt := some (now s) } })
    (some n) (.cap p.cap p.gen)

/-- Send what may be sent: decreases first, then increases, then the caps of dies being admitted (R804, R806). -/
def sendDue (s : State) : State :=
  let l := openPushes s
  let dec := l.filter fun x => decide (x.2.cap < x.2.old)
  let inc := l.filter fun x => decide (x.2.old ≤ x.2.cap) && x.2.old != 0
  let due := if !dec.isEmpty then dec else if !inc.isEmpty then inc else l
  (due.filter fun x => x.2.sentAt.isNone).foldl (fun t x => sendCap t x.1 x.2) s

/-- The cap a slot is to have: that of its open push, else the one in force. -/
def slotCap (s : State) (n : SlotId) : Nat :=
  match s.island.pushes.get n with | some p => if gaveUp s n then s.island.caps.get n else p.cap | none => s.island.caps.get n

/-- The push of a new cap to a slot. One that was sent and not acknowledged may be in force already: the new cap is a decrease against
the higher. -/
def newPush (s : State) (g : Nat) (powerOn : Option SlotId) (n : SlotId) (mw : Nat) : CapPush :=
  let c := s.island.caps.get n
  match s.island.pushes.get n with
  | some p => ⟨mw, if p.sentAt.isSome then max c p.cap else c, g, 0, none, p.powerOn || powerOn == some n⟩
  | none => ⟨mw, c, g, 0, none, powerOn == some n⟩

/-- Compute the caps and queue those that change, as one generation. -/
def pushCaps (s : State) (powerOn : Option SlotId) : State :=
  let g := s.island.gen + 1
  let l := (computeCaps s).filter fun x => x.2 != slotCap s x.1 || powerOn == some x.1
  let s1 := l.foldl (fun t x => modIsland t fun i => { i with pushes := vmod i.pushes x.1 fun _ => some (newPush s g powerOn x.1 x.2) })
    (modIsland s fun i => { i with gen := g })
  sendDue s1

/-- Count a slot, with its cap pushed; a push to it that was given up is forgotten. -/
def countSlot (s : State) (n : SlotId) (powerOn : Bool) : State :=
  pushCaps (modIsland s fun i => { i with
    counted := if i.counted.contains n then i.counted else i.counted ++ [n]
    pushes := vmod i.pushes n fun p => if gaveUp s n then none else p }) (if powerOn then some n else none)

/-- Every healthy slot has sent a STATE to this primary. -/
def allKnown (s : State) : Bool := (fins 16).all fun n => !healthy s n || (s.island.tray.get n).isSome

/-- The primary takes a die's STATE (R802, R803, R805, R806). A die that waits for admission is counted and pushed its CAP; one in S1 is
counted no longer; one that runs is counted with the cap it holds, which is not pushed again (R774). The caps are computed again where
the counted dies changed, once every healthy slot is known. -/
def takeState (s : State) (n : SlotId) (b : TrayStateBody) : State :=
  let s1 := modIsland s fun i => { i with tray := vmod i.tray n fun _ => some b }
  if pushing s n then s1
  else if b.onPending then countSlot (modIsland s1 fun i => { i with caps := vmod i.caps n fun _ => 0 }) n false
  else
    let was := s.island.counted.contains n
    let s2 :=
      if b.seqState ≤ 1 then modIsland s1 fun i => { i with
        counted := i.counted.filter (· != n), caps := vmod i.caps n fun _ => 0, pushes := vmod i.pushes n fun _ => none }
      else modIsland s1 fun i => { i with
        counted := if was then i.counted else i.counted ++ [n]
        caps := vmod i.caps n fun c => if gaveUp s n then c else b.capMw.getD 130000 }
    if (was != decide (1 < b.seqState) || !allKnown s) && allKnown s2 then pushCaps s2 none else s2

/-- STATE_SEND (Table 13-3, R806). -/
def execStateSend (s : State) : Res' :=
  .next <|
    let due := passed s s.island.stateAt 2457600 || (onPending s && decide (s.island.stateAt < s.seq.requestAt))
    if !inTray s || !due then s
    else
      let b := stateOfDie s
      let s1 := modIsland s fun i => { i with stateAt := now s }
      if s.island.role == .primary then takeState s1 s.island.slot b
      else sendTray s1 s.island.primary (.state b)

/-- TRAY_STATE (R802, R803, R806): only the primary takes it. -/
def execTrayState (t : TrayHead) (b : TrayStateBody) (s : State) : Res' :=
  .next <| onTray s t 0x02 fun s => if s.island.role != .primary then s else takeState s t.src b

/-- TRAY_CAP (R805, R806). -/
def execTrayCap (t : TrayHead) (capMw gen : Nat) (s : State) : Res' :=
  .next <| onTray s t 0x03 fun s => capAdmits (sendTray (applyOwnCap s capMw) (some t.src) (.capAck gen))

/-- CAP_ACK (R804). -/
def execCapAck (t : TrayHead) (gen : Nat) (s : State) : Res' :=
  .next <| onTray s t 0x04 fun s =>
    match s.island.pushes.get t.src with
    | some p => if s.island.role == .primary && p.gen == gen then sendDue (capInPlace s t.src p) else s
    | none => s

/-- CAP_RESEND (R807): sent again up to three times, then given up. -/
def execCapResend (n : SlotId) (s : State) : Res' :=
  .next <|
    match s.island.pushes.get n with
    | none => s
    | some p => match p.sentAt with
      | none => s
      | some t =>
        if !inTray s || s.island.role != .primary || !passed s t 245760 then s
        else if p.tries < 4 then sendCap s n p
        else
          let s1 := modIsland s fun i => { i with
            caps := vmod i.caps n fun _ => max p.cap p.old, pushes := vmod i.pushes n fun _ => some { p with sentAt := none } }
          pushCaps (logIsland s1 0x0506 0xFF 1 (put 0 1 n.1 + put 4 4 p.cap)) none

/-- CAP_RECOMPUTE (R803). -/
def execCapRecompute (s : State) : Res' :=
  .next <|
    if !inTray s || s.island.role != .primary || !s.island.demand || !passed s s.island.capAt 2457600 then s
    else pushCaps (modIsland s fun i => { i with capAt := now s }) none

/-! ## Role exchange (R771 to R779) -/

/-- TRAY_ROLE_REQUEST (R773, R777). -/
def execTrayRoleRequest (t : TrayHead) (s : State) : Res' :=
  .next <| onTray s t 0x05 fun s =>
    if s.island.roleReq.isSome then
      modIsland s fun i => { i with roleReq := none, noReqUntil := now s + (if i.slot.1 < t.src.1 then 24576 else 49152) }
    else if s.island.role == .none || s.island.swapAt.isSome then s
    else sendTray (modIsland s fun i => { i with swapAt := some (now s + 245760) }) (some t.src) (.roleAccept (now s + 245760))

/-- TRAY_ROLE_ACCEPT (R773). -/
def execTrayRoleAccept (t : TrayHead) (swap : Nat) (s : State) : Res' :=
  .next <| onTray s t 0x06 fun s =>
    if s.island.roleReq.isNone then s else modIsland s fun i => { i with roleReq := none, swapAt := some swap }

/-- TRAY_ROLE_SWAP (R773, R774). -/
def execTrayRoleSwap (s : State) : Res' :=
  .next <|
    match s.island.swapAt with
    | none => s
    | some t =>
      if !inTray s || !reached s t || s.island.role == .none then s
      else
        let r : Role := if s.island.role == .primary then .standby else .primary
        let peer := if s.island.role == .primary then s.island.standby else s.island.primary
        let s1 := modIsland s fun i => { i with swapAt := none, primary := i.standby, standby := i.primary }
        roleEvent (takeRole s1 r 1 (slotOr peer)) r (slotOr peer)

/-- TRAY_ROLE_REQUEST_TIMEOUT (R775). -/
def execTrayRoleRequestTimeout (s : State) : Res' :=
  .next <|
    match s.island.roleReq with
    | none => s
    | some t => if !passed s t 2457600 then s else modIsland s fun i => { i with roleReq := none, noReqUntil := now s + 24576000 }

/-- The standby should take the primary role (R771). -/
def wantsPrimary (s : State) : Bool :=
  s.island.role == .standby && s.island.roleReq.isNone && s.island.swapAt.isNone && mayAskRole s
    && (match s.island.primary with | some p => decide (s.island.slot.1 < p.1) | none => false)

/-- Ask the primary for its role. -/
def askPrimary (s : State) : State := match s.island.primary with | some p => if wantsPrimary s then requestRole s p else s | none => s

/-- TRAY_ROLE_HOLDOFF_EXPIRY (R777). -/
def execTrayRoleHoldoffExpiry (s : State) : Res' :=
  .next <| if !inTray s || s.island.noReqUntil == 0 || !reached s s.island.noReqUntil then s else askPrimary (modIsland s fun i => { i with noReqUntil := 0 })

/-- STANDBY_NAMED (R771, R779). -/
def execStandbyNamed (t : TrayHead) (n : SlotId) (s : State) : Res' :=
  .next <| onTray s t 0x07 fun s =>
    let s1 := modIsland s fun i => { i with standby := some n }
    if n == s.island.slot then takeRole s1 .standby 0 t.src.1
    else if s.island.role == .standby then takeRole s1 .none 0 t.src.1 else s1

/-- The primary names a standby. -/
def nameStandby (s : State) (n : Option SlotId) : State :=
  match n with
  | some d => sendTray (modIsland s fun i => { i with standby := some d }) none (.standbyNamed d)
  | none => modIsland s fun i => { i with standby := none }

/-- PRIMARY_RERANK (R771). -/
def execPrimaryRerank (s : State) : Res' :=
  .next <|
    if !inTray s then s
    else if s.island.role == .primary then
      let others := (eligible s).filter (· != s.island.slot)
      let stale := match s.island.standby, others.head? with
        | some b, some d => decide (d.1 < b.1) || !others.contains b
        | some _, none => true
        | none, some _ => true
        | none, none => false
      if stale then nameStandby s others.head? else s
    else askPrimary s

/-- TRAY_POWER (R909, Table 11-6). -/
def execTrayPower (t : TrayHead) (on : Bool) (s : State) : Res' := .next <| onTray s t 0x08 fun s => if on then powerOnHere s else requestOff s

/-- A slot the primary should power on (R909). -/
def wantsPower (s : State) (n : SlotId) : Bool :=
  healthy s n && !s.island.markedOff.contains n && !pushing s n && !s.island.counted.contains n &&
    (if n == s.island.slot then shownState s == .s1 && s.seq.step.isNone
     else match s.island.tray.get n with | some b => b.seqState == 1 | none => false)

/-- TRAY_POWER_ON_SEQUENCE (R806, R909): one slot every 245,760 ticks, ascending. -/
def execTrayPowerOnSequence (s : State) : Res' :=
  .next <|
    if !inTray s || s.island.role != .primary || !reached s s.island.nextPower then s
    else match (fins 16).find? (wantsPower s) with
      | none => s
      | some n => countSlot (modIsland s fun i => { i with nextPower := now s + 245760 }) n true

/-- PRIMARY_VACANT (R778, R781). -/
def execPrimaryVacant (s : State) : Res' :=
  .next <|
    let bad := match s.island.primary with | some p => (s.island.statIn.get p).cls != .healthy | none => false
    if !inTray s || s.island.role != .standby || !(passed s s.island.lastBeat 12288000 || bad) then s
    else
      let old := slotOr s.island.primary
      let s1 := modIsland s fun i => { i with roleReq := none, swapAt := none, primary := some i.slot }
      let s2 := sendBeat (takeRole s1 .primary 2 old)
      let s3 := nameStandby s2 ((eligible s2).filter (· != s2.island.slot)).head?
      notify (roleEvent s3 .primary old) 0x07 (slotByte s3) (put 20 1 s3.island.slot.1)

/-! ## Cooling (R782 to R787) -/

/-- COOLING_WATCHDOG_STAGE1 (R782). -/
def execCoolingWatchdogStage1 (s : State) : Res' :=
  .next <| if !s.island.coolArmed || s.island.coolMax || !passed s s.island.coolKick 49152000 then s else
    notify (modIsland s fun i => { i with coolMax := true }) 0x06 (slotByte s) 0

/-- An island core reset (R760, R785): only the island's own firmware restarts, with no role. -/
def islandCoreReset (s : State) : State :=
  modIsland s fun i => { islandStored i with
    trayEn := i.trayEn, slot := i.slot, elected := true, leak := i.leak, leakLatch := i.leakLatch, kill := i.kill, cable := i.cable
    lamps := i.lamps, notices := i.notices, noticesLost := i.noticesLost, admitted := i.admitted, startAt := now s, lastBeat := now s }

/-- COOLING_WATCHDOG_STAGE2 (R782). -/
def execCoolingWatchdogStage2 (s : State) : Res' :=
  .next <| if !s.island.coolArmed || !s.island.coolMax || !passed s s.island.coolKick 98304000 then s else islandCoreReset s

/-- HEARTBEAT_LOSS_SHUTDOWN (R784). -/
def execHeartbeatLossShutdown (s : State) : Res' :=
  .next <|
    if !inTray s || s.island.role == .primary || s.island.shutdownAt.isSome || s.island.shutDone || !passed s s.island.lastBeat 737280000 then s
    else
      let at_ := now s + s.island.slot.1 * 2457600
      notify (modIsland s fun i => { i with shutdownAt := some at_ }) 0x0B (slotByte s) (put 20 4 (at_ - now s))

/-- ORDERED_POWERDOWN_START (R784, Table 13-6): this die's moment, or the moments of slots whose tray the primary takes down. -/
def execOrderedPowerdownStart (s : State) : Res' :=
  .next <|
    if !inTray s then s
    else
      let s1 := match s.island.shutdownAt with
        | some t => if reached s t then requestOff (modIsland s fun i => { i with shutdownAt := none, shutDone := true }) else s
        | none => s
      match s1.island.trayDown with
      | some t =>
        let n := s1.island.trayDownNext
        if s1.island.role != .primary || decide (15 < n) || !passed s t (n * 2457600) then s1
        else
          let d : SlotId := ⟨n % 16, Nat.mod_lt _ (by decide)⟩
          let s2 := modIsland s1 fun i => { i with trayDownNext := n + 1, markedOff := if i.markedOff.contains d then i.markedOff else i.markedOff ++ [d] }
          if d == s2.island.slot then requestOff s2 else sendTray s2 (some d) (.power false)
      | none => s1

/-- A coolant input's history after a reading (Table 13-6). -/
def coolSample (t : Tick) (l : CoolLimits) (c : Coolant) (raw : Nat) : Coolant :=
  let since (b : Bool) (o : Option Tick) : Option Tick := if b then (match o with | some x => some x | none => some t) else none
  let warn := decide (raw < l.warnLo) || decide (l.warnHi < raw)
  let crit := decide (raw < l.critLo) || decide (l.critHi < raw)
  { c with warnSince := since warn c.warnSince, critSince := since crit c.critSince, okSince := since (!warn) c.okSince }

/-- AIN_SAMPLE (R782, R786, R787): the primary's cooling loop, which kicks the cooling watchdog. -/
def execAinSample (n : Fin 8) (raw : Nat) (s : State) : Res' :=
  .next <|
    if !islandRuns s then s
    else
      let s1 := modIsland s fun i => { i with ain := vmod i.ain n fun _ => min raw 4095 }
      if s1.island.role != .primary then s1
      else
        let k : Fin 4 := ⟨n.1 % 4, Nat.mod_lt _ (by decide)⟩
        let s2 := if n.1 < 4 && s1.island.limitsOk then
            modIsland s1 fun i => { i with coolant := vmod i.coolant k fun c => coolSample (now s) (i.coolLimits.get k) c (min raw 4095) }
          else s1
        let hot := s2.island.tray.toList.foldl (fun a b => match b with | some x => max a x.hottest | none => a) (-640)
        let duty := if s2.island.coolant.toList.any (·.warned) then 100 else max 20 (min 100 (Config.coolLaw hot (s2.island.ain.get 1) s2.free))
        modIsland { s2 with free := s2.free + 1 } fun i => { i with coolDuty := duty, coolKick := now s, coolMax := false }

/-- An input has been beyond a limit, or back within it, for a time. -/
def forTicks (s : State) (o : Option Tick) (n : Nat) : Bool := match o with | some t => passed s t n | none => false

/-- COOLANT_WARN (Table 13-6). -/
def execCoolantWarn (n : Fin 4) (s : State) : Res' :=
  .next <|
    let c := s.island.coolant.get n
    if !inTray s || s.island.role != .primary || !s.island.limitsOk || c.warned || !forTicks s c.warnSince 24576000 then s
    else
      let d := put 20 1 n.1 + put 22 2 (s.island.ain.get ⟨n.1, by omega⟩)
      let s1 := modIsland s fun i => { i with coolant := vmod i.coolant n fun c => { c with warned := true }, coolDuty := 100 }
      wairiqNotice (noticeAll s1 0x05 (slotByte s) d) 0x05 (slotByte s) d

/-- COOLANT_CRITICAL (Table 13-6, R740, R808). -/
def execCoolantCritical (n : Fin 4) (s : State) : Res' :=
  .next <|
    let c := s.island.coolant.get n
    if !inTray s || s.island.role != .primary || !s.island.limitsOk || c.critical || !forTicks s c.critSince 24576000 then s
    else sendBeat (stewardValues (modIsland s fun i => { i with coolant := vmod i.coolant n fun c => { c with critical := true } })
      s.power.slope #v[20, 20, 20] true)

/-- COOLANT_CRITICAL_SHUTDOWN (Table 13-6). -/
def execCoolantCriticalShutdown (s : State) : Res' :=
  .next <|
    let due := s.island.coolant.toList.any fun c => c.critical && forTicks s c.critSince 1474560000
    if !inTray s || s.island.role != .primary || s.island.trayDown.isSome || !due then s
    else modIsland s fun i => { i with trayDown := some (now s), trayDownNext := 0 }

/-- COOLANT_RESTORED (Table 13-6). -/
def execCoolantRestored (n : Fin 4) (s : State) : Res' :=
  .next <|
    let c := s.island.coolant.get n
    if !inTray s || s.island.role != .primary || !c.warned || !forTicks s c.okSince 245760000 then s
    else
      let s1 := modIsland s fun i => { i with coolant := vmod i.coolant n fun c => { c with warned := false, critical := false } }
      let s2 := if s1.island.coolant.toList.any (·.critical) then s1
        else sendBeat (stewardValues (modIsland s1 fun i => { i with trayDown := none }) s.power.slope s.island.thermOff false)
      wairiqNotice s2 0x05 (slotByte s) (put 20 1 n.1 + put 22 2 (s.island.ain.get ⟨n.1, by omega⟩))

/-! ## Leak cut-off (R788 to R795) -/

/-- Index of a leak input: LEAK_A, LEAK_B. -/
def leakIdx (b : Bool) : Fin 2 := if b then 1 else 0

/-- A leak trip while a sequence ascends or descends is a rail loss (R687, R795); the domain it names is a free value. -/
def leakRailLoss (s : State) : State :=
  if s.seq.step.isNone then s
  else
    let f := takeFree s
    hardDescent (recordSeqFault f.2 (f.1 % 256))

/-- LEAK_TRIP (R788, R789, R795, Table 13-7): an enabled input below its threshold for its filter time. -/
def execLeakTrip (b : Bool) (s : State) : Res' :=
  .next <|
    let l := s.island.leak.get (leakIdx b)
    if !l.enabled || s.seq.aonRst then s
    else
      let first := !s.island.leakLatch
      let s1 := modIsland s fun i => { i with
        leakLatch := true, kill := true, leak := vmod i.leak (leakIdx b) fun l => { l with wet := true, isOpen := false, dryAt := some (now s) } }
      if !first then s1
      else
        let d := if b then 2 else 1
        let s2 := notify (logIsland s1 0x0508 0xFF 2 (put 0 1 d)) 0x04 (slotByte s) (put 20 1 d)
        leakRailLoss (wairiqNotice s2 0x04 (slotByte s) (put 20 1 d))

/-- LEAK_SENSOR_OPEN (R794). The spec gives its Wairiq NOTICE no code: a free value (log entry 8). -/
def execLeakSensorOpen (b : Bool) (s : State) : Res' :=
  .next <|
    let l := s.island.leak.get (leakIdx b)
    if !l.enabled || l.isOpen || !islandRuns s then s
    else
      let s1 := modIsland s fun i => { i with leak := vmod i.leak (leakIdx b) fun l => { l with isOpen := true } }
      let f := takeFree (logIsland s1 0x0503 0xFF 1 (put 0 1 (leakIdx b).1))
      wairiqNotice f.2 (f.1 % 256) (slotByte s) (put 20 1 (leakIdx b).1)

/-- Both enabled inputs have been above their thresholds for 10 s (R793). -/
def leaksDry (s : State) : Bool :=
  s.island.leak.toList.all fun l => !l.enabled || (match l.dryAt with | some t => passed s t 245760000 | none => true)

/-- Clear the latch where R793 allows it. -/
def clearLeakHere (s : State) : State :=
  if leaksDry s then modIsland s fun i => { i with leakLatch := false, kill := false, leak := vmap (fun l => { l with wet := false, dryAt := none }) i.leak } else s

/-! ## Lamps (R799 to R801) -/

/-- The duty a lamp shows: LAMP0 shows the fault duty while STAT_OUT is held low. -/
def lampDuty (s : State) (n : LampId) : Nat := if n == 0 && statLine s == .low then s.island.faultDuty else (s.island.lamps.get n).duty

/-- One PWM period of a lamp: its on-time in microseconds, and the lamp after it. -/
def lampPeriod (t : Tick) (duty : Nat) (l : Lamp) : Nat × Lamp :=
  let normal := 5 * duty
  if 24576000 ≤ apart l.checkAt t then
    let l1 := { l with checkAt := t }
    if 8 ≤ duty then (normal, { l1 with testDue := true })
    else if duty != 0 then (40, { l1 with testDue := true, owed := l.owed + (40 - normal) })
    else if l.dark then (40, { l1 with testDue := true })
    else (0, l1)
  else
    let cut := min l.owed normal
    (normal - cut, { l with owed := l.owed - cut })

/-- LAMP_PWM_PERIOD (R799, R800). -/
def execLampPwmPeriod (n : LampId) (s : State) : Res' :=
  .next <|
    if !islandRuns s || now s % 122880 != 0 then s
    else
      let s1 := modIsland s fun i => { i with lamps := vmod i.lamps n fun l => match l.next with
        | some d => { l with duty := d, next := none, owed := 0 }
        | none => l }
      let r := lampPeriod (now s) (lampDuty s1 n) (s1.island.lamps.get n)
      emit (modIsland s1 fun i => { i with lamps := vmod i.lamps n fun _ => r.2 }) (.lamp n r.1)

/-- LAMP_OPEN_CHECK (R800, R801): the current over the last 10 µs of the pulse, in microamperes. -/
def execLampOpenCheck (n : LampId) (currentUa : Nat) (s : State) : Res' :=
  .next <|
    let l := s.island.lamps.get n
    if !islandRuns s || !l.testDue then s
    else
      let pass := if lampDuty s n == 0 then decide (500 ≤ currentUa) else decide (l.driveUa ≤ 2 * currentUa)
      let set (f : Lamp → Lamp) : State := modIsland s fun i => { i with lamps := vmod i.lamps n fun l => { f l with testDue := false } }
      if pass then
        let s1 := set fun l => { l with fails := 0, isOpen := false }
        if l.isOpen then logIsland s1 0x0504 0xFF 0 (put 0 1 n.1) else s1
      else
        let s1 := set fun l => { l with fails := l.fails + 1, isOpen := l.isOpen || decide (3 ≤ l.fails + 1) }
        if !l.isOpen && decide (3 ≤ l.fails + 1) then notify (logIsland s1 0x0501 0xFF 1 (put 0 1 n.1)) 0x03 (slotByte s) (put 20 1 n.1) else s1

/-- Set a lamp's duty code, which takes effect at its next period (R799). -/
def setLamp (s : State) (n : LampId) (duty : Nat) : State := modIsland s fun i => { i with lamps := vmod i.lamps n fun l => { l with next := some duty } }

end Sys2Proof.Machine
end

