-- ==== Sys2Proof/Machine/Leader.lean ====
section
/-! DEFINITION. The time root, the first hop toward it, and the leader's role on each link (01 R74 to R83, 06 R377 to R383, 15 R913 to
R915, R920, R923). -/

namespace Sys2Proof.Machine

/-! ## Links and the shape (R343) -/

/-- The link of a port, named by its + end and its − end. -/
def linkOf (f : Fabric) (p : PortId) : FabId × FabId :=
  let d := portDim p
  let plus := p.1 % 2 == 0
  let n := max 1 (ringSize f d)
  let c := coordOf f.id d
  if plus then (f.id, withCoord f.id d ((c + 1) % n)) else (withCoord f.id d ((c + n - 1) % n), f.id)

/-- The die that faces a port by the shape; none at the end of a chain or in a dimension of size 1. -/
def facing (f : Fabric) (p : PortId) : Option FabId :=
  let d := portDim p
  if ringSize f d ≤ 1 then none else (nextCoord f d (p.1 % 2 == 0) (coordOf f.id d)).map (withCoord f.id d)

/-- Ports of this die that have a neighbour in the shape. -/
def shapePorts (s : State) : List PortId := (fins 8).filter fun p => hasPort s.fuses.variant p.1 && (facing s.fabric p).isSome

/-- A port is ACTIVE, or trains again after it left ACTIVE and is not declared DOWN. -/
def linkHolds (s : State) (p : PortId) : Bool := (s.fabric.ports.get p).st == .active || (s.fabric.ports.get p).st == .retraining

/-- Some link of the die holds. -/
def linked (s : State) : Bool := (fins 8).any (linkHolds s)

/-! ## Time states (Table 1-4, R81, R83) -/

/-- The time state, seen behind REF_LOST: the one to which the return of the reference leads back. -/
def timeBase (s : State) : TimeState := if s.time.state == .refLost then s.time.before else s.time.state

/-- Enter a time state; in REF_LOST it is the one that the reference's return gives. -/
def enterTime (s : State) (x : TimeState) : State :=
  if s.time.state == .refLost then { s with time := { s.time with before := x } } else { s with time := { s.time with state := x } }

/-- Start-up alignment begins from its first exchange (R67, R75, R914). -/
def unalign (s : State) : State :=
  let t := enterTime s .unaligned
  { t with time := { t.time with exchanges := 0, bestRtt := none, exchOut := none } }

/-- Whether the die is its own time root. -/
def isRoot (s : State) : Bool := s.time.rootId == s.fabric.id

/-! ## The root and the route to it (R78, R911 to R915, R923) -/

/-- The time root: the lowest fabric ID that is in the census and not lost. A die that rejoins counts itself only once it is ALIGNED
(R923). -/
def rootOf (s : State) : FabId :=
  let others := s.fabric.census.filter fun d => !s.fabric.lost.contains d && d != s.fabric.id
  let joins := s.fw.rejoined && timeBase s == .unaligned
  match others with
  | [] => s.fabric.id
  | x :: l => l.foldl (fun a d => if d.toNat < a.toNat then d else a) (if joins || decide (x.toNat < s.fabric.id.toNat) then x else s.fabric.id)

/-- The die routes by a provisional route set: its census is open (R913), or it rejoins and the usability hold has not ended (R920,
R921), so that its ACTIVE links are no part of a route set yet. -/
def provisional (s : State) : Bool := !s.fw.censusClosed || (s.fw.rejoined && s.fw.rejoinHoldEnd.isNone)

/-- The route set that time follows: the installed one, or the provisional one, in which every port not ACTIVE counts as down. -/
def timeView (s : State) : Fabric :=
  if provisional s then
    let up := (shapePorts s).filter fun p => (s.fabric.ports.get p).st == .active
    let off := (shapePorts s).filter fun p => (s.fabric.ports.get p).st != .active
    let f := { s.fabric with
      downLinks := (s.fabric.downLinks.filter fun l => !up.any fun p => linkOf s.fabric p == l) ++ off.map (linkOf s.fabric) }
    { f with ring := ringTable f, relay := relayTable f }
  else s.fabric

/-- The port of the first hop to a die by a route set: toward its via die where it has a relay entry. -/
def firstHop (f : Fabric) (dest : FabId) : Option PortId :=
  let target := (f.relay.lookup dest).getD dest
  match [0, 1, 2, 3].find? fun d => coordOf target d != coordOf f.id d with
  | none => none
  | some d => (dirOf f d (coordOf f.id d) (coordOf target d) (dirInForce f d (coordOf target d))).map (portOf d)

/-- Hops of the way this die's own route set gives to a die that dimension order reaches. -/
def hopsOut (f : Fabric) (target : FabId) : Option Nat :=
  match [0, 1, 2, 3].find? fun d => coordOf target d != coordOf f.id d with
  | none => some 0
  | some d =>
    let a := coordOf f.id d
    let c := coordOf target d
    match dirOf f d a c (dirInForce f d c) with
    | none => none
    | some p => (hopsFrom f target ([0, 1, 2, 3].drop (d + 1)) (withCoord f.id d c)).map (· + linksTo f d a c p)

/-- Hops from this die to another, over its via die where it has a relay entry. -/
def hopsTo (f : Fabric) (dest : FabId) : Option Nat :=
  match f.relay.lookup dest with
  | none => hopsOut f dest
  | some via => (hopsOut f via).bind fun n => (hops f via dest).map (· + n)

/-- Hops from another die, by the route set it computes from the same view. -/
def hopsOf (f : Fabric) (d dest : FabId) : Option Nat :=
  match hops f d dest with
  | some n => some n
  | none => (viaOf { f with id := d } dest).bind fun v => (hops f d v).bind fun n => (hops f v dest).map (· + n)

/-- The port of the first hop to the root, while there is a way and its link holds. -/
def leaderHop (s : State) : Option PortId :=
  let f := timeView s
  if (hopsTo f (rootOf s)).isNone then none else (firstHop f (rootOf s)).filter (linkHolds s)

/-! ## Roles (R77, R377 to R383) -/

/-- This end of a link should lead it (R377). -/
def shouldLead (s : State) (p : PortId) : Bool :=
  let d := (s.fabric.ports.get p).peer
  let f := timeView s
  match hopsTo f (rootOf s), hopsOf f d (rootOf s) with
  | some a, some b => decide (a < b) || (a == b && decide (s.fabric.id.toNat < d.toNat))
  | some _, none => true
  | none, some _ => false
  | none, none => decide (s.fabric.id.toNat < d.toNat)

/-- Ask for the leader's role on a link, where this end should lead and may ask (R360, R378, R380, R383). -/
def askRole (s : State) (p : PortId) : State :=
  let q := s.fabric.ports.get p
  if q.st != .active || q.leads || q.roleReq.isSome || q.swapAt.isSome || (q.noReqUntil != 0 && !reached s q.noReqUntil) || timeBase s == .unaligned || !shouldLead s p || !mayAsk s q.peer
  then s
  else sendLink (modPort s p fun q => { q with roleReq := some (now s) }) p .roleRequest

/-- ROLE_CHANGED of a link. -/
def linkRoleEvent (s : State) (p : PortId) (leads : Bool) : State :=
  postEvent s 0x33 (put 16 1 0 + put 17 1 p.1 + put 18 1 (b2n leads) + put 20 2 (s.fabric.ports.get p).peer.toNat)

/-- The neighbour on a port is this die's time leader from now; its first exchange follows at once (R77). Before alignment the sixteen
exchanges start again with it (R67). -/
def takeLeader (s : State) (p : PortId) (tell : Bool) : State :=
  let restart := timeBase s == .unaligned
  let s1 := { s with time := { s.time with
    leader := some p, nextExch := now s, exchOut := none, exchanges := if restart then 0 else s.time.exchanges
    bestRtt := if restart then none else s.time.bestRtt } }
  if tell then linkRoleEvent s1 p false else s1

/-- The die has no way to an ALIGNED leader: HOLDOVER (R79, R395). In REF_LOST the return of the reference looks for a way (R83). -/
def loseLeader (s : State) : State :=
  { s with time := { s.time with leader := none, exchOut := none, state := if s.time.state == .aligned then .holdover else s.time.state } }

/-- The root, the hops and the leader follow the route set (R77 to R79, R395, R915). A new root says so. A neighbour that is still the
follower of its link becomes the leader at the swap of the roles: until then the die makes no exchange and keeps its time state. A
STANDALONE die that has a link counts as aligned to itself. -/
def retime (s : State) : State :=
  let r := rootOf s
  let is := r == s.fabric.id
  let tell := isRoot s != is && s.fw.censusClosed
  let s1 := { s with time := { s.time with rootId := r, hops := (hopsTo (timeView s) r).getD 0 } }
  let s2 := if tell then postEvent s1 0x33 (put 16 1 1 + put 18 1 (b2n is) + put 20 2 r.toNat) else s1
  let s3 := if timeBase s2 == .standalone && linked s2 then enterTime s2 .aligned else s2
  let s4 :=
    if is then
      (if linked s3 then { s3 with time := { s3.time with leader := none, exchOut := none, state := if s3.time.state == .holdover then .aligned else s3.time.state } }
       else loseLeader s3)
    else match leaderHop s3 with
      | none => loseLeader s3
      | some p =>
        if s3.time.leader == some p then s3
        else if (s3.fabric.ports.get p).leads then { s3 with time := { s3.time with leader := none, exchOut := none } }
        else takeLeader s3 p (s3.fw.censusClosed && timeBase s3 != .unaligned)
  (shapePorts s4).foldl askRole s4

/-- A pending swap of roles takes place (R77, R378, R379, R384): both ends post ROLE_CHANGED. -/
def swapRoles (s : State) (p : PortId) : State :=
  let q := s.fabric.ports.get p
  let s1 := linkRoleEvent (modPort s p fun q => { q with leads := !q.leads, swapAt := none }) p (!q.leads)
  if q.leads then (if leaderHop s1 == some p && !isRoot s1 then takeLeader s1 p false else s1)
  else if s1.time.leader == some p then { s1 with time := { s1.time with leader := none, exchOut := none } }
  else s1

/-- A link of this die is declared DOWN or ISOLATED: a die that reached its leader over it, or that has no link left, has no path until a
new route set is in force (R79, R395, Table 6-11); before the census closes the provisional route set follows at once (R913). -/
def leaderLost (s : State) (p : PortId) : State :=
  if provisional s then retime s
  else if s.time.leader == some p || firstHop (timeView s) (rootOf s) == some p || !linked s then loseLeader s
  else s

end Sys2Proof.Machine
end

