-- ==== Sys2Proof/Machine/Boot.lean ====
section
/-! DEFINITION. Firmware images and their verification, the boot flash, and start-up (14 "Firmware images", 15). -/

namespace Sys2Proof.Machine

/-! ## Image verification (Table 14-2, R871) -/

/-- A header field. -/
def hdrFld (img : FwImage) (off len : Nat) : Nat := bfld img.header off len

/-- Bytes that must be 0. -/
def zeroBytes (img : FwImage) (off len : Nat) : Bool := (slice img.header off len).all (· == 0)

/-- VERSION of an image. -/
def imgVersion (img : FwImage) : W32 := BitVec.ofNat 32 (hdrFld img 8 4)

/-- Largest body of a target. -/
def bodyLimit (target : Nat) : Nat := (if target == 0 then 16 * 2 ^ 20 else 2 ^ 20) - 256

/-- The bytes the header calls the image's body. -/
def imgBody (img : FwImage) : List Byte := img.body.take (hdrFld img 12 4)

/-- The first check of R871 that an image fails, or none where it passes. -/
def imageCheck (s : State) (target : Nat) (img : FwImage) : Option Nat :=
  let key := hdrFld img 6 1
  let len := hdrFld img 12 4
  if !(img.header.length == 256 && hdrFld img 0 4 == 0x53564946 && hdrFld img 4 1 == 1 && hdrFld img 5 1 == target
      && hdrFld img 7 1 / 16 == 0 && zeroBytes img 17 7 && zeroBytes img 72 72 && zeroBytes img 240 16) then some 1
  else if 3 < key || bit s.fuses.revoked.toNat key then some 2
  else if len % 64 != 0 || decide (bodyLimit target < len) || decide (img.body.length < len) || decide (s.fuses.silicon.toNat < hdrFld img 16 1) then some 3
  else if sha384 (imgBody img) != slice img.header 24 48 then some 4
  else if !ecdsaOk (Config.bootKey key) (sha384 (img.header.take 144)) (beNat (slice img.header 144 48)) (beNat (slice img.header 192 48)) then some 5
  else none

/-- An image from its bytes. -/
def imageOf (bs : List Byte) : FwImage := ⟨bs.take 256, bs.drop 256⟩

/-- The image of a target's slot (0 A, 1 B, 2 golden). -/
def slotImage (s : State) (target : Nat) (i : Fin 3) : Option FwImage := if target == 0 then s.flash.die.get i else s.flash.island.get i

/-- The check that a slot fails: 1 for an erased slot. -/
def slotCheck (s : State) (target : Nat) (i : Fin 3) : Option Nat :=
  match slotImage s target i with
  | some img => imageCheck s target img
  | none => some 1

/-- The selected slot, the other, and golden: the order of R874. -/
def bootOrder (s : State) (target : Fin 2) : List (Fin 3) := if (s.flash.select.get target).next == 0 then [0, 1, 2] else [1, 0, 2]

/-- Record a slot that fails verification (0x0710). -/
def recordBadImage (s : State) (target : Nat) (i : Fin 3) (check : Nat) : State :=
  faultHistory s 0x0710 0xFF (put 0 1 target + put 1 1 i.1 + put 2 1 check)

/-- Change the flash. -/
def modFlash (s : State) (f : Flash → Flash) : State := { s with flash := f s.flash }

/-- Set a slot's verdict (R897); an island slot's is whether it fails. -/
def setVerdict (s : State) (target : Nat) (i : Fin 3) (pass : Bool) : State :=
  modFlash s fun f =>
    if target == 0 then { f with verdict := vmod f.verdict i fun _ => if pass then .pass else .fail }
    else { f with islandBad := vmod f.islandBad i fun _ => !pass }

/-- Verify a slot and note the verdict. -/
def judge (s : State) (target : Nat) (i : Fin 3) : State :=
  match slotCheck s target i with
  | none => setVerdict s target i true
  | some k => recordBadImage (setVerdict s target i false) target i k

/-! ## The island starts (R762, R894 to R897, R904, R907, R908) -/

/-- A fabric ID from coordinates. -/
def fabOf (w x y z : Nat) : FabId := BitVec.ofNat 16 (w % 16 * 4096 + x % 16 * 256 + y % 16 * 16 + z % 16)

/-- Fabric position and shape (Table 15-5). -/
def setPosition (s : State) (recordOk : Bool) (x y z : Fin 16) (sizes : Vector Nat 4) (wraps : Vector Bool 4) : State :=
  let f := s.fabric
  let w := s.island.slot.1
  let one : Vector Nat 4 := Vector.replicate 4 1
  let no : Vector Bool 4 := Vector.replicate 4 false
  let set (id : FabId) (n : Vector Nat 4) (wr : Vector Bool 4) : State := { s with fabric := { f with id := id, sizes := n, wraps := wr, census := [id] } }
  if !hasFabric s.fuses.variant then set 0 one no
  else if !s.island.trayEn then
    set (fabOf w 0 0 0) (one.set 0 (s.flash.saShape % 16 + 1)) (no.set 0 (bit s.flash.saShape 4))
  else if recordOk then set (fabOf w x.1 y.1 z.1) sizes wraps
  else logIsland (set (fabOf w 0 0 0) (one.set 0 16) (no.set 0 true)) 0x0507 0xFF 1 0

/-- The island store cannot be read: the values of Table 13-2 are at their defaults (R904). -/
def storeDefaults (s : State) : State :=
  { s with
    seq := { s.seq with shut := false, pdn := vmap (fun p => { p with baseline := none, samples := [] }) s.seq.pdn }
    power := { s.power with trimMv := 0 }
    island := { s.island with
      leak := vmap (fun l => { l with enabled := true, thrMv := 900, filterUs := 200 }) s.island.leak
      lamps := vmap (fun l => { l with driveUa := 2000, dark := false }) s.island.lamps
      net := {}, key := none, seqFloor := 0, standing := [], history := [], log := [] } }

/-- What the island's start finds in the boot flash (R894, R904). The field that failed is a free value: the spec gives it no
number (log entry 8). -/
def islandFinds (s : State) : State :=
  let s1 := if s.flash.descriptorOk then s
    else
      let f := takeFree (modFlash s fun f => { f with saShape := 0, clkMhz := 25 })
      logIsland f.2 0x0801 0xFF 1 (put 0 1 f.1)
  if s1.flash.storeOk then s1 else logIsland (storeDefaults s1) 0x0803 0xFF 2 0

/-- ISLAND_FIRMWARE_RUNNING (R766, R813, R886, R895, R907): the first island slot that passes runs, else ROM mode. -/
def execIslandFirmwareRunning (recordOk : Bool) (x y z : Fin 16) (sizes : Vector Nat 4) (wraps : Vector Bool 4)
    (limits : Option (Vector CoolLimits 4)) (s : State) : Res' :=
  .next <|
    if s.seq.aonRst || s.island.up then s
    else
      let order := bootOrder s 1
      let tried := order.takeWhile fun i => (slotCheck s 1 i).isSome
      let s1 := tried.foldl (fun t i => judge t 1 i) (islandFinds s)
      let down := s.seq.state == .s0 || s.seq.state == .s1
      let start (t : State) (rom : Bool) : State := modIsland t fun i => { i with
        up := true, romMode := rom, startAt := now s, lastBeat := now s, statKick := now s, trialAt := now s, seqMark := i.seqFloor
        limitsOk := limits.isSome, coolLimits := limits.getD (Vector.replicate 4 {}), statOut := .low }
      match order.find? fun i => (slotCheck s 1 i).isNone with
      | some i =>
        let s2 := start (modFlash s1 fun f => { f with islandRunning := i.1, islandBad := vmod f.islandBad i fun _ => false }) false
        let s3 := if down then setPosition s2 recordOk x y z sizes wraps else s2
        if s.island.trayEn && limits.isNone then logIsland s3 0x0507 0xFF 1 0 else s3
      | none =>
        let s2 := start s1 true
        let s3 := modIsland (if down then setPosition s2 recordOk x y z sizes wraps else s2) fun i => { i with ready := true }
        if s3.seq.state == .s0 then tryAscend (modSeq s3 fun q => { q with state := .s1 }) else s3

/-- ISLAND_READY (R681, R896, R897, Table 11-6): the verdicts are done; the island enters S1 and acts on requests. -/
def execIslandReady (s : State) : Res' :=
  .next <|
    if !islandRuns s || s.island.ready then s
    else
      let s1 := modIsland ((bootOrder s 0).foldl (fun t i => judge t 0 i) s) fun i => { i with ready := true }
      if s1.seq.state != .s0 then tryAscend s1
      else tryAscend (modSeq s1 fun q => { q with
        state := .s1, requestAt := now s, request := if q.pwrAuto && q.request.isNone then some true else q.request })

/-! ## The boot ROM (R17, R899, R898, R903) -/

/-- The boot ROM stops on a fault code (Table 9-5). -/
def stopBoot (s : State) (fault : Nat) : State :=
  let s1 := setFw s .bootstrap
  { s1 with fw := { s1.fw with fault := fault, stage := stageStopped } }

/-- DEPOT_SELF_TEST_DONE (R17, R899). -/
def execDepotSelfTestDone (pass : Bool) (s : State) : Res' :=
  .next <|
    if s.seq.state != .s5 || s.fw.state != .bootstrap || s.fw.stage != stageFuses then s
    else if !s.fuses.ok then faultStanding (stopBoot s 1) 0x0707 0xFF 0
    else if !pass then stopBoot s 3
    else
      let s1 := setFw s .loading
      { s1 with fw := { s1.fw with stage := stageLoad, fault := 0 } }

/-- Slots the boot ROM may still load, in order: those whose verdict is not fail. -/
def candidates (s : State) : List (Fin 3) := (bootOrder s 0).filter fun i => s.flash.verdict.get i != .fail

/-- An image runs: its number, its version, and the stage of its initialisation. -/
def runImage (s : State) (n : Nat) (img : FwImage) : State :=
  { s with fw := { s.fw with
      image := n, version := imgVersion img, stage := stageInit, startTick := now s, bootSel := (s.flash.select.get 0).next.1 } }

/-- FIRMWARE_LOADED (R871, R898, R903). -/
def execFirmwareLoaded (readOk : Bool) (s : State) : Res' :=
  .next <|
    if s.fw.state != .loading || s.fw.stage != stageLoad then s
    else match candidates s with
      | [] => stopBoot s 2
      | i :: rest =>
        match readOk, slotImage s 0 i, slotCheck s 0 i with
        | true, some img, none => runImage (setVerdict s 0 i true) i.1 img
        | _, _, k =>
          let c := if readOk then k.getD 1 else 0
          let s1 := logDie (setVerdict s 0 i false) 0x0802 0xFF 2 (put 0 1 0 + put 1 1 i.1 + put 2 1 c)
          let s2 := if readOk then recordBadImage s1 0 i c else s1
          if rest.isEmpty then stopBoot s2 2 else s2

/-- BOOT_RETRY (R527, R530, R874): the load starts again, and every slot is tried again. -/
def execBootRetry (s : State) : Res' :=
  .next <|
    if !bootRuns s 3 then s
    else if s.fw.state == .loading || s.fw.state == .ready then bootEnd s .busy s.host.bootArg
    else if !s.fuses.ok then bootEnd s .internal s.host.bootArg
    else
      let s1 := setFw (clearFirmware s) .loading
      let s2 := modFlash { s1 with fw := { s1.fw with stage := stageLoad, fault := 0, s5At := now s }, seq := { s1.seq with state := .s5 } } fun f =>
        { f with verdict := vmap (fun v => if v == .fail then .unknown else v) f.verdict }
      bootEnd s2 .ok s2.host.bootArg

/-- BOOT_HOST_IMAGE (R528 to R530). -/
def execBootHostImage (data : List Byte) (read : ReadEnd) (s : State) : Res' :=
  .next <|
    if !bootRuns s 4 then s
    else
      let a := (s.host.bootArg.get 0).toNat
      let n := (s.host.bootArg.get 1).toNat
      let img := imageOf (data.take n)
      if a % 4096 != 0 || n == 0 || decide (16 * 2 ^ 20 < n) then bootEnd s .badArgument s.host.bootArg
      else if s.fw.state == .loading || s.fw.state == .ready then bootEnd s .busy s.host.bootArg
      else if !s.fuses.ok then bootEnd s .internal s.host.bootArg
      else if read != .ok || decide (data.length < n) then bootEnd (setFw s .bootstrap) .tierFault s.host.bootArg
      else if (imageCheck s 0 img).isSome then bootEnd (setFw s .bootstrap) .verifyFailed s.host.bootArg
      else
        let s1 := setFw (clearFirmware s) .loading
        let s2 := runImage { s1 with fw := { s1.fw with hostImage := some img, fault := 0 }, seq := { s1.seq with state := .s5 } } 3 img
        bootEnd s2 .ok (s2.host.bootArg.set 0 (BitVec.ofNat 64 s2.fw.version.toNat))

/-! ## READY (R74, R791, R824, R837, R900, R911, R918) -/

/-- Notices the island has kept are posted when the firmware reaches READY (R791). -/
def postNotices (s : State) : State :=
  let due := s.island.notices.filter fun n => !n.posted
  let s1 := due.foldl (fun t n => postEvent t 0x60 (put 16 1 n.code.toNat + put 17 1 n.slot.toNat + n.data.toNat <<< 160)) s
  modIsland s1 fun i => { i with notices := i.notices.map fun n => { n with posted := true } }

/-- Pending column repairs are applied, and their entries say so (R837, 0x0703). -/
def applyColumns (s : State) : State :=
  s.mem.colPending.foldl (fun t c =>
    let mine (r : LogRec) := r.code == 0x0703 && bits r.data.toNat 8 8 == c.1 && bits r.data.toNat 16 8 == c.2
    { t with
      island := { t.island with standing := t.island.standing.map fun r => if mine r then { r with data := r.data ||| BitVec.ofNat 128 (put 3 1 1) } else r }
      mem := { t.mem with
        colPending := t.mem.colPending.erase c
        colSpares := vmapIdx (fun i n => if i == c.1 then n - 1 else n) t.mem.colSpares } }) s

/-- A port whose cable the island accepts starts training (R796, R918). -/
def trainPort (s : State) (p : PortId) : State :=
  let q := s.fabric.ports.get p
  if hasPort s.fuses.variant p.1 && (s.island.cable.get p).ok && q.st != .active && q.st != .miswired && q.st != .isolated then
    emit (modPort s p fun q => { q with
      st := if q.st == .idle && q.fckSeen then .training else q.st, trying := true, trainAt := now s, pauseUntil := none, heldAt5 := false, setOk := false }) (.train p)
  else s

/-- The time state when the firmware is ready: STANDALONE without trained links (R74), also behind REF_LOST; else the provisional root and
the way to it are taken (R913). -/
def timeAtReady (s : State) : State :=
  if timeBase s != .unaligned then s
  else if (neighbours s).isEmpty then let t := enterTime s .standalone; { t with time := { t.time with rootId := s.fabric.id } }
  else retime s

/-- FIRMWARE_READY (R745, R900): the boot trim is done; the base point is OP3, limited. -/
def execFirmwareReady (s : State) : Res' :=
  .next <|
    if s.fw.state != .loading || s.fw.stage != stageInit || !s.power.bootTrimmed then s
    else
      let s1 := applyColumns s
      let s2 := { s1 with power := { s1.power with opBase := 3 } }
      let op := minPoint 3 (highestAllowed s2)
      let code := vidCode s2 op
      let s3 := emit { s2 with power := { s2.power with opForce := op, vid := code, vidTarget := code } } (.vid code)
      let s4 := setFw s3 .ready
      let s5 := { s4 with
        fw := { s4.fw with stage := stageReady, readyAt := some (now s), beatAt := now s }, seq := { s4.seq with state := .s6, faulted := false }
        power := { s4.power with windowAt := now s, calAt := now s, calOk := now s, chargeAt := now s, throttleAt := now s } }
      let s6 := sendNeighbours (postNotices (timeAtReady (limitCheck s5))) (.presentNotice s.fabric.id s.fuses.variant)
      if s.seq.request == some false then beginDescent s6 else (fins 8).foldl trainPort s6

/-- DISCOVERY_COMPLETE (R905, R906, R922, R924). -/
def execDiscoveryComplete (s : State) : Res' :=
  .next <|
    let chans := (fins 4).all fun n => decide (mcCount s.fuses.variant ≤ n.1) || (s.mem.channels.get n).st != .untrained
    let layby := (s.engines.get 6).life != .laybyFree || s.fw.laybyTested
    let census := s.fw.censusClosed && (!s.fw.rejoined || (match s.fw.rejoinHoldEnd with | some t => passed s t 1228800 | none => false))
    let time := s.time.state == .aligned || s.time.state == .standalone
    if !ready s || !chans || !layby || !census || !s.fw.routeInstalled || !time then s
    else { s with fw := { s.fw with discovered := true } }

/-- FIRMWARE_HALT (R554, Table 9-5): a Kretus core fault, or the firmware watchdog. -/
def execFirmwareHalt (watchdog : Bool) (s : State) : Res' :=
  .next <|
    if !ready s then s
    else
      let s1 := setFw s .halted
      { s1 with fw := { s1.fw with fault := if watchdog then 5 else 4, stage := stageStopped } }

/-! ## Slots: staging, commit, trial, golden (R627 to R631, R875 to R887) -/

/-- The number of the image running on a target. -/
def runningSlot (s : State) (target : Nat) : Nat := if target == 0 then s.fw.image else s.flash.islandRunning

/-- The other slot. -/
def otherSlot (i : Fin 2) : Fin 2 := if i == 0 then 1 else 0

/-- FW_COMMIT (R628, R629, R875, R883). -/
def execFwCommit (m : MailCmd) (s : State) : Res' :=
  .next <| onMail m 0x51 s fun s =>
    let target := arg m 8 1
    let slot := arg m 9 1
    let tg : Fin 2 := ⟨target % 2, Nat.mod_lt _ (by decide)⟩
    let run := runningSlot s target
    let dest : Fin 2 := if slot == 0 then (if run == 0 then 1 else 0) else ⟨(slot - 1) % 2, Nat.mod_lt _ (by decide)⟩
    refuse s m [(reserved m || decide (1 < target) || decide (2 < slot), .badArgument), ((s.fw.staged.get tg).isNone, .notReady),
      (s.fw.slotWrite.isSome || dest.1 == run, .busy)] fun s =>
      match s.fw.staged.get tg with
      | none => s
      | some img =>
        if (imageCheck s target img).isSome then complete s m .verifyFailed 0
        else hold { s with fw := { s.fw with slotWrite := some ⟨tg, [dest], img, some m, false⟩ } } m

/-- Put an image into a slot of the flash. -/
def putSlot (s : State) (target i : Fin 2) (img : Option FwImage) : State :=
  modFlash s fun f =>
    if target == 0 then { f with die := f.die.set i.1 img (by omega) } else { f with island := f.island.set i.1 img (by omega) }

/-- A slot as an image number. -/
def slotNo (i : Fin 2) : Fin 3 := ⟨i.1, by omega⟩

/-- SLOT_WRITE_COMPLETE (R629, R875, R880 to R883): the slots are written and verified again; a commit then selects its slot for
trial, and a re-flash from golden is reported. -/
def execSlotWriteComplete (verified : Bool) (s : State) : Res' :=
  .next <|
    match s.fw.slotWrite with
    | none => s
    | some w =>
      let s1 := { s with fw := { s.fw with slotWrite := none } }
      let s2 := w.slots.foldl (fun t i => setVerdict (putSlot t w.target i (if verified then some w.image else none)) w.target.1 (slotNo i) verified) s1
      let version := (imgVersion w.image).toNat
      match w.cmd, verified with
      | some m, true =>
        let s3 := modFlash s2 fun f => { f with select := vmod f.select w.target fun _ => ⟨w.slots.headD 0, true⟩ }
        complete s3 m .ok (put 8 1 (w.slots.headD 0).1 + put 12 4 version)
      | some m, false => complete s2 m .verifyFailed 0
      | none, ok =>
        if !w.golden then
          (if ok then modFlash s2 fun f => { f with select := vmod f.select w.target fun _ => ⟨w.slots.headD 0, true⟩ } else s2)
        else if !ok then s2
        else
          let s3 := w.slots.foldl (fun t i =>
            notify (faultHistory t 0x0711 0xFF (put 0 1 w.target.1 + put 1 1 i.1)) 0x09 (slotByte t) (put 20 1 i.1)) s2
          if w.slots.length == 2 then modFlash s3 fun f => { f with select := vmod f.select w.target fun _ => ⟨0, false⟩ } else s3

/-- FW_VERIFY (R630, R878). -/
def execFwVerify (m : MailCmd) (s : State) : Res' :=
  .next <| onMail m 0x52 s fun s =>
    let target := arg m 8 1
    let which := arg m 9 1
    let tg : Fin 2 := ⟨target % 2, Nat.mod_lt _ (by decide)⟩
    let run := runningSlot s target
    let pick : Option FwImage :=
      if which == 3 then s.fw.staged.get tg
      else
        let i := if which == 4 then run else which
        if i == 3 then s.fw.hostImage else slotImage s target ⟨i % 3, Nat.mod_lt _ (by decide)⟩
    refuse s m [(reserved m || decide (1 < target) || decide (4 < which), .badArgument), (which == 3 && (s.fw.staged.get tg).isNone, .notReady)] fun s =>
      match pick with
      | none => complete s m .verifyFailed 0
      | some img =>
        if (imageCheck s target img).isSome then complete s m .verifyFailed 0
        else
          let sel := if target == 0 then s.fw.bootSel else (s.flash.select.get 1).next.1
          let st : Status := if which == 4 && run != sel then .imageRolledBack else .ok
          complete s m st (put 8 4 (imgVersion img).toNat + put 12 1 run + put 13 1 (s.flash.select.get tg).next.1 + put 16 8 (hdrFld img 24 8))

/-- FW_ROLLBACK (R631). -/
def execFwRollback (m : MailCmd) (s : State) : Res' :=
  .next <| onMail m 0x53 s fun s =>
    let target := arg m 8 1
    let tg : Fin 2 := ⟨target % 2, Nat.mod_lt _ (by decide)⟩
    if reserved m || decide (1 < target) then complete s m .badArgument 0
    else
      let i := otherSlot (s.flash.select.get tg).next
      if (slotCheck s target (slotNo i)).isSome then complete s m .verifyFailed 0
      else complete (modFlash s fun f => { f with select := vmod f.select tg fun _ => ⟨i, false⟩ }) m .ok (put 8 1 i.1)

/-- The keys an image revokes when it is confirmed (R872). -/
def revokeKeys (s : State) (img : FwImage) : State :=
  let mask := (hdrFld img 7 1 % 16) &&& (15 - 2 ^ (hdrFld img 6 1 % 4))
  { s with fuses := { s.fuses with revoked := s.fuses.revoked ||| BitVec.ofNat 4 mask } }

/-- TRIAL_CONFIRM (R872, R876). -/
def execTrialConfirm (target : Fin 2) (s : State) : Res' :=
  .next <|
    let sel := s.flash.select.get target
    let due := if target == 0 then ready s && (match s.fw.readyAt with | some t => passed s t 1474560000 | none => false)
      else islandRuns s && passed s s.island.trialAt 1474560000
    if !sel.trial || runningSlot s target.1 != sel.next.1 || !due then s
    else
      let s1 := modFlash s fun f => { f with select := vmod f.select target fun x => { x with trial := false } }
      match slotImage s target.1 (slotNo sel.next) with
      | some img => revokeKeys s1 img
      | none => s1

/-- A slot failed verification at boot. -/
def slotFailed (s : State) (target slot : Fin 2) : Bool :=
  if target == 0 then s.flash.verdict.get (slotNo slot) == .fail else s.flash.islandBad.get (slotNo slot)

/-- TRIAL_ROLLBACK (R877) of the trial image that was booted: the other slot is selected, and the firmware restarts from it. A boot that
stopped on the fuse check or on the depot self-test loads no image at all (R17, R899). -/
def execTrialRollback (target : Fin 2) (cause : Fin 3) (s : State) : Res' :=
  .next <|
    let sel := s.flash.select.get target
    let due :=
      if target == 0 then
        (cause == 0 && s.seq.state == .s5 && !ready s && passed s s.fw.s5At 12288000) || (cause == 1 && s.fw.state == .halted)
      else cause == 2 && s.island.up && passed s s.island.statKick 245760000
    if !sel.trial || !due || (target == 0 && (!s.fuses.ok || s.fw.fault == 3)) || slotFailed s target sel.next || (cause != 0 && runningSlot s target.1 != sel.next.1) then s
    else
      let s1 := modFlash s fun f => { f with select := vmod f.select target fun x => ⟨otherSlot x.next, false⟩ }
      let s2 := faultHistory s1 0x0712 0xFF (put 0 1 target.1 + put 1 1 sel.next.1 + put 2 1 cause.1)
      if target == 0 then warmRestart s2 else islandCoreReset s2

/-- Begin a re-flash of slots from the golden image of a target. -/
def startReflash (s : State) (target : Fin 2) (slots : List (Fin 2)) : State :=
  match slotImage s target.1 2 with
  | some img => { s with fw := { s.fw with slotWrite := some ⟨target, slots, img, none, true⟩ } }
  | none => s

/-- SLOT_REFLASH (R880, R881, R883): both slots where golden runs. -/
def execSlotReflash (target : Fin 2) (slot : Fin 2) (s : State) : Res' :=
  .next <|
    let up := if target == 0 then ready s else islandRuns s
    if !up || s.fw.slotWrite.isSome || !slotFailed s target slot || (slotCheck s target.1 2).isSome then s
    else startReflash s target (if runningSlot s target.1 == 2 then [0, 1] else [slot])

/-- GOLDEN_VERIFY (R887). -/
def execGoldenVerify (target : Fin 2) (s : State) : Res' :=
  .next <|
    if !islandRuns s || !passed s (s.island.goldenAt.get target) 2123366400000 then s
    else
      let s1 := modIsland s fun i => { i with goldenAt := vmod i.goldenAt target fun _ => now s }
      if (slotCheck s target.1 2).isNone then s1
      else logIsland (faultStanding s1 0x0713 0xFF (put 0 1 target.1)) 0x0713 0xFF 2 (put 0 1 target.1)

end Sys2Proof.Machine
end

