-- ==== Sys2Proof/Machine/Clock.lean ====
section
/-! DEFINITION. The milestone counter, its alignment and the time reference (01). -/

namespace Sys2Proof.Machine

/-- MSC arithmetic is modulo 2^64 (R57). -/
def mscAdd (a : Tick) (n : Int) : Tick := (((a : Int) + n) % (2 ^ 64 : Int)).toNat

/-- Ticks between two corrections (R69, R82). -/
def corrGap (s : State) : Nat := if s.time.state == .refLost then 1024 else 4096

/-- What this tick advances the MSC by: 1, or 0 or 2 as a discipline correction (R69). -/
def tickStep (s : State) : Int :=
  if s.time.corr == 0 || !passed s s.time.lastCorr (corrGap s) then 1 else if s.time.corr > 0 then 2 else 0

/-- MSC_TICK (R55, R56, R69, R82, R84). The audio ports that are masters follow a correction over 64 frames (R483). -/
def execMscTick (s : State) : Res' :=
  .next <|
    if s.seq.aonRst then s
    else
      let d := tickStep s
      let m := mscAdd s.time.msc d
      let t1 := { s.time with msc := m, corr := s.time.corr - (d - 1), lastCorr := if d == 1 then s.time.lastCorr else m }
      let audio := if d == 1 then s.audio else vmap (noteCorrection m (d - 1)) s.audio
      if s.seq.internalReset then { s with time := t1 }
      else
        let s1 := { s with time := { t1 with replica := m }, audio := audio }
        if s.time.replica == s.time.msc then s1 else faultHistory s1 0x0301 0xFF (put 0 8 s.time.replica)

/-- The port of the time leader where it can be asked: it is ACTIVE and the neighbour holds the leader's end (R77). -/
def leaderPort (s : State) : Option PortId :=
  s.time.leader.filter fun p => (s.fabric.ports.get p).st == .active && !(s.fabric.ports.get p).leads

/-- The time-capture unit's timestamp of this moment: the MSC with its 6-bit fraction in 1/64 tick (R65). -/
def capture (s : State) (frac : Nat) : Nat := now s * 64 + frac % 64

/-- Send a time exchange request on the leader link; the fraction of the moment it leaves is a free value (R65; log entry 8). One that is
still unanswered is given up for it; while 8 packets to the leader stand unanswered none is sent (R360). -/
def sendExchange (s : State) (p : PortId) (gap : Nat) : State :=
  let s0 := { s with time := { s.time with exchOut := none } }
  if !mayAsk s0 (s.fabric.ports.get p).peer then s
  else
    let f := takeFree s0
    let t1 := capture s f.1
    sendLink { f.2 with time := { s.time with exchOut := some t1, nextExch := now s + gap } } p (.timeRequest t1)

/-- Rounded ticks of a value in 1/64 tick, ties up. -/
def ticksOf64 (v : Int) : Int := (v + 32) / 64

/-- ALIGN_EXCHANGE_TIMER (R67, R70, R75, R377, R913, R923): 16 exchanges at intervals of 256 ticks, then one step and ALIGNED. The root of a
fabric is aligned to itself. The roles of the die's links are looked at then; a die that rejoins may become the root. -/
def execAlignExchangeTimer (s : State) : Res' :=
  .next <|
    if s.time.state != .unaligned || !s.streams.isEmpty then s
    else if isRoot s then (if (neighbours s).isEmpty then s else retime { s with time := { s.time with state := .aligned, hops := 0 } })
    else match leaderPort s with
      | none => s
      | some p =>
        if 16 ≤ s.time.exchanges then
          let m := mscAdd s.time.msc (ticksOf64 s.time.bestOffset)
          retime { s with time := { s.time with
              msc := m, replica := m, state := .aligned, exchanges := 0, bestRtt := none
              exchOut := none, nextExch := m + 65536, lastCorr := m, corr := 0 } }
        else if !reached s s.time.nextExch then s
        else sendExchange s p 256

/-- DISCIPLINE_EXCHANGE_TIMER (R69). -/
def execDisciplineExchangeTimer (s : State) : Res' :=
  .next <|
    if timeBase s == .unaligned || timeBase s == .standalone || !reached s s.time.nextExch then s
    else match leaderPort s with
      | none => s
      | some p => sendExchange s p 65536

/-- Offset and round trip of an exchange, with the latencies of the two directions that link training measured taken out
(R66); all in 1/64 tick. The half of an odd sum rounds down (log entry 135). -/
def exchangeResult (q : Port) (t1 t2 t3 t4 : Nat) : Int × Int :=
  let fwd : Int := (q.txDelay + q.flight : Nat)
  let back : Int := (q.rxDelay + q.flight : Nat)
  ((((t2 : Int) - t1 - fwd) + ((t3 : Int) - t4 + back)) / 2, ((t4 : Int) - t1) - ((t3 : Int) - t2))

/-- The current discipline adjustment rate, in 0.1 ppm: one tick in every gap while corrections are due, else 0 (R64; log entry 28). -/
def rateOf (s : State) (corr : Int) : Int :=
  let one : Int := if s.time.state == .refLost then 9766 else 2441
  if corr > 0 then one else if corr < 0 then -one else 0

/-- What a reply does: at start-up the exchange of the smallest round trip is kept (R67); afterwards the offset is disciplined
away, and HOLDOVER ends within 1 tick (R69, R80). -/
def takeOffset (s : State) (off rtt : Int) : State :=
  let t := { s.time with exchOut := none }
  if timeBase s == .unaligned then
    let best := match t.bestRtt with | none => true | some b => decide (rtt < (b : Int))
    { s with time := { t with
        offset64 := off, exchanges := t.exchanges + 1, bestRtt := if best then some rtt.toNat else t.bestRtt
        bestOffset := if best then off else t.bestOffset } }
  else
    let c := ticksOf64 off
    { s with time := { t with
        offset64 := off, corr := c
        state := if t.state == .holdover && decide (off.natAbs ≤ 64) then .aligned else t.state } }

/-- TIME_EXCHANGE (R65 to R67, R69, R80): a request is answered by a leader that is ALIGNED; a reply is taken by the follower
that asked. The fraction captured at an answer's leaving is a free value. -/
def execTimeExchange (p : PortId) (k : TimeArrival) (s : State) : Res' :=
  .next <|
    let q := s.fabric.ports.get p
    if q.st != .active then s
    else match k.msg with
      | .request t1 =>
        if q.leads && (s.time.state == .aligned || (s.time.state == .refLost && s.time.before == .aligned)) then
          let f := takeFree s
          sendLink f.2 p (.timeReply t1 (capture s k.frac.1) (capture s f.1))
        else s
      | .reply t1 t2 t3 =>
        if s.time.leader == some p && s.time.exchOut == some t1 then
          let r := exchangeResult q t1 t2 t3 (capture s k.frac.1)
          takeOffset s r.1 r.2
        else s

/-- REFCLK_LOST (R81): the MSC goes on from the backup oscillator. -/
def execRefclkLost (s : State) : Res' :=
  .next <|
    if !s.time.refPresent || s.seq.aonRst then s
    else
      let s1 := { s with time := { s.time with refPresent := false, before := s.time.state, state := .refLost } }
      notify s1 0x01 (slotByte s) (put 20 8 (now s))

/-- The time state on the return of the reference: the one before the loss, or HOLDOVER without a leader path (R83). A die that became the
root meanwhile is aligned to itself (R78). -/
def stateOnReturn (s : State) : TimeState :=
  if s.time.before == .aligned || s.time.before == .holdover then
    (if !linked s || (!isRoot s && (leaderHop s).isNone) then .holdover else if isRoot s then .aligned else s.time.before)
  else s.time.before

/-- REFCLK_RETURN (R83). -/
def execRefclkReturn (s : State) : Res' :=
  .next <|
    if s.time.refPresent || s.seq.aonRst then s
    else notify { s with time := { s.time with refPresent := true, state := stateOnReturn s } } 0x02 (slotByte s) (put 20 8 (now s))

/-- TIME_QUERY (R64, Table 10-3); the MSC is put in when the completion is written. An OFFSET outside 32 bits is given modulo 2^32, and
HOPS is 0 on a die without a path to the root (log entry 136). -/
def execTimeQuery (m : MailCmd) (s : State) : Res' :=
  .next <| onMail m 0x04 s fun s =>
    if reserved m then complete s m .badArgument 0
    else
      let leader := match s.time.leader with | some p => (s.fabric.ports.get p).peer | none => 0xFFFF
      complete s m .ok (put 16 1 (timeCode s.time.state) + put 17 1 s.time.hops + put 18 2 s.time.rootId.toNat
        + put 20 2 leader.toNat + put 22 2 (twos 16 (rateOf s s.time.corr)) + put 24 4 (twos 32 s.time.offset64))

end Sys2Proof.Machine
end

