-- ==== Sys2Proof/Machine/Damage.lean ====
section
/-! DEFINITION. Uncorrectable errors, repair of rows, and failed memory channels (05 R305, R326, 14 R817 to R846, Tables 14-1, 14-3, 14-7). -/

namespace Sys2Proof.Machine

/-! ## Moves that fail (R313, R315, R320, R324) -/

/-- Drop a move with what is outstanding for it. -/
def dropMove (s : State) (id : Nat) : State :=
  dropOutstanding (modMem s fun x => { x with moves := x.moves.filter fun m => m.id != id }) id

/-- Mark the page of a move DAMAGED. -/
def damagePage (s : State) (h : Nat) (m : Move) : State :=
  let mark (p : KvPage) : KvPage := if movePage m p then { p with damaged := true } else p
  modStream s h fun st => { st with pages := st.pages.map mark, frame := st.frame.map fun fr => { fr with pages := fr.pages.map mark } }

/-- End what needed a move, with a status: the frame, the command, or the recall. `hurt` says that the data itself is bad, which leaves
a page DAMAGED. A page that was to be written to a lower tier stays where it is (R324); where the frame that sealed it has
finished, nothing ends. -/
def failMove (s : State) (m : Move) (st : Status) (hurt : Bool) : State :=
  match m.purpose with
  | .frame h =>
    let s1 := dropMove (if hurt && isPageMove m && !isSealMove m then damagePage s h m else s) m.id
    match streamOf s1 h with
    | some t =>
      let kept := isSealMove m && (sealKept t m || !(t.frame.toList.any fun fr => fr.pages.any (movePage m)))
      if kept then s1 else endOnMove s1 h m st (if isSealMove m then m.dstTier else m.srcTier)
    | none => s1
  | .command c => complete (dropMove s m.id) c st 0
  | .recall _ => recallFailed s m
  | .resume _ => dropMove s m.id

/-! ## Effects of Table 14-3 -/

/-- Row of Table 14-3, counted from 0. -/
def kindRow : DataKind → Nat
  | .staged => 0 | .roHome => 1 | .frameBlock => 2 | .tailPage => 3 | .recurrent => 4 | .rowRecords => 5 | .stats => 6
  | .snapshot => 7 | .logEntry => 8 | .firmware => 9 | .other => 10

/-- The stream whose reserved T1 holds an address. -/
def streamAt (s : State) (a : Nat) : Option Stream :=
  (s.mem.reserved.find? fun r => match r.base with | some b => decide (b ≤ a) && decide (a < b + r.granules * 65536) | none => false).bind fun r =>
    match r.owner with | .stream h => streamOf s h | _ => none

/-- The item whose home holds a local address. -/
def homeAt (s : State) (a : Nat) : Option (Itin × Nat) :=
  s.itins.findSome? fun it => (it.homes.find? fun x => decide (x.2 ≤ gaddr s a) && decide (gaddr s a < x.2 + itemLen it.img x.1)).map fun x => (it, x.1)

/-- The host region an itinerary was loaded from is still mapped and can be read. -/
def stillMapped (s : State) (it : Itin) : Bool := it.srcRegion != 0 && s.host.linkUp && s.mem.regions.any fun r => r.handle == it.srcRegion && r.tier == 4

/-- A read-only home was damaged: rewritten from the region it was loaded from, unless it was written on the device since, or marked
damaged. -/
def damageHome (s : State) (it : Itin) (off : Nat) : State :=
  match it.img.items.find? (·.off == off), it.homes.lookup off with
  | some i, some a =>
    if stillMapped s it && gid a == s.fabric.id && !(it.replaced.any (·.1 == off)) then
      modMem s fun m => { m with
        cells := writeBytes m.cells (glocal a) (homeBytes it.img it.homes i)
        bad := m.bad.filter fun b => !(decide (glocal a ≤ b) && decide (b < glocal a + i.len)) }
    else modMem s fun m => { m with damagedItems := if m.damagedItems.contains (it.handle, off) then m.damagedItems else m.damagedItems ++ [(it.handle, off)] }
  | _, _ => s

/-- A staged copy of a stream was damaged: it is dropped, and fetched again for the frame that needs it. Which of the stream's copies
the word lies in is a free value. -/
def damageStaged (s : State) (st : Stream) : State :=
  let mine := s.mem.staged.filter fun c => c.stream == st.handle && c.tier == 1
  let f := takeFree s
  match mine[f.1 % max 1 mine.length]?, itinOf s st.itin with
  | some c, some it =>
    let s1 := modMem f.2 fun m => { m with staged := m.staged.erase c }
    if st.frame.isSome then addMove s1 st it c.lastUse c.item (homeOf it c.item) c.bytes 1 c.lastUse c.pin false else s1
  | _, _ => s

/-- A page of a stream in T1 was damaged, a tail page or a sealed one that has its home there; which one is a free value. -/
def damageTail (s : State) (st : Stream) : State :=
  let pages := match st.frame with | some fr => fr.pages | none => st.pages
  let tails := pages.filter fun p => p.tier == 1
  let f := takeFree s
  match tails[f.1 % max 1 tails.length]? with
  | none => s
  | some p =>
    let mark (x : KvPage) : KvPage := if x.layer == p.layer && x.head == p.head && x.slot == p.slot && x.page == p.page then { x with damaged := true } else x
    modStream f.2 st.handle fun t => { t with pages := t.pages.map mark, frame := t.frame.map fun fr => { fr with pages := fr.pages.map mark } }

/-- A stream's state on this die is lost: it resumes from its snapshot, or is lost with this die's ID. -/
def loseState (s : State) (st : Stream) (a : Nat) : State :=
  let h := st.handle
  let info : W64 := BitVec.ofNat 64 (gaddr s a)
  let snap := (regionOf s st.snapRegion).filter (fun r => (regionFault s r).isNone) |>.bind fun r => newestSnap s r.tier (regionAddr s r)
  if st.st == .lost || st.st == .resuming then s
  else match (if st.snapEvery != 0 && st.started then snap else none) with
    | none => loseStream s h 1 s.fabric.id .tierFault 1 1 info
    | some _ =>
      let s1 := cutFrame s h .tierFault 1 1 info
      let s2 := (st.snapping.bind (·.2)).toList.foldl (fun x m => complete x m .tierFault 0) s1
      returnBoost (modStream s2 h fun x => { x with
        st := .resuming, lostDie := s.fabric.id, snapping := none, nextRelease := none, catchup := false, active := [], used := [] })
        (st.active.contains .boost)

/-- The running and closed sets of one channel of a stream's statistics are cleared; which one is a free value. -/
def clearStats (s : State) (st : Stream) : State :=
  let f := takeFree s
  let g := takeFree f.2
  let i := f.1 % max 1 st.stats.length
  let zero (l : List Counters) := l.mapIdx fun j c => if j == g.1 % max 1 l.length then {} else c
  let s1 := modStream g.2 st.handle fun t => { t with stats := t.stats.mapIdx fun j x => if j == i then { x with running := zero x.running, closed := zero x.closed } else x }
  let k := takeFree s1
  logDie k.2 k.1 0xFF 1 0

/-- Bytes of a place in the lower tiers that a snapshot takes. -/
def snapHas (s : State) (a : Nat) (x : Snapshot) : Bool := decide (x.base ≤ gaddr s a) && (match regionAt s x with
  | some r => decide (gaddr s a < x.base + r.bytes) && decide (x.area.1 = (gaddr s a - x.base) / max 1 (areaBytes r))
  | none => false)

/-- One entry of the overflow log is lost and counted; which one is a free value. -/
def loseLogEntry (s : State) : State :=
  let f := takeFree s
  match s.host.log[f.1 % max 1 s.host.log.length]? with
  | none => s
  | some p =>
    let s1 := { f.2 with host := { f.2.host with
      log := dropFirst (· == p) f.2.host.log, lost := vmod f.2.host.lost p.ring (· + 1), lostTotal := vmod f.2.host.lostTotal p.ring (· + 1) } }
    raiseIrq s1 causeLoss

/-- An uncorrectable word at a local T1 or T2 address, by what it holds (R844, Table 14-3). -/
def damage (s : State) (tier a : Nat) (kind : DataKind) : State :=
  let s0 := faultHistory s 0x0706 0xFF (put 0 1 tier + put 1 1 (kindRow kind) + put 4 8 a)
  let onStreamAt (f : Stream → State) : State := match streamAt s0 a with | some st => f st | none => s0
  match kind with
  | .staged => onStreamAt (damageStaged s0)
  | .roHome => match homeAt s0 a with | some x => damageHome s0 x.1 x.2 | none => s0
  | .frameBlock => onStreamAt fun st => tierFault s0 st.handle 1 (gaddr s0 a)
  | .tailPage => onStreamAt (damageTail s0)
  | .recurrent => onStreamAt fun st => loseState s0 st a
  | .rowRecords => onStreamAt fun st => modStream s0 st.handle fun t => { t with rowsBad := some (gaddr s0 a) }
  | .stats => onStreamAt (clearStats s0)
  | .snapshot => { s0 with snaps := s0.snaps.map fun x => if snapHas s0 a x then { x with valid := false } else x }
  | .logEntry => loseLogEntry s0
  | .firmware => s0
  | .other => modMem s0 fun m => { m with bad := if m.bad.contains a then m.bad else m.bad ++ [a] }

/-- An uncorrectable read of a T2 channel counts toward its failure for 1 s (R842). -/
def countBad (s : State) (n : McId) : State :=
  modMem s fun m => { m with channels := vmod m.channels n fun c => { c with badReads := (c.badReads.filter fun t => !passed s t 24576000) ++ [now s] } }

/-- The channel of a local address. -/
def chanOf (a : Nat) : Option McId := match window a with | .t2 n => if h : n < 4 then some ⟨n, h⟩ else none | _ => none

/-- An uncorrectable word of this die's T1 or T2 was read. -/
def badWord (s : State) (tier a : Nat) (kind : DataKind) : State :=
  let s1 := match chanOf a with | some n => countBad s n | none => s
  damage s1 tier a kind

/-! ## Patrol (R817, R818, R835 to R841) -/

/-- A unit that a patrol read can name is here. -/
def patrolHere (s : State) (x : PatrolHit) : Bool :=
  if x.tier == 0 then (match (fins 7)[x.unit]? with | some e => inService s e | none => false)
  else if x.tier == 1 then decide (x.bank < 48) && decide (x.addr < t1Size)
  else x.tier == 2 && (match (fins 4)[x.unit]? with | some n => (s.mem.channels.get n).st == .inService && chanOf x.addr == some n | none => false)

/-- What a patrol read of a word with an error does: correctable errors are corrected in place; an uncorrectable one in T0 is an engine
fault, in T1 and T2 it has the effect of Table 14-3. -/
def patrolFound (s : State) (x : PatrolHit) (kind : DataKind) : State :=
  if !patrolHere s x then s
  else
    let s1 := rowSeen (countT0 s x) x true
    if !x.uncorrectable then s1
    else if x.tier == 0 then (match (fins 7)[x.unit]? with | some e => engineFault s1 e 2 | none => s1)
    else badWord s1 x.tier x.addr kind

/-- PATROL_READ (R817, R818, R835 to R840, R844): what the read found, and the tier whose pass it completes. -/
def execPatrolRead (hit : PatrolStep) (kind : DataKind) (s : State) : Res' :=
  .next <|
    if !ready s then s
    else
      let s1 := match hit.hit with | some x => patrolFound s x kind | none => s
      match hit.ends with | some t => endPass s1 t | none => s1

/-- ECS_COUNT_READ (R325, Table 5-6): every 24 h the counts are logged, under a code the spec does not give. -/
def execEcsCountRead (n : McId) (counts : List Nat) (s : State) : Res' :=
  .next <|
    if !ready s || (s.mem.channels.get n).st != .inService || !passed s (s.mem.channels.get n).ecsAt 2123366400000 then s
    else
      let f := takeFree s
      logDie (modMem f.2 fun m => { m with channels := vmod m.channels n fun c => { c with eccCounts := counts, ecsAt := now s } }) f.1 n.1 0
        (total (counts.mapIdx fun i c => put (4 * i) 4 c))

/-! ## Channels (R305, R326, R841 to R843) -/

/-- The firmware area's contents are lost with its channel: the staged images, the only copies in recall rooms, and the log records not
yet held in the T1 firmware area (R305): the newest, how many is a free value. -/
def loseFwArea (s : State) : State :=
  let inRooms (a : Nat) := decide (s.mem.fwBase + 2 ^ 26 ≤ a) && decide (a < s.mem.fwBase + 2 ^ 27)
  let gone := s.itins.flatMap fun it => (it.homes.filter fun x => gid x.2 == s.fabric.id && inRooms (glocal x.2)).map fun x => (it.handle, x.1)
  let s1 := modPages s fun p => if p.tier == 2 && p.addr != 0 && inRooms p.addr then { p with damaged := true } else p
  let s2 := modMem s1 fun m => { m with
    fwArea := none, rooms := Vector.replicate 8 none, roomUsed := [], damagedItems := m.damagedItems ++ gone.filter fun x => !m.damagedItems.contains x
    loans := m.loans.map fun l => { l with room := none } }
  let f := takeFree s2
  { f.2 with fw := { f.2.fw with staged := Vector.replicate 2 none, dieLog := f.2.fw.dieLog.take (f.1 % (f.2.fw.dieLog.length + 1)) } }

/-- A stream's T2 pages where it held capacity on a failed channel: DAMAGED, all of them where it held no other channel, else a free
choice of them (log entry 8). -/
def losePages (s : State) (n : McId) (st : Stream) : State :=
  let mine := s.mem.reserved.filter fun r => r.owner == .stream st.handle && r.tier == 2
  if !mine.any (·.chan == n.1) then s
  else
    let all := mine.all (·.chan == n.1)
    let mark (ps : List KvPage) := ps.mapIdx fun i p => if p.tier == 2 && p.addr == 0 && (all || Config.freeNat (s.free + i) % 2 == 0) then { p with damaged := true } else p
    let s1 := modStream s st.handle fun t => { t with pages := mark t.pages, frame := t.frame.map fun fr => { fr with pages := mark fr.pages } }
    { s1 with free := s.free + maxOf st.pages.length (st.frame.toList.map (·.pages.length)) }

/-- A channel fails in service (R842, R843, R305). -/
def failChannel (s : State) (n : McId) (reason : Nat) : State :=
  let here (a : Nat) := chanOf a == some n
  let own (a : Nat) := gid a == s.fabric.id && here (glocal a)
  let gone := s.itins.flatMap fun it => (it.homes.filter fun x => own x.2).map fun x => (it.handle, x.1)
  let s1 := s.streams.foldl (fun t st => losePages t n st) s
  let s2 := faultStanding s1 0x0705 n.1 (put 0 1 n.1 + put 1 1 reason)
  let s3 := modMem s2 fun m => { m with
    channels := vmod m.channels n fun c => { c with st := .failedService, badReads := [] }
    cells := clearBytes m.cells here
    bad := m.bad.filter fun a => !here a
    reserved := m.reserved.filter fun r => !(r.tier == 2 && r.chan == n.1)
    damagedItems := m.damagedItems ++ gone.filter fun x => !m.damagedItems.contains x }
  let s4 := { s3 with snaps := s3.snaps.map fun x => if x.tier == 2 && own x.base then { x with valid := false } else x }
  let s5 := if s.mem.fwArea == some n then loseFwArea s4 else s4
  (s5.mem.moves.filter fun m => m.issued.isSome && (own m.src || own m.dst)).foldl (fun t m => failMove t m .tierFault true) s5

/-- CHANNEL_FAILURE (R842): 16 uncorrectable reads within 1 s, or training lost for good. -/
def execChannelFailure (n : McId) (reason : Fin 2) (s : State) : Res' :=
  .next <|
    let c := s.mem.channels.get n
    let many := decide (16 ≤ (c.badReads.filter fun t => !passed s t 24576000).length)
    if !ready s || c.st != .inService || (reason == 0 && !many) then s else failChannel s n reason.1

/-- FIRMWARE_AREA_MOVE (R305): to the lowest-numbered channel in service with 128 MiB that no reservation covers, at its lowest free
address. -/
def execFirmwareAreaMove (s : State) : Res' :=
  .next <|
    if !ready s || s.mem.fwArea.isSome then s
    else match (fins 4).findSome? fun c => if decide (0 < chanAllocatable s c) && decide (2048 ≤ freeChan s c) then (placeOn s 2 c 2048).map fun b => (c, b) else none with
      | none => s
      | some (c, b) => assignRooms (modMem s fun m => { m with fwArea := some c, fwBase := b, cells := clearBytes m.cells fun a => decide (b ≤ a) && decide (a < b + 2048 * 65536) })

/-- Where the firmware area lies at a start: on the lowest-numbered channel once every channel below it has failed (R305). -/
def areaAtStart (s : State) : State :=
  match (fins 4).find? fun c => (s.mem.channels.get c).st == .inService || ((s.mem.channels.get c).st == .untrained && decide (c.1 < mcCount s.fuses.variant)) with
  | some c => modMem s fun m => { m with fwArea := some c, fwBase := t2BaseOf c.1 }
  | none => modMem s fun m => { m with fwArea := none }

/-- Entries recorded as soft are re-marked: hard, or failed (R841). -/
def remarkSoft (s : State) (n : McId) (bad : List Nat) : State :=
  let mine (r : LogRec) := r.code == 0x0704 && bits r.data.toNat 0 8 == n.1 && bits r.data.toNat 64 8 == 0
  let mark (r : LogRec) : LogRec := if mine r then { r with data := r.data ||| BitVec.ofNat 128 (put 8 1 (if bad.contains (bits r.data.toNat 32 32) then 2 else 1)) } else r
  { s with island := { s.island with standing := s.island.standing.map mark } }

/-- A standing entry says that a channel failed, for a reason (0x0705). -/
def channelEntry (s : State) (n : McId) (reason : Nat) : Bool :=
  s.island.standing.any fun r => r.code == 0x0705 && bits r.data.toNat 0 8 == n.1 && bits r.data.toNat 8 8 == reason

/-- The devices of a channel were replaced: the entries that concern the old ones are removed (R890). -/
def forgetDevices (s : State) (n : McId) : State :=
  let of (r : LogRec) : Bool := (r.code == 0x0704 || r.code == 0x0705) && bits r.data.toNat 0 8 == n.1
  { s with
    island := { s.island with standing := s.island.standing.filter fun r => !of r }
    mem := { s.mem with channels := vmod s.mem.channels n fun c => { c with repaired := 0 } } }

/-- The options of Table 5-6: density, data rate and ranks it lists, ×16 devices, and the density and rate of the channels trained so far. -/
def table56 (s : State) (d : Devices) : Bool :=
  [2, 4, 8, 12, 16].contains d.gib && [3200, 4266, 5500, 6400, 7500, 8533].contains d.mts && (d.ranks == 1 || d.ranks == 2) && d.x16
  && s.mem.channels.toList.all fun c => c.st != .inService || (c.gib == d.gib && c.mts == d.mts)

/-- CHANNEL_TRAINING_DONE (R290, R325, R326, R841, R842, R890, R905): the channel enters T2 with what its devices are, or is left out of it, as
is one that an entry says failed in service. How many soft PPR resources its devices have is a free value. -/
def execChannelTrainingDone (n : McId) (matches_ : Devices) (pass replaced : Bool) (hardFailed : List Nat) (s : State) : Res' :=
  .next <|
    if !ready s || decide (mcCount s.fuses.variant ≤ n.1) || (s.mem.channels.get n).st != .untrained then s
    else
      let s0 := if replaced then forgetDevices s n else s
      let enter (st : McState) (k : Nat) : State → State := fun t => modMem t fun m => { m with channels := vmod m.channels n fun c => { c with st := st, softLeft := k } }
      if channelEntry s0 n 0 || channelEntry s0 n 1 then areaAtStart (enter .failedService 0 s0)
      else if table56 s0 matches_ && pass then
        let f := takeFree s0
        let s1 := modMem (enter .inService (f.1 % 65536) f.2) fun m => { m with
          channels := vmod m.channels n fun c => { c with gib := matches_.gib, mts := matches_.mts, ranks := matches_.ranks, ecsAt := now s }, t2Size := m.t2Size + matches_.gib * 16384 }
        areaAtStart (remarkSoft s1 n hardFailed)
      else
        let s1 := enter .failedTraining 0 s0
        areaAtStart (if channelEntry s0 n 2 then s1 else faultStanding s1 0x0705 n.1 (put 0 1 n.1 + put 1 1 2))

end Sys2Proof.Machine
end

