-- ==== Sys2Proof/Machine/Guest.lean ====
section
/-! DEFINITION. The work that streams of other dies place on this die: admitted here with what their home dies ask for, and dropped with
its strand records and reservations when the stream closes or its home die is lost (07 R434, 14 R848). -/

namespace Sys2Proof.Machine

/-- Change the work of other dies' streams. -/
def modGuests (s : State) (f : List Guest → List Guest) : State := { s with fabric := { s.fabric with guests := f s.fabric.guests } }

/-- What an itinerary places on this die, which no command of this die names. -/
def guestItin (img : Image) (fallback : Bool) : Itin :=
  { handle := 0, tenant := 16, crc := BitVec.ofNat 32 (bfld img.bytes (img.bytes.length - 4) 4), img := img, fallback := fallback, fbDies := 0, homes := []
    granules := 0, steps := stepCount (if fallback then img.fallback.getD img.main else img.main), srcRegion := 0, replaced := [] }

/-- How this die takes the itinerary, where it carries the units it needs (R14, R15). -/
def guestSection (s : State) (img : Image) : Option Bool :=
  match fitHere s img with | .main => some false | .fallback _ => some true | .lacks _ => none

/-- Admission of a stream of another die (R432, R434): engine time, strand records and memory together, or none of them. -/
def admitGuest (s : State) (home : FabId) (h : Nat) (img : Image) (p : OpenArgs) : Option State := do
  let fb ← guestSection s img
  let it := guestItin img fb
  let map ← admitEngines s p.guar { openTask it p with handle := guestKey home h }
  if 16384 < strandsHeld s + it.steps then none
  else
    let t ← takeAll s (.guest home h) 16 (streamNeeds it p)
    pure (modGuests t fun l => l ++ [⟨home, h, it, p.guar, p.prio, p.period, p.deadline, p.maxRows, p.maxPos, p.ragged, p.backward, map⟩])

/-- Whether a stream of another die has work here. -/
def hasGuest (s : State) (home : FabId) (h : Nat) : Bool := s.fabric.guests.any fun g => g.home == home && g.handle == h

/-- A home die asks for its stream's work to be taken here, and is answered. -/
def openGuest (s : State) (home : FabId) (h : Nat) (img : Image) (args : BitVec 512) : State :=
  match (if hasGuest s home h then none else admitGuest s home h img (openArgs args.toNat)) with
  | some t => sendMgmt t home (.guestAnswer h true)
  | none => sendMgmt s home (.guestAnswer h false)

/-- A stream's work is dropped here: its strand records go with it, and its reservations are released. -/
def dropGuest (s : State) (home : FabId) (h : Nat) : State :=
  releaseAll (modGuests s fun l => l.filter fun g => !(g.home == home && g.handle == h)) (.guest home h)

/-- The work of streams whose home dies are lost is dropped, and a record written for each (R848). -/
def dropLostGuests (s : State) : State :=
  (s.fabric.guests.filter fun g => s.fabric.lost.contains g.home).foldl (fun t g =>
    faultHistory (dropGuest t g.home g.handle) 0x0720 0xFF (put 0 2 g.handle + put 2 2 g.home.toNat)) s

end Sys2Proof.Machine
end

