-- ==== Sys2Proof/Machine/Memory.lean ====
section
/-! DEFINITION. Memory commands (10 R591 to R597), and lending and borrowing between dies (05 R280 to R310). -/

namespace Sys2Proof.Machine

/-! ## MEM_RESERVE (R284 to R288, R291 to R293, R583, R591 to R593) -/

/-- Add a region and take its handle. -/
def addRegion (s : State) (r : Region) : State :=
  let s1 := modMem s fun m => { m with regions := m.regions ++ [r] }
  { s1 with fw := { s1.fw with regionNext := afterHandle r.handle } }

/-- The next region handle (R581). -/
def nextRegion (s : State) : Nat := nextHandle (s.mem.regions.map (·.handle)) 65536 s.fw.regionNext

/-- What MEM_RESERVE asks for. -/
def reserveNeed (m : MailCmd) : Need := ⟨arg m 8 1, if arg m 8 1 == 2 then (fins 4)[arg m 9 1]? else none, arg m 12 4, true, false⟩

/-- LENDER of MEM_RESERVE. -/
def lenderArg (m : MailCmd) : FabId := BitVec.ofNat 16 (arg m 16 2)

/-- Arguments of MEM_RESERVE outside Table 10-4, R298 and R592. -/
def reserveBad (s : State) (m : MailCmd) : Bool :=
  let t := arg m 8 1
  reserved m || t == 0 || decide (3 < t) || (decide (3 < arg m 9 1) && arg m 9 1 != 0xFF) || arg m 12 4 == 0
  || (t == 3 && (decide (128 < arg m 12 4) || (lenderArg m != 0xFFFF && !knownId s (lenderArg m) && !s.fabric.lost.contains (lenderArg m))))

/-- The reservation is made: it becomes a region. -/
def reserveDone (s : State) (m : MailCmd) (w : Owner) : State :=
  match s.mem.reserved.find? (·.owner == w) with
  | none => complete s m .noReservation 0
  | some r =>
    let h := nextRegion s
    let b := r.base.getD 0
    let s1 := modMem s fun x => { x with reserved := x.reserved.map fun y => if y.owner == w then { y with owner := .region h } else y }
    let g : Region :=
      { handle := h, tenant := mailTenant s m, tier := r.tier, chan := r.chan, base := b, bytes := r.granules * 65536, hostAddr := 0
        lender := if r.tier == 3 then some (gid b) else none }
    complete (addRegion s1 g) m .ok (put 8 2 h + put 12 4 r.granules + put 16 8 (if r.tier == 3 then b else gaddr s b))

/-- MEM_RESERVE's effect; a command that waited for capacity comes here again. -/
def reserveMem (s : State) (m : MailCmd) : State :=
  let t3 := arg m 8 1 == 3
  if arg m 8 1 == 2 && decide (arg m 9 1 < 4) && decide (mcCount s.fuses.variant ≤ arg m 9 1) then giveUp s m .absentUnit
  else if reserveBad s m then giveUp s m .badArgument
  else if !discovered s then giveUp s m .notReady
  else if needsOverQuota s (mailTenant s m) [reserveNeed m] (heldLoans s m) then giveUp s m .quotaExceeded
  else if t3 && s.fabric.lost.contains (lenderArg m) then giveUp s m .neighbourLost
  else acquire s m (if t3 then lenderArg m else 0xFFFF) none [reserveNeed m] fun t w => reserveDone t m w

/-- MEM_RESERVE. -/
def execMemReserve (m : MailCmd) (s : State) : Res' := .next <| onMail m 0x10 s fun s => reserveMem s m

/-! ## MEM_RELEASE (R283, R288, R601, R843) -/

/-- A range of global addresses meets a region. -/
def inRegion (s : State) (r : Region) (a len : Nat) : Bool :=
  let b := regionAddr s r
  decide (a < b + r.bytes) && decide (b < a + len)

/-- What still references a region: homes of a loaded itinerary, the snapshots of an open stream, a move under way. -/
def regionUsed (s : State) (r : Region) : Bool :=
  (s.itins.any fun it => it.homes.any fun x => inRegion s r x.2 1)
  || (s.streams.any fun st => st.st != .lost && (st.snapRegion == r.handle || (match st.snapping with | some (x, _) => x.tier == r.tier && x.base == regionAddr s r | none => false)))
  || s.mem.moves.any fun m => inRegion s r m.src m.len || inRegion s r m.dst m.len

/-- MEM_RELEASE. -/
def execMemRelease (m : MailCmd) (s : State) : Res' :=
  .next <| onMail m 0x11 s fun s =>
    match namedRegion s m (arg m 8 2) with
    | none => complete s m .badArgument 0
    | some r =>
      if reserved m then complete s m .badArgument 0
      else if regionUsed s r then complete s m .busy 0
      else
        let n := ownerGranules s (.region r.handle)
        let s1 := releaseAll s (.region r.handle)
        complete (modMem s1 fun x => { x with regions := x.regions.filter fun y => y.handle != r.handle }) m .ok (put 8 4 n)

/-! ## MEM_QUOTA_SET (R289, R290, R294, R297, R299, R594, R595) -/

/-- The arguments are bad. -/
def quotaBad (s : State) (m : MailCmd) : Bool :=
  let k := arg m 8 1
  let t := arg m 10 1
  let v := arg m 12 4
  reserved m || decide (2 < k)
  || (k == 0 && (decide (15 < arg m 9 1) || decide (3 < t) || (t == 0 && decide (allocatable s 0 < v))))
  || (k == 1 && (!(t == 1 || t == 2) || decide (allocatable s t < v)))
  || (k == 2 && (v == 0 || decide (32 < v)))

/-- A lend limit is set: loans above it are recalled, newest first, and the command completes once the recall notices are sent. -/
def setLimit (s : State) (m : MailCmd) (tier v : Nat) : State :=
  let old := nth s.mem.lendLimit.toList tier 0
  let s1 := modMem s fun x => { x with lendLimit := vmapIdx (fun i n => if i == tier then v else n) x.lendLimit }
  if lentOn s tier ≤ v then complete s1 m .ok (put 8 4 old + put 12 4 (lentOn s tier))
  else finishLimits (sendRecalls (markDue (addWaiting (hold s1 m) (some m) old 0xFFFF none []).1 (fun l => l.tier == tier) (lentOn s tier - v)))

/-- MEM_QUOTA_SET. -/
def execMemQuotaSet (m : MailCmd) (s : State) : Res' :=
  .next <| onMail m 0x12 s fun s =>
    let tn := arg m 9 1
    let t := arg m 10 1
    let v := arg m 12 4
    if quotaBad s m then complete s m .badArgument 0
    else if arg m 8 1 == 0 then
      complete (modMem s fun x => { x with quotas := assocSet (tn, t) v x.quotas }) m .ok (put 8 4 (quotaOf s tn t) + put 12 4 (heldBy s tn t))
    else if arg m 8 1 == 1 then setLimit s m t v
    else complete (modMem s fun x => { x with radius := v }) m .ok (put 8 4 s.mem.radius)

/-! ## REGION_MAP (R265, R596) -/

/-- Regions of the T4 window. -/
def mapped (s : State) : List Region := s.mem.regions.filter (·.tier == 4)

/-- The lowest free range of the T4 window. -/
def t4Place (s : State) (n : Nat) : Option Nat :=
  let l := (mapped s).map fun r => (r.base, r.base + r.bytes)
  lowestFree l (2 ^ 48) n (l.length + 1) t4Base

/-- REGION_MAP. -/
def execRegionMap (m : MailCmd) (s : State) : Res' :=
  .next <| onMail m 0x13 s fun s =>
    let a := arg m 8 8
    let n := arg m 16 8
    if reserved m || a % 4096 != 0 || n % 4096 != 0 || n == 0 || decide (2 ^ 40 < n) then complete s m .badArgument 0
    else if 1024 ≤ (mapped s).length then complete s m .noReservation 0
    else match t4Place s n with
      | none => complete s m .noReservation 0
      | some b =>
        let h := nextRegion s
        let g : Region := { handle := h, tenant := mailTenant s m, tier := 4, chan := 0, base := b, bytes := n, hostAddr := a, lender := none }
        complete (addRegion s g) m .ok (put 8 2 h + put 16 8 (gaddr s b))

/-! ## REGION_MOVE (R280 to R282, R597) -/

/-- Bytes a command's move carries at most (log entry 31). -/
def moveBytes : Nat := 65536

/-- The source holds writable data of an open stream (R282). -/
def writableSrc (s : State) (a n : Nat) : Bool :=
  gid a == s.fabric.id && s.mem.reserved.any fun r =>
    (match r.owner with | .stream h => (match streamOf s h with | some st => st.st != .lost | none => false) | _ => false)
    && r.tier == 1 && (match r.base with | some b => decide (b < glocal a + n) && decide (glocal a < b + r.granules * 65536) | none => false)

/-- A home may be placed in a region on T3: its lender has a recall room, or one is free (R300, R304). -/
def roomForCopy (s : State) (r : Region) : Bool :=
  match r.lender with
  | none => true
  | some d => s.mem.fwArea.isSome && !roomTaken s d && ((roomOf s d).isSome || (freeRoom s).isSome)

/-- The part of a REGION_MOVE from `off` on: one move to its end. -/
def partMove (s : State) (m : MailCmd) (r : Region) (off : Nat) : Move :=
  let src := arg m 8 8 + off
  let t := tierOf s src
  { id := s.mem.moveNext, purpose := .command m, layer := 0, item := off, srcTier := t, src := src, dstTier := r.tier
    dst := regionAddr s r + arg m 24 8 + off, len := min moveBytes (arg m 32 8 - off), switch := bit (arg m 18 1) 0, lastUse := 0, pin := false
    issued := some (now s), timeout := defaultTimeout t }

/-- Issue a part of a REGION_MOVE: its source or its destination may be out of reach. -/
def issuePart (s : State) (m : MailCmd) (r : Region) (off : Nat) : State :=
  let x := partMove s m r off
  match regionFault s r with
  | some st => complete s m st 0
  | none =>
    if x.srcTier == 4 && !s.host.linkUp then complete s m .tierFault 0
    else if x.srcTier == 3 && !reachable s (gid x.src) then complete s m .neighbourLost 0
    else
      let s1 := modMem s fun y => { y with moves := y.moves ++ [x], moveNext := y.moveNext + 1 }
      if x.srcTier == 3 then readRemote s1 x.id x.src x.len else s1

/-- REGION_MOVE. -/
def execRegionMove (m : MailCmd) (s : State) : Res' :=
  .next <| onMail m 0x14 s fun s =>
    let a := arg m 8 8
    let off := arg m 24 8
    let n := arg m 32 8
    match srcStatus s a n, namedRegion s m (arg m 16 2) with
    | some .absentUnit, _ => complete s m .absentUnit 0
    | _, none => complete s m .badArgument 0
    | x, some r =>
      if reserved m || x.isSome || r.tier == 4 || a % 64 != 0 || off % 64 != 0 || n % 64 != 0 || n == 0 then complete s m .badArgument 0
      else if decide (r.bytes < off + n) || (bit (arg m 18 1) 0 && !roomForCopy s r) then complete s m .noReservation 0
      else if writableSrc s a n then complete s m .busy 0
      else issuePart (hold s m) m r 0

/-- The bytes of a home that lies in this die's T1 or T2 name its place and those of the items it points to. -/
def rewriteHomes (s : State) (it : Itin) : State :=
  (it.img.items.filter fun i => i.die == s.fabric.id).foldl (fun t i =>
    match it.homes.lookup i.off with
    | some a =>
      if gid a == t.fabric.id && (match window (glocal a) with | .t1 => true | .t2 _ => true | _ => false) then
        let b := match it.replaced.lookup i.off with | some b => homedBytes it.homes i.off b | none => homeBytes it.img it.homes i
        modMem t fun m => { m with cells := writeBytes m.cells (glocal a) b }
      else t
    | none => t) s

/-- Switch every reference from a source range to its copy: homes of items, sealed pages, snapshots (R280). -/
def switchHomes (s : State) (src dst n : Nat) : State :=
  let hit (a : Nat) := decide (src ≤ a) && decide (a < src + n)
  let touched := (s.itins.filter fun it => it.homes.any fun x => hit x.2).map (·.handle)
  let s1 := modHomes s fun a => if hit a then dst + (a - src) else a
  let own := gid dst == s.fabric.id
  let s2 := modPages s1 fun p =>
    let a := pageSrc s p
    if 2 ≤ p.tier && hit a then
      { p with tier := tierOf s dst, addr := if own then glocal (dst + (a - src)) else dst + (a - src), home := gid dst }
    else p
  let s3 := { s2 with snaps := s2.snaps.map fun x => if hit x.base then { x with base := dst + (x.base - src), tier := tierOf s dst } else x }
  let s4 := freeRooms (if own then s3 else assignRoom s3 (gid dst))
  (s4.itins.filter fun it => touched.contains it.handle).foldl rewriteHomes s4

/-- A write into a range drops the snapshots that lay there, and a word that was damaged is written again (Table 14-3). -/
def overwrite (s : State) (a n : Nat) : State :=
  let s1 := { s with snaps := s.snaps.filter fun x => !(decide (a < x.base + (2 * x.bytes)) && decide (x.base < a + n)) }
  modMem s1 fun m => { m with bad := if gid a == s.fabric.id then m.bad.filter fun b => !(decide (glocal a ≤ b) && decide (b < glocal a + n)) else m.bad }

/-- A part of a REGION_MOVE is in its place: the next part is issued, or the command completes. -/
def partDone (s : State) (m : MailCmd) (x : Move) : State :=
  let s1 := dropMove (overwrite s x.dst x.len) x.id
  match regionOf s1 (arg m 16 2) with
  | none => complete s1 m .tierFault 0
  | some r =>
    let off := x.item + x.len
    if off < arg m 32 8 then issuePart s1 m r off
    else
      let s2 := if x.switch then switchHomes s1 (arg m 8 8) (regionAddr s1 r + arg m 24 8) (arg m 32 8) else s1
      complete s2 m .ok (put 8 8 (arg m 32 8) + put 16 8 (if x.switch then now s else 0))

/-! ## Requests that waited (R295, R296, R303) -/

/-- Run a waiting command again. -/
def retryCmd (s : State) (m : MailCmd) (img : Option Image) : State :=
  let op := mailOpcode m
  if op == 0x10 then reserveMem s m
  else if op == 0x20 then (match img with | some x => loadItin s m x | none => s)
  else if op == 0x22 then openStream s m
  else if op == 0x28 then resumeStream s m
  else if op == 0x70 then (match namedStream s m (arg m 8 2) with | some st => bindStream s m st | none => giveUp s m .badArgument)
  else s

/-- What leaves a lender: the only copies of a loan it recalls that have no room, or those in its room. -/
def copiesOf (s : State) (l : FabId) : Option (Nat × Nat) :=
  match leaving s l with
  | some x => some (x.base, x.granules)
  | none => match roomOf s l, s.mem.roomUsed.find? (·.1 == l) with
    | some i, some x => some (gaddr s (roomBase s i), x.2)
    | _, _ => none

/-- A loan for only copies that leave a lender has been granted: they move there (R301, R303). -/
def moveCopies (s : State) (w : Waiting) : State :=
  let s1 := dropWaiting s w.req
  match (s.mem.reserved.find? (·.owner == .wait w.req)).bind (·.base), copiesOf s w.named with
  | some b, some (src, n) => recallMove (releaseOwner s1 (.wait w.req)) w.named src 3 b n
  | _, _ => releaseAll s1 (.wait w.req)

/-- A request goes on: with the next lender, or, once it holds all its loans, with its effect. -/
def goOn (s : State) (req : Nat) : State :=
  match s.mem.waiting.find? (·.req == req) with
  | none => s
  | some w =>
    if w.ask.isSome then s
    else if w.need != 0 then
      let r := askLender s req
      if r.2 then r.1 else (match w.cmd with | some m => giveUp r.1 m .noReservation | none => searchEnds r.1 w)
    else match w.cmd with
      | some m => if mailOpcode m == 0x12 then s else retryCmd s m w.img
      | none => moveCopies s w

/-- Every waiting request goes on, in the order of acceptance (R295). -/
def retryAll (s : State) : State := (s.mem.waiting.map (·.req)).foldl goOn s

/-! ## Loan messages (R297 to R310, R351, R360, R399) -/

/-- A message from another die reached this die over a port that carries traffic. -/
def heard (s : State) (p : PortId) (src : FabId) : Bool := ready s && (s.fabric.ports.get p).st == .active && src != s.fabric.id && !s.fabric.lost.contains src

/-- LOAN_REQUEST (R297, R308): granted from what is free, at the lowest free addresses, else refused. -/
def execLoanRequest (p : PortId) (src : FabId) (req tier granules : Nat) (s : State) : Res' :=
  .next <|
    if !heard s p src then s
    else match lendPlace s tier granules with
      | none => sendMgmt s src (.loanRefused req)
      | some b =>
        let l : Lent := { borrower := src, tier := tier, base := b, granules := granules, serial := s.mem.lentNext }
        sendMgmt (modMem s fun m => { m with lent := m.lent ++ [l], lentNext := m.lentNext + 1 }) src (.loanGrant req tier b granules)

/-- A loan was refused: the next lender is asked (R306). -/
def loanRefusedBy (s : State) (req : Nat) (lender : FabId) : State :=
  match s.mem.waiting.find? fun w => w.req == req && w.ask == some lender with
  | none => s
  | some _ => askAll (goOn (modWait s req fun w => { w with ask := none, tried := w.tried ++ [lender] }) req)

/-- LOAN_GRANT (R298, R300, R304): a grant of what was asked is taken, for only copies while the lender has a room or one is free; any
other loan is returned. -/
def execLoanGrant (p : PortId) (lender : FabId) (req : Nat) (tier base granules : Nat) (s : State) : Res' :=
  .next <|
    if !heard s p lender then s
    else match s.mem.waiting.find? fun w => w.req == req && w.ask == some lender with
      | none => sendMgmt s lender (.loanReturn (glocal base))
      | some w =>
        if granules != min 128 w.need || !(tier == 1 || tier == 2) then sendMgmt s lender (.loanReturn (glocal base))
        else if !loanFits s w lender then sendMgmt (loanRefusedBy s req lender) lender (.loanReturn (glocal base))
        else
          let tn := match w.cmd with | some m => mailTenant s m | none => 0
          askAll (goOn (takeLoan s w tn lender base granules) req)

/-- The loan of a lender at an address. -/
def loanAt (s : State) (lender : FabId) (base : Nat) : Option Loan := s.mem.loans.find? fun l => l.lender == lender && glocal l.base == glocal base

/-- RECALL_NOTICE (R301, R310). -/
def execRecallNotice (p : PortId) (lender : FabId) (base : Nat) (s : State) : Res' :=
  .next <|
    if !heard s p lender then s
    else match loanAt s lender base with
      | none => s
      | some l => if l.recalled.isSome then s else serveRecall s l

/-- LOAN_RETURN (R301): the lender takes the loan back, and what waited for it goes on. -/
def execLoanReturn (p : PortId) (borrower : FabId) (base : Nat) (s : State) : Res' :=
  .next <|
    if !heard s p borrower || !(s.mem.lent.any fun l => l.borrower == borrower && glocal l.base == glocal base) then s
    else retryAll (takeBack s borrower base)

/-- RECALL_NOTICE_EXPIRY (R301, R307): the lender takes the loan back; on the borrower, which this die is where it names itself, only
copies that were not moved are lost. -/
def execRecallNoticeExpiry (borrower : FabId) (base : Nat) (s : State) : Res' :=
  .next <|
    if !ready s then s
    else if borrower == s.fabric.id then
      (match s.mem.loans.find? fun l => l.base == base && noticeOver s l with
       | some l => loseLoan false s l
       | none => s)
    else if s.mem.lent.any fun l => l.borrower == borrower && glocal l.base == glocal base && (match l.recallAt with | some t => passed s t noticeTicks | none => false)
    then retryAll (takeBack s borrower base)
    else s

/-- RECALL_ROOM_RESTORE (R303): a new loan is sought for what lies in the room. -/
def execRecallRoomRestore (lender : FabId) (s : State) : Res' :=
  .next <|
    if !ready s || (s.mem.loans.any fun l => l.lender == lender && l.room.isSome) then s
    else match s.mem.roomUsed.find? (·.1 == lender) with
      | some x => if s.mem.moves.any fun m => m.purpose == .recall lender then s else (seekFor s lender x.2).1
      | none => s

end Sys2Proof.Machine
end

