-- ==== Sys2Proof/Machine/Land.lean ====
section
/-! DEFINITION. Moves that land, that are held, and that are late (05 R268 to R276, R311 to R324). -/

namespace Sys2Proof.Machine

/-! ## Lateness (R311, R318, R321, R322) -/

/-- The tick after which a move is late: its source tier's timeout, or the end of notice of a recall; none where there is no limit. -/
def lateAfter (s : State) (m : Move) : Option Tick :=
  match m.purpose with
  | .recall _ => match s.mem.loans.find? fun l => l.base == m.src with
    | some l => l.recalled.map (· + noticeTicks)
    | none => none
  | _ => if m.timeout == 0 then none else m.issued.map (· + m.timeout)

/-- The bytes a move brings: those of this die's T1 and T2, or what the environment supplies. -/
def moveData (s : State) (m : Move) (data : List Byte) : List Byte :=
  if tierOf s m.src == m.srcTier && (m.srcTier == 1 || m.srcTier == 2) then readBytes s.mem.cells (glocal m.src) m.len
  else data.take m.len

/-- A word of the source reads as uncorrectable (Table 14-3, last row). -/
def badSource (s : State) (m : Move) : Bool := tierOf s m.src == m.srcTier && gid m.src == s.fabric.id && s.mem.bad.any fun b => decide (glocal m.src ≤ b) && decide (b < glocal m.src + m.len)

/-! ## Landing, by what the move serves -/

/-- A sealed page has its home in a lower tier from this tick (R227, R276): in the frame that sealed it, and in the stream once the seal
is committed there (R255). -/
def sealDone (s : State) (h : Nat) (m : Move) : State :=
  let put_ (p : KvPage) : KvPage :=
    if movePage m p then { p with tier := m.dstTier, addr := if m.dstTier == 3 then m.dst else 0, home := if m.dstTier == 3 then gid m.dst else s.fabric.id } else p
  dropMove (modStream s h fun st => { st with pages := st.pages.map fun p => if p.isSealed then put_ p else p, frame := st.frame.map fun fr => { fr with pages := fr.pages.map put_ } }) m.id

/-- A sealed page leaves T1: into T2 at once, into T3 by a MOVE to a place in the stream's loans; without a place it stays. -/
def landSeal (s : State) (h : Nat) (m : Move) (data : List Byte) : State :=
  if m.dstTier != 3 then sealDone s h m
  else match placeInLoans s h m.len with
    | none => dropMove s m.id
    | some a =>
      let s1 := modMem s fun x => { x with moves := x.moves.map fun y => if y.id == m.id then { y with dst := a } else y }
      if reachable s (gid a) then moveRemote s1 (some m.id) a m.len data else failMove s1 { m with dst := a } .neighbourLost false

/-- A scheduled tile or record lands: checked (R136), fetched once more from its home where the check fails, then staged. -/
def landItem (s : State) (h : Nat) (m : Move) (data : List Byte) : State :=
  match streamOf s h, (streamOf s h).bind fun st => itinOf s st.itin with
  | some st, some it =>
    if s.mem.damagedItems.contains (it.handle, m.item) then failMove s m .tierFault true
    else if tileIntact data then
      let c : Staged := ⟨st.itin, h, m.item, m.dstTier, m.dst, m.len, m.lastUse, m.pin, m.engine, (st.frame.map (·.release)).getD 0⟩
      modMem (dropMove s m.id) fun x => { x with staged := x.staged ++ [c] }
    else if m.refetched then failMove s m .tierFault true
    else
      let src := homeOf it m.item
      let t := tierOf s src
      issueMove s h { m with refetched := true, src := src, srcTier := t, timeout := timeoutOf st t }
  | _, _ => dropMove s m.id

/-- The bytes of a part of a REGION_MOVE go to its destination (R597). -/
def landPart (s : State) (c : MailCmd) (m : Move) (data : List Byte) : State :=
  if gid m.dst == s.fabric.id then partDone (modMem s fun x => { x with cells := writeBytes x.cells (glocal m.dst) data }) c m
  else if reachable s (gid m.dst) then moveRemote s (some m.id) m.dst m.len data
  else failMove s m .neighbourLost false

/-- Only copies of a recalled loan go to their new place (R301, R303). -/
def landRecall (s : State) (l : FabId) (m : Move) (data : List Byte) : State :=
  if gid m.dst == s.fabric.id then recallDone (modMem s fun x => { x with cells := writeBytes x.cells (glocal m.dst) data }) m l
  else if reachable s (gid m.dst) then moveRemote s (some m.id) m.dst m.len data
  else failMove s m .neighbourLost false

/-- A move's last byte has landed; a stream is charged for it (R756). -/
def landOk (s : State) (m : Move) (data : List Byte) : State :=
  let charged (h : Nat) : State := chargeMove s h m.srcTier m.dstTier m.len
  match m.purpose with
  | .frame h => if isSealMove m then landSeal (charged h) h m data else if isPageMove m then dropMove (charged h) m.id else landItem (charged h) h m data
  | .command c => landPart s c m data
  | .recall l => landRecall s l m data
  | .resume h => dropMove (charged h) m.id

/-- A move met an uncorrectable error (R313, R314, R844): a read-only home that can be rewritten from the region it was loaded from is
read from there instead; every other request ends. -/
def landBad (s : State) (m : Move) (kind : DataKind) : State :=
  let own := gid m.src == s.fabric.id && (m.srcTier == 1 || m.srcTier == 2)
  let s1 := if own && !isPageMove m then badWord s m.srcTier (glocal m.src) kind else if own && m.srcTier == 2 then (match chanOf (glocal m.src) with | some n => countBad s n | none => s) else s
  match m.purpose with
  | .frame h =>
    match streamOf s1 h, (streamOf s1 h).bind fun st => itinOf s1 st.itin with
    | some st, some it =>
      if own && !isPageMove m && kind == .roHome && stillMapped s it then
        match regionOf s it.srcRegion with
        | some r =>
          issueMove s1 h { m with srcTier := 4, src := gaddr s (r.base + m.item), timeout := timeoutOf st 4 }
        | none => failMove s1 m .tierFault true
      else failMove s1 m .tierFault true
    | _, _ => failMove s1 m .tierFault true
  | _ => failMove s1 m .tierFault true

/-- A move for a stream that its source tier still has to serve: issued, and not a sealed page whose bytes have left T1. -/
def awaitsService (m : Move) : Bool := m.issued.isSome && !(isSealMove m && m.dst != 0)

/-- The stream a move is for. -/
def moveStream (s : State) (m : Move) : Option Stream := match m.purpose with | .frame h => streamOf s h | _ => none

/-- The source tier serves `x` before `m`: both are for streams; of one stream or of equal priority the one issued first, which stands
first in the list, else the one of higher priority (R273; log entry 146). -/
def servedBefore (s : State) (x m : Move) (first : Bool) : Bool :=
  match moveStream s x, moveStream s m with
  | some a, some b => x.srcTier == m.srcTier && awaitsService x && (if a.handle == b.handle || a.prio == b.prio then first else decide (a.prio < b.prio))
  | _, _ => false

/-- No other move is served before this one. -/
def isNext (s : State) (m : Move) : Bool :=
  let older := s.mem.moves.takeWhile fun x => x.id != m.id
  s.mem.moves.all fun x => x.id == m.id || !servedBefore s x m (older.any fun y => y.id == x.id)

/-- MOVE_LAND (R273, R276, R313 to R319). A move whose responses have not all come has not landed, nor has one that another is served before. -/
def execMoveLand (id : Nat) (result : ReadEnd) (data : List Byte) (kind : DataKind) (s : State) : Res' :=
  .next <|
    match s.mem.moves.find? (·.id == id) with
    | none => s
    | some m =>
      let late := match lateAfter s m with | some t => reached s (t + 1) | none => false
      if !ready s || m.issued.isNone || stillOut s id then s
      else match result with
        | .late => s
        | .lost => failMove s m (if m.srcTier == 3 then .neighbourLost else .tierFault) false
        | .bad => if isNext s m then landBad s m kind else s
        | .ok => if !isNext s m then s else if late then failMove s m .tierFault false else if badSource s m then landBad s m .other else landOk s m (moveData s m data)

/-- A held move has what it reads: a move into T0 has its item in T1 (R259). -/
def canIssue (s : State) (it : Itin) (m : Move) : Bool := m.issued.isNone && (m.dstTier != 0 || m.srcTier != 1 || inT1 s it m.item)

/-- MOVE_DEFERRED_ISSUE (R259, R274): a held move is issued once its item is there and it fits the staging reservation, after those held
before it. -/
def execMoveDeferredIssue (id : Nat) (s : State) : Res' :=
  .next <|
    match s.mem.moves.find? (·.id == id) with
    | none => s
    | some m =>
      match m.purpose with
      | .frame h =>
        match streamOf s h, (streamOf s h).bind fun st => itinOf s st.itin with
        | some _, some it =>
          let first := (s.mem.moves.find? fun x => x.purpose == m.purpose && x.dstTier == m.dstTier && canIssue s it x).map (·.id) == some id
          if !ready s || !first || decide (stagingOf it m.dstTier < stagedIn s h m.dstTier + m.len) then s
          else issueMove s h m
        | _, _ => s
      | _ => s

/-- MOVE_LATENESS_TIMEOUT (R311, R313, R318 to R321): from the tick after the timeout, the request that needed the data ends; its tags are
retired (R354). -/
def execMoveLatenessTimeout (id : Nat) (s : State) : Res' :=
  .next <|
    match s.mem.moves.find? (·.id == id) with
    | none => s
    | some m =>
      let due := match lateAfter s m with | some t => reached s (t + 1) | none => false
      if !ready s || !due then s else failMove s m .tierFault false

/-! ## Answers of other dies (R351, R353, R355) -/

/-- Every MOVE of a move has been acknowledged. -/
def remoteDone (s : State) (m : Move) : State :=
  match m.purpose with
  | .frame h => sealDone s h m
  | .command c => partDone s c m
  | .recall l => recallDone s m l
  | .resume _ => dropMove s m.id

/-- Change the outstanding request of a tag. -/
def modOut (s : State) (tag : BitVec 16) (f : Outstanding → Option Outstanding) : State :=
  { s with fabric := { s.fabric with outstanding := s.fabric.outstanding.filterMap fun o => if o.tag == tag then f o else some o } }

/-- A response reaches the request of its tag (R351, R353): one without a match is discarded and counted. -/
def answered (s : State) (p : PortId) (isRead : Bool) (tag : BitVec 16) (src : FabId) (status : Nat) : State :=
  match s.fabric.outstanding.find? fun o => o.tag == tag && o.isRead == isRead && o.dest == src with
  | none => modPort s p fun q => { q with discards := q.discards + 1 }
  | some o =>
    let mv := o.move.bind fun i => s.mem.moves.find? (·.id == i)
    if status != 0 then
      let s1 := modOut s tag fun _ => none
      match mv with | some m => failMove s1 m .tierFault (status == 2) | none => s1
    else if o.got + 1 < o.need then modOut s tag fun o => some { o with got := o.got + 1 }
    else
      let s1 := modOut s tag fun _ => none
      match mv with | some m => if isRead then s1 else remoteDone s1 m | none => s1

/-- REMOTE_REQUEST_TIMEOUT (R355): a request without a tier timeout ends after 49,152 ticks without a response. -/
def execRemoteRequestTimeout (tag : BitVec 16) (s : State) : Res' :=
  .next <|
    match s.fabric.outstanding.find? (·.tag == tag) with
    | none => s
    | some o =>
      if !ready s || o.tiered || !passed s o.issued 49152 then s
      else
        let s1 := modOut s tag fun _ => none
        match o.move.bind fun i => s.mem.moves.find? (·.id == i) with
        | some m => failMove s1 m .tierFault false
        | none => s1

end Sys2Proof.Machine
end

