-- ==== Sys2Proof/Machine/Links.lean ====
section
/-! DEFINITION. Causeway flits, credits, packets and their sinks (06 R329 to R331, R348 to R353, R356 to R368, R385 to R387). -/

namespace Sys2Proof.Machine

/-! ## Flits (Tables 6-2, 6-6) -/

/-- A flit with its FCRC. -/
def flitOf (seq ack fk vc cls crv crn : Nat) (payload : BitVec 512) : BitVec 576 :=
  let h := seq % 1024 + (ack % 1024) * 2 ^ 10 + fk * 2 ^ 20 + vc * 2 ^ 22 + cls * 2 ^ 24 + crv * 2 ^ 25 + crn * 2 ^ 28
  let b := h + payload.toNat * 2 ^ 32
  BitVec.ofNat 576 (b + (crc32c (leBytes 68 b)).toNat * 2 ^ 544)

/-- Sequence number of a flit. -/
def flitSeq (f : BitVec 576) : BitVec 10 := BitVec.ofNat 10 f.toNat

/-- The FCRC agrees. -/
def flitOk (f : BitVec 576) : Bool := f.toNat >>> 544 == (crc32c (leBytes 68 f.toNat)).toNat

/-- A packet's header (Table 6-6). -/
def headerOf (k : Packet) : BitVec 512 :=
  BitVec.ofNat 512 (put 0 2 k.dest.toNat + put 2 2 k.src.toNat + put 4 1 k.op.toNat + put 5 1 (k.len % 32 + b2n k.rly * 32 + k.rdir % 4 * 64)
    + put 6 2 k.tag.toNat + put 8 8 k.addr.toNat + put 16 2 (if k.rly then k.via.toNat else 0) + put 18 2 k.status.toNat + put 20 8 k.stamp.toNat
    + put 32 32 k.inl.toNat)

/-- The packet whose header a head flit carries; its body is still to come. -/
def packetOf (h : BitVec 512) : Packet :=
  { dest := BitVec.ofNat 16 (fld h 0 2), src := BitVec.ofNat 16 (fld h 2 2), op := BitVec.ofNat 8 (fld h 4 1), len := bits (fld h 5 1) 0 5
    rly := bit (fld h 5 1) 5, rdir := bits (fld h 5 1) 6 2, tag := BitVec.ofNat 16 (fld h 6 2), addr := BitVec.ofNat 64 (fld h 8 8)
    via := BitVec.ofNat 16 (fld h 16 2), status := BitVec.ofNat 16 (fld h 18 2), stamp := BitVec.ofNat 64 (fld h 20 8)
    inl := BitVec.ofNat 256 (fld h 32 32), body := [] }

/-- Index of a VC and class among the eight pairs. -/
def pairOf (vc : Fin 4) (cls : Fin 2) : Fin 8 := ⟨2 * vc.1 + cls.1, by omega⟩

/-- Credits of a VC for one class (Table 6-8). -/
def fullCredits : Vector Nat 8 := #v[16, 16, 96, 96, 128, 128, 64, 64]

/-- A counter of a pair raised. -/
def addPair (v : Vector Nat 8) (i n : Nat) : Vector Nat 8 := vmapIdx (fun j x => if j == i then x + n else x) v

/-! ## Receiving (R330, R357, R358) -/

/-- Flits of the replay buffer that an ACK leaves. -/
def ackTo (l : List (BitVec 576)) (a : BitVec 10) : List (BitVec 576) :=
  if l.any fun f => flitSeq f == a then (l.dropWhile fun f => flitSeq f != a).drop 1 else l

/-- What every flit taken in order carries besides its payload: ACK, and credits returned. -/
def ackCredit (q : Port) (v : Nat) : Port :=
  { q with
    replay := ackTo q.replay (BitVec.ofNat 10 (bits v 10 10))
    credits := vmapIdx (fun i n => if i == bits v 25 3 then min (n + bits v 28 4) (nth fullCredits.toList i 0) else n) q.credits }

/-- The payload of a head or body flit joins the receive buffer of its VC and class. -/
def bufferFlit (q : Port) (fk : Nat) (vc : Fin 4) (cls : Fin 2) (payload : BitVec 512) : Port :=
  if fk == 2 then
    let i := q.rx.findIdx fun x => x.vc == vc && x.cls == cls && x.missing != 0
    { q with rx := q.rx.mapIdx fun j x => if j == i then { x with pkt := { x.pkt with body := x.pkt.body ++ [payload] }, missing := x.missing - 1 } else x }
  else
    let k := packetOf payload
    { q with rx := q.rx ++ [⟨vc, cls, k, if fk == 3 then 0 else bodyFlits k⟩] }

/-- Discard a flit: a NAK names the expected SEQ. The later flits of a discard that are only out of order bring no second NAK; one whose
FCRC fails does, since it may be the replayed flit itself (log entry 151). -/
def sendNak (s : State) (p : PortId) (again : Bool) : State :=
  let q := s.fabric.ports.get p
  if q.nakSent && !again then s else emit (modPort s p fun q => { q with nakSent := true }) (.nak p q.rxSeq)

/-- FLIT_RECEIVE (R330). -/
def execFlitReceive (p : PortId) (f : BitVec 576) (s : State) : Res' :=
  .next <|
    let q := s.fabric.ports.get p
    let v := f.toNat
    if q.st != .active then s
    else if !flitOk f then sendNak s p true
    else if bits v 20 2 == 0 then modPort s p fun q => ackCredit q v
    else if flitSeq f != q.rxSeq then sendNak s p false
    else
      let vc : Fin 4 := ⟨bits v 22 2 % 4, Nat.mod_lt _ (by decide)⟩
      let cls : Fin 2 := ⟨bits v 24 1 % 2, Nat.mod_lt _ (by decide)⟩
      modPort s p fun q => bufferFlit { ackCredit q v with rxSeq := q.rxSeq + 1, nakSent := false } (bits v 20 2) vc cls (BitVec.ofNat 512 (v >>> 32))

/-- NAK_RECEIVE (R330, R331): the sender replays from the flit named; flits before it have arrived. -/
def execNakReceive (p : PortId) (seq : BitVec 10) (s : State) : Res' :=
  .next <|
    let q := s.fabric.ports.get p
    let l := q.replay.dropWhile fun f => flitSeq f != seq
    if q.st != .active || (l.isEmpty && seq != q.txSeq) then s
    else if l.isEmpty then modPort s p fun q => { q with replay := [] }
    else
      let s1 := modPort s p fun q => { q with replay := l, replays := q.replays + 1, replayTicks := (q.replayTicks.filter fun t => !passed s t 24576) ++ [now s] }
      emit s1 (.flits p l)

/-- A port leaves ACTIVE for a retrain; its replay buffer is kept (R331, R388). -/
def leaveActive (s : State) (p : PortId) : State :=
  modPort s p fun q => { q with
    st := .retraining, leftAt := now s, trying := false, pauseUntil := none, consec := 0, retrains := q.retrains + 1, heldAt5 := false, setOk := false
    replayTicks := [] }

/-- LINK_REPLAY_LIMIT (R331): more than 64 replays within 24,576 ticks. -/
def execLinkReplayLimit (p : PortId) (s : State) : Res' :=
  .next <|
    let q := s.fabric.ports.get p
    if q.st != .active || decide ((q.replayTicks.filter fun t => !passed s t 24576).length ≤ 64) then s else leaveActive s p

/-! ## Sending (R329, R357 to R359) -/

/-- The first packet of a pair in a port's output queue. -/
def headOf (l : List Queued) (vc : Fin 4) (cls : Fin 2) : Option Queued := l.find? fun x => x.vc == vc && x.cls == cls

/-- The pair's first packet has credits for the whole of it, and the replay buffer has room. -/
def canSend (q : Port) (vc : Fin 4) (cls : Fin 2) : Option Queued :=
  (headOf q.tx vc cls).filter fun x => decide (flitCount x.pkt ≤ q.credits.get (pairOf vc cls)) && decide (q.replay.length + flitCount x.pkt ≤ 512)

/-- Every pair, VC0 first. -/
def allPairs : List (Fin 4 × Fin 2) := (fins 4).flatMap fun v => [(v, 0), (v, 1)]

/-- The next packet of an output port: a pair passed over for 256 flit times first, then by VC, the classes of a VC in turn. -/
def choose (q : Port) : Option Queued :=
  match allPairs.findSome? fun x => if decide (256 ≤ q.passed.get (pairOf x.1 x.2)) then canSend q x.1 x.2 else none with
  | some k => some k
  | none => (fins 4).findSome? fun v =>
      let c := if q.lastCls.get v == 0 then 1 else 0
      match canSend q v c with | some k => some k | none => canSend q v (if c == 0 then 1 else 0)

/-- One credit return for the next flit: a pair and at most 15 credits. -/
def nextReturn (v : Vector Nat 8) : Nat × Nat :=
  match (List.range 8).find? fun i => nth v.toList i 0 != 0 with
  | some i => (i, min 15 (nth v.toList i 0))
  | none => (0, 0)

/-- Add a flit to what a port sends. -/
def pushFlit (fk vc cls : Nat) (a : Port × List (BitVec 576)) (payload : BitVec 512) (keep : Bool) : Port × List (BitVec 576) :=
  let q := a.1
  let r := nextReturn q.toReturn
  let f := flitOf q.txSeq.toNat (q.rxSeq - 1).toNat fk vc cls r.1 r.2 payload
  ({ q with
      toReturn := vmapIdx (fun i n => if i == r.1 then n - r.2 else n) q.toReturn
      txSeq := if keep then q.txSeq + 1 else q.txSeq, replay := if keep then q.replay ++ [f] else q.replay }, a.2 ++ [f])

/-- The flits of a packet. -/
def packetFlits (q : Port) (x : Queued) : Port × List (BitVec 576) :=
  let body := x.pkt.body.take (bodyFlits x.pkt)
  let one := pushFlit (if body.isEmpty then 3 else 1) x.vc.1 x.cls.1 (q, []) (headerOf x.pkt) true
  body.foldl (fun a b => pushFlit 2 x.vc.1 x.cls.1 a b true) one

/-- LINK_OUTPUT_ARBITRATE (R329, R357 to R359): a packet is sent whole; with none to send, credits return in a control flit. -/
def execLinkOutputArbitrate (p : PortId) (s : State) : Res' :=
  .next <|
    let q := s.fabric.ports.get p
    if q.st != .active then s
    else match choose q with
      | none =>
        if (nextReturn q.toReturn).2 == 0 then s
        else
          let r := pushFlit 0 0 0 (q, []) 0 false
          emit (modPort s p fun _ => r.1) (.flits p r.2)
      | some x =>
        let n := flitCount x.pkt
        let wait := allPairs.filter fun y => !(y.1 == x.vc && y.2 == x.cls) && (canSend q y.1 y.2).isSome
        let q1 := { q with
          tx := dropFirst (· == x) q.tx
          credits := vmapIdx (fun i c => if i == (pairOf x.vc x.cls).1 then c - n else c) q.credits
          lastCls := vmod q.lastCls x.vc fun _ => x.cls
          passed := vmapIdx (fun i c => if i == (pairOf x.vc x.cls).1 then 0 else if wait.any fun y => (pairOf y.1 y.2).1 == i then c + n else 0) q.passed }
        let r := packetFlits q1 x
        emit (modPort s p fun _ => r.1) (.flits p r.2)

/-! ## Packets that have arrived (R340, R358, R361 to R364, R374) -/

/-- Take a packet out of a port's receive buffer: its credits return to the peer. -/
def takeRx (s : State) (p : PortId) (x : Queued) : State :=
  modPort s p fun q => { q with rx := dropFirst (· == x) q.rx, toReturn := addPair q.toReturn (pairOf x.vc x.cls).1 (flitCount x.pkt) }

/-- The first packet of a pair in a receive buffer, once all of it has come. -/
def arrived (s : State) (p : PortId) (vc : Fin 4) (cls : Fin 2) : Option Queued := (headOf (s.fabric.ports.get p).rx vc cls).filter (·.missing == 0)

/-- A packet that is to sink at this die, at the front of its buffer. -/
def atSink (s : State) (p : PortId) (k : Packet) : Option Queued :=
  if k.dest != s.fabric.id || k.rly then none
  else ([0, 1] : List (Fin 2)).findSome? fun c => (arrived s p (vcOf k.op) c).filter (·.pkt == k)

/-- PACKET_FORWARD (R340, R361 to R364, R374, R385): a relayed packet sinks at its via die, a management packet at its destination (its
content is the command of its own); every other packet goes on, waits while its next link retrains, or is discarded where that link
is DOWN or ISOLATED. -/
def execPacketForward (p : PortId) (vc : Fin 4) (cls : Fin 2) (s : State) : Res' :=
  .next <|
    match arrived s p vc cls with
    | none => s
    | some x =>
      let k := x.pkt
      if k.rly && k.via == s.fabric.id then { takeRx s p x with fabric := { (takeRx s p x).fabric with relayBuf := s.fabric.relayBuf ++ [x] } }
      else if !k.rly && k.dest == s.fabric.id then (if vc == 0 then takeRx s p x else s)
      else match wayOf s k (some (portDim p, cls)) with
        | none => modPort (takeRx s p x) p fun q => { q with discards := q.discards + 1 }
        | some (o, k', c) =>
          if (s.fabric.ports.get o).st == .retraining then s
          else enqueue (takeRx s p x) o vc c k'

/-! ## Sinks (R351, R353, R386, R399) -/

/-- A range of this die's T1 or T2 that another die may read and write: inside a loan it holds, or inside a range the firmware named as
a move destination. -/
def openTo (s : State) (src : FabId) (a n : Nat) : Bool :=
  let l := glocal a
  let inside (b k : Nat) := decide (b ≤ l) && decide (l + n ≤ b + k)
  gid a == s.fabric.id && s.fabric.isolating.isNone && rangeOk s l n && (match window l with | .t1 => true | .t2 _ => true | _ => false)
  && ((s.mem.lent.any fun x => x.borrower == src && inside x.base (x.granules * 65536)) || s.fabric.moveDests.any fun x => inside x.1 x.2)

/-- A word of a range cannot be read: it is uncorrectable, or its channel has failed. -/
def cannotRead (s : State) (a n : Nat) : Bool := chanFailed s (glocal a) || s.mem.bad.any fun b => decide (glocal a ≤ b) && decide (b < glocal a + n)

/-- The answer to a READ can be sent: its first link carries traffic, no packet waits before it in its pair, and the pair has credits for
the whole of it (R386). A way that does not exist keeps nothing waiting: the answer is discarded there (R374). -/
def canAnswer (s : State) (k : Packet) : Bool :=
  match s.fabric.relay.lookup k.dest with
  | some via => mayRelay s.fabric via k
  | none =>
    match wayOf s k none with
    | none => true
    | some (o, k', c) =>
      let q := s.fabric.ports.get o
      (q.st != .active && q.st != .retraining)
      || (q.st == .active && (headOf q.tx (vcOf k'.op) c).isNone && decide (flitCount k' ≤ q.credits.get (pairOf (vcOf k'.op) c)))

/-- READ (R348, R351, R386, R399): taken in when its answer can be sent; answered with the data, with STATUS 2 where it is uncorrectable, or
with STATUS 1. -/
def execReadPkt (p : PortId) (k : Packet) (s : State) : Res' :=
  .next <|
    if k.op != 1 || !ready s then s
    else match atSink s p k with
      | none => s
      | some x =>
        let n := 64 * k.len
        let answer (st : Nat) (len : Nat) (body : List (BitVec 512)) :=
          let r := packet s k.src 2 len k.tag k.addr.toNat st body
          if canAnswer s r then sendPacket (takeRx s p x) r else s
        if !openTo s k.src k.addr.toNat n || k.len == 0 || decide (16 < k.len) || k.addr.toNat % 64 != 0 then answer 1 1 [0]
        else if cannotRead s k.addr.toNat n then answer 2 1 [0]
        else answer 0 k.len (flitsOf (readBytes s.mem.cells (glocal k.addr.toNat) n))

/-- READ_DATA (R353). -/
def execReadData (p : PortId) (k : Packet) (s : State) : Res' :=
  .next <|
    if k.op != 2 || !ready s then s
    else match atSink s p k with
      | none => s
      | some x => answered (takeRx s p x) p true k.tag k.src k.status.toNat

/-- MOVE (R350, R351): written where the range is open to its sender, and answered by one MOVE_ACK. -/
def execMovePkt (p : PortId) (k : Packet) (s : State) : Res' :=
  .next <|
    if k.op != 3 || !ready s then s
    else match atSink s p k with
      | none => s
      | some x =>
        let s1 := takeRx s p x
        let a := k.addr.toNat
        let ack (t : State) (st : Nat) := sendPacket t (packet t k.src 4 0 k.tag a st [])
        if !openTo s k.src a (64 * k.len) || k.len == 0 || decide (16 < k.len) || a % 64 != 0 then ack s1 1
        else if chanFailed s (glocal a) then ack s1 2
        else
          let data := (k.body.flatMap fun b => leBytes 64 b.toNat).take (64 * k.len)
          ack (modMem s1 fun m => { m with
            cells := writeBytes m.cells (glocal a) data, bad := m.bad.filter fun b => !(decide (glocal a ≤ b) && decide (b < glocal a + 64 * k.len)) }) 0

/-- MOVE_ACK (R353). -/
def execMoveAck (p : PortId) (k : Packet) (s : State) : Res' :=
  .next <|
    if k.op != 4 || !ready s then s
    else match atSink s p k with
      | none => s
      | some x => answered (takeRx s p x) p false k.tag k.src k.status.toNat

/-! ## Relays (R367, R368) -/

/-- RELAY_SEND (R367, R368): the oldest relayed packet goes on with RLY cleared, and its origin has its credit back. -/
def execRelaySend (s : State) : Res' :=
  .next <|
    match s.fabric.relayBuf with
    | [] => s
    | x :: r =>
      let s1 := forward { s with fabric := { s.fabric with relayBuf := r } } { x.pkt with rly := false, via := 0, rdir := 2 } none
      sendPacket s1 (packet s1 x.pkt.src 0x14 0 0 0 0 [])

/-- Slots of relay credit an origin holds from a via die. -/
def relaySlots : Nat := 8

/-- RELAY_CREDIT (R368). -/
def execRelayCredit (p : PortId) (via : FabId) (s : State) : Res' :=
  .next <|
    if (s.fabric.ports.get p).st != .active then s
    else
      let n := min relaySlots (creditsOf s.fabric via + 1)
      sendWaitingFor { s with fabric := { s.fabric with relayHeld := assocSet via n s.fabric.relayHeld } } via

end Sys2Proof.Machine
end

