-- ==== Sys2Proof/Machine/Fabric.lean ====
section
/-! DEFINITION. Causeway training, link and die loss, route sets, time-leader roles, census and rejoin, and the fabric commands
(01 R77 to R79, 06 R332 to R400, 10 R623 to R626, 13 R796 to R798, 15 R905 to R925). -/

namespace Sys2Proof.Machine

/-! ## Loss of dies (R256, R307, R315, R369 to R371, R391, R392, R847) -/

/-- Every link of a die is down, or ends at a lost die. -/
def cutOff (f : Fabric) (d : FabId) : Bool :=
  let links := [0, 1, 2, 3].flatMap fun k =>
    if ringSize f k ≤ 1 then []
    else ([true, false].filterMap fun plus => (nextCoord f k plus (coordOf d k)).map fun c => (withCoord d k c, if plus then (d, withCoord d k c) else (withCoord d k c, d)))
  d != f.id && !links.isEmpty && links.all fun x => f.downLinks.contains x.2 || (f.lost.contains x.1 && x.1 != f.id)

/-- End what this die has outstanding to a die: moves and messages (R370, R392). -/
def endRequestsTo (s : State) (d : FabId) : State :=
  let hit (m : Move) := gid m.src == d || gid m.dst == d
  let s1 := (s.mem.moves.filter fun m => hit m && (match m.purpose with | .recall _ => false | _ => true)).foldl (fun t m => failMove t m .neighbourLost false) s
  let s2 := { s1 with fabric := { s1.fabric with outstanding := s1.fabric.outstanding.filter fun o => o.dest != d } }
  (s2.mem.waiting.filter fun w => w.ask == some d).foldl (fun t w => goOn (modWait t w.req fun w => { w with ask := none, tried := w.tried ++ [d, d] }) w.req) s2

/-- A die is lost (R391, R392): requests to it end, what it lent is lost, and its streams meet their loss. -/
def loseDie (s : State) (d : FabId) : State :=
  if s.fabric.lost.contains d || d == s.fabric.id then s
  else
    let s1 := { s with fabric := { s.fabric with lost := (s.fabric.lost ++ [d]).take 1024, returning := s.fabric.returning.filter (· != d) } }
    let s2 := endRequestsTo s1 d
    let s3 := (s2.mem.loans.filter (·.lender == d)).foldl (loseLoan true) s2
    let s4 := (s3.streams.map (·.handle)).foldl (fun t h => streamDieLost t h d) s3
    let n := s4.fabric.serial
    let s5 := { s4 with fabric := { s4.fabric with
      serial := n + 1, seen := s4.fabric.seen ++ [(1, d, d, n)], relayGranted := s4.fabric.relayGranted.filter (· != d)
      relayHeld := s4.fabric.relayHeld.filter (·.1 != d), relayAsked := s4.fabric.relayAsked.filter (· != d) } }
    sendNeighbours s5 (.dieNotice d n)

/-- Dies that the links now down have cut off are lost (R391). -/
def loseCutOff (s : State) : State := (allDies s.fabric).foldl (fun t d => if cutOff t.fabric d && t.fabric.census.contains d then loseDie t d else t) s

/-- Record a link as down. -/
def linkDown (s : State) (l : FabId × FabId) : State :=
  if s.fabric.downLinks.contains l then s else { s with fabric := { s.fabric with downLinks := s.fabric.downLinks ++ [l] } }

/-- A port is declared DOWN, or ISOLATED (R389, R397, R399): its replay buffer and its queue are discarded, LINK_DOWN is posted, and a
notice goes to every neighbour. -/
def declareDown (s : State) (p : PortId) (st : PortSt) (reason : Nat) : State :=
  let q := s.fabric.ports.get p
  let left := if q.st == .active then now s else q.leftAt
  let s1 := modPort s p fun q => { q with
    st := st, replay := [], tx := [], discards := q.discards + q.tx.length, roleReq := none, usable := false, wasDown := true, leftAt := left
    trying := st == .down && q.trying, passed := Vector.replicate 8 0 }
  let s2 := postEvent s1 0x30 (put 16 1 p.1 + put 17 1 reason + put 18 2 q.peer.toNat + put 20 8 left)
  let l := linkOf s2.fabric p
  let n := s2.fabric.serial
  let s3 := linkDown { s2 with fabric := { s2.fabric with serial := n + 1, seen := s2.fabric.seen ++ [(0, l.1, l.2, n)] } } l
  let s4 := sendNeighbours s3 (.linkNotice l.1 l.2 n)
  leaderLost (loseCutOff s4) p

/-! ## Link training (R332 to R341, R377, R381, R384, R391, R394, R911, R917 to R920) -/

/-- The die has power and clocks for its ports: S5 or S6. -/
def portsUp (s : State) : Bool := s.seq.state == .s5 || s.seq.state == .s6

/-- The port may train: fitted, and its cable accepted (R339, R796). -/
def mayTrain (s : State) (p : PortId) : Bool := portsUp s && hasPort s.fuses.variant p.1 && (s.island.cable.get p).ok

/-- LINK_TRAINING_START (R332, R338): an attempt begins; a port that does not see its peer's clock stays in step 1. -/
def execLinkTrainingStart (p : PortId) (s : State) : Res' :=
  .next <|
    let q := s.fabric.ports.get p
    if !mayTrain s p || q.trying || q.pauseUntil.isSome || !(q.st == .idle || q.st == .training || q.st == .retraining || q.st == .down) then s
    else
      emit (modPort s p fun q => { q with
        trying := true, trainAt := now s, heldAt5 := false, setOk := false, st := if q.st == .idle && q.fckSeen then .training else q.st }) (.train p)

/-- PEER_FCK_SEEN (R338): both ends have started; the attempt is timed from now. -/
def execPeerFckSeen (p : PortId) (s : State) : Res' :=
  .next <|
    let q := s.fabric.ports.get p
    if !mayTrain s p || q.fckSeen || q.st == .active || q.st == .miswired || q.st == .isolated then s
    else modPort s p fun q => { q with fckSeen := true, trainAt := now s, st := if q.st == .idle && q.trying then .training else q.st }

/-- The training set fits this port (R334). -/
def setFits (s : State) (p : PortId) (t : TrainSet) : Bool :=
  let f := s.fabric
  t.port.1 == (if p.1 % 2 == 0 then p.1 + 1 else p.1 - 1) && facing f p == some t.id && t.sizes == f.sizes && t.wraps == f.wraps

/-- The peer is a live die that another port already reaches, beyond the two links of a ring of two (R345, R917). -/
def duplicate (s : State) (p : PortId) (t : TrainSet) : Bool :=
  s.fw.censusClosed && s.fabric.census.contains t.id && !s.fabric.lost.contains t.id
  && (fins 8).any fun o => o != p && (s.fabric.ports.get o).st == .active && (s.fabric.ports.get o).peer == t.id && facing s.fabric o != some t.id

/-- TRAINING_SET (R334, R917 to R919). -/
def execTrainingSet (p : PortId) (t : TrainSet) (s : State) : Res' :=
  .next <|
    let q := s.fabric.ports.get p
    if !q.trying || !q.fckSeen || q.st == .active then s
    else if duplicate s p t then
      logDie (modPort s p fun q => { q with st := .miswired, trying := false, settled := true }) 0x0805 p.1 2 (put 0 1 p.1 + put 2 2 t.id.toNat)
    else if !setFits s p t then modPort s p fun q => { q with st := .miswired, trying := false, settled := true }
    else
      let hold_ := s.fabric.lost.contains t.id && !t.joinReady
      let s1 := { s with fabric := { s.fabric with neighbourGens := assocSet t.id t.gen s.fabric.neighbourGens } }
      modPort s1 p fun q => { q with
        peer := t.id, peerPart := t.part, setOk := !hold_, heldAt5 := hold_, trainAt := if q.heldAt5 && !hold_ then now s else q.trainAt }

/-- A failed attempt (R336, R337): a pause of 2,048 ticks, and after eight in a row FAILED with a try every second. -/
def failAttempt (s : State) (p : PortId) : State :=
  modPort s p fun q =>
    let failed := q.st == .failed || decide (8 ≤ q.consec + 1)
    { q with
      trying := false, consec := q.consec + 1, fails := q.fails + 1, heldAt5 := false, setOk := false, st := if failed then .failed else q.st
      settled := q.settled || failed, pauseUntil := some (now s + if failed then 24576000 else 2048) }

/-- LINK_TRAINING_TIMEOUT (R332, R337, R338, R919): an attempt of both ends that is not complete within 10,240 ticks. -/
def execLinkTrainingTimeout (p : PortId) (s : State) : Res' :=
  .next <|
    let q := s.fabric.ports.get p
    if !q.trying || !q.fckSeen || q.heldAt5 || q.st == .active || !passed s q.trainAt 10240 then s else failAttempt s p

/-- LINK_TRAINING_RETRY (R337). -/
def execLinkTrainingRetry (p : PortId) (s : State) : Res' :=
  .next <|
    let q := s.fabric.ports.get p
    match q.pauseUntil with
    | none => s
    | some t =>
      if !mayTrain s p || !reached s t || q.st == .miswired || q.st == .isolated then s
      else emit (modPort s p fun q => { q with trying := true, trainAt := now s, pauseUntil := none, heldAt5 := false, setOk := false }) (.train p)

/-- The width the lanes that passed give: 4, 2, or none (R335). -/
def widthOf (lanes : BitVec 4) : Nat := if lanes == 0xF then 4 else if lanes &&& 0x3 == 0x3 || lanes &&& 0xC == 0xC then 2 else 0

/-- What a running die tells a rejoining neighbour (R920). -/
def tellRejoin (s : State) (p : PortId) : State :=
  let q := s.fabric.ports.get p
  if s.fw.censusClosed && s.fabric.lost.contains q.peer then sendLink s p (.rejoinState s.fabric.gen s.fabric.lost s.fabric.downLinks) else s

/-- A link enters ACTIVE. -/
def linkActive (s : State) (p : PortId) (width tx rx flight : Nat) : State :=
  let q := s.fabric.ports.get p
  let again := q.st == .retraining
  let hold_ := q.wasDown || s.fabric.lost.contains q.peer || s.fw.rejoined
  let s1 := modPort s p fun q => { q with
    st := .active, width := width, trying := false, pauseUntil := none, consec := 0, settled := true, activeAt := now s
    txDelay := tx, rxDelay := rx, flight := flight, usable := !hold_, wasDown := false
    leads := if q.activeAt == 0 then decide (s.fabric.id.toNat < q.peer.toNat) else q.leads
    credits := if again then q.credits else fullCredits, toReturn := if again then q.toReturn else Vector.replicate 8 0
    txSeq := if again then q.txSeq else 0, rxSeq := if again then q.rxSeq else 0, rx := if again then q.rx else [], nakSent := false }
  let s2 := postEvent s1 0x31 (put 16 1 p.1 + put 17 1 width + put 18 2 q.peer.toNat + put 20 4 (elapsed s q.trainAt) + put 24 1 (b2n q.wasDown))
  let s3 := if again && !q.replay.isEmpty then emit s2 (.flits p q.replay) else s2
  let s4 := match q.swapAt with | some t => if reached s t then swapRoles s3 p else s3 | none => s3
  let s5 := tellRejoin s4 p
  if !ready s5 then s5
  else if s5.fw.censusClosed then (if provisional s5 then retime s5 else askRole s5 p)
  else
    let t := if timeBase s5 == .standalone && s5.streams.isEmpty then unalign s5 else s5
    sendNeighbours (retime t) (.presentNotice s.fabric.id s.fuses.variant)

/-- LINK_TRAINING_COMPLETE (R332, R333, R335, R336). -/
def execLinkTrainingComplete (p : PortId) (lanes : BitVec 4) (txDelay rxDelay flight : Nat) (s : State) : Res' :=
  .next <|
    let q := s.fabric.ports.get p
    if !q.trying || !q.fckSeen || !q.setOk || q.heldAt5 || q.st == .active || passed s q.trainAt 10241 then s
    else if widthOf lanes == 0 then failAttempt s p
    else linkActive s p (widthOf lanes) txDelay rxDelay flight

/-- PORT_SETTLE_TIMEOUT (R910). -/
def execPortSettleTimeout (p : PortId) (s : State) : Res' :=
  .next <|
    let q := s.fabric.ports.get p
    if !portsUp s || q.st != .idle || !passed s s.fw.s5At 24576000 then s else modPort s p fun q => { q with settled := true }

/-- LINK_SIGNAL_LOSS (R388). -/
def execLinkSignalLoss (p : PortId) (s : State) : Res' :=
  .next <| if (s.fabric.ports.get p).st != .active then s else leaveActive s p

/-- PHASE_WANDER_RETRAIN (R88, R341). -/
def execPhaseWanderRetrain (p : PortId) (s : State) : Res' :=
  .next <|
    let q := s.fabric.ports.get p
    if q.st == .active then leaveActive s p
    else if q.trying && q.setOk then emit (modPort s p fun q => { q with trainAt := now s, setOk := false }) (.train p)
    else s

/-- LINK_DOWN_TIMEOUT (R389): a port that has not returned to ACTIVE within 24,576 ticks. -/
def execLinkDownTimeout (p : PortId) (s : State) : Res' :=
  .next <|
    let q := s.fabric.ports.get p
    if q.st != .retraining || !passed s q.leftAt 24576 then s else declareDown s p .down 0

/-- CABLE_PRESENCE_ASSERT (R796, R798, Table 13-8): the identity record is checked; a bad one holds the port. -/
def execCablePresenceAssert (p : PortId) (rec_ : Option (BitVec 256)) (s : State) : Res' :=
  .next <|
    let bad : Option Nat := match rec_ with
      | none => some 0
      | some r =>
        if fld r 28 4 != (crc32c (leBytes 28 r.toNat)).toNat then some 28
        else if fld r 0 2 != 0x4357 then some 0
        else if fld r 2 1 != 1 then some 2
        else if 1 < fld r 3 1 then some 3
        else if fld r 4 1 != 5 then some 4
        else if fld r 5 1 < 32 then some 5
        else if 500 < fld r 6 2 then some 6
        else none
    if !s.island.up || !hasPort s.fuses.variant p.1 || (s.island.cable.get p).present then s
    else
      let s1 := { s with island := { s.island with cable := vmod s.island.cable p fun _ => { present := true, ok := bad.isNone } } }
      match bad with
      | none => s1
      | some f => logIsland (notify s1 0x0A (slotByte s) (put 20 1 p.1)) 0x0505 p.1 2 (put 0 1 p.1 + put 1 1 f)

/-- CABLE_PRESENCE_DEASSERT (R797): the port is held; an ACTIVE one leaves ACTIVE. -/
def execCablePresenceDeassert (p : PortId) (s : State) : Res' :=
  .next <|
    if !s.island.up || !(s.island.cable.get p).present then s
    else
      let s1 := { s with island := { s.island with cable := vmod s.island.cable p fun _ => { present := false, ok := false } } }
      let q := s1.fabric.ports.get p
      if q.st == .active then modPort (leaveActive s1 p) p fun q => { q with fckSeen := false }
      else modPort s1 p fun q => { q with fckSeen := false, trying := false, pauseUntil := none, st := if q.st == .training || q.st == .failed then .idle else q.st }

/-! ## Route sets (R323, R362 to R372, R376, R393, R394) -/

/-- The ring table and the relay table a view gives. -/
def routesOf (f : Fabric) : List (List Dir) × List (FabId × FabId) := (ringTable f, relayTable f)

/-- The route set computed now differs from the one in force, in its tables or its lost list (Table 6-9). -/
def routesNew (s : State) : Bool :=
  !s.fw.routeInstalled || routesOf s.fabric != (s.fabric.ring, s.fabric.relay) || s.fabric.lost != s.fabric.routeLost

/-- Ask a via die for relay credits. -/
def askCredits (s : State) (via : FabId) : State :=
  if (s.fabric.relayHeld.lookup via).isSome || s.fabric.relayAsked.contains via || !mayAsk s via then s
  else sendMgmt { s with fabric := { s.fabric with relayAsked := s.fabric.relayAsked ++ [via] } } via .relayRequest

/-- Packets that wait for a credit of a via die that is no longer their destination's go by the route set in force (R369). -/
def resendWaiting (s : State) : State :=
  let off := s.fabric.relayWait.filter fun k => s.fabric.relay.lookup k.dest != some k.via
  off.foldl (fun t k => sendPacket { t with fabric := { t.fabric with relayWait := t.fabric.relayWait.erase k } } { k with rly := false, via := 0 }) s

/-- Install the route set that the view gives (R372): GEN, ROUTE_CHANGED, the notice; then what follows from it: lenders take back the
loans of lost borrowers (R323), packets that waited for a via die go by the new set, requests to dies now out of reach end (R370), and the
time tree follows (R77); the work of streams homed on lost dies is dropped (R848). -/
def installRoutes (s : State) (cause : Nat) : State :=
  let t := routesOf s.fabric
  let f := { s.fabric with ring := t.1, relay := t.2, routeLost := s.fabric.lost, gen := s.fabric.gen + 1 }
  let s1 := { s with fabric := f, fw := { s.fw with routeInstalled := true } }
  let s2 := postEvent s1 0x32 (put 16 4 f.gen.toNat + put 20 2 f.lost.length + put 22 2 f.downLinks.length + put 24 2 f.relay.length + put 26 1 cause)
  let s3 := sendNeighbours s2 (.genNotice f.gen)
  let s4 := resendWaiting ((t.2.map (·.2)).eraseDups.foldl askCredits s3)
  let gone := (s4.mem.lent.filter fun l => f.lost.contains l.borrower)
  let s5 := gone.foldl (fun x l => takeBack x l.borrower l.base) s4
  let s6 := if gone.isEmpty then s5 else retryAll s5
  let out := ((s6.mem.moves.flatMap fun m => [gid m.src, gid m.dst]) ++ s6.fabric.outstanding.map (·.dest)).eraseDups.filter fun d => !reachable s6 d
  retime (dropLostGuests (out.foldl endRequestsTo s6))

/-- ROUTE_SET_INSTALL (R372, R376, R393; CAUSE of Table 10-21): the set computed from the view as it is. On a rejoin the dies that have
come back leave the lost list first (R866, R921); itineraries loaded before place no work on them (R867, R925). -/
def execRouteSetInstall (cause : Fin 5) (s : State) : Res' :=
  .next <|
    if !ready s || !s.fw.censusClosed then s
    else
      let back := if cause == 4 then s.fabric.returning else []
      let s1 := { s with itins := s.itins.map (fun i => { i with barred := i.barred ++ back }), fabric := { s.fabric with
        lost := s.fabric.lost.filter (fun d => !back.contains d), returning := s.fabric.returning.filter (fun d => !back.contains d)
        downLinks := s.fabric.downLinks.filter fun l => !(back.contains l.1 || back.contains l.2)
        census := s.fabric.census ++ back.filter fun d => !s.fabric.census.contains d } }
      if routesNew s1 || !back.isEmpty then installRoutes s1 cause.1 else s

/-- LINK_USABILITY_HOLD_EXPIRY (R394, R866, R921): a link that has stayed ACTIVE for 245,760 ticks is usable again; with it a rejoined
die leaves the lost list when the route set is installed. -/
def execLinkUsabilityHoldExpiry (p : PortId) (s : State) : Res' :=
  .next <|
    let q := s.fabric.ports.get p
    if q.st != .active || q.usable || !passed s q.activeAt 245760 then s
    else
      let l := linkOf s.fabric p
      let s1 := modPort s p fun q => { q with usable := true }
      let back := s.fabric.lost.contains q.peer
      { s1 with
        fabric := { s1.fabric with
          downLinks := s1.fabric.downLinks.filter (· != l)
          returning := if back && !s1.fabric.returning.contains q.peer then s1.fabric.returning ++ [q.peer] else s1.fabric.returning }
        fw := { s1.fw with rejoinHoldEnd := if s1.fw.rejoined && s1.fw.rejoinHoldEnd.isNone then some (now s) else s1.fw.rejoinHoldEnd } }

/-! ## Notices (R372, R389 to R391, R398, R399) -/

/-- Whether a notice is new; each is passed on once. -/
def passOn (s : State) (key : Nat × FabId × FabId × Nat) (k : Mgmt) : Option State :=
  if s.fabric.seen.contains key then none
  else some (sendNeighbours { s with fabric := { s.fabric with seen := s.fabric.seen ++ [key] } } k)

/-- LINK_NOTICE (R389, R391, R399): the link is down; where it is a link of this die that still carries traffic, its other end has
isolated itself. -/
def execLinkNotice (p : PortId) (a b : FabId) (serial : Nat) (s : State) : Res' :=
  .next <|
    if !ready s || (s.fabric.ports.get p).st != .active then s
    else match passOn s (0, a, b, serial) (.linkNotice a b serial) with
      | none => s
      | some s1 =>
        match (shapePorts s1).find? fun o => linkOf s1.fabric o == (a, b) && ((s1.fabric.ports.get o).st == .active || (s1.fabric.ports.get o).st == .retraining) with
        | some o => declareDown s1 o .down 1
        | none => loseCutOff (linkDown s1 (a, b))

/-- DIE_NOTICE (R391, R392): the die is lost; a link to it that this die still holds is declared DOWN. -/
def execDieNotice (p : PortId) (d : FabId) (serial : Nat) (s : State) : Res' :=
  .next <|
    if !ready s || (s.fabric.ports.get p).st != .active then s
    else match passOn s (1, d, d, serial) (.dieNotice d serial) with
      | none => s
      | some s1 =>
        if d == s.fabric.id then s1
        else
          let mine := (shapePorts s1).filter fun o => (s1.fabric.ports.get o).peer == d && ((s1.fabric.ports.get o).st == .active || (s1.fabric.ports.get o).st == .retraining)
          loseDie (mine.foldl (fun t o => declareDown t o .down 3) s1) d

/-- ROUTE_GENERATION_NOTICE (R372). -/
def execRouteGenerationNotice (p : PortId) (src : FabId) (gen : W32) (s : State) : Res' :=
  .next <|
    if !ready s || (s.fabric.ports.get p).st != .active then s
    else { s with fabric := { s.fabric with neighbourGens := assocSet src gen s.fabric.neighbourGens } }

/-! ## Roles (R378 to R384) -/

/-- ROLE_REQUEST (R378, R382, R383). -/
def execRoleRequest (p : PortId) (s : State) : Res' :=
  .next <|
    let q := s.fabric.ports.get p
    if q.st != .active then s
    else if q.roleReq.isSome then
      let low := decide (s.fabric.id.toNat < q.peer.toNat)
      modPort s p fun q => { q with roleReq := none, holdoff := low, noReqUntil := now s + if low then 24576 else 49152 }
    else sendLink (modPort s p fun q => { q with swapAt := some (now s + 64) }) p (.roleAccept (now s + 64))

/-- ROLE_ACCEPT (R378). -/
def execRoleAccept (p : PortId) (swap : Nat) (s : State) : Res' :=
  .next <|
    let q := s.fabric.ports.get p
    if q.st != .active || q.roleReq.isNone then s else modPort s p fun q => { q with roleReq := none, swapAt := some swap }

/-- ROLE_SWAP_TICK (R378, R379, R384): a swap whose tick falls during a retrain waits for the link. -/
def execRoleSwapTick (p : PortId) (s : State) : Res' :=
  .next <|
    let q := s.fabric.ports.get p
    match q.swapAt with
    | none => s
    | some t => if q.st != .active || !reached s t then s else swapRoles s p

/-- ROLE_REQUEST_TIMEOUT (R380). -/
def execRoleRequestTimeout (p : PortId) (s : State) : Res' :=
  .next <|
    match (s.fabric.ports.get p).roleReq with
    | none => s
    | some t => if !passed s t 4096 then s else modPort s p fun q => { q with roleReq := none, noReqUntil := now s + 49152 }

/-- ROLE_HOLDOFF_EXPIRY (R383). -/
def execRoleHoldoffExpiry (p : PortId) (s : State) : Res' :=
  .next <|
    let q := s.fabric.ports.get p
    if !q.holdoff || !reached s q.noReqUntil then s else askRole (modPort s p fun q => { q with holdoff := false }) p

/-! ## Census and rejoin (R911 to R916, R920 to R924) -/

/-- PRESENT_NOTICE (R911, R913, R914, R916): a new ID enters the census with its part; a lower root sends the die back to UNALIGNED. After
the close only a die on the lost list is noted, as one that comes back. -/
def execPresentNotice (p : PortId) (d : Presence) (s : State) : Res' :=
  let part := d.part
  let d := d.die
  .next <|
    let f := { s.fabric with parts := assocSet d part s.fabric.parts }
    if !ready s || (s.fabric.ports.get p).st != .active || d == s.fabric.id then s
    else if s.fw.censusClosed then
      (if s.fabric.lost.contains d && !s.fabric.returning.contains d then
        sendNeighbours { s with fabric := { f with returning := f.returning ++ [d] } } (.presentNotice d part)
       else s)
    else if s.fabric.census.contains d then s
    else
      let old := rootOf s
      let s1 := sendNeighbours { s with fabric := { f with census := f.census ++ [d], censusAt := now s } } (.presentNotice d part)
      if rootOf s1 == old then retime s1 else retime (unalign s1)

/-- A fitted port is settled (R910). -/
def portSettled (s : State) (p : PortId) : Bool :=
  let q := s.fabric.ports.get p
  q.st == .active || q.st == .miswired || q.st == .failed || (q.st == .idle && q.settled)

/-- The census closes with what is known: missing positions are lost, own links that did not come up are down, and the first route set
is installed. The spec gives CAUSE no code for it, so that it is a free value. -/
def closeNow (s : State) : State :=
  let missing := (allDies s.fabric).filter fun d => !s.fabric.census.contains d
  let down := ((shapePorts s).filter fun p => (s.fabric.ports.get p).st != .active).map (linkOf s.fabric)
  let f := takeFree s
  let s1 := { f.2 with
    fw := { f.2.fw with censusClosed := true }
    fabric := { f.2.fabric with
      lost := (f.2.fabric.lost ++ missing.filter fun d => !f.2.fabric.lost.contains d).take 1024
      downLinks := f.2.fabric.downLinks ++ down.filter fun l => !f.2.fabric.downLinks.contains l } }
  logDie (installRoutes s1 f.1) 0x0804 0xFF 0 (put 0 2 missing.length + put 4 8 (now s))

/-- CENSUS_CLOSE (R912). -/
def execCensusClose (s : State) : Res' :=
  .next <|
    let since := max s.fabric.censusAt (s.fw.readyAt.getD 0)
    let ports := (fins 8).filter fun p => hasPort s.fuses.variant p.1
    if !ready s || s.fw.censusClosed || !ports.all (portSettled s) || !passed s since 2457600 then s else closeNow s

/-- REJOIN_STATE (R75, R920, R924): a running neighbour's lists are taken without this die's own position; the census closes at once, and the
die aligns with one step, whatever it had been aligned to. -/
def execRejoinState (p : PortId) (sizes : Vector Nat 4) (wraps : Vector Bool 4) (gen : W32) (lost : List FabId) (down : List (FabId × FabId)) (s : State) : Res' :=
  .next <|
    let q := s.fabric.ports.get p
    if !ready s || q.st != .active || sizes != s.fabric.sizes || wraps != s.fabric.wraps || (s.fw.censusClosed && !s.fw.rejoined) then s
    else
      let f := s.fabric
      let l := (f.lost ++ lost.filter fun d => !f.lost.contains d && d != f.id).take 1024
      let s1 := { s with
        fw := { s.fw with rejoined := true }
        fabric := { f with
          lost := l, downLinks := f.downLinks ++ down.filter fun x => !f.downLinks.contains x
          neighbourGens := assocSet q.peer gen f.neighbourGens, census := (allDies f).filter fun d => !l.contains d } }
      if s.fw.censusClosed then s1
      else sendNeighbours (installRoutes (unalign { s1 with fw := { s1.fw with censusClosed := true } }) 4) (.presentNotice f.id s.fuses.variant)

/-! ## Management packets (R351, R368, R369, R641) -/

/-- Origins a via die serves at most (R369). -/
def relayOrigins : Nat := 112

/-- MGMT: the firmware's other messages. -/
def execMgmt (p : PortId) (src : FabId) (k : MgmtMsg) (s : State) : Res' :=
  .next <|
    if !heard s p src then s
    else match k with
      | .loanRefused req => loanRefusedBy s req src
      | .relayRequest =>
        if s.fabric.relayGranted.contains src then sendMgmt s src (.relayGrant relaySlots)
        else if relayOrigins ≤ s.fabric.relayGranted.length then sendMgmt s src .relayRefused
        else sendMgmt { s with fabric := { s.fabric with relayGranted := s.fabric.relayGranted ++ [src] } } src (.relayGrant relaySlots)
      | .relayGrant slots =>
        sendWaitingFor { s with fabric := { s.fabric with
          relayHeld := assocSet src (min relaySlots slots) s.fabric.relayHeld, relayAsked := s.fabric.relayAsked.filter (· != src) } } src
      | .relayRefused =>
        { s with fabric := { s.fabric with
            relayRefused := if s.fabric.relayRefused.contains src then s.fabric.relayRefused else s.fabric.relayRefused ++ [src]
            relayHeld := s.fabric.relayHeld.filter (·.1 != src), relayAsked := s.fabric.relayAsked.filter (· != src) } }
      | .moveDest base bytes =>
        if rangeOk s base bytes && !s.fabric.moveDests.contains (base, bytes) then { s with fabric := { s.fabric with moveDests := s.fabric.moveDests ++ [(base, bytes)] } } else s
      | .guestOpen h img args => openGuest s src h img args
      | .guestClose h => dropGuest s src h
      | .event code stamp payload => postEventAt s code.toNat stamp.toNat (payload.toNat <<< 128)
      | .other => s

/-! ## Fabric commands (R339, R371, R399, R400, R623 to R626) -/

/-- STATE of a port (Table 10-13). -/
def portCode : PortSt → Nat
  | .idle => 0 | .training => 1 | .active => 2 | .retraining => 3 | .down => 4 | .miswired => 5 | .failed => 6 | .isolated => 7

/-- SHAPE and WRAP, coded as in FAB_QUERY. -/
def shapeCode (f : Fabric) : Nat := total ((List.range 4).map fun d => ((ringSize f d - 1) % 16) <<< (12 - 4 * d))
def wrapCode (f : Fabric) : Nat := total ((List.range 4).map fun d => b2n (ringWraps f d) <<< (3 - d))

/-- FAB_QUERY. -/
def execFabQuery (m : MailCmd) (s : State) : Res' :=
  .next <| onMail m 0x40 s fun s =>
    let n := arg m 8 1
    let f := s.fabric
    if reserved m then complete s m .badArgument 0
    else if n == 0xFF then
      complete s m .ok (put 8 2 f.id.toNat + put 10 2 (shapeCode f) + put 12 1 (wrapCode f) + put 14 2 s.time.rootId.toNat + put 16 4 f.gen.toNat
        + put 20 2 f.lost.length + put 22 2 f.relay.length + put 24 2 f.pins.length)
    else match (fins 8)[n]? with
      | none => complete s m .badArgument 0
      | some p =>
        if !hasPort s.fuses.variant p.1 then complete s m .absentUnit 0
        else
          let q := f.ports.get p
          complete s m .ok (put 8 1 (portCode q.st) + put 9 1 q.width + put 10 2 q.peer.toNat + put 12 1 (b2n q.leads) + put 14 2 (satTo 16 q.fails)
            + put 16 4 q.retrains + put 20 4 q.replays + put 24 4 q.discards)

/-- Whether a ring pin has a working path in its direction (R371). -/
def pinPath (f : Fabric) (d c : Nat) (x : Dir) : Bool :=
  let a := coordOf f.id d
  match x with
  | .unreachable => true
  | .plus => !f.lost.contains (withCoord f.id d c) && pathOk f f.id d true c 17 a
  | .minus => !f.lost.contains (withCoord f.id d c) && pathOk f f.id d false c 17 a
  | .shorter => !f.lost.contains (withCoord f.id d c) && pathOk f f.id d (shorterPlus f d a c) c 17 a

/-- DIR of Table 6-9. -/
def dirArg (n : Nat) : Option Dir := match n with | 0 => some .shorter | 1 => some .plus | 2 => some .minus | 3 => some .unreachable | _ => none

/-- A pin is the one a ring or relay argument names. -/
def pinIsRing (d c : Nat) (p : Pin) : Bool := match p with | .ring x y _ => x == d && y == c | _ => false
def pinIsRelay (dest : FabId) (p : Pin) : Bool := match p with | .relay x _ => x == dest | _ => false

/-- The pins after FAB_ROUTE_SET; none where its arguments are bad. -/
def pinsAfter (f : Fabric) (m : MailCmd) : Option (List Pin) :=
  let k := arg m 8 1
  let d := arg m 9 1
  let c := arg m 10 1
  let dest : FabId := BitVec.ofNat 16 (arg m 12 2)
  let via : FabId := BitVec.ofNat 16 (arg m 14 2)
  let onRing := decide (d < 4) && decide (c < ringSize f d)
  let known (x : FabId) := (allDies f).contains x
  if k == 0 then
    (match dirArg (arg m 11 1) with
     | none => none
     | some x => if onRing && pinPath f d c x then some (f.pins.filter (fun p => !pinIsRing d c p) ++ [.ring d c x]) else none)
  else if k == 1 then
    if known dest && known via && dest != f.id && via != f.id && via != dest && !f.lost.contains dest && !f.lost.contains via
      && !f.relayRefused.contains via && (hops f f.id via).isSome && (hops f via dest).isSome then
      some (f.pins.filter (fun p => !pinIsRelay dest p) ++ [.relay dest via])
    else none
  else if k == 2 then (if onRing then some (f.pins.filter fun p => !pinIsRing d c p) else none)
  else if k == 3 then (if known dest then some (f.pins.filter fun p => !pinIsRelay dest p) else none)
  else if k == 4 then some []
  else none

/-- KIND, DIM or DIR holds an encoding that its table does not list, whatever the kind (R21). -/
def badPin (m : MailCmd) : Bool := decide (4 < arg m 8 1) || decide (3 < arg m 9 1) || decide (3 < arg m 11 1)

/-- FAB_ROUTE_SET (R21, R371, R624, R625). -/
def execFabRouteSet (m : MailCmd) (s : State) : Res' :=
  .next <| onMail m 0x41 s fun s =>
    if reserved m || badPin m then complete s m .badArgument 0
    else if !hasFabric s.fuses.variant then complete s m .absentUnit 0
    else match pinsAfter s.fabric m with
      | none => complete s m .badArgument 0
      | some pins =>
        let f := { s.fabric with pins := pins }
        let dest : FabId := BitVec.ofNat 16 (arg m 12 2)
        if arg m 8 1 == 1 && decide (256 ≤ (s.fabric.relay.filter fun r => r.1 != dest).length) then complete s m .noReservation 0
        else
          let s1 := installRoutes { s with fabric := f } 3
          complete s1 m .ok (put 8 4 s1.fabric.gen.toNat)

/-- Start to leave the fabric (R399): loans given are recalled and borrowings returned. -/
def startIsolate (s : State) (cmds : List MailCmd) : State :=
  let s1 := { s with fabric := { s.fabric with isolating := some (now s, cmds), recalledN := 0, returnedN := 0 } }
  let s2 := sendRecalls (markDue s1 (fun _ => true) (total (s1.mem.lent.map (·.granules))))
  (s2.mem.loans.filter (·.recalled.isNone)).foldl serveRecall s2

/-- FAB_ISOLATE (R399, R624, R626). -/
def execFabIsolate (m : MailCmd) (s : State) : Res' :=
  .next <| onMail m 0x42 s fun s =>
    if reserved m || arg m 8 1 != 0x5A then complete s m .badArgument 0
    else if !hasFabric s.fuses.variant then complete s m .absentUnit 0
    else match s.fabric.isolatedAt, s.fabric.isolating with
      | some t, _ => complete s m .ok (put 16 8 t)
      | none, some (t, l) => { (hold s m) with fabric := { s.fabric with isolating := some (t, l ++ [m]) } }
      | none, none => startIsolate (hold s m) [m]

/-- Nothing is in flight on the fabric. -/
def drained (s : State) : Bool :=
  s.fabric.outstanding.isEmpty && (fins 8).all fun p => let q := s.fabric.ports.get p; q.tx.isEmpty && q.rx.isEmpty && q.replay.isEmpty

/-- Every port becomes ISOLATED: LINK_DOWN for those that carried traffic, and a notice to their neighbours first. -/
def isolatePorts (s : State) : State :=
  let mine := (fins 8).filter fun p => hasPort s.fuses.variant p.1
  let live := mine.filter fun p => (s.fabric.ports.get p).st == .active || (s.fabric.ports.get p).st == .retraining
  let s1 := live.foldl (fun t p => let l := linkOf t.fabric p
    let n := t.fabric.serial
    sendNeighbours { t with fabric := { t.fabric with serial := n + 1, seen := t.fabric.seen ++ [(0, l.1, l.2, n)] } } (.linkNotice l.1 l.2 n)) s
  let s2 := live.foldl (fun t p => postEvent t 0x30 (put 16 1 p.1 + put 17 1 2 + put 18 2 (t.fabric.ports.get p).peer.toNat
    + put 20 8 (if (t.fabric.ports.get p).st == .active then now t else (t.fabric.ports.get p).leftAt))) s1
  mine.foldl (fun t p => modPort t p fun q => { q with
    st := .isolated, discards := q.discards + q.tx.length, tx := [], rx := [], replay := [], trying := false, pauseUntil := none, roleReq := none, swapAt := none
    usable := false, wasDown := true }) s2

/-- ISOLATE_DRAIN_END (R399, R400, R926): traffic has drained, or 24,576 ticks have passed. Where a WARM restart waits for it, the restart
follows. -/
def execIsolateDrainEnd (s : State) : Res' :=
  .next <|
    match s.fabric.isolating with
    | none => s
    | some (t, cmds) =>
      if !ready s || (!drained s && !passed s t 24576) then s
      else
        let s1 := isolatePorts s
        let s2 := { s1 with fabric := { s1.fabric with isolating := none, isolatedAt := some (now s) } }
        let s3 := s2.mem.loans.foldl (loseLoan true) s2
        let dests := ((s3.mem.moves.flatMap fun m => [gid m.src, gid m.dst]) ++ s3.fabric.outstanding.map (·.dest)).eraseDups.filter (· != s3.fabric.id)
        let s4 := retime (dests.foldl endRequestsTo s3)
        let s5 := cmds.foldl (fun x m => complete x m .ok (put 8 4 s.fabric.recalledN + put 12 4 s.fabric.returnedN + put 16 8 (now s))) s4
        if s.fw.restart.isSome then warmRestart s5 else s5

end Sys2Proof.Machine
end

