-- ==== Sys2Proof/Machine/SideBand.lean ====
section
/-! DEFINITION. The SMBus side band and the Wairiq messages of the rack manager (13 R802, R809 to R815). The spec gives their
bodies fields but no byte layout: fields stand in the order of Tables 13-9, 13-11 and 13-2, little-endian (log entry 24). -/

namespace Sys2Proof.Machine

/-! ## Service actions (Table 13-11, R815) -/

/-- YIELD: the primary hands its role to the standby (R772); whether it could. -/
def doYield (s : State) : State × Bool :=
  match s.island.standby with
  | some d =>
    if s.island.role == .primary && s.island.roleReq.isNone && s.island.swapAt.isNone && mayAskRole s then (requestRole s d, true)
    else (s, false)
  | none => (s, false)

/-- CLEAR_SHUT (R670, R815). -/
def doClearShut (s : State) : State × Bool := if shownState s == .s1 then (modSeq s fun q => { q with shut := false }, true) else (s, false)

/-- CLEAR_BASELINE: learning of one domain starts again (R662, R815); VDDQ_M auxiliary has no baseline. -/
def doClearBaseline (s : State) (d : Nat) : State × Bool :=
  if d < 5 then
    ({ s with seq := { s.seq with pdn := vmod s.seq.pdn ⟨d % 6, Nat.mod_lt _ (by decide)⟩ fun p => { (({} : Pdn)) with learnFrom := s6Time s, monitored := p.monitored } } }, true)
  else (s, false)

/-- GOLDEN_REFLASH of both main-die slots: only in S1 or BOOTSTRAP, after a commit in progress (R882, R883). -/
def doGolden (s : State) : State × Bool :=
  if (shownState s == .s1 || s.fw.state == .bootstrap) && s.fw.slotWrite.isNone && (slotImage s 0 2).isSome then (startReflash s 0 [0, 1], true)
  else (s, false)

/-- Send a SERVICE action to every island of the tray: a RELAY to all, whose ECHO of 0 asks for no reply (log entry 24). -/
def toTray (s : State) (action : Byte) : State :=
  if s.island.trayEn && s.island.role == .primary then sendTray s none (.relay (relayLoad 0x08 0 0 [action])) else s

/-- CLEAR_LEAK (R793): broadcast by the primary, and done on this island. -/
def doClearLeak (s : State) : State × Bool := (clearLeakHere (toTray s 2), leaksDry s)

/-- A service action by its code. -/
def doService (s : State) (action param : Nat) : State × Bool :=
  match action with
  | 1 => doYield s
  | 2 => doClearLeak s
  | 3 => doClearShut s
  | 4 => doClearBaseline s param
  | 5 => doGolden s
  | _ => (s, false)

/-! ## SMBus (Table 13-9) -/

/-- Not acknowledged, without effect. -/
def smbNack (s : State) : State := emit s (.smb none)
/-- Acknowledged with data. -/
def smbAck (s : State) (l : List Byte) : State := emit s (.smb (some l))

/-- Take an SMBus transaction with a good PEC (R809); ROM mode answers STATUS and POWER only (R886). -/
def onSmb (s : State) (b : Smb) (rom : Bool) (f : State → State) : State :=
  if s.seq.aonRst || !s.island.up then s
  else if !b.pecOk || (s.island.romMode && !rom) then smbNack s
  else f s

/-- SMBUS_STATUS. -/
def execSmbusStatus (b : Smb) (s : State) : Res' :=
  .next <| onSmb s b true fun s =>
    let cls := match statLine s with | .low => 1 | .high => 2 | .wave _ => 0
    smbAck s ((leBytes 7 (put 0 1 (seqCode (shownState s)) + put 1 1 (fwCode s.fw.state) + put 2 1 (slotByte s) + put 3 1 (roleCode s.island.role)
      + put 4 1 cls + put 5 1 (b2n s.island.leakLatch + 2 * b2n s.seq.shut) + put 6 1 (s.island.notices.filter fun n => !n.smbRead).length)))

/-- SMBUS_POWER: 1 on request, 0 off request. -/
def execSmbusPower (b : Smb) (s : State) : Res' :=
  .next <| onSmb s b true fun s =>
    match b.data with
    | [v] => if v == 1 then smbAck (requestOn s) [] else if v == 0 then smbAck (requestOff s) [] else smbNack s
    | _ => smbNack s

/-- SMBUS_THERMAL: the hottest sensor and its reading. -/
def execSmbusThermal (b : Smb) (s : State) : Res' :=
  .next <| onSmb s b false fun s =>
    let hot := (sensorsOf s).foldl (fun (a : SensorId) n => if (s.power.sensors.get a).reading < (s.power.sensors.get n).reading then n else a) 7
    smbAck s (leBytes 3 (put 0 1 hot.1 + put 1 2 (twos 16 (s.power.sensors.get hot).reading)))

/-- SMBUS_POWER_READING. -/
def execSmbusPowerReading (b : Smb) (s : State) : Res' :=
  .next <| onSmb s b false fun s => smbAck s (leBytes 8 (put 0 4 (satTo 32 s.power.estMw) + put 4 4 (s.power.stewardCap.getD 0)))

/-- Mark the oldest unread notice as read. -/
def readNotice : List Notice → List Notice
  | [] => []
  | n :: r => if n.smbRead then n :: readNotice r else { n with smbRead := true } :: r

/-- SMBUS_NOTICE (R811): the oldest notice not yet read; nothing where none is held. -/
def execSmbusNotice (b : Smb) (s : State) : Res' :=
  .next <| onSmb s b false fun s =>
    match s.island.notices.find? fun n => !n.smbRead with
    | none => smbAck s []
    | some n => smbAck (modIsland s fun i => { i with notices := readNotice i.notices }) ([n.code, n.slot] ++ leBytes 44 n.data.toNat)

/-- SMBUS_LOG: steward log records from a sequence number written first. -/
def execSmbusLog (b : Smb) (s : State) : Res' :=
  .next <| onSmb s b false fun s =>
    let from_ := if b.data.isEmpty then s.island.smbLogFrom else leNat b.data
    smbAck (modIsland s fun i => { i with smbLogFrom := from_ }) ((s.island.log.filter fun r => decide (from_ ≤ r.seq)).flatMap logBytes)

/-- A new tray cap and policy: caps are computed and pushed (R802 to R804). -/
def setTrayCap (s : State) (w : Nat) (demand : Bool) : State := pushCaps (modIsland s fun i => { i with trayCapW := some w, demand := demand, capAt := now s }) none

/-- A slot of the tray has Ethernet (R780): this one, or one whose STATE says so. -/
def trayEth (s : State) : Bool := hasEth s.fuses.variant || s.island.tray.toList.any fun b => match b with | some x => x.eth | none => false

/-- SMBUS_CAP (R780, R802, R810): the tray cap in a tray without Ethernet, the steward cap of a die outside a tray. -/
def execSmbusCap (b : Smb) (s : State) : Res' :=
  .next <| onSmb s b false fun s =>
    if !s.island.trayEn then
      let mw := leNat b.data
      if b.data.length == 4 && (mw == 0 || (decide (15000 ≤ mw) && decide (mw ≤ 130000))) then
        smbAck (if mw == 0 then limitCheck { s with power := { s.power with stewardCap := none } } else applyOwnCap s mw) []
      else smbNack s
    else if trayEth s || s.island.role != .primary then smbNack s
    else
      let w := bfld b.data 0 2
      let p := bfld b.data 2 1
      if b.data.length == 3 && capRangeOk s w && decide (p ≤ 1) then smbAck (setTrayCap s w (p == 1)) [] else smbNack s

/-- SMBUS_SERVICE_ARM. -/
def execSmbusServiceArm (b : Smb) (s : State) : Res' :=
  .next <| onSmb s b false fun s =>
    match b.data with
    | [] => smbNack s
    | a :: _ => smbAck (modIsland s fun i => { i with arm := some (a.toNat, now s) }) []

/-- SMBUS_SERVICE_GO (R810): the armed action, within 24,576,000 ticks. -/
def execSmbusServiceGo (b : Smb) (s : State) : Res' :=
  .next <| onSmb s b false fun s =>
    match b.data, s.island.arm with
    | a :: r, some (x, t) =>
      if a.toNat == x && !passed s t 24576001 then
        let d := doService (modIsland s fun i => { i with arm := none }) x (leNat (r.take 1))
        if d.2 then smbAck d.1 [] else smbNack d.1
      else smbNack s
    | _, _ => smbNack s

/-- SMBUS_LAMP: lamp number and duty code. -/
def execSmbusLamp (b : Smb) (s : State) : Res' :=
  .next <| onSmb s b false fun s =>
    let n := bfld b.data 0 1
    let d := bfld b.data 1 2
    if b.data.length == 3 && decide (n < 4) && decide (d ≤ 1000) then smbAck (setLamp s ⟨n % 4, Nat.mod_lt _ (by decide)⟩ d) [] else smbNack s

/-! ## Wairiq (Table 13-10, R812 to R814) -/

/-- RESULT codes. -/
def wqDone : Nat := 0
def wqRefused : Nat := 1
def wqNotPrimary : Nat := 2
def wqBad : Nat := 3
def wqAuth : Nat := 4

/-- Header fields of a request. -/
def wqType (w : Wairiq) : Nat := fld w.header 3 1
def wqSeqOf (w : Wairiq) : Nat := fld w.header 4 4
def wqSlot (w : Wairiq) : Nat := fld w.header 10 1

/-- Reply to a request. -/
def wqReply (s : State) (w : Wairiq) (result : Nat) (body : List Byte) : State := sendWairiq s (wqType w) result (fld w.header 4 8) body

/-- The frame of a message is as Table 13-10 sets. -/
def wqFrameOk (w : Wairiq) : Bool :=
  fld w.header 0 2 == 0x5157 && fld w.header 2 1 == 1 && fld w.header 12 2 == w.body.length && decide (w.body.length ≤ 1024) && fld w.header 14 2 == 0

/-- The tag is right; a die without a key takes only KEY (log entry 24). -/
def wqTagOk (s : State) (w : Wairiq) : Bool :=
  match s.island.key with
  | some k => wqTag k w.header w.body == w.tag
  | none => wqType w == 0x0C

/-- Accept a SEQ: the mark, and the stored floor raised in steps of 65,536 above it (R813). -/
def acceptSeq (s : State) (seq : Nat) : State :=
  modIsland s fun i => { i with
    seqMark := seq, seqFloor := floorAbove i.seqFloor seq }

/-- What carrying a message out leaves: the state, and a RESULT and a body to answer with. -/
abbrev Carried := State × Nat × List Byte

/-- The slot a message is for: the one Table 13-11 names in the body, else SLOT. -/
def wqTarget (w : Wairiq) : Nat :=
  if wqType w == 0x07 || wqType w == 0x0A then bfld w.body 0 1
  else if wqType w == 0x08 && bfld w.body 0 1 == 5 then bfld w.body 1 1
  else wqSlot w

/-- Take a Wairiq message of a type (R812 to R814): frame, tag, SEQ, and who carries it out. `own` is what the island the message is
for does. -/
def onWairiq (s : State) (w : Wairiq) (type : Nat) (own : State → Carried) : State :=
  let answer (r : Carried) : State := wqReply r.1 w r.2.1 r.2.2
  if !islandRuns s || !hasEth s.fuses.variant || wqType w != type then s
  else if !wqFrameOk w then wqReply s w wqBad []
  else if !wqTagOk s w then wqReply s w wqAuth []
  else if type == 1 then answer (own s)
  else if wqSeqOf w ≤ s.island.seqMark then s
  else
    let s1 := acceptSeq s (wqSeqOf w)
    let n := wqTarget w
    if s.island.trayEn && s.island.role != .primary then wqReply s1 w wqNotPrimary [BitVec.ofNat 8 (slotOr s.island.primary)]
    else if n == 0xFF || !s.island.trayEn || n == s.island.slot.1 then answer (own s1)
    else if n < 16 then sendTray s1 (some ⟨n % 16, Nat.mod_lt _ (by decide)⟩) (.relay (relayLoad type 0 (fld w.header 4 8) w.body))
    else wqReply s1 w wqBad []

/-- An action that was done or refused. -/
def wqAnswer (r : State × Bool) : Carried := (r.1, if r.2 then wqDone else wqRefused, [])

/-- WAIRIQ_IDENT (R813, Table 13-11). -/
def execWairiqIdent (w : Wairiq) (s : State) : Res' :=
  .next <| onWairiq s w 0x01 fun s =>
    let islandVersion := match slotImage s 1 ⟨s.flash.islandRunning % 3, Nat.mod_lt _ (by decide)⟩ with | some i => (imgVersion i).toNat | none => 0
    (s, wqDone, leBytes 18 (put 0 1 (slotByte s) + put 1 1 (roleCode s.island.role) + put 2 2 (0x6110 + partCode s.fuses.variant)
      + put 4 4 (if ready s then s.fw.version.toNat else 0) + put 8 4 islandVersion + put 12 2 s.fabric.id.toNat + put 14 4 s.island.seqMark))

/-- Code of a classification. -/
def clsCode : StatClass → Nat
  | .healthy => 0 | .error => 1 | .hung => 2

/-- One slot's entry of the STATUS reply. -/
def slotStatus (s : State) (n : SlotId) : Nat :=
  let c := put 13 1 (clsCode (s.island.statIn.get n).cls)
  match s.island.tray.get n with
  | some b => put 0 1 b.seqState + put 1 4 b.estMw + put 5 4 (b.capMw.getD 0) + put 9 1 (b2n b.leak + 2 * b2n b.pdn + 4 * b2n b.eth + 8 * b2n b.healthy + 16 * b2n b.onPending)
      + put 10 2 (twos 16 b.hottest) + put 12 1 1 + c
  | none => c

/-- STATUS carried out. -/
def carryStatus (s : State) : Carried := (s, wqDone, (fins 16).flatMap fun n => leBytes 14 (slotStatus s n))

/-- WAIRIQ_STATUS. -/
def execWairiqStatus (w : Wairiq) (s : State) : Res' := .next <| onWairiq s w 0x02 carryStatus

/-- TRAY_CAP_SET (R802, R804). -/
def execTrayCapSet (w : Wairiq) (s : State) : Res' :=
  .next <| onWairiq s w 0x03 fun s =>
    let c := bfld w.body 0 2
    let p := bfld w.body 2 1
    if w.body.length != 3 || decide (1 < p) then (s, wqBad, [])
    else if !capRangeOk s c then (s, wqRefused, [])
    else
      let s1 := setTrayCap s c (p == 1)
      let caps := computeCaps s1
      (s1, wqDone, (fins 16).flatMap fun n => leBytes 4 ((caps.lookup n).getD 0))

/-- SLOPE_SET carried out. -/
def carrySlope (w : Wairiq) (s : State) : Carried :=
  let c := bfld w.body 0 1
  if w.body.length != 1 then (s, wqBad, [])
  else if c == 0 || decide (64 < c) then (s, wqRefused, [])
  else (stewardValues s c s.power.entryOff s.power.stewardHalf, wqDone, [])

/-- SLOPE_SET (R721). -/
def execSlopeSet (w : Wairiq) (s : State) : Res' := .next <| onWairiq s w 0x04 (carrySlope w)

/-- THERMAL_SET carried out. -/
def carryThermal (w : Wairiq) (s : State) : Carried :=
  let off : Vector Nat 3 := #v[bfld w.body 0 1, bfld w.body 1 1, bfld w.body 2 1]
  if w.body.length != 3 then (s, wqBad, [])
  else if off.toList.any fun o => decide (20 < o) then (s, wqRefused, [])
  else
    let s1 := modIsland s fun i => { i with thermOff := off }
    let eff := if s.island.coolant.toList.any (·.critical) then s.power.entryOff else off
    (stewardValues s1 s.power.slope eff s.power.stewardHalf, wqDone, [])

/-- THERMAL_SET (R740). -/
def execThermalSet (w : Wairiq) (s : State) : Res' := .next <| onWairiq s w 0x05 (carryThermal w)

/-- One slot's on or off request (R806, R909): a POWER on follows the slot's CAP. -/
def powerSlot (on : Bool) (s : State) (n : SlotId) : State :=
  if on then
    let s1 := modIsland s fun i => { i with markedOff := i.markedOff.filter (· != n) }
    if !s1.island.trayEn then requestOn s1 else countSlot s1 n true
  else
    let s1 := modIsland s fun i => { i with markedOff := if i.markedOff.contains n then i.markedOff else i.markedOff ++ [n] }
    if n == s1.island.slot || !s1.island.trayEn then requestOff s1 else sendTray s1 (some n) (.power false)

/-- WAIRIQ_POWER. -/
def execWairiqPower (w : Wairiq) (s : State) : Res' :=
  .next <| onWairiq s w 0x06 fun s =>
    let mask := bfld w.body 0 2
    let on := bfld w.body 2 1
    if w.body.length != 3 || decide (1 < on) then (s, wqBad, [])
    else (((fins 16).filter fun n => bit mask n.1).foldl (powerSlot (on == 1)) s, wqDone, [])

/-- LAMP carried out: slot, lamp, duty. -/
def carryLamp (w : Wairiq) (s : State) : Carried :=
  let n := bfld w.body 1 1
  let d := bfld w.body 2 2
  if w.body.length != 4 || decide (15 < bfld w.body 0 1) || decide (3 < n) || decide (1000 < d) then (s, wqBad, [])
  else (setLamp s ⟨n % 4, Nat.mod_lt _ (by decide)⟩ d, wqDone, [])

/-- WAIRIQ_LAMP. -/
def execWairiqLamp (w : Wairiq) (s : State) : Res' := .next <| onWairiq s w 0x07 (carryLamp w)

/-- Take a SERVICE message of an action. -/
def onService (s : State) (w : Wairiq) (action : Nat) (own : State → Carried) : State :=
  if bfld w.body 0 1 != action then s else onWairiq s w 0x08 own

/-- SERVICE YIELD (R772). -/
def execYieldRole (w : Wairiq) (s : State) : Res' := .next <| onService s w 1 fun s => wqAnswer (doYield s)

/-- SERVICE CLEAR_LEAK (R793). -/
def execClearLeak (w : Wairiq) (s : State) : Res' := .next <| onService s w 2 fun s => wqAnswer (doClearLeak s)

/-- The whole tray is in S1. -/
def trayInS1 (s : State) : Bool :=
  shownState s == .s1 && (!s.island.trayEn || s.island.tray.toList.all fun b => match b with | some x => decide (x.seqState ≤ 1) | none => true)

/-- CLEAR_SHUT carried out (R815). One for every slot goes to every island, and with the tray in S1 it opens KEY (Table 13-11). -/
def carryClearShut (w : Wairiq) (s : State) : Carried :=
  let all := wqSlot w == 0xFF || !s.island.trayEn
  let r := doClearShut (if all then toTray s 3 else s)
  wqAnswer (if r.2 && all && trayInS1 s then modIsland r.1 fun i => { i with keyOpen := true } else r.1, r.2)

/-- SERVICE CLEAR_SHUT (R815). -/
def execClearShut (w : Wairiq) (s : State) : Res' := .next <| onService s w 3 (carryClearShut w)

/-- SERVICE CLEAR_BASELINE (R662, R815). -/
def execClearBaseline (w : Wairiq) (s : State) : Res' := .next <| onService s w 4 fun s => wqAnswer (doClearBaseline s (bfld w.body 1 1))

/-- SERVICE GOLDEN_REFLASH (R882, R902): not before the island's verdicts are done. -/
def execGoldenReflash (w : Wairiq) (s : State) : Res' :=
  .next <| if !s.island.ready then s else onService s w 5 fun s => wqAnswer (doGolden s)

/-- LOG_READ carried out: slot, and the first sequence number. -/
def carryLogRead (w : Wairiq) (s : State) : Carried :=
  if w.body.length != 5 || decide (15 < bfld w.body 0 1) then (s, wqBad, [])
  else (s, wqDone, ((s.island.log.filter fun r => decide (bfld w.body 1 4 ≤ r.seq)).take 32).flatMap logBytes)

/-- WAIRIQ_LOG_READ: up to 32 steward log records. -/
def execWairiqLogRead (w : Wairiq) (s : State) : Res' := .next <| onWairiq s w 0x0A (carryLogRead w)

/-- A leak input's configuration: input, enable, threshold in 10 mV, filter in µs (R788). -/
def setLeak (s : State) (b : List Byte) : State × Bool :=
  let n := bfld b 0 1
  let thr := bfld b 2 1 * 10
  let flt := bfld b 3 2
  if b.length == 5 && decide (n < 2) && decide (bfld b 1 1 ≤ 1) && decide (300 ≤ thr) && decide (thr ≤ 1500) && decide (1 ≤ flt) && decide (flt ≤ 1000) then
    (modIsland s fun i => { i with leak := vmod i.leak ⟨n % 2, Nat.mod_lt _ (by decide)⟩ fun l => { l with enabled := bfld b 1 1 == 1, thrMv := thr, filterUs := flt } }, true)
  else (s, false)

/-- A lamp's drive current in 10 µA, 2 to 20 mA, and its test-while-dark flag. -/
def setLampCfg (s : State) (b : List Byte) : State × Bool :=
  let n := bfld b 0 1
  let ua := bfld b 1 2 * 10
  if b.length == 4 && decide (n < 4) && decide (2000 ≤ ua) && decide (ua ≤ 20000) && decide (bfld b 3 1 ≤ 1) then
    (modIsland s fun i => { i with lamps := vmod i.lamps ⟨n % 4, Nat.mod_lt _ (by decide)⟩ fun l => { l with driveUa := ua, dark := bfld b 3 1 == 1 } }, true)
  else (s, false)

/-- The network values: MAC, IPv4 address, rack manager address, UDP port. -/
def setNet (s : State) (b : List Byte) : State × Bool :=
  if b.length == 16 then
    (modIsland s fun i => { i with net := { i.net with
      mac := BitVec.ofNat 48 (bfld b 0 6), ip := BitVec.ofNat 32 (bfld b 6 4), manager := BitVec.ofNat 32 (bfld b 10 4), port := BitVec.ofNat 16 (bfld b 14 2) } }, true)
  else (s, false)

/-- Control-field positions whose slew the island store holds (R942, R943, Table 16-7): outputs of types O, OD and OD-3 but for
TDO and the QSPI, audio, RMII and MDIO pins. -/
def storeSlewPin (n : Nat) : Bool :=
  (decide (35 ≤ n) && decide (n ≤ 42)) || n == 43 || n == 45 || n == 47 || n == 49 || n == 51 || n == 53 || n == 54
    || (decide (56 ≤ n) && decide (n ≤ 61)) || (decide (78 ≤ n) && decide (n ≤ 82))

/-- An output's slew setting: control-field position, setting 0 to 3 (R943). -/
def setSlew (s : State) (b : List Byte) : State × Bool :=
  let n := bfld b 0 1
  if b.length == 2 && storeSlewPin n && decide (bfld b 1 1 ≤ 3) then
    (modIsland s fun i => { i with slew := i.slew.set (n % 134) (bfld b 1 1) (Nat.mod_lt _ (by decide)) }, true)
  else (s, false)

/-- CONFIG carried out: item 0 a leak input, 1 a lamp, 2 the network, 3 an output's slew. -/
def carryConfig (w : Wairiq) (s : State) : Carried :=
  let b := w.body.drop 1
  match bfld w.body 0 1 with
  | 0 => wqAnswer (setLeak s b)
  | 1 => wqAnswer (setLampCfg s b)
  | 2 => wqAnswer (setNet s b)
  | 3 => wqAnswer (setSlew s b)
  | _ => (s, wqBad, [])

/-- CONFIG (R761, Table 13-2). -/
def execConfig (w : Wairiq) (s : State) : Res' := .next <| onWairiq s w 0x0B (carryConfig w)

/-- KEY carried out (R813, Table 13-11): the mark and the floor start again at 0. -/
def carryKey (w : Wairiq) (s : State) : Carried :=
  if w.body.length != 48 then (s, wqBad, [])
  else if s.island.key.isSome && !(s.island.keyOpen && trayInS1 s) then (s, wqRefused, [])
  else (modIsland s fun i => { i with key := some (BitVec.ofNat 384 (leNat w.body)), keyOpen := false, seqMark := 0, seqFloor := 0 }, wqDone, [])

/-- KEY. -/
def execKey (w : Wairiq) (s : State) : Res' := .next <| onWairiq s w 0x0C (carryKey w)

/-! ## Messages relayed over the tray bus (R814) -/

/-- A message the primary relayed, carried out on this island. TRAY_CAP_SET and YIELD are the primary's own; of POWER, this slot's bit. -/
def carryRelayed (w : Wairiq) (s : State) : Carried :=
  match wqType w with
  | 0x02 => carryStatus s
  | 0x04 => carrySlope w s
  | 0x05 => carryThermal w s
  | 0x06 =>
    if w.body.length != 3 || decide (1 < bfld w.body 2 1) then (s, wqBad, [])
    else if !bit (bfld w.body 0 2) s.island.slot.1 then (s, wqDone, [])
    else (if bfld w.body 2 1 == 1 then requestOn s else requestOff s, wqDone, [])
  | 0x07 => carryLamp w s
  | 0x08 => if bfld w.body 0 1 == 3 then carryClearShut w s else wqAnswer (doService s (bfld w.body 0 1) (bfld w.body 1 1))
  | 0x0A => carryLogRead w s
  | 0x0B => carryConfig w s
  | 0x0C => carryKey w s
  | _ => (s, wqRefused, [])

/-- TRAY_RELAY (R793, R814): the primary sends a notice or a reply on over Wairiq; any other island posts a notice the primary sent to
all, or carries out the message the primary relayed to it, and answers where an ECHO asks for it (log entry 24). -/
def execTrayRelay (t : TrayHead) (payload : List Byte) (s : State) : Res' :=
  .next <| onTray s t 0x09 fun s =>
    let type := bfld payload 0 1
    let echo := bfld payload 2 8
    let body := payload.drop 10
    if payload.length < 10 then s
    else if s.island.role == .primary then
      (if hasEth s.fuses.variant then sendWairiq s type (bfld payload 1 1) echo body else s)
    else if type == 0x09 then notify s (bfld body 0 1) (bfld body 1 1) (leNat (body.drop 2) <<< 160)
    else
      let slot := if echo == 0 then 0xFF else s.island.slot.1
      let r := carryRelayed ⟨wqHeader type 0 0 slot 0 body.length 0 0, body, 0⟩ s
      if echo == 0 then r.1 else sendTray r.1 (some t.src) (.relay (relayLoad type r.2.1 echo r.2.2))

end Sys2Proof.Machine
end

