-- ==== Sys2Proof/Machine/Device.lean ====
section
/-! DEFINITION. The device commands: identity, the capability record, resets of the die, firmware staging, diagnostics, logs and
statistics (10, 15). -/

namespace Sys2Proof.Machine

/-! ## Identity and capability (R583, R643 to R645, Tables 10-3 and 10-23) -/

/-- LAYBY: 0 free, 1 engaged, 2 used up. -/
def laybyCode (l : Life) : Nat := match l with | .laybyFree => 0 | .laybyEngaged => 1 | _ => 2

/-- DEV_QUERY. The MSC is put in when the completion is written (`withMsc`). -/
def execDevQuery (m : MailCmd) (s : State) : Res' :=
  .next <| onMail m 0x01 s fun s =>
    if reserved m then complete s m .badArgument 0
    else complete s m .ok (put 8 4 (devId s.fuses) + put 12 4 (devRev s) + put 16 2 s.fabric.id.toNat + put 18 1 (b2n (discovered s))
      + put 19 1 s.streams.length + put 20 1 (servingEngines s).length + put 21 1 (laybyCode (s.engines.get 6).life))

/-- STATE of an engine entry. -/
def lifeCode (l : Life) : Nat :=
  match l with | .inService => 0 | .laybyFree => 1 | .laybyEngaged => 2 | .retired => 3 | .selfTestFailed => 4

/-- STATE of a memory channel entry. -/
def mcCode (x : McState) : Nat := match x with | .inService => 0 | .untrained => 1 | .failedTraining => 1 | .failedService => 2

/-- Entries of present units, placed one after the other from a base (R644, R645). -/
def entries (base size : Nat) (l : List Nat) : Nat := total (l.mapIdx fun i v => put (base + size * i) size v)

/-- FW_MAJOR and FW_MINOR of the island's running image. -/
def islandVersion (s : State) : Nat :=
  match slotImage s 1 ⟨s.flash.islandRunning % 3, Nat.mod_lt _ (by decide)⟩ with
  | some i => (imgVersion i).toNat % 65536
  | none => 0

/-- The engine, port and channel entries of the capability record. -/
def capEntries (s : State) : Nat :=
  let v := s.fuses.variant
  let engines := (fins 7).filter fun e => hasEngine v e.1
  let ports := (fins 8).filter fun p => hasPort v p.1
  let chans := (fins 4).filter fun n => decide (n.1 < mcCount v)
  put 24 1 engines.length
  + entries 28 4 (engines.map fun e =>
      let en := s.engines.get e
      put 0 1 e.1 + put 1 1 (lifeCode en.life) + put 2 1 (b2n (hasAttn v e.1)) + put 3 1 (match en.partner with | some x => x.1 | none => 0xFF))
  + entries 60 4 (ports.map fun p => let q := s.fabric.ports.get p; put 0 1 p.1 + put 1 1 (portCode q.st) + put 2 1 q.width)
  + entries 100 8 (chans.map fun n =>
      let c := s.mem.channels.get n
      put 0 1 n.1 + put 1 1 (mcCode c.st) + put 2 1 c.gib + put 3 1 c.ranks + put 4 2 c.repaired + put 6 2 c.softLeft)

/-- The capability record (Table 10-23). -/
def capRecord (s : State) : List Byte :=
  let cap := capSummary s.fuses
  let attn : Bool := attnCount s.fuses.variant != 0
  leBytes 256 (put 0 2 256 + put 2 1 1 + put 4 8 cap + put 12 2 s.fabric.id.toNat + put 14 2 (shapeCode s.fabric) + put 16 1 (wrapCode s.fabric)
    + put 17 1 s.fw.image + put 20 2 s.fw.version.toNat + put 22 2 (islandVersion s) + capEntries s + put 56 1 (cap >>> 8)
    + put 92 1 (bits cap 16 2) + put 96 1 (bits cap 20 4) + put 97 1 ((s.mem.channels.get 0).mts / 100)
    + put 132 2 96 + put 134 2 90 + put 136 2 (total s.mem.rowSpares.toList) + put 138 2 (total s.mem.colSpares.toList)
    + put 140 2 64 + put 142 2 16384 + put 144 2 32 + put 146 1 16 + put 147 1 32 + put 148 1 16 + put 152 2 0xFFFF
    + (if attn then put 154 2 256 + put 156 1 16 + put 158 2 32768 else 0)
    + put 164 1 (b2n (hasEth s.fuses.variant)) + put 165 1 (slotByte s) + put 166 1 (roleCode s.island.role) + put 168 4 (faultEntries s))

/-- DEV_CAPS. -/
def execDevCaps (m : MailCmd) (s : State) : Res' :=
  .next <| onMail m 0x02 s fun s =>
    let rec_ := capRecord s
    let badBuf := arg m 8 8 % 64 != 0 || decide (2 ^ 24 < arg m 16 4)
    if reserved m || badBuf then complete s m .badArgument 0
    else if arg m 16 4 < rec_.length then complete s m .badArgument (put 8 4 rec_.length)
    else if !discovered s then complete s m .notReady 0
    else writeRecord s m (arg m 8 8) (arg m 16 4) rec_ (put 12 1 1)

/-! ## DEV_RESET (R587 to R590, R879, R926, Table 15-6) -/

/-- Every stream, job, reservation and loan is dropped (R590); lenders get their loans back. -/
def dropAll (s : State) : State :=
  let s1 := ((s.mem.reserved.map (·.owner)).eraseDups).foldl releaseAll s
  { s1 with
    streams := [], itins := [], engines := vmap emptied s1.engines, audio := vmap (fun a => { a with binds := [] }) s1.audio
    mem := { s1.mem with
      regions := [], reserved := [], loans := [], moves := [], staged := [], waiting := [], rooms := Vector.replicate 8 none, roomUsed := [] } }

/-- Every completion and event due is written before the restart begins (R589). -/
def flushOutbox (s : State) : State := s.host.outbox.foldl deliver { s with host := { s.host with outbox := [] } }

/-- A WARM restart: with an ACTIVE port the die isolates itself first, and the restart follows the drain (R926). -/
def restartWarm (s : State) : State :=
  if (neighbours s).isEmpty then warmRestart s
  else
    let s1 := { s with fw := { s.fw with restart := some false } }
    if s.fabric.isolating.isSome then s1 else startIsolate s1 []

/-- DEV_RESET. -/
def execDevReset (m : MailCmd) (s : State) : Res' :=
  .next <| onMail m 0x03 s fun s =>
    let scope := arg m 8 1
    let force := arg m 9 1 == 1
    if reserved m || decide (1 < scope) then complete s m .badArgument 0
    else if (!force && !(s.streams.isEmpty && s.itins.isEmpty)) || s.fw.restart.isSome then complete s m .busy 0
    else
      let s1 := flushOutbox (complete (if force then dropAll s else s) m .ok 0)
      let s2 := if (s1.flash.select.get 1).next.1 != s1.flash.islandRunning && s1.island.up then islandCoreReset s1 else s1
      if scope == 0 then restartWarm s2 else requestOff (modSeq s2 fun q => { q with cold := true })

/-! ## FW_STAGE (R627) -/

/-- Largest image of a target. -/
def imageLimit (target : Nat) : Nat := if target == 0 then 16 * 2 ^ 20 else 2 ^ 20

/-- FW_STAGE: `data` is what SRC_ADDR holds. -/
def execFwStage (m : MailCmd) (data : List Byte) (read : ReadEnd) (s : State) : Res' :=
  .next <| onMail m 0x50 s fun s =>
    let target := arg m 8 1
    let a := arg m 16 8
    let n := arg m 24 4
    let tg : Fin 2 := ⟨target % 2, Nat.mod_lt _ (by decide)⟩
    let bad := reserved m || decide (1 < target) || n == 0 || n % 64 != 0 || decide (imageLimit target < n)
    if srcStatus s a n == some .absentUnit then complete s m .absentUnit 0
    else if bad then complete s m .badArgument 0
    else match srcStatus s a n with
      | some st => complete s m st 0
      | none =>
        if s.fw.slotWrite.isSome then complete s m .busy 0
        else if s.mem.fwArea.isNone then complete s m .tierFault 0
        else match readStatus s a n read with
          | some st => complete s m st 0
          | none =>
            let img := imageOf (data.take n)
            complete { s with fw := { s.fw with staged := vmod s.fw.staged tg fun _ => some img } } m .ok
              (put 8 4 n + put 12 4 (imgVersion img).toNat)

/-! ## DIAG_RUN (R632, R633, R829) -/

/-- First status of R632 and R584 that refuses a test, or none. -/
def diagRefusal (s : State) (test unit : Nat) : Option Status :=
  match test with
  | 1 => match (fins 7)[unit]? with
    | none => some .badArgument
    | some e =>
      if !hasEngine s.fuses.variant e.1 then some .absentUnit
      else if !(mappedTo s e).isEmpty || (s.engines.get e).life == .laybyEngaged then some .busy else none
  | 2 => if unit == 0 then none else some .badArgument
  | 3 =>
    if 4 ≤ unit then some .badArgument
    else if mcCount s.fuses.variant ≤ unit then some .absentUnit
    else if reservedChan s unit + lentChan s unit != 0 then some .busy else none
  | 4 => match (fins 8)[unit]? with
    | none => some .badArgument
    | some p =>
      if !hasPort s.fuses.variant p.1 then some .absentUnit
      else if (s.fabric.ports.get p).st == .active then some .busy else none
  | _ => some .badArgument

/-- DIAG_RUN: the test runs, and its end completes the command. -/
def execDiagRun (m : MailCmd) (s : State) : Res' :=
  .next <| onMail m 0x60 s fun s =>
    if reserved m then complete s m .badArgument 0
    else match diagRefusal s (arg m 8 1) (arg m 9 1) with
      | some st => complete s m st 0
      | none => hold s m

/-- A failed engine self-test: an engine in service is retired, a free E6 is used up, a retired one stays as it is. -/
def failEngine (s : State) (e : EngineId) (detail : Byte) : State :=
  match (s.engines.get e).life with
  | .laybyFree => laybyFailed s 5 detail
  | .inService => engineFault s e 5
  | .laybyEngaged => engineFault s e 5
  | .retired => s
  | .selfTestFailed => s

/-- DIAG_RUN_COMPLETE: the oldest test running ends, with the outcome, the errors corrected and the duration as operands. -/
def execDiagRunComplete (pass : Bool) (detail : Byte) (corrected duration : Nat) (s : State) : Res' :=
  .next <|
    match s.host.running.find? fun m => mailOpcode m == 0x60 with
    | none => s
    | some m =>
      let s1 := match (fins 7)[arg m 9 1]? with
        | some e => if arg m 8 1 == 1 && !pass then failEngine s e detail else s
        | none => s
      complete s1 m .ok (put 8 1 (b2n pass) + put 9 1 detail.toNat + put 12 4 (satTo 32 corrected) + put 16 4 (satTo 32 duration))

/-! ## LOG_READ (R634, R888) -/

/-- Put a record into a list in sequence order. -/
def insertRec (r : LogRec) : List LogRec → List LogRec
  | [] => [r]
  | x :: l => if r.seq ≤ x.seq then r :: x :: l else x :: insertRec r l

/-- The records a source holds, in sequence order, and the number of its next record. -/
def logSource (s : State) (src : Nat) : List LogRec × Nat :=
  if src == 0 then (s.fw.dieLog, s.fw.logSeq)
  else if src == 1 then (s.island.standing.foldr insertRec s.island.history, s.island.faultSeq)
  else (s.island.log, s.island.logSeq)

/-- LOG_READ. -/
def execLogRead (m : MailCmd) (s : State) : Res' :=
  .next <| onMail m 0x61 s fun s =>
    let src := arg m 8 1
    let len := arg m 24 4
    if reserved m || decide (2 < src) || arg m 16 8 % 64 != 0 || len % 32 != 0 || decide (2 ^ 24 < len) then complete s m .badArgument 0
    else
      let held := logSource s src
      let first := match held.1 with | r :: _ => r.seq | [] => held.2
      let from_ := arg m 12 4
      let bs := ((held.1.filter fun r => decide (max from_ first ≤ r.seq)).take (len / 32)).flatMap logBytes
      if !bs.isEmpty && !s.host.linkUp then complete s m .tierFault 0
      else complete (if bs.isEmpty then s else emit s (.hostWrite (arg m 16 8) bs)) m .ok
        (put 8 4 bs.length + put 12 4 first + put 16 4 held.2 + put 20 4 (first - from_))

/-! ## STATS_READ (R197 to R199, R635, Tables 10-18 and 10-19) -/

/-- The nine counters of a set, in the record's order (R197). -/
def setBytes (k : Counters) : List Byte :=
  [k.sse, k.nConv, if k.nConv == 0 then 0 else divCount k.sse k.nConv.toNat, k.sat, k.esc, k.sideFull, k.underflow, k.poison, k.invalid].flatMap
    fun v => leBytes 4 v.toNat

/-- The conversion statistics record. -/
def statsRecord (h : Nat) (x : LayerStats) (window : Nat) : List Byte :=
  let n := x.running.length
  let set (k : Counters) := setBytes k ++ List.replicate 4 0
  leBytes 32 (put 0 4 (32 + 80 * n) + put 4 1 1 + put 6 2 h + put 8 2 x.layer + put 10 2 n + put 12 2 window + put 16 8 x.latchMsc + put 24 4 x.invocations)
    ++ (x.closed.zip x.running).flatMap fun p => set p.1 ++ set p.2

/-- A binding as its 64 bytes. -/
def bindBytesOf (b : Bind) : List Byte :=
  leBytes 2 b.stream ++ [BitVec.ofNat 8 (b2n b.dirIn + 2 * b2n b.dirOut), 0] ++ b.counts.toList.flatMap (leBytes 4)
    ++ leBytes 4 b.sat ++ leBytes 4 b.played ++ leBytes 4 b.captured ++ List.replicate 20 0

/-- The audio port record. -/
def portRecord (n : Nat) (a : AudioPort) : List Byte :=
  leBytes 32 (put 0 4 (32 + 64 * a.binds.length) + put 4 1 1 + put 5 1 1 + put 6 1 n + put 7 1 (b2n a.clockValid) + put 8 1 a.binds.length + put 16 8 a.anchor)
    ++ a.binds.flatMap bindBytesOf

/-- The layer whose statistics the command asks for, where it keeps them. -/
def statsLayer (s : State) (m : MailCmd) (st : Stream) : Option Layer :=
  ((itinOf s st.itin).bind fun it => (sectionOf it).layers[arg m 12 2]?).filter fun ly => (desc ly.body.desc).statsEn

/-- STATS_READ. -/
def execStatsRead (m : MailCmd) (s : State) : Res' :=
  .next <| onMail m 0x62 s fun s =>
    let kind := arg m 8 1
    let port := arg m 9 1
    if reserved m || decide (1 < kind) || (kind == 1 && decide (2 ≤ port)) then complete s m .badArgument 0
    else if kind == 1 then
      (if apCount s.fuses.variant ≤ port then complete s m .absentUnit 0
       else writeRecord s m (arg m 16 8) (arg m 24 4) (portRecord port (s.audio.get ⟨port % 2, Nat.mod_lt _ (by decide)⟩)) 0)
    else onStream s m (arg m 10 2) (fun st => (statsLayer s m st).isNone) fun st =>
      match statsLayer s m st with
      | none => complete s m .badArgument 0
      | some ly =>
        let d := desc ly.body.desc
        writeRecord s m (arg m 16 8) (arg m 24 4) (statsRecord st.handle (statsOf st (arg m 12 2) ly.width) d.window) 0

end Sys2Proof.Machine
end

