-- ==== Sys2Proof/Machine/Dispatch.lean ====
section
/-! DEFINITION. The dispatch: one arm for each row of the opcode table. -/

namespace Sys2Proof.Machine

/-- What a command does to everything but the queue. -/
def exec (i : Instr) (s : State) : Host.Outcome State Fault Refusal :=
  match i with
  | .devQuery m => Sys2Proof.Machine.execDevQuery m s
  | .devCaps m => Sys2Proof.Machine.execDevCaps m s
  | .devReset m => Sys2Proof.Machine.execDevReset m s
  | .timeQuery m => Sys2Proof.Machine.execTimeQuery m s
  | .memReserve m => Sys2Proof.Machine.execMemReserve m s
  | .memRelease m => Sys2Proof.Machine.execMemRelease m s
  | .memQuotaSet m => Sys2Proof.Machine.execMemQuotaSet m s
  | .regionMap m => Sys2Proof.Machine.execRegionMap m s
  | .regionMove m => Sys2Proof.Machine.execRegionMove m s
  | .itinLoad m img read => Sys2Proof.Machine.execItinLoad m img read s
  | .itinUnload m => Sys2Proof.Machine.execItinUnload m s
  | .streamOpen m => Sys2Proof.Machine.execStreamOpen m s
  | .streamStart m => Sys2Proof.Machine.execStreamStart m s
  | .streamFeed m inputs seqs read => Sys2Proof.Machine.execStreamFeed m inputs seqs read s
  | .streamDrain m => Sys2Proof.Machine.execStreamDrain m s
  | .streamClose m => Sys2Proof.Machine.execStreamClose m s
  | .streamSnapshot m => Sys2Proof.Machine.execStreamSnapshot m s
  | .streamResume m read => Sys2Proof.Machine.execStreamResume m read s
  | .streamPolicy m => Sys2Proof.Machine.execStreamPolicy m s
  | .pwrCapSet m => Sys2Proof.Machine.execPwrCapSet m s
  | .pwrReport m => Sys2Proof.Machine.execPwrReport m s
  | .opSet m => Sys2Proof.Machine.execOpSet m s
  | .energyRead m => Sys2Proof.Machine.execEnergyRead m s
  | .fabQuery m => Sys2Proof.Machine.execFabQuery m s
  | .fabRouteSet m => Sys2Proof.Machine.execFabRouteSet m s
  | .fabIsolate m => Sys2Proof.Machine.execFabIsolate m s
  | .fwStage m data read => Sys2Proof.Machine.execFwStage m data read s
  | .fwCommit m => Sys2Proof.Machine.execFwCommit m s
  | .fwVerify m => Sys2Proof.Machine.execFwVerify m s
  | .fwRollback m => Sys2Proof.Machine.execFwRollback m s
  | .diagRun m => Sys2Proof.Machine.execDiagRun m s
  | .logRead m => Sys2Proof.Machine.execLogRead m s
  | .statsRead m => Sys2Proof.Machine.execStatsRead m s
  | .audioBind m => Sys2Proof.Machine.execAudioBind m s
  | .audioConfig m => Sys2Proof.Machine.execAudioConfig m s
  | .commandFetch data => Sys2Proof.Machine.execCommandFetch data s
  | .cmdTailWrite ch v => Sys2Proof.Machine.execCmdTailWrite ch v s
  | .cmpHeadWrite ch v => Sys2Proof.Machine.execCmpHeadWrite ch v s
  | .evtHeadWrite v => Sys2Proof.Machine.execEvtHeadWrite v s
  | .channelEnable ch cfg => Sys2Proof.Machine.execChannelEnable ch cfg s
  | .channelDisable ch cfg => Sys2Proof.Machine.execChannelDisable ch cfg s
  | .irqCauseWrite v => Sys2Proof.Machine.execIrqCauseWrite v s
  | .irqMaskWrite v => Sys2Proof.Machine.execIrqMaskWrite v s
  | .msixVectorUnmask vec => Sys2Proof.Machine.execMsixVectorUnmask vec s
  | .mscLoRead => Sys2Proof.Machine.execMscLoRead s
  | .registerWrite off size v => Sys2Proof.Machine.execRegisterWrite off size v s
  | .bootQuery => Sys2Proof.Machine.execBootQuery s
  | .bootLog => Sys2Proof.Machine.execBootLog s
  | .bootRetry => Sys2Proof.Machine.execBootRetry s
  | .bootHostImage data read => Sys2Proof.Machine.execBootHostImage data read s
  | .completionWrite => Sys2Proof.Machine.execCompletionWrite s
  | .overflowLogDrain ch => Sys2Proof.Machine.execOverflowLogDrain ch s
  | .irqDelayExpiry ch => Sys2Proof.Machine.execIrqDelayExpiry ch s
  | .heartbeatIncrement => Sys2Proof.Machine.execHeartbeatIncrement s
  | .firmwareHalt watchdog => Sys2Proof.Machine.execFirmwareHalt watchdog s
  | .perstReset low => Sys2Proof.Machine.execPerstReset low s
  | .functionLevelReset => Sys2Proof.Machine.execFunctionLevelReset s
  | .pcieLinkDown => Sys2Proof.Machine.execPcieLinkDown s
  | .pcieLinkUp => Sys2Proof.Machine.execPcieLinkUp s
  | .rateWindowClose e chain => Sys2Proof.Machine.execRateWindowClose e chain s
  | .rateBelowMinimum e => Sys2Proof.Machine.execRateBelowMinimum e s
  | .pacerTokenCredit e => Sys2Proof.Machine.execPacerTokenCredit e s
  | .wavefrontIssue e ballast => Sys2Proof.Machine.execWavefrontIssue e ballast s
  | .attentionStepIssue e residueUpset => Sys2Proof.Machine.execAttentionStepIssue e residueUpset s
  | .segmentStart e res => Sys2Proof.Machine.execSegmentStart e res s
  | .bankDrainComplete e upsets => Sys2Proof.Machine.execBankDrainComplete e upsets s
  | .waymarkCommit e res residueUpset => Sys2Proof.Machine.execWaymarkCommit e res residueUpset s
  | .laybySelfTest => Sys2Proof.Machine.execLaybySelfTest s
  | .laybySelfTestDone pass detail => Sys2Proof.Machine.execLaybySelfTestDone pass detail s
  | .opChangeRequest target cause => Sys2Proof.Machine.execOpChangeRequest target cause s
  | .opChangeGapStart => Sys2Proof.Machine.execOpChangeGapStart s
  | .opChangeDeferTimeout => Sys2Proof.Machine.execOpChangeDeferTimeout s
  | .opStopBegin => Sys2Proof.Machine.execOpStopBegin s
  | .opStopSettled => Sys2Proof.Machine.execOpStopSettled s
  | .opStopTimeout shortMv => Sys2Proof.Machine.execOpStopTimeout shortMv s
  | .approachTimeout e => Sys2Proof.Machine.execApproachTimeout e s
  | .mscTick => Sys2Proof.Machine.execMscTick s
  | .alignExchangeTimer => Sys2Proof.Machine.execAlignExchangeTimer s
  | .disciplineExchangeTimer => Sys2Proof.Machine.execDisciplineExchangeTimer s
  | .timeExchange p k => Sys2Proof.Machine.execTimeExchange p k s
  | .refclkLost => Sys2Proof.Machine.execRefclkLost s
  | .refclkReturn => Sys2Proof.Machine.execRefclkReturn s
  | .linkTrainingStart p => Sys2Proof.Machine.execLinkTrainingStart p s
  | .trainingSet p t => Sys2Proof.Machine.execTrainingSet p t s
  | .linkTrainingComplete p lanes txDelay rxDelay flight => Sys2Proof.Machine.execLinkTrainingComplete p lanes txDelay rxDelay flight s
  | .linkTrainingTimeout p => Sys2Proof.Machine.execLinkTrainingTimeout p s
  | .linkTrainingRetry p => Sys2Proof.Machine.execLinkTrainingRetry p s
  | .flitReceive p f => Sys2Proof.Machine.execFlitReceive p f s
  | .nakReceive p seq => Sys2Proof.Machine.execNakReceive p seq s
  | .linkReplayLimit p => Sys2Proof.Machine.execLinkReplayLimit p s
  | .linkOutputArbitrate p => Sys2Proof.Machine.execLinkOutputArbitrate p s
  | .packetForward p vc cls => Sys2Proof.Machine.execPacketForward p vc cls s
  | .readPkt p k => Sys2Proof.Machine.execReadPkt p k s
  | .readData p k => Sys2Proof.Machine.execReadData p k s
  | .movePkt p k => Sys2Proof.Machine.execMovePkt p k s
  | .moveAck p k => Sys2Proof.Machine.execMoveAck p k s
  | .relaySend => Sys2Proof.Machine.execRelaySend s
  | .relayCredit p via => Sys2Proof.Machine.execRelayCredit p via s
  | .loanRequest p src req tier granules => Sys2Proof.Machine.execLoanRequest p src req tier granules s
  | .loanGrant p lender req tier base granules => Sys2Proof.Machine.execLoanGrant p lender req tier base granules s
  | .recallNotice p lender base => Sys2Proof.Machine.execRecallNotice p lender base s
  | .loanReturn p borrower base => Sys2Proof.Machine.execLoanReturn p borrower base s
  | .recallNoticeExpiry borrower base => Sys2Proof.Machine.execRecallNoticeExpiry borrower base s
  | .recallRoomRestore lender => Sys2Proof.Machine.execRecallRoomRestore lender s
  | .linkSignalLoss p => Sys2Proof.Machine.execLinkSignalLoss p s
  | .linkDownTimeout p => Sys2Proof.Machine.execLinkDownTimeout p s
  | .linkNotice p a b serial => Sys2Proof.Machine.execLinkNotice p a b serial s
  | .dieNotice p d serial => Sys2Proof.Machine.execDieNotice p d serial s
  | .routeGenerationNotice p src gen => Sys2Proof.Machine.execRouteGenerationNotice p src gen s
  | .routeSetInstall cause => Sys2Proof.Machine.execRouteSetInstall cause s
  | .linkUsabilityHoldExpiry p => Sys2Proof.Machine.execLinkUsabilityHoldExpiry p s
  | .roleRequest p => Sys2Proof.Machine.execRoleRequest p s
  | .roleAccept p swap => Sys2Proof.Machine.execRoleAccept p swap s
  | .roleSwapTick p => Sys2Proof.Machine.execRoleSwapTick p s
  | .roleRequestTimeout p => Sys2Proof.Machine.execRoleRequestTimeout p s
  | .roleHoldoffExpiry p => Sys2Proof.Machine.execRoleHoldoffExpiry p s
  | .remoteRequestTimeout tag => Sys2Proof.Machine.execRemoteRequestTimeout tag s
  | .isolateDrainEnd => Sys2Proof.Machine.execIsolateDrainEnd s
  | .moveLand id result data kind => Sys2Proof.Machine.execMoveLand id result data kind s
  | .moveDeferredIssue id => Sys2Proof.Machine.execMoveDeferredIssue id s
  | .moveLatenessTimeout id => Sys2Proof.Machine.execMoveLatenessTimeout id s
  | .firmwareAreaMove => Sys2Proof.Machine.execFirmwareAreaMove s
  | .frameRelease h => Sys2Proof.Machine.execFrameRelease h s
  | .emptySlot h => Sys2Proof.Machine.execEmptySlot h s
  | .frameFinish h => Sys2Proof.Machine.execFrameFinish h s
  | .snapshotComplete h => Sys2Proof.Machine.execSnapshotComplete h s
  | .resumeComplete h read => Sys2Proof.Machine.execResumeComplete h read s
  | .audioBlockEnd p h samples => Sys2Proof.Machine.execAudioBlockEnd p h samples s
  | .audioPlayStart p h readBad => Sys2Proof.Machine.execAudioPlayStart p h readBad s
  | .audioFillRepost p h => Sys2Proof.Machine.execAudioFillRepost p h s
  | .slaveClockValid p frameStart period => Sys2Proof.Machine.execSlaveClockValid p frameStart period s
  | .slaveClockLost p => Sys2Proof.Machine.execSlaveClockLost p s
  | .pmbusIoutRead d ioutMa dropUv meanTemp connected ok => Sys2Proof.Machine.execPmbusIoutRead d ioutMa dropUv meanTemp connected ok s
  | .pmbusStatusRead d voutMv temp status ok => Sys2Proof.Machine.execPmbusStatusRead d voutMv temp status ok s
  | .pmbusAlert d status => Sys2Proof.Machine.execPmbusAlert d status s
  | .baselineLearned d => Sys2Proof.Machine.execBaselineLearned d s
  | .pdnAlarmRaise d => Sys2Proof.Machine.execPdnAlarmRaise d s
  | .pdnShut d => Sys2Proof.Machine.execPdnShut d s
  | .pdnAlarmClear d => Sys2Proof.Machine.execPdnAlarmClear d s
  | .powerOnRequest src => Sys2Proof.Machine.execPowerOnRequest src s
  | .powerOffRequest src => Sys2Proof.Machine.execPowerOffRequest src s
  | .railStepDone => Sys2Proof.Machine.execRailStepDone s
  | .railStepTimeout => Sys2Proof.Machine.execRailStepTimeout s
  | .sequencerHoldExpiry => Sys2Proof.Machine.execSequencerHoldExpiry s
  | .ascentHoldoffExpiry => Sys2Proof.Machine.execAscentHoldoffExpiry s
  | .firmwareQuiesced => Sys2Proof.Machine.execFirmwareQuiesced s
  | .quiesceTimeout => Sys2Proof.Machine.execQuiesceTimeout s
  | .railLoss d => Sys2Proof.Machine.execRailLoss d s
  | .aonReset => Sys2Proof.Machine.execAonReset s
  | .aonResetRelease trayEn slot auto => Sys2Proof.Machine.execAonResetRelease trayEn slot auto s
  | .sysResetAssert => Sys2Proof.Machine.execSysResetAssert s
  | .sysResetRelease => Sys2Proof.Machine.execSysResetRelease s
  | .estimateWindow => Sys2Proof.Machine.execEstimateWindow s
  | .throttleEnd reason => Sys2Proof.Machine.execThrottleEnd reason s
  | .throttleEventIntervalClose => Sys2Proof.Machine.execThrottleEventIntervalClose s
  | .calibrationUpdate => Sys2Proof.Machine.execCalibrationUpdate s
  | .calibrationFreezeGuard => Sys2Proof.Machine.execCalibrationFreezeGuard s
  | .opReturnHoldExpiry => Sys2Proof.Machine.execOpReturnHoldExpiry s
  | .droopTrip e quadrant sagMv => Sys2Proof.Machine.execDroopTrip e quadrant sagMv s
  | .droopRelease e sags => Sys2Proof.Machine.execDroopRelease e sags s
  | .droopHoldTimeout e quadrant senseSagMv => Sys2Proof.Machine.execDroopHoldTimeout e quadrant senseSagMv s
  | .thermalSensorRead n reading => Sys2Proof.Machine.execThermalSensorRead n reading s
  | .thermalPointDrop => Sys2Proof.Machine.execThermalPointDrop s
  | .thermalPointReturn => Sys2Proof.Machine.execThermalPointReturn s
  | .thermalTrip n reading => Sys2Proof.Machine.execThermalTrip n reading s
  | .ageingTrimRun cause counts => Sys2Proof.Machine.execAgeingTrimRun cause counts s
  | .energyChargeSend => Sys2Proof.Machine.execEnergyChargeSend s
  | .energyChargeReceive p h uj => Sys2Proof.Machine.execEnergyChargeReceive p h uj s
  | .statToggle => Sys2Proof.Machine.execStatToggle s
  | .statWatchdogExpiry => Sys2Proof.Machine.execStatWatchdogExpiry s
  | .statInSample levels => Sys2Proof.Machine.execStatInSample levels s
  | .election => Sys2Proof.Machine.execElection s
  | .heartbeatSend => Sys2Proof.Machine.execHeartbeatSend s
  | .trayHeartbeat t b => Sys2Proof.Machine.execTrayHeartbeat t b s
  | .stateSend => Sys2Proof.Machine.execStateSend s
  | .trayState t b => Sys2Proof.Machine.execTrayState t b s
  | .trayCap t capMw gen => Sys2Proof.Machine.execTrayCap t capMw gen s
  | .capAck t gen => Sys2Proof.Machine.execCapAck t gen s
  | .capResend n => Sys2Proof.Machine.execCapResend n s
  | .capRecompute => Sys2Proof.Machine.execCapRecompute s
  | .trayRoleRequest t => Sys2Proof.Machine.execTrayRoleRequest t s
  | .trayRoleAccept t swap => Sys2Proof.Machine.execTrayRoleAccept t swap s
  | .trayRoleSwap => Sys2Proof.Machine.execTrayRoleSwap s
  | .trayRoleRequestTimeout => Sys2Proof.Machine.execTrayRoleRequestTimeout s
  | .trayRoleHoldoffExpiry => Sys2Proof.Machine.execTrayRoleHoldoffExpiry s
  | .standbyNamed t n => Sys2Proof.Machine.execStandbyNamed t n s
  | .primaryRerank => Sys2Proof.Machine.execPrimaryRerank s
  | .trayPower t on => Sys2Proof.Machine.execTrayPower t on s
  | .trayRelay t payload => Sys2Proof.Machine.execTrayRelay t payload s
  | .trayPowerOnSequence => Sys2Proof.Machine.execTrayPowerOnSequence s
  | .primaryVacant => Sys2Proof.Machine.execPrimaryVacant s
  | .coolingWatchdogStage1 => Sys2Proof.Machine.execCoolingWatchdogStage1 s
  | .coolingWatchdogStage2 => Sys2Proof.Machine.execCoolingWatchdogStage2 s
  | .heartbeatLossShutdown => Sys2Proof.Machine.execHeartbeatLossShutdown s
  | .orderedPowerdownStart => Sys2Proof.Machine.execOrderedPowerdownStart s
  | .ainSample n raw => Sys2Proof.Machine.execAinSample n raw s
  | .coolantWarn n => Sys2Proof.Machine.execCoolantWarn n s
  | .coolantCritical n => Sys2Proof.Machine.execCoolantCritical n s
  | .coolantCriticalShutdown => Sys2Proof.Machine.execCoolantCriticalShutdown s
  | .coolantRestored n => Sys2Proof.Machine.execCoolantRestored n s
  | .leakTrip b => Sys2Proof.Machine.execLeakTrip b s
  | .leakSensorOpen b => Sys2Proof.Machine.execLeakSensorOpen b s
  | .cablePresenceAssert p record => Sys2Proof.Machine.execCablePresenceAssert p record s
  | .cablePresenceDeassert p => Sys2Proof.Machine.execCablePresenceDeassert p s
  | .lampPwmPeriod n => Sys2Proof.Machine.execLampPwmPeriod n s
  | .lampOpenCheck n currentUa => Sys2Proof.Machine.execLampOpenCheck n currentUa s
  | .smbusStatus b => Sys2Proof.Machine.execSmbusStatus b s
  | .smbusPower b => Sys2Proof.Machine.execSmbusPower b s
  | .smbusThermal b => Sys2Proof.Machine.execSmbusThermal b s
  | .smbusPowerReading b => Sys2Proof.Machine.execSmbusPowerReading b s
  | .smbusNotice b => Sys2Proof.Machine.execSmbusNotice b s
  | .smbusLog b => Sys2Proof.Machine.execSmbusLog b s
  | .smbusCap b => Sys2Proof.Machine.execSmbusCap b s
  | .smbusServiceArm b => Sys2Proof.Machine.execSmbusServiceArm b s
  | .smbusServiceGo b => Sys2Proof.Machine.execSmbusServiceGo b s
  | .smbusLamp b => Sys2Proof.Machine.execSmbusLamp b s
  | .wairiqIdent w => Sys2Proof.Machine.execWairiqIdent w s
  | .wairiqStatus w => Sys2Proof.Machine.execWairiqStatus w s
  | .trayCapSet w => Sys2Proof.Machine.execTrayCapSet w s
  | .slopeSet w => Sys2Proof.Machine.execSlopeSet w s
  | .thermalSet w => Sys2Proof.Machine.execThermalSet w s
  | .wairiqPower w => Sys2Proof.Machine.execWairiqPower w s
  | .wairiqLamp w => Sys2Proof.Machine.execWairiqLamp w s
  | .yieldRole w => Sys2Proof.Machine.execYieldRole w s
  | .clearLeak w => Sys2Proof.Machine.execClearLeak w s
  | .clearShut w => Sys2Proof.Machine.execClearShut w s
  | .clearBaseline w => Sys2Proof.Machine.execClearBaseline w s
  | .goldenReflash w => Sys2Proof.Machine.execGoldenReflash w s
  | .wairiqLogRead w => Sys2Proof.Machine.execWairiqLogRead w s
  | .config w => Sys2Proof.Machine.execConfig w s
  | .key w => Sys2Proof.Machine.execKey w s
  | .patrolRead hit kind => Sys2Proof.Machine.execPatrolRead hit kind s
  | .channelFailure n reason => Sys2Proof.Machine.execChannelFailure n reason s
  | .trialConfirm target => Sys2Proof.Machine.execTrialConfirm target s
  | .trialRollback target cause => Sys2Proof.Machine.execTrialRollback target cause s
  | .slotReflash target slot => Sys2Proof.Machine.execSlotReflash target slot s
  | .goldenVerify target => Sys2Proof.Machine.execGoldenVerify target s
  | .islandReady => Sys2Proof.Machine.execIslandReady s
  | .firmwareLoaded readOk => Sys2Proof.Machine.execFirmwareLoaded readOk s
  | .firmwareReady => Sys2Proof.Machine.execFirmwareReady s
  | .channelTrainingDone n matches_ pass replaced hardFailed => Sys2Proof.Machine.execChannelTrainingDone n matches_ pass replaced hardFailed s
  | .discoveryComplete => Sys2Proof.Machine.execDiscoveryComplete s
  | .portSettleTimeout p => Sys2Proof.Machine.execPortSettleTimeout p s
  | .presentNotice p d => Sys2Proof.Machine.execPresentNotice p d s
  | .censusClose => Sys2Proof.Machine.execCensusClose s
  | .rejoinState p sizes wraps gen lost down => Sys2Proof.Machine.execRejoinState p sizes wraps gen lost down s
  | .peerFckSeen p => Sys2Proof.Machine.execPeerFckSeen p s
  | .phaseWanderRetrain p => Sys2Proof.Machine.execPhaseWanderRetrain p s
  | .mgmt p src k => Sys2Proof.Machine.execMgmt p src k s
  | .diagRunComplete pass detail corrected duration => Sys2Proof.Machine.execDiagRunComplete pass detail corrected duration s
  | .slotWriteComplete verified => Sys2Proof.Machine.execSlotWriteComplete verified s
  | .islandFirmwareRunning recordOk x y z sizes wraps limits => Sys2Proof.Machine.execIslandFirmwareRunning recordOk x y z sizes wraps limits s
  | .depotSelfTestDone pass => Sys2Proof.Machine.execDepotSelfTestDone pass s
  | .ecsCountRead n counts => Sys2Proof.Machine.execEcsCountRead n counts s

end Sys2Proof.Machine
end

