-- ==== Sys2Proof/Machine/Pins.lean ====
section
/-! DEFINITION. What the outside reads of the state without changing it: the registers of BAR0 (09), and the pins and the test port
(16). The one read that changes the state, a 32-bit read of MSC_LO, is the command MSC_LO_READ. -/

namespace Sys2Proof.Machine

/-! ## Register reads (R19, R58 to R63, R520, R521, Tables 9-2 to 9-8, 9-12) -/

/-- BOOT_STATUS (Table 9-6). -/
def bootStatusReg (h : HostIf) : Nat := h.bootStatus.toNat + h.bootSeq.toNat * 256 + b2n h.bootBusy <<< 16 + b2n h.bootDone <<< 17

/-- CFG and STATE of a channel (Table 9-8). -/
def cfgReg (c : Chan) : Nat :=
  c.cmdLog2 % 16 + c.cmpLog2 % 16 * 16 + (c.vector % 32) <<< 8 + (c.tenant % 16) <<< 16 + b2n (c.st != .disabled) <<< 31

def chStateCode : ChState → Nat
  | .disabled => 0 | .enabled => 1 | .error => 2

def chErrCode : ChErr → Nat
  | .none => 0 | .badConfig => 1 | .badTail => 2 | .fetchFault => 3

/-- LOG_PENDING: the overflow log holds an entry of a ring of the channel. -/
def logPending (s : State) (ch : ChanId) : Bool := s.host.log.any fun p => ringChan p.ring == ch

def stateReg (s : State) (ch : ChanId) : Nat :=
  let c := s.host.channels.get ch
  chStateCode c.st + chErrCode c.err * 16 + b2n (logPending s ch) <<< 8

/-- A register of a channel block, as the aligned 64 bits at `r`. -/
def chanReg (s : State) (ch : ChanId) (r : Nat) : Nat :=
  let c := s.host.channels.get ch
  if r == 0x00 then c.cmdBase.toNat
  else if r == 0x08 then c.cmpBase.toNat
  else if r == 0x10 then cfgReg c + (c.count % 256 + c.delay % 65536 * 256) <<< 32
  else if r == 0x18 then c.cmdTail.toNat + c.cmdHead.toNat <<< 32
  else if r == 0x20 then c.cmpTail.toNat + c.cmpHead.toNat <<< 32
  else if r == 0x38 then (if ch == 0 then s.host.evtTail.toNat else 0) + stateReg s ch <<< 32
  else if ch != 0 then 0
  else if r == 0x28 then s.host.evtBase.toNat
  else if r == 0x30 then s.host.evtLog2 % 16 + s.host.evtHead.toNat <<< 32
  else 0

/-- The 8 bytes of an MSI-X table entry at `r` of the table. -/
def msixReg (s : State) (r : Nat) : Nat :=
  let e := s.host.msix.get ⟨r / 16 % 32, Nat.mod_lt _ (by decide)⟩
  if r % 16 == 0 then e.addr.toNat else e.data.toNat + b2n e.mask <<< 32

/-- The aligned 64 bits of BAR0 at offset `r`; offsets not in Table 9-2 read 0. -/
def barQword (s : State) (r : Nat) : Nat :=
  let h := s.host
  if r == 0x0000 then devId s.fuses + devRev s <<< 32
  else if r == 0x0008 then capSummary s.fuses
  else if r == 0x0010 then fwStateReg s
  else if r == 0x0020 then s.fw.heartbeat.toNat
  else if r == 0x0100 then h.bootCmd.toNat
  else if 0x0108 ≤ r ∧ r < 0x0138 then (h.bootArg.get ⟨(r - 0x0108) / 8 % 6, Nat.mod_lt _ (by decide)⟩).toNat
  else if r == 0x0138 then bootStatusReg h
  else if 0x1000 ≤ r ∧ r < 0x1400 then chanReg s ⟨(r - 0x1000) / 64 % 16, Nat.mod_lt _ (by decide)⟩ ((r - 0x1000) % 64)
  else if r == 0x2000 then h.irqCause.toNat + h.irqMask.toNat <<< 32
  else if r == 0x3000 then s.time.msc % 2 ^ 64
  else if 0x4000 ≤ r ∧ r < 0x4200 then msixReg s (r - 0x4000)
  else if r == 0x4800 then h.pba.toNat
  else 0

/-- What a read of BAR0 returns (R520, R59 to R61): an access of another size or alignment returns 0xFFFF_FFFF, and MSC_HI read as 32
bits returns the capture. -/
def barRead (s : State) (off size : Nat) : Nat :=
  if !((size == 4 || size == 8) && off % size == 0) then 0xFFFFFFFF
  else if size == 8 then barQword s off % 2 ^ 64
  else if off == 0x3004 then s.time.hiSnap.toNat
  else (barQword s (off / 8 * 8) >>> (8 * (off % 8))) % 2 ^ 32

/-! ## Pin states (R480, R516, R691, R943, R949, Table 16-14) -/

/-- The pin groups of Table 16-14. -/
inductive PinGroup where
  | islandOut | audio | tdo | pcie | causeway | lpddr
  deriving DecidableEq, Repr

/-- How a group is held. -/
inductive PinHold where
  | unpowered | driven | highZ | shiftOnly | elecIdle | off | training | perUnit | resetLow
  deriving DecidableEq, Repr

/-- Table 16-14. The table gives S4 alone for LPDDR5X between S1 and S4: its supplies are off before (Table 11-7). -/
def pinHold (g : PinGroup) (q : SeqState) (configured : Bool) : PinHold :=
  match g, q with
  | _, .s0 => .unpowered
  | .islandOut, _ => .driven
  | .audio, .s6 => if configured then .driven else .highZ
  | .audio, _ => .highZ
  | .tdo, _ => .shiftOnly
  | .pcie, .s5 => .training
  | .pcie, .s6 => .perUnit
  | .pcie, _ => .elecIdle
  | .causeway, .s5 => .training
  | .causeway, .s6 => .perUnit
  | .causeway, _ => .off
  | .lpddr, .s5 => .training
  | .lpddr, .s6 => .perUnit
  | .lpddr, .s4 => .resetLow
  | .lpddr, _ => .unpowered

/-- Slew setting of an audio port's outputs (R480, R516). -/
def audioSlew (a : AudioPort) : Nat := match a.cfg with | some c => c.slew | none => 0

/-- Slew setting of the QSPI pins (R943, Table 15-2). -/
def qspiSlew (s : State) : Nat := if s.flash.clkMhz ≤ 25 then 1 else if s.flash.clkMhz ≤ 52 then 2 else 3

/-- Slew setting of every other output, by control-field position (Table 16-7): the setting in the island store (R943). -/
def otherSlew (s : State) (n : Fin 134) : Nat := s.island.slew[n.1]

/-! ## The test port (R962 to R964) -/

/-- The instructions of the test port. -/
inductive TapInstr where
  | extest | sample | clamp | highz | bypass
  deriving DecidableEq, Repr

/-- R962: every other code acts as BYPASS. -/
def tapDecode (ir : BitVec 6) : TapInstr :=
  if ir == 0x00 then .extest else if ir == 0x01 then .sample else if ir == 0x02 then .clamp else if ir == 0x03 then .highz else .bypass

/-- R964: EXTEST, CLAMP and HIGHZ act only in S1 to S4 or with SYS_RST_N low. -/
def tapEffect (s : State) : TapInstr :=
  let i := tapDecode s.tap.ir
  let open_ := s.seq.sysRst || s.seq.state == .s1 || s.seq.state == .s2 || s.seq.state == .s3 || s.seq.state == .s4
  match i with
  | .sample => .sample
  | .bypass => .bypass
  | x => if open_ then x else .bypass

/-- Cells of the boundary-scan register (R963): 128 on the small package, 150 on the large one. -/
def boundaryCells (v : Variant) : Nat := match v with | .sv6118 => 150 | .sv6116 => 150 | _ => 128

end Sys2Proof.Machine
end

