-- ==== Sys2Proof/WellFormed.lean ====
section
/-! DEFINITION. When a command is one the spec can spell: a mailbox command carries the opcode of its row (Table 10-2), a packet the
operation and the body of its row (Tables 6-6, 6-7), a Wairiq message the type of its row (Table 13-11), and a declared value lies in
its field's range. Meanings do not rest on it: an ill-formed command has no effect where its row's own checks refuse it. -/

namespace Sys2Proof

open Sys2Proof.Machine

/-- The mailbox command of a row, with the opcode Table 10-2 gives the row. -/
def mailboxRow : Instr → Option (MailCmd × Nat)
  | .devQuery m => some (m, 0x01) | .devCaps m => some (m, 0x02) | .devReset m => some (m, 0x03) | .timeQuery m => some (m, 0x04)
  | .memReserve m => some (m, 0x10) | .memRelease m => some (m, 0x11) | .memQuotaSet m => some (m, 0x12) | .regionMap m => some (m, 0x13)
  | .regionMove m => some (m, 0x14) | .itinLoad m _ _ => some (m, 0x20) | .itinUnload m => some (m, 0x21) | .streamOpen m => some (m, 0x22)
  | .streamStart m => some (m, 0x23) | .streamFeed m _ _ _ => some (m, 0x24) | .streamDrain m => some (m, 0x25)
  | .streamClose m => some (m, 0x26) | .streamSnapshot m => some (m, 0x27) | .streamResume m _ => some (m, 0x28)
  | .streamPolicy m => some (m, 0x29) | .pwrCapSet m => some (m, 0x30) | .pwrReport m => some (m, 0x31) | .opSet m => some (m, 0x32)
  | .energyRead m => some (m, 0x33) | .fabQuery m => some (m, 0x40) | .fabRouteSet m => some (m, 0x41) | .fabIsolate m => some (m, 0x42)
  | .fwStage m _ _ => some (m, 0x50) | .fwCommit m => some (m, 0x51) | .fwVerify m => some (m, 0x52) | .fwRollback m => some (m, 0x53)
  | .diagRun m => some (m, 0x60) | .logRead m => some (m, 0x61) | .statsRead m => some (m, 0x62) | .audioBind m => some (m, 0x70)
  | .audioConfig m => some (m, 0x71)
  | _ => none

/-- The packet of a row, with its operation and whether it carries body flits (Table 6-7). -/
def packetRow : Instr → Option (Packet × Nat × Bool)
  | .readPkt _ k => some (k, 1, false) | .readData _ k => some (k, 2, true) | .movePkt _ k => some (k, 3, true)
  | .moveAck _ k => some (k, 4, false)
  | _ => none

/-- The Wairiq message of a row, with its type (Table 13-11). -/
def wairiqRow : Instr → Option (Wairiq × Nat)
  | .wairiqIdent w => some (w, 1) | .wairiqStatus w => some (w, 2) | .trayCapSet w => some (w, 3) | .slopeSet w => some (w, 4)
  | .thermalSet w => some (w, 5) | .wairiqPower w => some (w, 6) | .wairiqLamp w => some (w, 7) | .yieldRole w => some (w, 8)
  | .clearLeak w => some (w, 8) | .clearShut w => some (w, 8) | .clearBaseline w => some (w, 8) | .goldenReflash w => some (w, 8)
  | .wairiqLogRead w => some (w, 10) | .config w => some (w, 11) | .key w => some (w, 12)
  | _ => none

/-- A mailbox command has its row's opcode. -/
def mailOk (x : MailCmd × Nat) : Bool := fld x.1.entry 0 1 == x.2

/-- A packet has its row's operation, one to sixteen body flits or none, and a direction other than the reserved one. -/
def packetOk (x : Packet × Nat × Bool) : Bool :=
  x.1.op.toNat == x.2.1 && x.1.len == (if x.2.2 then x.1.body.length else x.1.len) && decide (x.1.len ≤ 16)
  && (if x.2.2 then decide (1 ≤ x.1.len) else x.1.body.isEmpty) && decide (x.1.rdir < 3)

/-- Ring sizes are 1 to 16 (R3, R362). -/
def sizesOk (v : Vector Nat 4) : Bool := v.toList.all fun n => decide (1 ≤ n ∧ n ≤ 16)

/-- The declared values of the other rows lie in their fields. -/
def valuesOk : Instr → Bool
  | .registerWrite off size _ => decide (off + size ≤ 0x10000) && [1, 2, 4, 8].contains size
  | .bootHostImage data _ => decide (data.length ≤ 16 * 2 ^ 20)
  | .fwStage _ data _ => decide (data.length ≤ 16 * 2 ^ 20)
  | .trainingSet _ t => sizesOk t.sizes
  | .rejoinState _ sizes _ _ _ _ => sizesOk sizes
  | .ainSample _ raw => decide (raw < 4096)
  | .loanRequest _ _ _ tier granules => decide (tier = 1 ∨ tier = 2) && decide (1 ≤ granules ∧ granules ≤ 128)
  | .trayCap _ capMw gen => decide (capMw < 2 ^ 32) && decide (gen < 2 ^ 32)
  | .ageingTrimRun _ counts => !counts.isEmpty
  | .patrolRead x _ => x.hit.toList.all fun x => decide (x.tier ≤ 2)
  | _ => true

/-- A well-formed command. -/
def WellFormed (i : Instr) : Bool :=
  (match mailboxRow i with | some x => mailOk x | none => true)
  && (match packetRow i with | some x => packetOk x | none => true)
  && (match wairiqRow i with | some x => fld x.1.header 3 1 == x.2 | none => true)
  && valuesOk i

end Sys2Proof
end

