-- ==== Sys2Proof/Safety.lean ====
section
/-! DEFINITION. The terms the statements use: when a command is in the state to be carried out, what it leaves unchanged, and the
invariants of the block. -/

namespace Sys2Proof.Safety

open Sys2Proof Sys2Proof.Machine

/-! ## When a command is carried out -/

/-- The firmware is READY and has accepted the command, its entry has the opcode and no reserved bit, and no internal fault is met
(R577, R582). -/
abbrev Accepted (s : State) (m : MailCmd) (op : Nat) : Prop :=
  ready s = true ∧ s.host.accepted.any (sameCmd m) = true ∧ mailOpcode m = op ∧ m.fwFault = false ∧ reserved m = false

/-- The bootstrap command of an opcode is under way (R524). -/
abbrev BootBusy (s : State) (op : Nat) : Prop := s.host.bootBusy = true ∧ s.host.bootCmd.toNat % 256 = op

/-- A stream the command may name, neither lost nor resuming (R542, R586). -/
abbrev Names (s : State) (m : MailCmd) (h : Nat) (st : Stream) : Prop :=
  namedStream s m h = some st ∧ st.st ≠ .lost ∧ st.st ≠ .resuming

/-- An SMBus transaction with a good PEC reaches the island's own firmware (R809, R886). -/
abbrev SmbTaken (s : State) (b : Smb) : Prop :=
  s.seq.aonRst = false ∧ s.island.up = true ∧ s.island.romMode = false ∧ b.pecOk = true

/-- A Wairiq message of a type passes the frame, tag and SEQ checks on an island with Ethernet (R812, R813). -/
abbrev WairiqTaken (s : State) (w : Wairiq) (type : Nat) : Prop :=
  islandRuns s = true ∧ hasEth s.fuses.variant = true ∧ wqType w = type ∧ wqFrameOk w = true ∧ wqTagOk s w = true ∧ s.island.seqMark < wqSeqOf w

/-- This island carries a Wairiq request out: it stands alone, or it is the primary and the request is for its slot or every slot. -/
abbrev CarriesOut (s : State) (w : Wairiq) : Prop :=
  s.island.trayEn = false ∨ (s.island.role = .primary ∧ (wqTarget w = 0xFF ∨ wqTarget w = s.island.slot.1))

/-- The island sends one Wairiq reply with a RESULT after what the die sent before. -/
abbrev Replied (s t : State) (result : Nat) : Prop := ∃ h body tag, t.out = s.out ++ [.wairiq h body tag] ∧ fld h 11 1 = result

/-! ## Frames -/

/-- Only the host interface and what leaves the die may differ. -/
abbrev OnlyHost (s t : State) : Prop := t = { s with host := t.host, out := t.out }

/-- Only the island, the die's notices and what leaves it may differ: the island, the host interface's outbox and the output. -/
abbrev OnlyIsland (s t : State) : Prop := t = { s with island := t.island, host := t.host, out := t.out }

/-- Only the host interface and the streams may differ. -/
abbrev OnlyStreams (s t : State) : Prop := t = { s with host := t.host, streams := t.streams }

/-- Every stream but the one of handle `h` is as before. -/
abbrev OtherStreams (s t : State) (h : Nat) : Prop := ∀ k, k ≠ h → streamOf t k = streamOf s k

/-- Only the fabric view, the host interface and what leaves the die may differ. -/
abbrev OnlyFabric (s t : State) : Prop := t = { s with fabric := t.fabric, host := t.host, out := t.out }

/-- Every Causeway port but `p` is as before. -/
abbrev OtherPorts (s t : State) (p : PortId) : Prop := ∀ q, q ≠ p → t.fabric.ports.get q = s.fabric.ports.get q

/-- Only the engines may differ, and of them only `e`. -/
abbrev OnlyEngine (s t : State) (e : EngineId) : Prop := t = { s with engines := t.engines } ∧ ∀ d, d ≠ e → t.engines.get d = s.engines.get d

/-- Only the time state may differ. -/
abbrev OnlyTime (s t : State) : Prop := t = { s with time := t.time }

/-- One management message to `d` follows what the die sent before; besides, only its packet in an output queue, or where it waits for a relay
credit, and the count of free values taken may differ. -/
abbrev Sends (s t : State) (d : FabId) (k : Mgmt) : Prop := t = { s with
  fabric := { s.fabric with ports := t.fabric.ports, relayHeld := t.fabric.relayHeld, relayWait := t.fabric.relayWait }
  free := t.free, out := s.out ++ [.mgmt d k] }

/-- Every byte of memory reads as before. -/
abbrev SameBytes (s t : State) : Prop := ∀ a, readByte t.mem.cells a = readByte s.mem.cells a

/-! ## Invariants -/

/-- The overflow log holds at most 4,096 entries, and the tenant of channel 0 is 0 (09). -/
abbrev HostOk (s : State) : Prop := s.host.log.length ≤ 4096 ∧ (s.host.channels.get 0).tenant = 0

/-- The fault record holds at most 256 standing entries and 1,024 records in all (14). -/
abbrev RecordOk (s : State) : Prop :=
  s.island.standing.length ≤ 256 ∧ s.island.standing.length + s.island.history.length ≤ 1024

end Sys2Proof.Safety
end

