-- ==== Sys2Proof/Certificates/Slice0/Obligations.lean ====
section
/-! DEFINITION. The statements about the block, for the provers. Each is a conjunction of clauses, one for each command or case it
names; OBLIGATIONS.json says which rule a statement quotes. -/

open Sys2Proof Sys2Proof.Machine Sys2Proof.Safety

/-- A step takes the command at the front of the queue and runs it with the queue's rest. -/
def Obligations.StepRunsFrontCommand : Prop :=
  ∀ (c : Instr) (rest : List Instr) (s : State), step { s with pending := c :: rest } = exec c { s with pending := rest }

/-- On an empty queue the block idles: the model's choice (log entry 10). No command stops the machine: each one answers a next state in
every state. -/
def Obligations.EveryStepAnswersNext : Prop :=
  (∀ s : State, s.pending = [] → step s = .next s)
  ∧ (∀ (c : Instr) (s : State), ∃ t, exec c s = .next t)

/-- What reset leaves, of the values the spec gives: the sequencer in S0 with AON_RST_N low, the MSC at 0 and the time state UNALIGNED,
FW_STATE BOOTSTRAP, every channel DISABLED, every port IDLE, no stream, no itinerary and nothing reserved, the test port's instruction
BYPASS, and the audio ports' outputs at slew setting 0. -/
def Obligations.ResetValues : Prop :=
  State.reset.seq.state = .s0 ∧ State.reset.seq.aonRst = true ∧ State.reset.time.msc = 0 ∧ State.reset.fw.state = .bootstrap
  ∧ (∀ ch, (State.reset.host.channels.get ch).st = .disabled) ∧ (∀ p, (State.reset.fabric.ports.get p).st = .idle)
  ∧ State.reset.streams = [] ∧ State.reset.itins = [] ∧ State.reset.mem.reserved = [] ∧ State.reset.time.state = .unaligned
  ∧ tapDecode State.reset.tap.ir = .bypass ∧ (∀ p, audioSlew (State.reset.audio.get p) = 0)

/-- Doorbell, head and enable writes while the link is up. CMD_TAIL_WRITE of a new index on an ENABLED channel moves CMD_TAIL where the
entries in use fit the ring, and where they do not puts the channel in ERROR with BAD_TAIL and raises CH_ERROR. CMP_HEAD_WRITE and
EVT_HEAD_WRITE take a head that leaves no more in use than the ring holds, and change nothing for any other. CHANNEL_ENABLE of a DISABLED
channel other than 0 touches the host interface alone, zeroes the four indices and takes the ring sizes; with both sizes in 4 to 12 and
both bases aligned to 4 KiB it leaves the channel ENABLED with no error code, else in ERROR with BAD_CONFIG. CHANNEL_DISABLE of a channel
that is not DISABLED returns it to DISABLED with no error code, drops the entry it held under FENCE, and leaves every other channel as it
was. -/
def Obligations.RingIndicesAndEnables : Prop :=
  (∀ (ch : ChanId) (v : W32) (s : State), s.host.linkUp = true → (s.host.channels.get ch).st = .enabled →
    v.setWidth 16 ≠ (s.host.channels.get ch).cmdTail →
    ((inUse (v.setWidth 16) (s.host.channels.get ch).cmdHead ≤ 2 ^ (s.host.channels.get ch).cmdLog2 →
        exec (.cmdTailWrite ch v) s = .next (modChan s ch fun c => { c with cmdTail := v.setWidth 16 }))
      ∧ (2 ^ (s.host.channels.get ch).cmdLog2 < inUse (v.setWidth 16) (s.host.channels.get ch).cmdHead →
        exec (.cmdTailWrite ch v) s = .next (raiseIrq (modChan s ch fun c => { c with st := .error, err := .badTail }) 5))))
  ∧ (∀ (ch : ChanId) (v : W32) (s : State), s.host.linkUp = true →
    inUse (s.host.channels.get ch).cmpTail (v.setWidth 16) ≤ 2 ^ (s.host.channels.get ch).cmpLog2 →
    exec (.cmpHeadWrite ch v) s = .next (modChan s ch fun c => { c with cmpHead := v.setWidth 16 }))
  ∧ (∀ (ch : ChanId) (v : W32) (s : State), s.host.linkUp = true →
    2 ^ (s.host.channels.get ch).cmpLog2 < inUse (s.host.channels.get ch).cmpTail (v.setWidth 16) → exec (.cmpHeadWrite ch v) s = .next s)
  ∧ (∀ (v : W32) (s : State), s.host.linkUp = true → inUse s.host.evtTail (v.setWidth 16) ≤ 2 ^ s.host.evtLog2 →
    exec (.evtHeadWrite v) s = .next { s with host := { s.host with evtHead := v.setWidth 16 } })
  ∧ (∀ (v : W32) (s : State), s.host.linkUp = true → 2 ^ s.host.evtLog2 < inUse s.host.evtTail (v.setWidth 16) → exec (.evtHeadWrite v) s = .next s)
  ∧ (∀ (ch : ChanId) (v : W32) (s : State), s.host.linkUp = true → ch ≠ 0 → (s.host.channels.get ch).st = .disabled →
    ∃ t, exec (.channelEnable ch v) s = .next t ∧ OnlyHost s t
      ∧ (t.host.channels.get ch).cmdHead = 0 ∧ (t.host.channels.get ch).cmdTail = 0 ∧ (t.host.channels.get ch).cmpHead = 0
      ∧ (t.host.channels.get ch).cmpTail = 0
      ∧ (t.host.channels.get ch).cmdLog2 = v.toNat % 16 ∧ (t.host.channels.get ch).cmpLog2 = v.toNat / 16 % 16
      ∧ ((4 ≤ v.toNat % 16 ∧ v.toNat % 16 ≤ 12 ∧ 4 ≤ v.toNat / 16 % 16 ∧ v.toNat / 16 % 16 ≤ 12
          ∧ (s.host.channels.get ch).cmdBase.toNat % 4096 = 0 ∧ (s.host.channels.get ch).cmpBase.toNat % 4096 = 0) →
        (t.host.channels.get ch).st = .enabled ∧ (t.host.channels.get ch).err = .none)
      ∧ ((12 < v.toNat % 16 ∨ v.toNat % 16 < 4 ∨ 12 < v.toNat / 16 % 16 ∨ v.toNat / 16 % 16 < 4
          ∨ (s.host.channels.get ch).cmdBase.toNat % 4096 ≠ 0 ∨ (s.host.channels.get ch).cmpBase.toNat % 4096 ≠ 0) →
        (t.host.channels.get ch).st = .error ∧ (t.host.channels.get ch).err = .badConfig))
  ∧ (∀ (ch : ChanId) (v : W32) (s : State), s.host.linkUp = true → (s.host.channels.get ch).st ≠ .disabled →
    ∃ t, exec (.channelDisable ch v) s = .next t ∧ OnlyHost s t ∧ (t.host.channels.get ch).st = .disabled
      ∧ (t.host.channels.get ch).err = .none ∧ canServe t ch = false ∧ (∀ e, (ch, e) ∉ t.host.fenced)
      ∧ (∀ c, c ≠ ch → t.host.channels.get c = s.host.channels.get c))

/-- Interrupts and registers while the link is up. A 1 written to IRQ_CAUSE clears its bit and changes nothing else. With cause 2 set and
alone masked, its vector and the function unmasked, an IRQ_MASK_WRITE of 0 sends its message and stores the mask. MSIX_VECTOR_UNMASK of
vector 3, the one vector with a pending message, sends that message and clears its pending bit. IRQ_DELAY_EXPIRY, DELAY ticks after the
first completion not signalled, sets the channel's cause and starts its count again. MSC_LO_READ answers the low half of the MSC and
captures the high half, which a 32-bit read of MSC_HI then returns; a 64-bit read gives the whole MSC. A REGISTER_WRITE of a wrong size or
alignment is ignored, and such a read returns 0xFFFF_FFFF; one of CMD_BASE of a DISABLED channel stores it; one of MSC_LO or MSC_HI is
ignored. -/
def Obligations.InterruptRegistersAct : Prop :=
  (∀ (v : W32) (s : State), s.host.linkUp = true →
    exec (.irqCauseWrite v) s = .next { s with host := { s.host with irqCause := s.host.irqCause &&& ~~~v } })
  ∧ (∀ s : State, s.host.linkUp = true → s.host.irqMask = 4 → s.host.irqCause = 4 → s.host.fnMask = false → (s.host.msix.get 0).mask = false →
    exec (.irqMaskWrite 0) s = .next { s with host := { s.host with irqMask := 0 }, out := s.out ++ [.msix 0] })
  ∧ (∀ s : State, s.host.linkUp = true → s.host.fnMask = false → (s.host.msix.get 3).mask = true → s.host.pba = 8 →
    ∃ t, exec (.msixVectorUnmask (some 3)) s = .next t ∧ OnlyHost s t ∧ t.out = s.out ++ [.msix 3] ∧ t.host.pba = 0
      ∧ (t.host.msix.get 3).mask = false)
  ∧ (∀ (ch : ChanId) (s : State) (t0 : Tick), (s.host.channels.get ch).firstAt = some t0 → 0 < (s.host.channels.get ch).delay →
    passed s t0 ((s.host.channels.get ch).delay) = true →
    exec (.irqDelayExpiry ch) s = .next (raiseIrq (modChan s ch fun c => { c with counted := 0, firstAt := none }) (16 + ch.1)))
  ∧ (∀ s : State, s.host.linkUp = true →
    ∃ t, exec .mscLoRead s = .next t ∧ t = { s with time := { s.time with hiSnap := t.time.hiSnap }, out := t.out }
      ∧ t.out = s.out ++ [.regRead (BitVec.ofNat 64 (s.time.msc % 2 ^ 32))] ∧ barRead t 0x3004 4 = s.time.msc / 2 ^ 32 % 2 ^ 32)
  ∧ (∀ s : State, barRead s 0x3000 8 = s.time.msc % 2 ^ 64)
  ∧ (∀ (off size : Nat) (v : W64) (s : State), s.host.linkUp = true → ((size ≠ 4 ∧ size ≠ 8) ∨ off % size ≠ 0) →
    exec (.registerWrite off size v) s = .next s ∧ barRead s off size = 0xFFFFFFFF)
  ∧ (∀ (ch : ChanId) (v : W64) (s : State), s.host.linkUp = true → (s.host.channels.get ch).st = .disabled →
    exec (.registerWrite (0x1000 + 64 * ch.1) 8 v) s = .next (modChan s ch fun c => { c with cmdBase := v }))
  ∧ (∀ (v : W64) (s : State), s.host.linkUp = true →
    exec (.registerWrite 0x3000 8 v) s = .next s ∧ exec (.registerWrite 0x3000 4 v) s = .next s ∧ exec (.registerWrite 0x3004 4 v) s = .next s)

/-- The bootstrap mailbox. While the link is up, a write to BOOT_CMD with BUSY set is ignored; with BUSY clear, one of an opcode 1 to 4
sets BUSY, clears DONE and copies SEQ, and one of any opcode above 4 ends at once with STATUS 0x10, DONE set, BUSY clear and BOOT_DONE
raised. BOOT_QUERY under way answers OK with FW_STATE, the stage with the last fault, and the number of fault records, and touches the host
interface alone. BOOT_LOG with an address aligned to 64 bytes and a length of 64 to 65,536 that is a multiple of 64 writes the first bytes
of the die log, up to that length, to the host, and answers OK with the number written. BOOT_RETRY in BOOTSTRAP with good fuses answers OK
with FW_STATE at LOADING, no fault and no stream, the island as it was and every byte of memory as before. BOOT_HOST_IMAGE in BOOTSTRAP
with good fuses, an address aligned to 4 KiB and a length of 1 byte to 16 MiB that is read: an image that fails its check ends with
VERIFY_FAILED and changes the host interface alone; one that passes is loaded as image 3, FW_STATE at LOADING, answering OK with its
version; no byte of memory changes. -/
def Obligations.BootCommandsAnswer : Prop :=
  (∀ (v : W64) (s : State), s.host.linkUp = true → s.host.bootBusy = true → exec (.registerWrite 0x100 8 v) s = .next s)
  ∧ (∀ (v : W64) (s : State), s.host.linkUp = true → s.host.bootBusy = false → 1 ≤ v.toNat % 256 → v.toNat % 256 ≤ 4 →
    exec (.registerWrite 0x100 8 v) s = .next { s with host := { s.host with
      bootCmd := v &&& 0xFFFF, bootBusy := true, bootDone := false, bootSeq := BitVec.ofNat 8 (v.toNat >>> 8) } })
  ∧ (∀ (v : W64) (s : State), s.host.linkUp = true → s.host.bootBusy = false → 5 ≤ v.toNat % 256 →
    ∃ t, exec (.registerWrite 0x100 8 v) s = .next t ∧ OnlyHost s t ∧ t.host.bootStatus = 0x10 ∧ t.host.bootDone = true
      ∧ t.host.bootBusy = false ∧ t.host.irqCause = s.host.irqCause ||| 2)
  ∧ (∀ s : State, BootBusy s 1 →
    ∃ t, exec .bootQuery s = .next t ∧ OnlyHost s t ∧ t.host.bootStatus = 0 ∧ t.host.bootDone = true ∧ t.host.bootBusy = false
      ∧ t.host.bootArg.get 0 = BitVec.ofNat 64 (fwStateReg s)
      ∧ t.host.bootArg.get 1 = BitVec.ofNat 64 (s.fw.stage % 256 + s.fw.fault % 256 * 256) ∧ t.host.bootArg.get 2 = BitVec.ofNat 64 (faultEntries s))
  ∧ (∀ s : State, BootBusy s 2 → (s.host.bootArg.get 0).toNat % 64 = 0 → 64 ≤ (s.host.bootArg.get 1).toNat →
    (s.host.bootArg.get 1).toNat ≤ 65536 → (s.host.bootArg.get 1).toNat % 64 = 0 →
    ∃ t, exec .bootLog s = .next t ∧ OnlyHost s t ∧ t.host.bootStatus = 0 ∧ t.host.bootDone = true
      ∧ t.host.bootArg.get 0 = BitVec.ofNat 64 ((s.fw.dieLog.flatMap logBytes).take (s.host.bootArg.get 1).toNat).length
      ∧ Out.hostWrite (s.host.bootArg.get 0).toNat ((s.fw.dieLog.flatMap logBytes).take (s.host.bootArg.get 1).toNat) ∈ t.out)
  ∧ (∀ s : State, BootBusy s 3 → s.fw.state = .bootstrap → s.fuses.ok = true →
    ∃ t, exec .bootRetry s = .next t ∧ t.fw.state = .loading ∧ t.host.bootStatus = 0 ∧ t.host.bootDone = true ∧ t.fw.fault = 0
      ∧ t.streams = [] ∧ t.island = s.island ∧ SameBytes s t)
  ∧ (∀ (data : List Byte) (img : FwImage) (s : State), BootBusy s 4 → (s.host.bootArg.get 0).toNat % 4096 = 0 → 0 < (s.host.bootArg.get 1).toNat →
    (s.host.bootArg.get 1).toNat ≤ 2 ^ 24 → s.fw.state = .bootstrap → s.fuses.ok = true → (s.host.bootArg.get 1).toNat ≤ data.length →
    img = imageOf (data.take (s.host.bootArg.get 1).toNat) →
    ∃ t, exec (.bootHostImage data .ok) s = .next t ∧ t.host.bootDone = true ∧ t.host.bootBusy = false ∧ SameBytes s t
      ∧ ((imageCheck s 0 img).isSome = true → OnlyHost s t ∧ t.host.bootStatus = 0x40)
      ∧ (imageCheck s 0 img = none → t.fw.state = .loading ∧ t.fw.image = 3 ∧ t.host.bootStatus = 0
        ∧ t.host.bootArg.get 0 = BitVec.ofNat 64 (imgVersion img).toNat))

/-- The rings. COMMAND_FETCH, in READY with the link up and the host interface not quiescing, reads an entry of the channel that is next:
one of a listed opcode other than STREAM_FEED that the channel may send and that no FENCE holds back is accepted, and CMD_HEAD moves past
it; one under FENCE while a command of the channel is outstanding is held; one of an opcode not listed completes BAD_COMMAND.
COMPLETION_WRITE, with the ring of the oldest completion due open, nothing of it in the overflow log and none lost, writes the 32 bytes of
that entry with PHASE at the ring's tail in one write, and the tail moves on; where the ring of the oldest completion or event due is not
open, an overflow log of fewer than 4,096 entries takes it and OVERFLOW is set, and a full log does not take it: it is counted as lost and
LOSS is set. OVERFLOW_LOG_DRAIN of an open ring takes the oldest entry of that ring out of the log and the ring's tail moves on. Each
touches the host interface and what leaves the die alone. -/
def Obligations.RingsCarryEntries : Prop :=
  (∀ (ch : ChanId) (e : BitVec 512) (s : State), ready s = true → s.host.linkUp = true → quiescing s = false → nextChannel s = some ch →
    fencedOf s ch = none →
    ((fld e 0 1 ∈ opcodes → fld e 0 1 ≠ 0x24 → (ch = 0 ∨ fld e 0 1 ∉ chan0Only) → (bit (fld e 1 1) 0 && outstandingOn s ch) = false →
      ∃ t, exec (.commandFetch (some e)) s = .next t ∧ OnlyHost s t ∧ t.host.accepted = s.host.accepted ++ [⟨ch, e, false⟩]
        ∧ (t.host.channels.get ch).cmdHead = (s.host.channels.get ch).cmdHead + 1)
    ∧ (bit (fld e 1 1) 0 = true → outstandingOn s ch = true →
      exec (.commandFetch (some e)) s = .next { s with host := { s.host with fenced := s.host.fenced ++ [(ch, e)] } })
    ∧ (fld e 0 1 ∉ opcodes → (bit (fld e 1 1) 0 && outstandingOn s ch) = false →
      ∃ t x, exec (.commandFetch (some e)) s = .next t ∧ OnlyHost s t ∧ t.host.accepted = s.host.accepted ∧ t.host.outbox = s.host.outbox ++ [x]
        ∧ x.ring = ch.castSucc ∧ fld x.entry 2 1 = Status.badCommand.code)))
  ∧ (∀ (ch : ChanId) (s : State) (p : Post) (r : List Post), ready s = true → s.host.outbox = p :: r → p.ring = ch.castSucc → p.counts = false →
    ringOpen s p.ring = true → logHeld s p.ring = 0 → s.host.lost.get p.ring = 0 →
    ∃ t, exec .completionWrite s = .next t ∧ OnlyHost s t ∧ t.host.outbox = r
      ∧ t.out = s.out ++ [.hostWrite ((s.host.channels.get ch).cmpBase.toNat
          + (s.host.channels.get ch).cmpTail.toNat % 2 ^ (s.host.channels.get ch).cmpLog2 * 32)
          (leBytes 32 (withMsc s p.ring p.entry
            ||| BitVec.ofNat 512 (put 4 1 (phaseOf (s.host.channels.get ch).cmpTail (s.host.channels.get ch).cmpLog2))).toNat)]
      ∧ (t.host.channels.get ch).cmpTail = (s.host.channels.get ch).cmpTail + 1)
  ∧ (∀ (ch : ChanId) (s : State) (p : Post), ready s = true → ringOpen s ch.castSucc = true →
    s.host.log.find? (·.ring == ch.castSucc) = some p → p.counts = false →
    ∃ t, exec (.overflowLogDrain ch.castSucc) s = .next t ∧ OnlyHost s t ∧ t.host.log = dropFirst (·.ring == ch.castSucc) s.host.log
      ∧ (t.host.channels.get ch).cmpTail = (s.host.channels.get ch).cmpTail + 1)
  ∧ (∀ (s : State) (p : Post) (r : List Post), ready s = true → s.host.outbox = p :: r → ringOpen s p.ring = false →
    ∃ t, exec .completionWrite s = .next t ∧ OnlyHost s t
      ∧ (s.host.log.length < 4096 → t.host.log.length = s.host.log.length + 1 ∧ t.host.irqCause.getLsbD 3 = true)
      ∧ (4096 ≤ s.host.log.length → t.host.log = s.host.log ∧ t.host.lost.get p.ring = s.host.lost.get p.ring + 1
          ∧ t.host.irqCause.getLsbD 4 = true))

/-- HEARTBEAT counts up by one 245,760 ticks after it last did in READY, and not at all outside READY. FIRMWARE_HALT in READY leaves
FW_STATE HALTED at stage 7 with fault code 5 for the watchdog and 4 otherwise, raises FW_STATE, and no entry is fetched from then on.
FUNCTION_LEVEL_RESET with the link up puts the sixteen channel blocks with their ring indices, the event ring, IRQ_CAUSE, IRQ_MASK, the
MSI-X table with its pending bits, and the bootstrap mailbox at their reset values, and leaves everything else of the die, the overflow log
and EVT_SEQ among it, as it was. PERST_N low does the same and takes the link down; high, it ends that reset. PCIE_LINK_DOWN takes the link down alone, and
PCIE_LINK_UP in S5 or S6 with PERST_N high brings it up. -/
def Obligations.FirmwareHaltAndHostResets : Prop :=
  (∀ s : State, s.fw.state = .ready → passed s s.fw.beatAt 245760 = true →
    exec .heartbeatIncrement s = .next { s with fw := { s.fw with heartbeat := s.fw.heartbeat + 1, beatAt := now s } })
  ∧ (∀ s : State, s.fw.state ≠ .ready → exec .heartbeatIncrement s = .next s)
  ∧ (∀ (w : Bool) (s : State), s.fw.state = .ready →
    ∃ t, exec (.firmwareHalt w) s = .next t ∧ t = { s with fw := { s.fw with state := .halted, fault := if w then 5 else 4, stage := 7 }, host := t.host, out := t.out }
      ∧ t.host.irqCause.getLsbD 0 = true ∧ (∀ d, exec (.commandFetch d) t = .next t))
  ∧ (∀ s : State, s.host.linkUp = true →
    exec .functionLevelReset s = .next (resetHostIf s) ∧ OnlyHost s (resetHostIf s)
    ∧ (resetHostIf s).host.log = s.host.log ∧ (resetHostIf s).host.evtSeq = s.host.evtSeq ∧ (resetHostIf s).host.linkUp = true
    ∧ (∀ ch, (resetHostIf s).host.channels.get ch = {}) ∧ (resetHostIf s).host.irqMask = 0 ∧ (resetHostIf s).host.irqCause = 0
    ∧ (∀ v, (resetHostIf s).host.msix.get v = {}) ∧ (resetHostIf s).host.pba = 0 ∧ (resetHostIf s).host.evtHead = 0 ∧ (resetHostIf s).host.evtTail = 0
    ∧ (resetHostIf s).host.bootCmd = 0 ∧ (resetHostIf s).host.bootStatus = 0 ∧ (resetHostIf s).host.bootBusy = false ∧ (resetHostIf s).host.bootDone = false)
  ∧ (∀ s : State, exec (.perstReset true) s =
    .next { resetHostIf s with seq := { s.seq with perst := true }, host := { (resetHostIf s).host with linkUp := false } })
  ∧ (∀ s : State, exec (.perstReset false) s = .next { s with seq := { s.seq with perst := false } })
  ∧ (∀ s : State, exec .pcieLinkDown s = .next { s with host := { s.host with linkUp := false } })
  ∧ (∀ s : State, (s.seq.state = .s5 ∨ s.seq.state = .s6) → s.seq.perst = false →
    exec .pcieLinkUp s = .next { s with host := { s.host with linkUp := true } })

/-- A completion takes the command off the lists of accepted and of running commands and puts one entry, for the command's channel, behind
those due: TAG and OPCODE of the command, the status code, no flag, and bytes 8 to 31 of the result; nothing else of the die changes. -/
def Obligations.CompletionEntryFields : Prop :=
  ∀ (s : State) (m : MailCmd) (st : Status) (result : Nat), ∃ e : BitVec 512,
    complete s m st result = { s with host := { s.host with
      accepted := dropFirst (sameCmd m) s.host.accepted, running := dropFirst (sameCmd m) s.host.running
      outbox := s.host.outbox ++ [⟨m.ch.castSucc, e, !mailNoIrq m⟩] } }
    ∧ fld e 0 2 = mailTag m ∧ fld e 2 1 = st.code ∧ fld e 3 1 = mailOpcode m ∧ fld e 4 4 = 0
    ∧ (∀ i, i < 24 → fld e (8 + i) 1 = result / 2 ^ (8 * (8 + i)) % 256)

/-- Commands that read the die, accepted in READY without a reserved bit. DEV_QUERY completes OK with the die's ID, revision, fabric ID,
the discovery flag, the numbers of streams and of serving engines, and the lay-by state. TIME_QUERY completes OK with the time state, hops,
root, leader (0xFFFF for none), rate and offset. ENERGY_READ of the die, and of a stream the command may name, completes OK with the energy
in mJ or J, its start tick and the MSC. FAB_QUERY of the fabric and of a port the die has completes OK with the fields of Table 10-13. The
commands that return a record, DEV_CAPS after discovery, PWR_REPORT, STATS_READ of an audio port the die has and of a layer that keeps
statistics, with a BUF aligned to 64 bytes and LEN at most 16 MiB, end alike: the record is written in one piece and the command completes
OK with its length where LEN holds it and the link is up; TIER_FAULT with nothing written where the link is down; BAD_ARGUMENT with the
length needed where LEN is short. LOG_READ of the die log, with BUF aligned to 64 bytes and LEN a multiple of 32 up to 16 MiB and the link
up, writes the whole records from the later of FROM_SEQ and the first held that LEN holds, and completes OK with the bytes written, the
first held, the next number and how many FROM_SEQ has missed. None of them changes the state but for the completion and the record written.
-/
def Obligations.QueriesAnswer : Prop :=
  (∀ (m : MailCmd) (s : State), Accepted s m 0x01 →
    exec (.devQuery m) s = .next (complete s m .ok (put 8 4 (devId s.fuses) + put 12 4 (devRev s) + put 16 2 s.fabric.id.toNat
      + put 18 1 (b2n s.fw.discovered) + put 19 1 s.streams.length + put 20 1 (servingEngines s).length
      + put 21 1 (laybyCode (s.engines.get 6).life))))
  ∧ (∀ (m : MailCmd) (s : State) (leader : FabId), Accepted s m 0x04 →
    leader = (match s.time.leader with | some p => (s.fabric.ports.get p).peer | none => 0xFFFF) →
    exec (.timeQuery m) s = .next (complete s m .ok (put 16 1 (timeCode s.time.state) + put 17 1 s.time.hops + put 18 2 s.time.rootId.toNat
      + put 20 2 leader.toNat + put 22 2 (twos 16 (rateOf s s.time.corr)) + put 24 4 (twos 32 s.time.offset64))))
  ∧ (∀ (m : MailCmd) (s : State), Accepted s m 0x33 → arg m 8 1 = 0 →
    exec (.energyRead m) s = .next (complete s m .ok (put 8 8 (s.power.energyUj / 1000) + put 16 8 s.fw.startTick + put 24 8 (now s))))
  ∧ (∀ (m : MailCmd) (s : State) (st : Stream), Accepted s m 0x33 → arg m 8 1 = 1 → Names s m (arg m 10 2) st →
    exec (.energyRead m) s = .next (complete s m .ok (put 8 8 (st.energyPj / 1000000000) + put 16 8 st.openTick + put 24 8 (now s))))
  ∧ (∀ (m : MailCmd) (s : State), Accepted s m 0x40 → arg m 8 1 = 0xFF →
    exec (.fabQuery m) s = .next (complete s m .ok (put 8 2 s.fabric.id.toNat + put 10 2 (shapeCode s.fabric) + put 12 1 (wrapCode s.fabric)
      + put 14 2 s.time.rootId.toNat + put 16 4 s.fabric.gen.toNat + put 20 2 s.fabric.lost.length + put 22 2 s.fabric.relay.length
      + put 24 2 s.fabric.pins.length)))
  ∧ (∀ (m : MailCmd) (s : State) (p : PortId) (q : Port), Accepted s m 0x40 → arg m 8 1 = p.1 → hasPort s.fuses.variant p.1 = true →
    q = s.fabric.ports.get p →
    exec (.fabQuery m) s = .next (complete s m .ok (put 8 1 (portCode q.st) + put 9 1 q.width + put 10 2 q.peer.toNat + put 12 1 (b2n q.leads)
      + put 14 2 (satTo 16 q.fails) + put 16 4 q.retrains + put 20 4 q.replays + put 24 4 q.discards)))
  ∧ (∀ (m : MailCmd) (s : State), Accepted s m 0x02 → s.fw.discovered = true → arg m 8 8 % 64 = 0 → arg m 16 4 ≤ 2 ^ 24 →
    (capRecord s).length = 256
    ∧ (256 ≤ arg m 16 4 → s.host.linkUp = true →
        exec (.devCaps m) s = .next (complete (emit s (.hostWrite (arg m 8 8) (capRecord s))) m .ok (put 8 4 256 + put 12 1 1)))
    ∧ (256 ≤ arg m 16 4 → s.host.linkUp = false → exec (.devCaps m) s = .next (complete s m .tierFault 0))
    ∧ (arg m 16 4 < 256 → exec (.devCaps m) s = .next (complete s m .badArgument (put 8 4 256))))
  ∧ (∀ (m : MailCmd) (s : State) (rec : List Byte), Accepted s m 0x31 → arg m 8 8 % 64 = 0 → arg m 16 4 ≤ 2 ^ 24 → rec = pwrRecord s →
    ((rec.length ≤ arg m 16 4 → s.host.linkUp = true →
        exec (.pwrReport m) s = .next (complete (emit s (.hostWrite (arg m 8 8) rec)) m .ok (put 8 4 rec.length)))
    ∧ (rec.length ≤ arg m 16 4 → s.host.linkUp = false → exec (.pwrReport m) s = .next (complete s m .tierFault 0))
    ∧ (arg m 16 4 < rec.length → exec (.pwrReport m) s = .next (complete s m .badArgument (put 8 4 rec.length)))))
  ∧ (∀ (m : MailCmd) (s : State) (p : ApId) (rec : List Byte), Accepted s m 0x62 → arg m 8 1 = 1 → arg m 9 1 = p.1 → p.1 < apCount s.fuses.variant →
    arg m 16 8 % 64 = 0 → arg m 24 4 ≤ 2 ^ 24 → rec = portRecord p.1 (s.audio.get p) →
    rec.length = 32 + 64 * (s.audio.get p).binds.length
    ∧ (rec.length ≤ arg m 24 4 → s.host.linkUp = true →
        exec (.statsRead m) s = .next (complete (emit s (.hostWrite (arg m 16 8) rec)) m .ok (put 8 4 rec.length)))
    ∧ (rec.length ≤ arg m 24 4 → s.host.linkUp = false → exec (.statsRead m) s = .next (complete s m .tierFault 0))
    ∧ (arg m 24 4 < rec.length → exec (.statsRead m) s = .next (complete s m .badArgument (put 8 4 rec.length))))
  ∧ (∀ (m : MailCmd) (s : State) (st : Stream) (ly : Layer) (rec : List Byte), Accepted s m 0x62 → arg m 8 1 = 0 → Names s m (arg m 10 2) st →
    statsLayer s m st = some ly → arg m 16 8 % 64 = 0 → arg m 24 4 ≤ 2 ^ 24 →
    rec = statsRecord st.handle (statsOf st (arg m 12 2) ly.width) (desc ly.body.desc).window →
    ((rec.length ≤ arg m 24 4 → s.host.linkUp = true →
        exec (.statsRead m) s = .next (complete (emit s (.hostWrite (arg m 16 8) rec)) m .ok (put 8 4 rec.length)))
    ∧ (rec.length ≤ arg m 24 4 → s.host.linkUp = false → exec (.statsRead m) s = .next (complete s m .tierFault 0))
    ∧ (arg m 24 4 < rec.length → exec (.statsRead m) s = .next (complete s m .badArgument (put 8 4 rec.length)))))
  ∧ (∀ (m : MailCmd) (s : State) (r : LogRec) (l : List LogRec) (bs : List Byte), Accepted s m 0x61 → arg m 8 1 = 0 → arg m 16 8 % 64 = 0 →
    arg m 24 4 % 32 = 0 → arg m 24 4 ≤ 2 ^ 24 → s.host.linkUp = true → s.fw.dieLog = r :: l →
    bs = ((s.fw.dieLog.filter fun x => decide (max (arg m 12 4) r.seq ≤ x.seq)).take (arg m 24 4 / 32)).flatMap logBytes → bs ≠ [] →
    exec (.logRead m) s = .next (complete (emit s (.hostWrite (arg m 16 8) bs)) m .ok
      (put 8 4 bs.length + put 12 4 r.seq + put 16 4 s.fw.logSeq + put 20 4 (r.seq - arg m 12 4))))

/-- Memory commands, accepted in READY without a reserved bit. MEM_RESERVE of T1 after discovery, within the tenant's quota and of granules
free now: one region of them at the lowest free run, under the next handle and for the channel's tenant, and the command completes OK with
handle, granules and address. MEM_RELEASE of a region the command may name, that nothing uses and that holds no loan: the region and its
reservations are gone, and the command completes OK with the granules. MEM_QUOTA_SET: of a tenant's quota on T1 to T3 puts the quota in
force and answers with the old one and what the tenant holds; of a lend limit above the tier's allocatable size it is BAD_ARGUMENT; of a
borrow radius outside 1 to 32 it is BAD_ARGUMENT, and of one inside puts it in force and answers with the old one. REGION_MAP of
page-aligned host memory of at most 2^40 bytes, with fewer than 1,024 windows and a place free, adds a window of it to T4 at that place and
completes OK with handle and address. None of them changes a byte of memory. -/
def Obligations.MemoryCommandsReserve : Prop :=
  (∀ (m : MailCmd) (s : State) (b : Nat), Accepted s m 0x10 → s.fw.discovered = true → arg m 8 1 = 1 → arg m 9 1 = 0xFF → 0 < arg m 12 4 →
    waitOf s m = none → (∀ r ∈ s.mem.reserved, r.owner ≠ .wait s.mem.reqNext) →
    overQuota s (mailTenant s m) 1 (arg m 12 4) = false → arg m 12 4 ≤ freeFor s s.mem.reqNext (reserveNeed m) → placeOn s 1 0 (arg m 12 4) = some b →
    ∃ t, exec (.memReserve m) s = .next t ∧ t = { s with host := t.host, mem := t.mem, fw := t.fw } ∧ SameBytes s t
      ∧ t.mem.reserved = s.mem.reserved ++ [⟨.region (nextRegion s), mailTenant s m, 1, 0, arg m 12 4, some b⟩]
      ∧ t.mem.regions = s.mem.regions ++ [⟨nextRegion s, mailTenant s m, 1, 0, b, arg m 12 4 * 65536, 0, none, false⟩]
      ∧ t.host.outbox = (complete s m .ok (put 8 2 (nextRegion s) + put 12 4 (arg m 12 4) + put 16 8 (gaddr s b))).host.outbox)
  ∧ (∀ (m : MailCmd) (s : State) (r : Region), Accepted s m 0x11 → namedRegion s m (arg m 8 2) = some r → regionUsed s r = false →
    (∀ x ∈ s.mem.reserved, x.owner = .region r.handle → x.tier ≠ 3) →
    ∃ t, exec (.memRelease m) s = .next t ∧ t = { s with host := t.host, mem := t.mem } ∧ SameBytes s t
      ∧ t.mem.reserved = s.mem.reserved.filter (fun x => x.owner != .region r.handle)
      ∧ t.mem.regions = s.mem.regions.filter (fun x => x.handle != r.handle)
      ∧ t.host.outbox = (complete s m .ok (put 8 4 (ownerGranules s (.region r.handle)))).host.outbox)
  ∧ (∀ (m : MailCmd) (s : State), Accepted s m 0x12 → arg m 8 1 = 0 → arg m 9 1 ≤ 15 → 1 ≤ arg m 10 1 → arg m 10 1 ≤ 3 →
    ∃ t, exec (.memQuotaSet m) s = .next t ∧ t = { s with host := t.host, mem := { s.mem with quotas := t.mem.quotas } }
      ∧ quotaOf t (arg m 9 1) (arg m 10 1) = arg m 12 4
      ∧ t.host.outbox = (complete s m .ok (put 8 4 (quotaOf s (arg m 9 1) (arg m 10 1)) + put 12 4 (heldBy s (arg m 9 1) (arg m 10 1)))).host.outbox)
  ∧ (∀ (m : MailCmd) (s : State) (b : Nat), Accepted s m 0x13 → arg m 8 8 % 4096 = 0 → arg m 16 8 % 4096 = 0 → 0 < arg m 16 8 →
    arg m 16 8 ≤ 2 ^ 40 → (mapped s).length < 1024 → t4Place s (arg m 16 8) = some b →
    ∃ t, exec (.regionMap m) s = .next t ∧ t = { s with host := t.host, mem := { s.mem with regions := t.mem.regions }, fw := t.fw }
      ∧ t.mem.regions = s.mem.regions ++ [⟨nextRegion s, mailTenant s m, 4, 0, b, arg m 16 8, arg m 8 8, none, false⟩]
      ∧ t.host.outbox = (complete s m .ok (put 8 2 (nextRegion s) + put 16 8 (gaddr s b))).host.outbox)
  ∧ (∀ (m : MailCmd) (s : State), Accepted s m 0x12 → arg m 8 1 = 1 → (arg m 10 1 = 1 ∨ arg m 10 1 = 2) → allocatable s (arg m 10 1) < arg m 12 4 →
    exec (.memQuotaSet m) s = .next (complete s m .badArgument 0))
  ∧ (∀ (m : MailCmd) (s : State), Accepted s m 0x12 → arg m 8 1 = 2 → (arg m 12 4 = 0 ∨ 32 < arg m 12 4) →
    exec (.memQuotaSet m) s = .next (complete s m .badArgument 0))
  ∧ (∀ (m : MailCmd) (s : State), Accepted s m 0x12 → arg m 8 1 = 2 → 1 ≤ arg m 12 4 → arg m 12 4 ≤ 32 →
    exec (.memQuotaSet m) s = .next (complete { s with mem := { s.mem with radius := arg m 12 4 } } m .ok (put 8 4 s.mem.radius)))

/-- REGION_MOVE of a range of this die's memory, or of host memory with the link up, into a live region of T1 or T2, all aligned to 64
bytes: where it ends within the region and its source holds no writable data of an open stream, its first move, of at most 64 KiB (the
model's choice, log entry 31), is issued to the region's address at DST_OFFSET and the command is held; where it ends past the region it
completes NO_RESERVATION. ITIN_LOAD of a range that can be read: an image that fails validation completes BAD_ARGUMENT with the failing
offset, and one for which this die lacks a unit that no fallback replaces completes ABSENT_UNIT with this die and the unit's kind, and
nothing is loaded; one for this die alone that it can take whole, after discovery, within quota and with room, joins the itineraries under
the next handle with its tenant, image and CRC, every reservation added being its own, the streams and the engines as before. ITIN_UNLOAD
of an itinerary the command may name is BUSY while a stream names it; with none, and no loan of its own, it drops the itinerary and its
reservations, answers with the granules, and no byte of memory changes. -/
def Obligations.ItinerariesAndRegionMoves : Prop :=
  (∀ (m : MailCmd) (s : State) (r : Region), Accepted s m 0x14 → srcStatus s (arg m 8 8) (arg m 32 8) = none →
    namedRegion s m (arg m 16 2) = some r → (r.tier = 1 ∨ r.tier = 2) → regionFault s r = none →
    arg m 8 8 % 64 = 0 → arg m 24 8 % 64 = 0 → arg m 32 8 % 64 = 0 → 0 < arg m 32 8 → arg m 18 1 = 0 →
    (arg m 24 8 + arg m 32 8 ≤ r.bytes → writableSrc s (arg m 8 8) (arg m 32 8) = false → 
        (tierOf s (arg m 8 8) = 1 ∨ tierOf s (arg m 8 8) = 2 ∨ (tierOf s (arg m 8 8) = 4 ∧ s.host.linkUp = true)) →
      exec (.regionMove m) s = .next { hold s m with mem := { s.mem with moves := s.mem.moves ++ [partMove s m r 0], moveNext := s.mem.moveNext + 1 } })
    ∧ (r.bytes < arg m 24 8 + arg m 32 8 → exec (.regionMove m) s = .next (complete s m .noReservation 0)))
  ∧ (∀ (m : MailCmd) (img : Image) (s : State) (off : Nat), Accepted s m 0x20 → srcStatus s (arg m 8 8) (arg m 16 4) = none →
    readStatus s (arg m 8 8) (arg m 16 4) .ok = none → arg m 16 4 % 64 = 0 → 0 < arg m 16 4 →
    imageFault { img with bytes := img.bytes.take (arg m 16 4) } = some off →
    exec (.itinLoad m img .ok) s = .next (complete s m .badArgument (put 8 4 off)))
  ∧ (∀ (m : MailCmd) (img img' : Image) (s s1 : State), Accepted s m 0x20 → srcStatus s (arg m 8 8) (arg m 16 4) = none →
    readStatus s (arg m 8 8) (arg m 16 4) .ok = none → arg m 16 4 % 64 = 0 → 0 < arg m 16 4 →
    img' = { img with bytes := img.bytes.take (arg m 16 4) } → imageFault img' = none →
    (∀ d ∈ img'.dies ++ img'.spares ++ img'.items.map (·.die), d = s.fabric.id) → (∀ i ∈ img'.items, i.tier ≤ 2) → fitHere s img' = .main →
    s.fw.discovered = true → needsOverQuota s (mailTenant s m) (itinNeeds s img' false) 0 = false → s.itins.length < 32 → waitOf s m = none →
    withRecalls s s.mem.reqNext (itinNeeds s img' false) = true →
    takeAll (addWaiting s (some m) 0 0xFFFF (some img') (itinNeeds s img' false)).1 (.wait s.mem.reqNext) (mailTenant s m) (itinNeeds s img' false) = some s1 →
    ∃ t it, exec (.itinLoad m img .ok) s = .next t ∧ t.itins = s.itins ++ [it] ∧ it.handle = nextItin s ∧ it.tenant = mailTenant s m ∧ it.img = img'
      ∧ it.crc = BitVec.ofNat 32 (bfld img'.bytes (img'.bytes.length - 4) 4) ∧ t.streams = s.streams ∧ t.engines = s.engines
      ∧ (∀ r ∈ t.mem.reserved, r ∈ s.mem.reserved ∨ r.owner = .itin it.handle))
  ∧ (∀ (m : MailCmd) (img img' : Image) (s : State) (k : Nat), Accepted s m 0x20 → srcStatus s (arg m 8 8) (arg m 16 4) = none →
    readStatus s (arg m 8 8) (arg m 16 4) .ok = none → arg m 16 4 % 64 = 0 → 0 < arg m 16 4 →
    img' = { img with bytes := img.bytes.take (arg m 16 4) } → imageFault img' = none →
    (∀ d ∈ img'.dies ++ img'.spares ++ img'.items.map (·.die), d = s.fabric.id) → (∀ i ∈ img'.items, i.tier ≤ 3) → fitHere s img' = .lacks k →
    exec (.itinLoad m img .ok) s = .next (complete s m .absentUnit (put 8 2 s.fabric.id.toNat + put 10 1 k)))
  ∧ (∀ (m : MailCmd) (s : State) (it : Itin), Accepted s m 0x21 → namedItin s m (arg m 8 2) = some it →
    ((s.streams.any fun st => st.itin == it.handle) = true → exec (.itinUnload m) s = .next (complete s m .busy 0))
    ∧ ((s.streams.any fun st => st.itin == it.handle) = false → (∀ x ∈ s.mem.reserved, x.owner = .itin it.handle → x.tier ≠ 3) →
      ∃ t, exec (.itinUnload m) s = .next t ∧ t = { s with host := t.host, mem := t.mem, itins := t.itins } ∧ SameBytes s t
        ∧ t.itins = s.itins.filter (fun x => x.handle != it.handle)
        ∧ t.mem.reserved = s.mem.reserved.filter (fun x => x.owner != .itin it.handle)
        ∧ t.host.outbox = (complete s m .ok (put 8 4 (ownerGranules s (.itin it.handle)))).host.outbox))

/-- The handle that nextHandle gives, from a counter between 1 and 0xFFFF and with fewer than 0xFFFF handles live, is one that no live
object has, and is between 1 and 0xFFFF. -/
def Obligations.HandlesFresh : Prop :=
  ∀ (live : List Nat) (n : Nat), 1 ≤ n → n ≤ 0xFFFF → live.length < 0xFFFF →
    nextHandle live 65536 n ∉ live ∧ 1 ≤ nextHandle live 65536 n ∧ nextHandle live 65536 n ≤ 0xFFFF

/-- STREAM_OPEN, after discovery, of an itinerary the command may name, on dies that can be reached: with arguments that are not bad,
within quota, with engines that pass admission, fewer than 64 streams, strand records left, no T3 capacity needed and its room there, a
stream in state OPENED joins the die's streams under the next handle with the itinerary, the tenant, the engines, the period and the
deadline, no feed and no frame; every reservation added is its own; engines and itineraries are as before. With bad arguments it completes
BAD_ARGUMENT. STREAM_START of a stream without audio bindings: BAD_COMMAND where it is not OPENED; of an OPENED periodic one BAD_ARGUMENT
for a FIRST less than 256 ticks ahead, and NOT_READY with FIRST 0 while the die is UNALIGNED; of an OPENED one without feeds on a die that
is not UNALIGNED, with FIRST 0 or at least 256 ticks ahead, it puts the stream in RUNNING with slot 0 at FIRST, at 1,024 ticks from now for
FIRST 0, or, of a job, now. STREAM_POLICY of a bad change completes BAD_ARGUMENT, and one that fails admission NO_RESERVATION; any other
that asks for no rebase puts policyApplied in force, which keeps feeds and frame, takes PRIO where VALID bit 0 is set and keeps it where it
is clear, and answers with the policy in force. -/
def Obligations.StreamsOpenAndStart : Prop :=
  (∀ (m : MailCmd) (s s1 : State) (it : Itin) (p : OpenArgs) (map : List EngineId), Accepted s m 0x22 → p = openArgs m.entry.toNat →
    namedItin s m p.itin = some it → openBad s m it p = false → (p.backward && attnFallback it) = false → s.fw.discovered = true → waitOf s m = none →
    needsOverQuota s (mailTenant s m) (streamNeeds it p) 0 = false → admitEngines s p.guar (openTask it p) = some map →
    s.streams.length < 64 → strandsHeld s + it.steps ≤ 16384 → (∀ d ∈ it.img.dies, reachable s d = true) → withRecalls s s.mem.reqNext (streamNeeds it p) = true →
    needOn (streamNeeds it p) 3 = 0 →
    takeAll (addWaiting s (some m) 0 0xFFFF none (streamNeeds it p)).1 (.wait s.mem.reqNext) (mailTenant s m) (streamNeeds it p) = some s1 →
    ∃ t st, exec (.streamOpen m) s = .next t ∧ t.streams = s.streams ++ [st] ∧ st.handle = nextStream s ∧ st.st = .opened ∧ st.itin = it.handle
      ∧ st.tenant = mailTenant s m ∧ st.map = map ∧ st.period = p.period ∧ st.deadline = p.deadline ∧ st.feeds = [] ∧ st.frame = none
      ∧ t.engines = s.engines ∧ t.itins = s.itins ∧ (∀ r ∈ t.mem.reserved, r ∈ s.mem.reserved ∨ r.owner = .stream st.handle))
  ∧ (∀ (m : MailCmd) (s : State) (it : Itin), Accepted s m 0x22 → namedItin s m (openArgs m.entry.toNat).itin = some it → waitOf s m = none →
    openBad s m it (openArgs m.entry.toNat) = true → exec (.streamOpen m) s = .next (complete s m .badArgument 0))
  ∧ (∀ (m : MailCmd) (s : State) (st : Stream), Accepted s m 0x23 → Names s m (arg m 8 2) st →
    (∀ p, ∀ b ∈ (s.audio.get p).binds, b.stream ≠ arg m 8 2) →
    ((st.st ≠ .opened → exec (.streamStart m) s = .next (complete s m .badCommand 0))
    ∧ (st.st = .opened → st.period ≠ 0 → 0 < arg m 16 8 → within s (arg m 16 8) 256 = true →
      exec (.streamStart m) s = .next (complete s m .badArgument 0))
    ∧ (st.st = .opened → st.period ≠ 0 → arg m 16 8 = 0 → s.time.state = .unaligned →
      exec (.streamStart m) s = .next (complete s m .notReady 0))
    ∧ (∀ n0 : Nat, st.st = .opened → (arg m 16 8 = 0 ∨ within s (arg m 16 8) 256 = false) → s.time.state ≠ .unaligned → st.feeds = [] →
      n0 = (if st.period = 0 then now s else if arg m 16 8 = 0 then now s + 1024 else arg m 16 8) →
      ∃ t, exec (.streamStart m) s = .next t ∧ OnlyStreams s t ∧ OtherStreams s t (arg m 8 2)
        ∧ streamOf t (arg m 8 2) = some { st with st := .running, started := true, n0 := n0, prevSlot := none }
        ∧ t.host.outbox = (complete s m .ok (put 8 8 (if st.period = 0 then 0 else n0))).host.outbox)))
  ∧ (∀ (m : MailCmd) (s : State) (st : Stream), Accepted s m 0x29 → Names s m (arg m 8 2) st →
    ((policyBad s m st (policyApplied m st) = true → exec (.streamPolicy m) s = .next (complete s m .badArgument 0))
    ∧ (policyBad s m st (policyApplied m st) = false → policyAdmitted s st (policyApplied m st) = false →
      exec (.streamPolicy m) s = .next (complete s m .noReservation 0))
    ∧ (policyBad s m st (policyApplied m st) = false → policyAdmitted s st (policyApplied m st) = true →
        (bit (arg m 10 2) 7 && bit (arg m 12 1) 5) = false →
      exec (.streamPolicy m) s = .next (complete (modStream s (arg m 8 2) fun _ => policyApplied m st) m .ok (policyResult (policyApplied m st)))
      ∧ (policyApplied m st).feeds = st.feeds ∧ (policyApplied m st).frame = st.frame
      ∧ (bit (arg m 10 2) 0 = false → (policyApplied m st).prio = st.prio) ∧ (bit (arg m 10 2) 0 = true → (policyApplied m st).prio = arg m 12 1 % 8))))

/-- STREAM_FEED of a stream neither lost nor resuming: one that fails a check completes with that check's status and index, with CMD_HEAD
past its entry and nothing else changed; one that passes every check, of a stream not started, joins the stream's feeds with its sequence
table, output buffer and tick of acceptance, the stream charged for the bytes read and RUNNING where it was DRAINED, and the command runs
on. STREAM_DRAIN of a RUNNING stream with nothing left makes it DRAINED and completes OK with 0 frames; with a frame in flight it makes it
DRAINING and the command runs on. STREAM_CLOSE of a started stream with a frame in flight completes BUSY; of one that is lost, was not
started, or has neither frame nor feed, and has no snapshot under way, it removes the stream, its reservations and the moves of its frames,
and changes no byte of memory, no other stream and no itinerary. -/
def Obligations.StreamsFeedDrainAndClose : Prop :=
  (∀ (m : MailCmd) (addrs : List Nat) (items : List (List Byte)) (seqs : List (BitVec 64)) (s : State) (st : Stream) (it : Itin) (x : Status) (i : Nat),
    Accepted s m 0x24 → Names s m (arg m 8 2) st → itinOf s st.itin = some it → feedFault (passFeed s m) m st it addrs items seqs .ok = some (x, i) →
    exec (.streamFeed m ⟨addrs, items⟩ seqs .ok) s = .next (complete (passFeed s m) m x (put 8 2 i)))
  ∧ (∀ (m : MailCmd) (addrs : List Nat) (items : List (List Byte)) (seqs : List (BitVec 64)) (s : State) (st : Stream) (it : Itin),
    Accepted s m 0x24 → Names s m (arg m 8 2) st → itinOf s st.itin = some it → feedFault (passFeed s m) m st it addrs items seqs .ok = none →
    st.started = false →
    ∃ t f, exec (.streamFeed m ⟨addrs, items⟩ seqs .ok) s = .next t ∧ OnlyStreams s t ∧ OtherStreams s t (arg m 8 2) ∧ m ∈ t.host.running
      ∧ f.cmd = some m ∧ f.accepted = now s ∧ f.seqs = seqs.map seqEntry ∧ f.outBuf = arg m 32 8
      ∧ streamOf t (arg m 8 2) = (streamOf (chargeMove s (arg m 8 2) 4 1 (total (items.map (·.length)) + 8 * seqs.length)) (arg m 8 2)).map fun x =>
          { x with feeds := st.feeds ++ [f], st := if st.st = .drained then .running else st.st })
  ∧ (∀ (m : MailCmd) (s : State) (st : Stream), Accepted s m 0x25 → Names s m (arg m 8 2) st → st.st = .running →
    ∃ t, exec (.streamDrain m) s = .next t ∧ OnlyStreams s t ∧ OtherStreams s t (arg m 8 2)
      ∧ (st.feeds = [] → st.frame = none → streamOf t (arg m 8 2) = some { st with st := .drained, drainCmd := none, drainedFrames := 0 }
          ∧ t.host.outbox = (complete s m .ok 0).host.outbox)
      ∧ (st.frame.isSome = true → m ∈ t.host.running
          ∧ streamOf t (arg m 8 2) = some { st with st := .draining, drainCmd := some m, drainedFrames := 0 }))
  ∧ (∀ (m : MailCmd) (s : State) (st : Stream), Accepted s m 0x26 → namedStream s m (arg m 8 2) = some st → st.started = true → st.st ≠ .lost →
    st.frame.isSome = true → exec (.streamClose m) s = .next (complete s m .busy 0))
  ∧ (∀ (m : MailCmd) (s : State) (st : Stream), Accepted s m 0x26 → namedStream s m (arg m 8 2) = some st → st.st ≠ .resuming →
    (st.st = .lost ∨ st.started = false ∨ (st.frame = none ∧ st.feeds = [])) → st.snapping = none →
    ∃ t, exec (.streamClose m) s = .next t ∧ t.streams = s.streams.filter (fun x => x.handle != arg m 8 2) ∧ SameBytes s t
      ∧ (∀ r ∈ t.mem.reserved, r.owner ≠ .stream (arg m 8 2)) ∧ (∀ x ∈ t.mem.moves, x.purpose ≠ .frame (arg m 8 2)) ∧ t.itins = s.itins)

/-- STREAM_SNAPSHOT of a RUNNING stream between frames, with no snapshot under way, into a live region of T2 or T3 that holds it: the
command runs on, and a snapshot, not yet valid, holds the stream's lengths, its pages, histories and recurrent blocks with their layers by
number among those of their kind (log entry 148), the itinerary's CRC, the capture tick and the slot of the last advance; it lies in the
area that does not hold the region's newest valid snapshot, which stays. SNAPSHOT_COMPLETE of a written snapshot makes it valid, ends the
capture, charges the stream for its bytes and completes the command OK with slot, bytes and capture tick; one whose write was late or bad
completes the command TIER_FAULT and makes nothing valid. STREAM_RESUME of a region with a snapshot of the itinerary, where STREAM_OPEN's
admission passes for the snapshot's parameters, opens a stream under the next handle in state OPENED with the snapshot's lengths,
histories, recurrent blocks, sequence number and timeouts; with no valid snapshot, or one of another itinerary, it completes BAD_ARGUMENT.
-/
def Obligations.SnapshotsCaptureAndResume : Prop :=
  (∀ (m : MailCmd) (s : State) (st : Stream) (r : Region) (it : Itin), Accepted s m 0x27 → Names s m (arg m 8 2) st → st.st = .running →
    namedRegion s m (if arg m 10 2 = 0 then st.snapRegion else arg m 10 2) = some r → (r.tier = 2 ∨ r.tier = 3) → st.snapping = none → st.frame = none →
    itinOf s st.itin = some it → regionFault s r = none → snapBytes st it ≤ areaBytes r →
    ∃ t x, exec (.streamSnapshot m) s = .next t ∧ t = { s with host := t.host, streams := t.streams, snaps := t.snaps } ∧ m ∈ t.host.running
      ∧ OtherStreams s t (arg m 8 2) ∧ streamOf t (arg m 8 2) = some { st with snapSeq := st.snapSeq + 1, snapping := some (x, some m) }
      ∧ x.valid = false ∧ x.lengths = st.lengths ∧ x.pages = st.pages.map (fun p => { p with layer := ordOf (attnLayers it) p.layer })
      ∧ x.hist = st.hist.map (fun y => (ordOf (rmLayers it) y.1, y.2))
      ∧ x.recurrent = st.recurrent.map (fun y => ((ordOf (keptLayers it) y.1.1, y.1.2), y.2)) ∧ x.itinCrc = it.crc
      ∧ x.capture = now s ∧ x.snapSlot = st.lastAdvSlot ∧ x.bytes = snapBytes st it
      ∧ (∀ y, newestSnap s r.tier (regionAddr s r) = some y → x.area ≠ y.area ∧ y ∈ t.snaps))
  ∧ (∀ (h : Nat) (s : State) (st : Stream) (x : Snapshot) (m : MailCmd) (r : Region), streamOf s h = some st → st.snapping = some (x, some m) →
    waitsCapture x = false → regionAt s x = some r → regionFault s r = none →
    ∃ t, exec (.snapshotComplete ⟨h, .ok⟩) s = .next t ∧ t = { s with host := t.host, streams := t.streams, snaps := s.snaps ++ [{ x with valid := true }] }
      ∧ OtherStreams s t h ∧ streamOf t h = (streamOf (chargeMove s h 1 x.tier x.bytes) h).map (fun y => { y with snapping := none })
      ∧ t.host.outbox = (complete s m .ok (put 8 8 x.snapSlot + put 16 8 x.bytes + put 24 8 x.capture)).host.outbox)
  ∧ (∀ (h : Nat) (res : ReadEnd) (s : State) (st : Stream) (x : Snapshot) (m : MailCmd) (r : Region), streamOf s h = some st →
    st.snapping = some (x, some m) → waitsCapture x = false → regionAt s x = some r → regionFault s r = none → (res = .late ∨ res = .bad) →
    exec (.snapshotComplete ⟨h, res⟩) s = .next (complete (modStream s h fun y => { y with snapping := none }) m .tierFault 0))
  ∧ (∀ (m : MailCmd) (s s1 : State) (it : Itin) (r : Region) (x : Snapshot) (p : OpenArgs) (map : List EngineId), Accepted s m 0x28 →
    namedItin s m (arg m 8 2) = some it → namedRegion s m (arg m 10 2) = some r → r.tier ≠ 4 → s.fw.discovered = true → regionFault s r = none →
    readStatus s (regionAddr s r) r.bytes .ok = none → newestSnap s r.tier (regionAddr s r) = some x → x.itinCrc = it.crc →
    p = openArgs (put 8 2 it.handle + x.params.toNat <<< 80) → (p.backward && attnFallback it) = false → waitOf s m = none →
    needsOverQuota s (mailTenant s m) (streamNeeds it p) 0 = false → admitEngines s p.guar (openTask it p) = some map →
    s.streams.length < 64 → strandsHeld s + it.steps ≤ 16384 → (∀ d ∈ it.img.dies, reachable s d = true) → withRecalls s s.mem.reqNext (streamNeeds it p) = true →
    needOn (streamNeeds it p) 3 = 0 → (∀ y ∈ s.streams, y.handle ≠ nextStream s) →
    takeAll (addWaiting s (some m) 0 0xFFFF none (streamNeeds it p)).1 (.wait s.mem.reqNext) (mailTenant s m) (streamNeeds it p) = some s1 →
    ∃ t st, exec (.streamResume m .ok) s = .next t ∧ t.streams = s.streams ++ [st] ∧ st.handle = nextStream s ∧ st.st = .opened
      ∧ st.map = map ∧ st.lengths = x.lengths ∧ st.hist = x.hist.map (fun y => (nth (rmLayers it) y.1 0, y.2))
      ∧ st.recurrent = x.recurrent.map (fun y => ((nth (keptLayers it) y.1.1 0, y.1.2), y.2)) ∧ st.snapSeq = x.seq ∧ st.timeouts = x.timeouts)
  ∧ (∀ (m : MailCmd) (s : State) (it : Itin) (r : Region), Accepted s m 0x28 → namedItin s m (arg m 8 2) = some it →
    namedRegion s m (arg m 10 2) = some r → r.tier ≠ 4 → s.fw.discovered = true → regionFault s r = none →
    readStatus s (regionAddr s r) r.bytes .ok = none → waitOf s m = none →
    (newestSnap s r.tier (regionAddr s r) = none ∨ ∃ x, newestSnap s r.tier (regionAddr s r) = some x ∧ x.itinCrc ≠ it.crc) →
    exec (.streamResume m .ok) s = .next (complete s m .badArgument 0))

/-- PWR_CAP_SET of a cap below 15 W or above 130 W and not 0 is BAD_ARGUMENT. Of 0 or of a cap between them it removes or stores the host's
cap, brings the limits into line with it, and completes OK with the host's cap, the steward's, the cap then in force, the lower of the two
and 130 W, and the highest point then allowed; no byte of memory changes. Where no stream is there and no change is under way, and the new
cap leaves the point in force above what is allowed, a change begins at once, waiting for a ramp-down where one runs and in approach else,
from the point in force to one that is allowed. OP_SET of OP4 or above is BAD_ARGUMENT; of a point OP0 to OP3, with no BOOST active and no
change under way, it makes that the base point: where the lower of it and the highest allowed is not the point in force, a deferred change
to it is held, and else none; it completes OK with the base, the point in force and whether a change is deferred. -/
def Obligations.PowerCommandsAct : Prop :=
  (∀ (m : MailCmd) (s : State), Accepted s m 0x30 → arg m 8 4 ≠ 0 → (arg m 8 4 < 15000 ∨ 130000 < arg m 8 4) →
    exec (.pwrCapSet m) s = .next (complete s m .badArgument 0))
  ∧ (∀ (m : MailCmd) (s : State), Accepted s m 0x30 → (arg m 8 4 = 0 ∨ (15000 ≤ arg m 8 4 ∧ arg m 8 4 ≤ 130000)) →
    ∃ t u, exec (.pwrCapSet m) s = .next t ∧ u = limitCheck { s with power := { s.power with hostCap := if arg m 8 4 == 0 then none else some (arg m 8 4) } }
      ∧ t = complete u m .ok (put 8 4 (arg m 8 4) + put 12 4 (s.power.stewardCap.getD 0) + put 16 4 (capInForce u) + put 20 1 (highestAllowed u).1)
      ∧ t.power.hostCap = (if arg m 8 4 = 0 then none else some (arg m 8 4)) ∧ t.power.stewardCap = s.power.stewardCap
      ∧ capInForce t = minOf 130000 ((if arg m 8 4 = 0 then [] else [arg m 8 4]) ++ s.power.stewardCap.toList) ∧ SameBytes s t)
  ∧ (∀ (m : MailCmd) (s u : State), Accepted s m 0x30 → 15000 ≤ arg m 8 4 → arg m 8 4 ≤ 130000 → s.streams = [] → s.power.change = none →
    u = { s with power := { s.power with hostCap := some (arg m 8 4) } } → (highestAllowed u).1 < s.power.opForce.1 →
    ∃ t c, exec (.pwrCapSet m) s = .next t ∧ t.power.change = some c ∧ c.phase = (if rampingDown s then .waiting else .approach) ∧ c.target.1 ≤ (highestAllowed u).1 ∧ c.old = s.power.opForce)
  ∧ (∀ (m : MailCmd) (s : State), Accepted s m 0x32 → 4 ≤ arg m 8 1 → exec (.opSet m) s = .next (complete s m .badArgument 0))
  ∧ (∀ (m : MailCmd) (s : State) (n : Fin 5), Accepted s m 0x32 → arg m 8 1 = n.1 → n.1 ≤ 3 → boostActive s = false → s.power.change = none →
    ((minPoint n (highestAllowed s) ≠ s.power.opForce →
      exec (.opSet m) s = .next (complete { s with power := { s.power with
        opBase := n, change := some ⟨.deferred, s.power.opForce, minPoint n (highestAllowed s), now s, false⟩ } } m .ok
          (put 8 1 n.1 + put 9 1 s.power.opForce.1 + put 10 1 1)))
    ∧ (minPoint n (highestAllowed s) = s.power.opForce →
      exec (.opSet m) s = .next (complete { s with power := { s.power with opBase := n } } m .ok (put 8 1 n.1 + put 9 1 s.power.opForce.1)))))

/-- Where the variant has the fabric: FAB_ROUTE_SET of a reserved KIND, DIM or DIR, or of arguments that give no pin, is BAD_ARGUMENT.
Arguments that give pins put those pins in place, install the rings they give as a route set with the next GEN, and complete OK with that
GEN, where fewer than 256 dies are relayed to, nothing is lent, no move and no request is under way and no stream of a lost die has work
here; streams and memory are as before. FAB_ISOLATE with a wrong CONFIRM is BAD_ARGUMENT; on an isolated die it completes OK with the tick
of isolation; on one not isolated, not leaving, with nothing lent or borrowed, it starts to leave the fabric at once, the ports as they
were, and the command runs on. -/
def Obligations.FabricCommandsAct : Prop :=
  (∀ (m : MailCmd) (s : State), Accepted s m 0x41 → hasFabric s.fuses.variant = true → (badPin m = true ∨ pinsAfter s.fabric m = none) →
    exec (.fabRouteSet m) s = .next (complete s m .badArgument 0))
  ∧ (∀ (m : MailCmd) (s : State) (pins : List Pin), Accepted s m 0x41 → hasFabric s.fuses.variant = true → pinsAfter s.fabric m = some pins →
    badPin m = false → (∀ g ∈ s.fabric.guests, s.fabric.lost.contains g.home = false) →
    s.fabric.relay.length < 256 → s.mem.lent = [] → s.mem.moves = [] → s.fabric.outstanding = [] →
    ∃ t u, exec (.fabRouteSet m) s = .next t ∧ t = complete u m .ok (put 8 4 (s.fabric.gen + 1).toNat) ∧ t.fabric.pins = pins ∧ t.fabric.gen = s.fabric.gen + 1 ∧ t.fw.routeInstalled = true
      ∧ t.fabric.ring = (routesOf { s.fabric with pins := pins }).1 ∧ t.streams = s.streams ∧ t.mem = s.mem)
  ∧ (∀ (m : MailCmd) (s : State), Accepted s m 0x42 → arg m 8 1 ≠ 0x5A → exec (.fabIsolate m) s = .next (complete s m .badArgument 0))
  ∧ (∀ (m : MailCmd) (s : State) (t : Tick), Accepted s m 0x42 → arg m 8 1 = 0x5A → hasFabric s.fuses.variant = true → s.fabric.isolatedAt = some t →
    exec (.fabIsolate m) s = .next (complete s m .ok (put 16 8 t)))
  ∧ (∀ (m : MailCmd) (s : State), Accepted s m 0x42 → arg m 8 1 = 0x5A → hasFabric s.fuses.variant = true → s.fabric.isolatedAt = none →
    s.fabric.isolating = none → s.mem.lent = [] → s.mem.loans = [] →
    ∃ t, exec (.fabIsolate m) s = .next t ∧ t.fabric.isolating = some (now s, [m]) ∧ t.fabric.ports = s.fabric.ports ∧ m ∈ t.host.running)

/-- FW_STAGE of the die's or the island's firmware, with a length that is a positive multiple of 64 within the target's limit, from a range
that can be read and is read, with no slot write under way and the firmware area there: the image read is held as the target's staged
image, and the command completes OK with its length and version. FW_COMMIT to a named slot that does not run, of a staged image, with no
slot write under way: an image that fails verification completes VERIFY_FAILED, and nothing is written; one that passes starts the write of
that slot and the command runs on. With nothing staged it completes NOT_READY. FW_VERIFY of the staged image completes VERIFY_FAILED where
that fails, else OK with its version, the slot that runs, the slot selected, and the image's bytes 24 to 31. FW_ROLLBACK selects the slot
not selected, with no trial, where that slot's image verifies, and answers with it; else it completes VERIFY_FAILED and selects nothing. -/
def Obligations.FirmwareSlotCommands : Prop :=
  (∀ (m : MailCmd) (data : List Byte) (s : State) (tg : Fin 2), Accepted s m 0x50 → arg m 8 1 = tg.1 → 0 < arg m 24 4 → arg m 24 4 % 64 = 0 →
    arg m 24 4 ≤ imageLimit tg.1 → srcStatus s (arg m 16 8) (arg m 24 4) = none → s.fw.slotWrite = none → s.mem.fwArea.isSome = true →
    readStatus s (arg m 16 8) (arg m 24 4) .ok = none →
    exec (.fwStage m data .ok) s = .next (complete { s with fw := { s.fw with
      staged := vmod s.fw.staged tg fun _ => some (imageOf (data.take (arg m 24 4))) } } m .ok
      (put 8 4 (arg m 24 4) + put 12 4 (imgVersion (imageOf (data.take (arg m 24 4)))).toNat)))
  ∧ (∀ (m : MailCmd) (s : State) (tg dest : Fin 2) (img : FwImage), Accepted s m 0x51 → arg m 8 1 = tg.1 → arg m 9 1 = dest.1 + 1 →
    s.fw.staged.get tg = some img → s.fw.slotWrite = none → runningSlot s tg.1 ≠ dest.1 →
    exec (.fwCommit m) s = .next (if (imageCheck s tg.1 img).isSome then complete s m .verifyFailed 0
      else hold { s with fw := { s.fw with slotWrite := some ⟨tg, [dest], img, some m, false⟩ } } m))
  ∧ (∀ (m : MailCmd) (s : State) (tg : Fin 2), Accepted s m 0x51 → arg m 8 1 = tg.1 → arg m 9 1 ≤ 2 → s.fw.staged.get tg = none →
    exec (.fwCommit m) s = .next (complete s m .notReady 0))
  ∧ (∀ (m : MailCmd) (s : State) (tg : Fin 2) (img : FwImage), Accepted s m 0x52 → arg m 8 1 = tg.1 → arg m 9 1 = 3 → s.fw.staged.get tg = some img →
    exec (.fwVerify m) s = .next (if (imageCheck s tg.1 img).isSome then complete s m .verifyFailed 0
      else complete s m .ok (put 8 4 (imgVersion img).toNat + put 12 1 (runningSlot s tg.1) + put 13 1 (s.flash.select.get tg).next.1
        + put 16 8 (hdrFld img 24 8))))
  ∧ (∀ (m : MailCmd) (s : State) (tg : Fin 2), Accepted s m 0x53 → arg m 8 1 = tg.1 →
    exec (.fwRollback m) s = .next (if (slotCheck s tg.1 (slotNo (otherSlot (s.flash.select.get tg).next))).isSome then complete s m .verifyFailed 0
      else complete { s with flash := { s.flash with select := vmod s.flash.select tg fun x => ⟨otherSlot x.next, false⟩ } } m .ok
        (put 8 1 (otherSlot (s.flash.select.get tg).next).1)))

/-- DEV_RESET of a listed scope without FORCE is BUSY while a stream or an itinerary is there. A WARM one, with FORCE or with neither
there, on a die without ACTIVE ports, with no restart under way and the island's selected image running, restarts the firmware: FW_STATE
LOADING, the sequencer in S5, every channel DISABLED, the overflow log empty, no stream, no itinerary, no reservation, every byte of memory
and the fabric ID as before. A COLD one without FORCE, with neither there and no restart under way, in S6 with no step running, latches
that the ascent is to follow and starts the first step down; every byte of memory is as before. DIAG_RUN completes with the status that
refuses the test, or runs on. DIAG_RUN_COMPLETE of a test that passed, or that is no engine's self-test, completes the oldest test OK with
the outcome, the detail, the errors corrected and the duration, and does nothing else; the failed self-test of an engine other than E6 that
is in service retires it, and a free E6 takes its place. -/
def Obligations.ResetAndDiagnosticCommands : Prop :=
  (∀ (m : MailCmd) (s : State), Accepted s m 0x03 → arg m 8 1 ≤ 1 → arg m 9 1 = 0 → (s.streams ≠ [] ∨ s.itins ≠ []) →
    exec (.devReset m) s = .next (complete s m .busy 0))
  ∧ (∀ (m : MailCmd) (s : State), Accepted s m 0x03 → arg m 8 1 = 0 → (arg m 9 1 = 1 ∨ (s.streams = [] ∧ s.itins = [])) → s.fw.restart = none →
    neighbours s = [] → (s.flash.select.get 1).next.1 = s.flash.islandRunning →
    ∃ t, exec (.devReset m) s = .next t ∧ t.fw.state = .loading ∧ t.seq.state = .s5 ∧ t.streams = [] ∧ t.itins = [] ∧ t.mem.reserved = []
      ∧ SameBytes s t ∧ (∀ ch, (t.host.channels.get ch).st = .disabled) ∧ t.host.log = [] ∧ t.fabric.id = s.fabric.id)
  ∧ (∀ (m : MailCmd) (s : State), Accepted s m 0x03 → arg m 8 1 = 1 → arg m 9 1 = 0 → s.streams = [] → s.itins = [] → s.fw.restart = none →
    s.seq.state = .s6 → s.seq.step = none → s.seq.aonRst = false → (s.flash.select.get 1).next.1 = s.flash.islandRunning →
    ∃ t, exec (.devReset m) s = .next t ∧ t.seq.cold = true ∧ t.seq.step = some ⟨false, 1, now s⟩ ∧ SameBytes s t)
  ∧ (∀ (m : MailCmd) (s : State), Accepted s m 0x60 →
    exec (.diagRun m) s = .next (match diagRefusal s (arg m 8 1) (arg m 9 1) with | some st => complete s m st 0 | none => hold s m))
  ∧ (∀ (pass : Bool) (detail : Byte) (corrected duration : Nat) (s : State) (m : MailCmd),
    s.host.running.find? (fun m => mailOpcode m == 0x60) = some m → (pass = true ∨ arg m 8 1 ≠ 1) →
    exec (.diagRunComplete pass detail corrected duration) s = .next (complete s m .ok
      (put 8 1 (b2n pass) + put 9 1 detail.toNat + put 12 4 (satTo 32 corrected) + put 16 4 (satTo 32 duration))))
  ∧ (∀ (detail : Byte) (corrected duration : Nat) (s : State) (m : MailCmd) (e : EngineId),
    s.host.running.find? (fun m => mailOpcode m == 0x60) = some m → arg m 8 1 = 1 → arg m 9 1 = e.1 → e ≠ 6 →
    hasEngine s.fuses.variant e.1 = true → (s.engines.get e).life = .inService → (s.engines.get 6).life = .laybyFree →
    ∃ t, exec (.diagRunComplete false detail corrected duration) s = .next t ∧ (t.engines.get e).life = .retired
      ∧ (t.engines.get 6).life = .laybyEngaged ∧ (t.engines.get 6).partner = some e)

/-- AUDIO_CONFIG of settings that do not pass is BAD_ARGUMENT. Settings that pass, of a port this die has, whose bindings they keep and
belong to no stream that is RUNNING, DRAINING or resuming, are put in force with no correction under way: of a master the first frame
starts at the first multiple of 81,920 ticks at least 1,024 ahead, of a slave the port waits for its clock; the command completes OK with
that tick, 0 of a slave, and whether the clock is valid. AUDIO_BIND of an OPENED stream that has no binding, with values in range, a port
configured, blocks that fit, slots of the port, within quota and with its buffers free now, adds a binding for each direction asked for,
with no first frame yet, to that port alone; streams are as before. An unbind of the input or of the output direction takes away that
direction's binding of the stream and no other; streams are as before. -/
def Obligations.AudioConfigAndBind : Prop :=
  (∀ (m : MailCmd) (s : State), Accepted s m 0x71 → apOk (apArgs m) = false → exec (.audioConfig m) s = .next (complete s m .badArgument 0))
  ∧ (∀ (m : MailCmd) (s : State) (p : ApId), Accepted s m 0x71 → arg m 8 1 = p.1 → apOk (apArgs m) = true → portHere s p.1 = true →
    (∀ b ∈ (s.audio.get p).binds, bindKeeps s p (apArgs m) b = true ∧
      ∀ st, streamOf s b.stream = some st → st.st ≠ .running ∧ st.st ≠ .draining ∧ st.st ≠ .resuming) →
    ∃ a, a = (if (apArgs m).slave then 0 else 81920 * cdiv (now s + 1024) 81920)
      ∧ exec (.audioConfig m) s = .next (complete (modAp s p fun x => { x with cfg := some (apArgs m), anchor := a, clockValid := !(apArgs m).slave, corr := [] }) m .ok
        (put 8 8 a + put 16 1 (b2n (!(apArgs m).slave)))))
  ∧ (∀ (m : MailCmd) (s s1 : State) (st : Stream) (p : ApId) (c : ApCfg) (it : Itin), Accepted s m 0x70 → Names s m (arg m 8 2) st → st.st = .opened →
    bit (arg m 11 1) 7 = false → bindRangeBad m = false → arg m 10 1 = p.1 → portHere s p.1 = true → (s.audio.get p).cfg = some c →
    itinOf s st.itin = some it → (bindArgs m).all (bindFits c st it) = true → arg m 12 2 % 65536 ||| arg m 14 2 < 2 ^ c.slots →
    (∀ d, bindOf s (arg m 8 2) d = none) → needsOverQuota s (mailTenant s m) [⟨1, none, granules (total ((bindArgs m).map bindBytes)), true, false⟩] 0 = false →
    withRecalls s s.mem.reqNext [⟨1, none, granules (total ((bindArgs m).map bindBytes)), true, false⟩] = true → bindBusy (s.audio.get p) (arg m 8 2) (bindArgs m) = false →
    waitOf s m = none →
    takeAll (addWaiting s (some m) 0 0xFFFF none [⟨1, none, granules (total ((bindArgs m).map bindBytes)), true, false⟩]).1 (.wait s.mem.reqNext) (mailTenant s m) [⟨1, none, granules (total ((bindArgs m).map bindBytes)), true, false⟩] = some s1 →
    ∃ t mine, exec (.audioBind m) s = .next t ∧ (t.audio.get p).binds = (s.audio.get p).binds ++ mine ∧ t.streams = s.streams
      ∧ (∀ q, q ≠ p → t.audio.get q = s.audio.get q) ∧ mine.map (fun b => (b.stream, b.dirIn, b.dirOut, b.block, b.j0)) =
        (bindArgs m).map (fun b => (arg m 8 2, b.dirIn, b.dirOut, arg m 16 2, none)))
  ∧ (∀ (m : MailCmd) (s : State) (st : Stream) (p : ApId) (b : Bind) (d : Bool), Accepted s m 0x70 → Names s m (arg m 8 2) st → st.st = .opened →
    ((arg m 11 1 = 0x81 ∧ d = true) ∨ (arg m 11 1 = 0x82 ∧ d = false)) → arg m 10 1 = 0 → arg m 12 10 = 0 → bindOf s (arg m 8 2) d = some (p, b) →
    ∃ t, exec (.audioBind m) s = .next t ∧ (t.audio.get p).binds = (s.audio.get p).binds.filter (fun x => !(x.stream == arg m 8 2 && x.dirIn == b.dirIn))
      ∧ t.streams = s.streams)

/-- A tick of the reference. With AON_RST_N low nothing changes. With no correction due the MSC counts up by 1 modulo 2^64, and the
replica, outside the internal reset, with it. A die that is ALIGNED, with a replica that agrees and corrections due, 4,096 ticks or more
after the last one counts by 2, or not at all, for one correction: one less is then due, the replica has the MSC's value, the ports that
are masters note the correction, and nothing else changes. A replica that differs from the MSC takes its new value, and a record 0x0301
with the replica's old value is written. -/
def Obligations.TickCountsMsc : Prop :=
  (∀ s : State, s.seq.aonRst = true → exec .mscTick s = .next s)
  ∧ (∀ s : State, s.seq.aonRst = false → s.seq.internalReset = false → s.time.replica = s.time.msc → s.time.corr = 0 →
    exec .mscTick s = .next { s with time := { s.time with msc := (s.time.msc + 1) % 2 ^ 64, replica := (s.time.msc + 1) % 2 ^ 64 } })
  ∧ (∀ s : State, s.seq.aonRst = false → s.seq.internalReset = true → s.time.corr = 0 →
    exec .mscTick s = .next { s with time := { s.time with msc := (s.time.msc + 1) % 2 ^ 64 } })
  ∧ (∀ s : State, s.seq.aonRst = false → s.seq.internalReset = false → s.time.replica = s.time.msc → s.time.state = .aligned →
    passed s s.time.lastCorr 4096 = true → s.time.msc + 2 < 2 ^ 64 →
    ∃ t, exec .mscTick s = .next t ∧ t = { s with time := t.time, audio := t.audio } ∧ t.time.replica = t.time.msc
      ∧ (0 < s.time.corr → t.time.msc = s.time.msc + 2 ∧ t.time.corr = s.time.corr - 1 ∧ t.time.lastCorr = t.time.msc
        ∧ t.audio = vmap (noteCorrection t.time.msc 1) s.audio)
      ∧ (s.time.corr < 0 → t.time.msc = s.time.msc ∧ t.time.corr = s.time.corr + 1 ∧ t.time.lastCorr = t.time.msc
        ∧ t.audio = vmap (noteCorrection t.time.msc (-1)) s.audio))
  ∧ (∀ s : State, s.seq.aonRst = false → s.seq.internalReset = false → s.time.replica ≠ s.time.msc → RecordOk s →
    ∃ t, exec .mscTick s = .next t ∧ t = { s with time := t.time, island := t.island, audio := t.audio } ∧ t.time.replica = t.time.msc
      ∧ (∃ r ∈ t.island.history, r.code = 0x0301 ∧ r.seq = s.island.faultSeq ∧ r.data = BitVec.ofNat 128 (put 0 8 s.time.replica)))

/-- Start-up alignment of an UNALIGNED die without streams: its time root with an ACTIVE link, and still the root when its state is
ALIGNED, is aligned to itself, its MSC as before. A follower whose leader can be asked, with fewer than 16 exchanges made and the next one
due, sends a request with the captured time, and the next is due 256 ticks later; with 16 made it steps the MSC and the replica once by the
best offset in whole ticks and starts again from no exchange, and is ALIGNED where the route set still leads to that leader. The discipline
exchange of an ALIGNED die sends a request, and the next is due 65,536 ticks later. A leader that is ALIGNED, or was before REF_LOST,
answers a request with the request's time, the time captured at its arrival and the time the answer leaves. The fraction of a tick in a
captured time of sending is a free value. The answer to the request outstanding of an UNALIGNED follower, its first, is counted and kept
with its round trip and its offset, the latencies of the link taken out. REFCLK_LOST of a die with its reference puts the time state in
REF_LOST, with the state before kept; REFCLK_RETURN of one without it puts the state of stateOnReturn in place: HOLDOVER where it was
ALIGNED, is not the root and no way leads to a leader, and the state before where that was UNALIGNED or STANDALONE. Both change the time
state, the island's notices and the host interface alone. -/
def Obligations.TimeAlignment : Prop :=
  (∀ s u : State, s.time.state = .unaligned → s.streams = [] → isRoot s = true → neighbours s ≠ [] →
    u = { s with time := { s.time with state := .aligned, hops := 0 } } → rootOf u = s.fabric.id →
    ∃ t, exec .alignExchangeTimer s = .next t ∧ t = { s with time := t.time, fabric := t.fabric, free := t.free, out := t.out }
      ∧ t.time.state = .aligned ∧ t.time.msc = s.time.msc ∧ t.time.rootId = s.fabric.id ∧ t.time.leader = none)
  ∧ (∀ (s : State) (p : PortId), s.time.state = .unaligned → s.streams = [] → isRoot s = false → leaderPort s = some p →
    s.time.exchanges < 16 → reached s s.time.nextExch = true → mayAsk { s with time := { s.time with exchOut := none } } (s.fabric.ports.get p).peer = true →
    ∃ t f, exec .alignExchangeTimer s = .next t ∧ t = { s with time := t.time, fabric := t.fabric, free := t.free, out := t.out }
      ∧ t.time = { s.time with exchOut := some (capture s f), nextExch := now s + 256 }
      ∧ t.out = s.out ++ [.mgmt (s.fabric.ports.get p).peer (.timeRequest (capture s f))])
  ∧ (∀ (s u : State) (p : PortId), s.time.state = .unaligned → s.streams = [] → isRoot s = false → leaderPort s = some p → 16 ≤ s.time.exchanges →
    u = { s with time := { s.time with state := .aligned } } →
    ∃ t, exec .alignExchangeTimer s = .next t ∧ t.time.msc = mscAdd s.time.msc (ticksOf64 s.time.bestOffset) ∧ t.time.replica = t.time.msc
      ∧ t.time.exchanges = 0 ∧ (rootOf u ≠ s.fabric.id → leaderHop u = some p → t.time.state = .aligned ∧ t.time.leader = some p))
  ∧ (∀ (s : State) (p : PortId), s.time.state = .aligned → reached s s.time.nextExch = true → leaderPort s = some p →
    mayAsk { s with time := { s.time with exchOut := none } } (s.fabric.ports.get p).peer = true →
    ∃ t f, exec .disciplineExchangeTimer s = .next t ∧ t = { s with time := t.time, fabric := t.fabric, free := t.free, out := t.out }
      ∧ t.time = { s.time with exchOut := some (capture s f), nextExch := now s + 65536 }
      ∧ t.out = s.out ++ [.mgmt (s.fabric.ports.get p).peer (.timeRequest (capture s f))])
  ∧ (∀ (p : PortId) (t1 : Nat) (frac : Fin 64) (s : State), (s.fabric.ports.get p).st = .active → (s.fabric.ports.get p).leads = true →
    (s.time.state = .aligned ∨ (s.time.state = .refLost ∧ s.time.before = .aligned)) →
    ∃ t f, exec (.timeExchange p ⟨.request t1, frac⟩) s = .next t ∧ t = { s with fabric := t.fabric, free := t.free, out := t.out }
      ∧ t.out = s.out ++ [.mgmt (s.fabric.ports.get p).peer (.timeReply t1 (capture s frac.1) (capture s f))])
  ∧ (∀ (p : PortId) (t1 t2 t3 t4 : Nat) (frac : Fin 64) (off : Int) (s : State), (s.fabric.ports.get p).st = .active → s.time.leader = some p →
    s.time.exchOut = some t1 → s.time.state = .unaligned → s.time.bestRtt = none → t4 = capture s frac.1 →
    off = (((t2 : Int) - t1 - (((s.fabric.ports.get p).txDelay + (s.fabric.ports.get p).flight : Nat) : Int))
        + ((t3 : Int) - t4 + (((s.fabric.ports.get p).rxDelay + (s.fabric.ports.get p).flight : Nat) : Int))) / 2 →
    exec (.timeExchange p ⟨.reply t1 t2 t3, frac⟩) s = .next { s with time := { s.time with
      exchOut := none, exchanges := s.time.exchanges + 1, bestRtt := some ((t4 : Int) - t1 - (t3 - t2)).toNat, bestOffset := off, offset64 := off } })
  ∧ (∀ s : State, s.time.refPresent = true → s.seq.aonRst = false →
    ∃ t, exec .refclkLost s = .next t ∧ t = { s with time := t.time, island := t.island, host := t.host }
      ∧ t.time = { s.time with refPresent := false, before := s.time.state, state := .refLost })
  ∧ (∀ s : State, s.time.refPresent = false → s.seq.aonRst = false →
    ∃ t, exec .refclkReturn s = .next t ∧ t = { s with time := t.time, island := t.island, host := t.host }
      ∧ t.time = { s.time with refPresent := true, state := stateOnReturn s }
      ∧ (s.time.before = .aligned → isRoot s = false → leaderHop s = none → t.time.state = .holdover)
      ∧ (s.time.before = .standalone ∨ s.time.before = .unaligned → t.time.state = s.time.before))

/-- Link training, each clause on a port that may train, or whose attempt goes on in TRAINING, as it says. LINK_TRAINING_START of an IDLE
port that is not trying and does not pause starts an attempt, in TRAINING where the peer's clock has been seen; PEER_FCK_SEEN of an IDLE
port that tries puts it in TRAINING and starts its time. TRAINING_SET of a set that is no duplicate: one that does not fit makes the port
MISWIRED; one that fits, of a peer that is not lost, records the peer and its GEN; one of a lost peer that does not ask to join holds the
attempt at step 5. LINK_TRAINING_COMPLETE, with no swap pending, in time: on four lanes the port is ACTIVE at width 4 with full credits and
the delays measured, on a usable pair of lanes ACTIVE at width 2, and on no pair the attempt fails. LINK_TRAINING_TIMEOUT at 10,240 ticks
counts a failed attempt and pauses the port for 2,048 ticks; after eight in a row it is FAILED and pauses for one second.
LINK_TRAINING_RETRY when the pause is over tries again. PHASE_WANDER_RETRAIN takes an ACTIVE port to RETRAINING, counted, its replay buffer
kept. PORT_SETTLE_TIMEOUT counts a port that is still IDLE a second after S5 as settled. The start, a set that fits, the timeout and the
retrain change the fabric, the host interface and what leaves the die alone, and no other port. -/
def Obligations.LinkTrainingEnds : Prop :=
  (∀ (p : PortId) (s : State), mayTrain s p = true → (s.fabric.ports.get p).trying = false → (s.fabric.ports.get p).pauseUntil = none →
    (s.fabric.ports.get p).st = .idle →
    ∃ t, exec (.linkTrainingStart p) s = .next t ∧ OnlyFabric s t ∧ OtherPorts s t p ∧ t.out = s.out ++ [.train p]
      ∧ (t.fabric.ports.get p).trying = true ∧ (t.fabric.ports.get p).trainAt = now s
      ∧ (t.fabric.ports.get p).st = (if (s.fabric.ports.get p).fckSeen then .training else .idle))
  ∧ (∀ (p : PortId) (s : State), mayTrain s p = true → (s.fabric.ports.get p).fckSeen = false → (s.fabric.ports.get p).st = .idle →
    (s.fabric.ports.get p).trying = true →
    exec (.peerFckSeen p) s = .next (modPort s p fun q => { q with fckSeen := true, trainAt := now s, st := .training }))
  ∧ (∀ (p : PortId) (t : TrainSet) (s : State), (s.fabric.ports.get p).trying = true → (s.fabric.ports.get p).fckSeen = true →
    (s.fabric.ports.get p).st = .training → duplicate s p t = false →
    ((setFits s p t = false → exec (.trainingSet p t) s = .next (modPort s p fun q => { q with st := .miswired, trying := false, settled := true }))
    ∧ (setFits s p t = true → s.fabric.lost.contains t.id = false →
      ∃ u, exec (.trainingSet p t) s = .next u ∧ OnlyFabric s u ∧ OtherPorts s u p ∧ (u.fabric.ports.get p).peer = t.id
        ∧ (u.fabric.ports.get p).setOk = true ∧ u.fabric.neighbourGens.lookup t.id = some t.gen)
    ∧ (setFits s p t = true → s.fabric.lost.contains t.id = true → t.joinReady = false →
      ∃ u, exec (.trainingSet p t) s = .next u ∧ (u.fabric.ports.get p).heldAt5 = true ∧ (u.fabric.ports.get p).setOk = false)))
  ∧ (∀ (p : PortId) (lanes : BitVec 4) (tx rx fl : Nat) (s : State), (s.fabric.ports.get p).trying = true → (s.fabric.ports.get p).fckSeen = true →
    (s.fabric.ports.get p).setOk = true → (s.fabric.ports.get p).heldAt5 = false → (s.fabric.ports.get p).st = .training →
    passed s ((s.fabric.ports.get p).trainAt) 10241 = false → (s.fabric.ports.get p).swapAt = none →
    ∃ t, exec (.linkTrainingComplete p lanes tx rx fl) s = .next t
      ∧ (lanes = 0xF → (t.fabric.ports.get p).st = .active ∧ (t.fabric.ports.get p).width = 4 ∧ (t.fabric.ports.get p).credits = fullCredits
          ∧ (t.fabric.ports.get p).txDelay = tx ∧ (t.fabric.ports.get p).rxDelay = rx ∧ (t.fabric.ports.get p).activeAt = now s)
      ∧ (lanes ≠ 0xF → (lanes &&& 3 = 3 ∨ lanes &&& 0xC = 0xC) → (t.fabric.ports.get p).st = .active ∧ (t.fabric.ports.get p).width = 2)
      ∧ (lanes &&& 3 ≠ 3 → lanes &&& 0xC ≠ 0xC → t = failAttempt s p))
  ∧ (∀ (p : PortId) (s : State), (s.fabric.ports.get p).trying = true → (s.fabric.ports.get p).fckSeen = true → (s.fabric.ports.get p).heldAt5 = false →
    (s.fabric.ports.get p).st = .training → passed s ((s.fabric.ports.get p).trainAt) 10240 = true →
    ∃ t, exec (.linkTrainingTimeout p) s = .next t ∧ OnlyFabric s t ∧ OtherPorts s t p
      ∧ (t.fabric.ports.get p).fails = (s.fabric.ports.get p).fails + 1 ∧ (t.fabric.ports.get p).consec = (s.fabric.ports.get p).consec + 1
      ∧ ((s.fabric.ports.get p).consec < 7 → (t.fabric.ports.get p).st = .training ∧ (t.fabric.ports.get p).pauseUntil = some (now s + 2048))
      ∧ (7 ≤ (s.fabric.ports.get p).consec → (t.fabric.ports.get p).st = .failed ∧ (t.fabric.ports.get p).pauseUntil = some (now s + 24576000)))
  ∧ (∀ (p : PortId) (s : State) (t : Tick), (s.fabric.ports.get p).pauseUntil = some t → mayTrain s p = true → reached s t = true →
    (s.fabric.ports.get p).st ≠ .miswired → (s.fabric.ports.get p).st ≠ .isolated →
    exec (.linkTrainingRetry p) s = .next { (modPort s p fun q => { q with trying := true, trainAt := now s, pauseUntil := none, heldAt5 := false, setOk := false })
      with out := s.out ++ [.train p] })
  ∧ (∀ (p : PortId) (s : State), (s.fabric.ports.get p).st = .active →
    ∃ t, exec (.phaseWanderRetrain p) s = .next t ∧ OnlyFabric s t ∧ OtherPorts s t p ∧ (t.fabric.ports.get p).st = .retraining
      ∧ (t.fabric.ports.get p).leftAt = now s ∧ (t.fabric.ports.get p).retrains = (s.fabric.ports.get p).retrains + 1
      ∧ (t.fabric.ports.get p).replay = (s.fabric.ports.get p).replay)
  ∧ (∀ (p : PortId) (s : State), portsUp s = true → (s.fabric.ports.get p).st = .idle → passed s s.fw.s5At 24576000 = true →
    exec (.portSettleTimeout p) s = .next (modPort s p fun q => { q with settled := true }))

/-- Flits on an ACTIVE port. FLIT_RECEIVE of a flit whose FCRC fails, or of one out of order while no NAK of this discard has been sent,
sends a NAK of the SEQ expected and takes nothing; a control flit acknowledges and returns credits as ackCredit says, and does nothing
else; a head flit, or the single flit of a packet, in order joins the receive buffer with its VC and class, waiting for the body flits its
header gives, and the SEQ expected moves on. NAK_RECEIVE of a SEQ in the replay buffer sends the buffer's flits from there on again and
counts a replay. LINK_REPLAY_LIMIT with more than 64 replays within 24,576 ticks puts the port in RETRAINING. LINK_OUTPUT_ARBITRATE of the
packet chosen sends it whole, one flit for its header and one for each body flit, all kept in the replay buffer, the port's SEQ moved on by
their number, and their credits taken from the packet's pair; with none to send and credits due, it sends one control flit that is not
kept. PACKET_FORWARD of an arrived packet that does not sink here and whose way leads over another, ACTIVE port puts it in that port's
queue, takes it out of the receive buffer and returns its credits. The receiving and sending clauses change no other port and, besides the
fabric, the host interface and what leaves the die, nothing. -/
def Obligations.FlitsAndPackets : Prop :=
  (∀ (p : PortId) (f : BitVec 576) (s : State), (s.fabric.ports.get p).st = .active →
    (flitOk f = false ∨ ((s.fabric.ports.get p).nakSent = false ∧ bits f.toNat 20 2 ≠ 0 ∧ flitSeq f ≠ (s.fabric.ports.get p).rxSeq)) →
    ∃ t, exec (.flitReceive p f) s = .next t ∧ OnlyFabric s t ∧ OtherPorts s t p ∧ t.out = s.out ++ [.nak p (s.fabric.ports.get p).rxSeq]
      ∧ t.fabric.ports.get p = { s.fabric.ports.get p with nakSent := true })
  ∧ (∀ (p : PortId) (f : BitVec 576) (s : State), (s.fabric.ports.get p).st = .active → flitOk f = true → bits f.toNat 20 2 = 0 →
    exec (.flitReceive p f) s = .next (modPort s p fun q => ackCredit q f.toNat))
  ∧ (∀ (p : PortId) (f : BitVec 576) (s : State), (s.fabric.ports.get p).st = .active → flitOk f = true → (bits f.toNat 20 2 = 1 ∨ bits f.toNat 20 2 = 3) →
    flitSeq f = (s.fabric.ports.get p).rxSeq →
    ∃ t x, exec (.flitReceive p f) s = .next t ∧ OnlyFabric s t ∧ OtherPorts s t p ∧ t.out = s.out
      ∧ (t.fabric.ports.get p).rxSeq = (s.fabric.ports.get p).rxSeq + 1 ∧ (t.fabric.ports.get p).rx = (s.fabric.ports.get p).rx ++ [x]
      ∧ x.missing = (if bits f.toNat 20 2 = 3 then 0 else bodyFlits x.pkt) ∧ x.vc.1 = bits f.toNat 22 2 ∧ x.cls.1 = bits f.toNat 24 1 ∧ x.pkt = packetOf (BitVec.ofNat 512 (f.toNat >>> 32)))
  ∧ (∀ (p : PortId) (seq : BitVec 10) (s : State) (l : List (BitVec 576)), (s.fabric.ports.get p).st = .active →
    l = (s.fabric.ports.get p).replay.dropWhile (fun f => flitSeq f != seq) → l ≠ [] →
    ∃ t, exec (.nakReceive p seq) s = .next t ∧ OnlyFabric s t ∧ OtherPorts s t p ∧ t.out = s.out ++ [.flits p l]
      ∧ (t.fabric.ports.get p).replay = l ∧ (t.fabric.ports.get p).replays = (s.fabric.ports.get p).replays + 1)
  ∧ (∀ (p : PortId) (s : State), (s.fabric.ports.get p).st = .active →
    64 < ((s.fabric.ports.get p).replayTicks.filter fun t => !passed s t 24576).length →
    ∃ t, exec (.linkReplayLimit p) s = .next t ∧ OnlyFabric s t ∧ OtherPorts s t p ∧ (t.fabric.ports.get p).st = .retraining)
  ∧ (∀ (p : PortId) (s : State) (x : Queued), (s.fabric.ports.get p).st = .active → choose (s.fabric.ports.get p) = some x →
    x.pkt.body.length = bodyFlits x.pkt →
    ∃ t fs, exec (.linkOutputArbitrate p) s = .next t ∧ OnlyFabric s t ∧ OtherPorts s t p ∧ t.out = s.out ++ [.flits p fs]
      ∧ fs.length = flitCount x.pkt ∧ (t.fabric.ports.get p).replay = (s.fabric.ports.get p).replay ++ fs
      ∧ (t.fabric.ports.get p).txSeq = (s.fabric.ports.get p).txSeq + BitVec.ofNat 10 fs.length
      ∧ (t.fabric.ports.get p).tx = dropFirst (· == x) (s.fabric.ports.get p).tx
      ∧ (t.fabric.ports.get p).credits.get (pairOf x.vc x.cls) + flitCount x.pkt = (s.fabric.ports.get p).credits.get (pairOf x.vc x.cls))
  ∧ (∀ (p : PortId) (s : State), (s.fabric.ports.get p).st = .active → choose (s.fabric.ports.get p) = none →
    (nextReturn (s.fabric.ports.get p).toReturn).2 ≠ 0 →
    ∃ t f, exec (.linkOutputArbitrate p) s = .next t ∧ OnlyFabric s t ∧ OtherPorts s t p ∧ t.out = s.out ++ [.flits p [f]]
      ∧ (t.fabric.ports.get p).replay = (s.fabric.ports.get p).replay ∧ (t.fabric.ports.get p).txSeq = (s.fabric.ports.get p).txSeq)
  ∧ (∀ (p o : PortId) (vc : Fin 4) (cls c : Fin 2) (s : State) (x : Queued) (k : Packet), arrived s p vc cls = some x →
    (x.pkt.rly && x.pkt.via == s.fabric.id) = false → (!x.pkt.rly && x.pkt.dest == s.fabric.id) = false →
    wayOf s x.pkt (some (portDim p, cls)) = some (o, k, c) → (s.fabric.ports.get o).st = .active → o ≠ p →
    ∃ t, exec (.packetForward p vc cls) s = .next t ∧ OnlyFabric s t ∧ (t.fabric.ports.get o).tx = (s.fabric.ports.get o).tx ++ [⟨vc, c, k, 0⟩]
      ∧ (t.fabric.ports.get p).rx = dropFirst (· == x) (s.fabric.ports.get p).rx
      ∧ (t.fabric.ports.get p).toReturn = addPair (s.fabric.ports.get p).toReturn (pairOf x.vc x.cls).1 (flitCount x.pkt))

/-- Packets at their sink, in READY. A READ of 64 to 1,024 bytes, aligned, of a range open to its sender that can be read is answered with
the bytes of memory, and one of a range not open to it with STATUS 1, each when its answer can be sent. A MOVE of a range not open to its
sender changes no memory; one of 64 to 1,024 bytes, aligned, in a range that is open, of a channel that works, with a body of its length
writes exactly its bytes. A READ_DATA of STATUS 0 that matches a request of no move retires its tag where it is the last response due, and
is counted where it is not. A MOVE_ACK that matches no request is discarded and counted. RELAY_SEND sends the oldest relayed packet on with
RLY cleared and gives its origin a credit. RELAY_CREDIT on an ACTIVE port, with no packet waiting for a credit, adds one credit from that
via die, up to 8. -/
def Obligations.RemoteReadsMovesAndRelays : Prop :=
  (∀ (p : PortId) (k : Packet) (s : State) (x : Queued), k.op = 1 → ready s = true → atSink s p k = some x →
    (openTo s k.src k.addr.toNat (64 * k.len) = true → 1 ≤ k.len → k.len ≤ 16 → k.addr.toNat % 64 = 0 → cannotRead s k.addr.toNat (64 * k.len) = false →
      canAnswer s (packet s k.src 2 k.len k.tag k.addr.toNat 0 (flitsOf (readBytes s.mem.cells (glocal k.addr.toNat) (64 * k.len)))) = true →
      exec (.readPkt p k) s = .next (sendPacket (takeRx s p x) (packet s k.src 2 k.len k.tag k.addr.toNat 0
        (flitsOf (readBytes s.mem.cells (glocal k.addr.toNat) (64 * k.len))))))
    ∧ (openTo s k.src k.addr.toNat (64 * k.len) = false → canAnswer s (packet s k.src 2 1 k.tag k.addr.toNat 1 [0]) = true →
      exec (.readPkt p k) s = .next (sendPacket (takeRx s p x) (packet s k.src 2 1 k.tag k.addr.toNat 1 [0]))))
  ∧ (∀ (p : PortId) (k : Packet) (s : State) (x : Queued), k.op = 3 → ready s = true → atSink s p k = some x → Mem.wf s.mem →
    ∃ t, exec (.movePkt p k) s = .next t ∧ t = { s with fabric := t.fabric, mem := t.mem }
      ∧ (openTo s k.src k.addr.toNat (64 * k.len) = false → t.mem = s.mem)
      ∧ (openTo s k.src k.addr.toNat (64 * k.len) = true → 1 ≤ k.len → k.len ≤ 16 → k.addr.toNat % 64 = 0 → chanFailed s (glocal k.addr.toNat) = false →
          k.body.length = k.len →
          (∀ a, a < glocal k.addr.toNat ∨ glocal k.addr.toNat + 64 * k.len ≤ a → readByte t.mem.cells a = readByte s.mem.cells a)
          ∧ (∀ i, i < 64 * k.len → readByte t.mem.cells (glocal k.addr.toNat + i) = nth (k.body.flatMap fun b => leBytes 64 b.toNat) i 0)))
  ∧ (∀ (p : PortId) (k : Packet) (s : State) (x : Queued) (o : Outstanding), k.op = 2 → ready s = true → atSink s p k = some x →
    s.fabric.outstanding.find? (fun o => o.tag == k.tag && o.isRead == true && o.dest == k.src) = some o → k.status = 0 → o.move = none →
    ∃ t, exec (.readData p k) s = .next t ∧ OnlyFabric s t
      ∧ (o.need ≤ o.got + 1 → t.fabric.outstanding = s.fabric.outstanding.filter (fun y => y.tag != k.tag))
      ∧ (o.got + 1 < o.need → t.fabric.outstanding = s.fabric.outstanding.map (fun y => if y.tag == k.tag then { y with got := y.got + 1 } else y)))
  ∧ (∀ (p : PortId) (k : Packet) (s : State) (x : Queued), k.op = 4 → ready s = true → atSink s p k = some x →
    s.fabric.outstanding.find? (fun o => o.tag == k.tag && o.isRead == false && o.dest == k.src) = none →
    ∃ t, exec (.moveAck p k) s = .next t ∧ OnlyFabric s t ∧ t.fabric.outstanding = s.fabric.outstanding
      ∧ (t.fabric.ports.get p).discards = (s.fabric.ports.get p).discards + 1)
  ∧ (∀ (s : State) (x : Queued) (r : List Queued), s.fabric.relayBuf = x :: r →
    ∃ t, exec .relaySend s = .next t ∧ OnlyFabric s t ∧ t.fabric.relayBuf = r
      ∧ t = sendPacket (forward { s with fabric := { s.fabric with relayBuf := r } } { x.pkt with rly := false, via := 0, rdir := 2 } none)
        (packet s x.pkt.src 0x14 0 0 0 0 []))
  ∧ (∀ (p : PortId) (via : FabId) (s : State), (s.fabric.ports.get p).st = .active → s.fabric.relayWait = [] →
    ∃ t, exec (.relayCredit p via) s = .next t ∧ OnlyFabric s t ∧ creditsOf t.fabric via = min 8 (creditsOf s.fabric via + 1))

/-- Lending, each message heard from another die. LOAN_REQUEST for which there is a place holds the run found as lent, under the next
serial, and answers with a grant of it; one for which there is none is refused. LOAN_GRANT that no request waits for is answered by its
return to the lender. LOAN_RETURN of a loan given, with no other due back and no request waiting, takes it off the list of loans given and
changes nothing else. LOAN_GRANT of a part of what the one waiting request asked for, of T1 or T2, where the loan can be taken and another
lender can be asked, becomes a loan and a T3 reservation of the request at the lender's address, the rest is asked for, and no byte of
memory changes. -/
def Obligations.LoansGrantedAndReturned : Prop :=
  (∀ (p : PortId) (src : FabId) (req tier n b : Nat) (s : State), heard s p src = true → lendPlace s tier n = some b →
    ∃ t, exec (.loanRequest p src req tier n) s = .next t ∧ Sends { s with
      mem := { s.mem with lent := s.mem.lent ++ [⟨src, tier, b, n, s.mem.lentNext, false, none⟩], lentNext := s.mem.lentNext + 1 } } t src (.loanGrant req tier b n))
  ∧ (∀ (p : PortId) (src : FabId) (req tier n : Nat) (s : State), heard s p src = true → lendPlace s tier n = none →
    ∃ t, exec (.loanRequest p src req tier n) s = .next t ∧ Sends s t src (.loanRefused req))
  ∧ (∀ (p : PortId) (l : FabId) (req tier base n : Nat) (s : State), heard s p l = true →
    s.mem.waiting.find? (fun w => w.req == req && w.ask == some l) = none →
    ∃ t, exec (.loanGrant p l req tier base n) s = .next t ∧ Sends s t l (.loanReturn (glocal base)))
  ∧ (∀ (p : PortId) (b : FabId) (base : Nat) (s : State), heard s p b = true → s.mem.waiting = [] →
    (s.mem.lent.any fun l => l.borrower == b && glocal l.base == glocal base) = true → (∀ l ∈ s.mem.lent, l.due = true → l.borrower = b ∧ glocal l.base = glocal base) →
    exec (.loanReturn p b base) s = .next { s with mem := { s.mem with
      lent := s.mem.lent.filter fun l => !(l.borrower == b && glocal l.base == glocal base) } })
  ∧ (∀ (p : PortId) (l : FabId) (req tier base n : Nat) (s : State) (w : Waiting) (d : FabId) (r : List FabId), heard s p l = true → loanFits s w l = true →
    s.mem.waiting = [w] → w.req = req → w.ask = some l → n = min 128 w.need → n < w.need → (tier = 1 ∨ tier = 2) →
    lenders (takeLoan s w ((w.cmd.map (mailTenant s)).getD 0) l base n) { w with need := w.need - n, ask := none } = d :: r →
    mayAsk (takeLoan s w ((w.cmd.map (mailTenant s)).getD 0) l base n) d = true →
    ∃ t, exec (.loanGrant p l req tier base n) s = .next t ∧ SameBytes s t ∧ t.mem.waiting = [{ w with need := w.need - n, ask := some d }]
      ∧ t.mem.loans = s.mem.loans ++ [⟨l, l.toNat * 2 ^ 48 + glocal base, n, onlyCopyWait w, none, none⟩]
      ∧ t.mem.reserved = s.mem.reserved ++ [⟨.wait req, (w.cmd.map (mailTenant s)).getD 0, 3, 0, n, some (l.toNat * 2 ^ 48 + glocal base)⟩])

/-- Recalls. RECALL_NOTICE of a loan that holds no only copies returns it at once: no loan at its base is left, streams are as before. Of
one that holds them, with no request waiting: where another lender can be asked, the notice makes this die ask it for the loan's granules;
where none is left to ask, or this die leaves the fabric, with a free room of that lender and another recall's move under way, their move
to the recall room joins the moves, held, and the room is taken (log entry 65). RECALL_NOTICE_EXPIRY at the lender, at the end of notice,
with no other loan due back and no request waiting, takes the loan off the list of loans given and changes nothing else; at the borrower,
whose one loan it is and with no move under way, the loan is gone and every page of a stream that lay in it is DAMAGED. RECALL_ROOM_RESTORE
of a lender whose room holds copies, with no loan of it in a room, no move and no request waiting, asks the next lender for room for them.
No byte of memory changes. -/
def Obligations.RecallsServed : Prop :=
  (∀ (p : PortId) (l : FabId) (base : Nat) (s : State) (x : Loan), heard s p l = true → loanAt s l base = some x → x.recalled = none →
    holdsOnly s x = false →
    ∃ t, exec (.recallNotice p l base) s = .next t ∧ SameBytes s t ∧ t.streams = s.streams ∧ (∀ y ∈ t.mem.loans, y.base ≠ x.base)
      ∧ t.out = s.out ++ [.mgmt x.lender (.loanReturn (glocal x.base))])
  ∧ (∀ (p : PortId) (l : FabId) (base : Nat) (s : State) (x : Loan) (i : Fin 8), heard s p l = true → loanAt s l base = some x → x.recalled = none →
    holdsOnly s x = true → s.mem.fwArea.isSome = true → roomOf s x.lender = some i → roomTaken s x.lender = false → recallBusy s = true →
    s.mem.waiting = [] → (s.fabric.isolating.isSome = true ∨ lenders s ⟨none, s.mem.reqNext, x.granules, none, [], x.lender, none, []⟩ = []) →
    ∃ t v, exec (.recallNotice p l base) s = .next t ∧ SameBytes s t ∧ t.mem.moves = s.mem.moves ++ [v] ∧ v.purpose = .recall x.lender
      ∧ v.src = x.base ∧ v.dst = gaddr s (roomBase s i) ∧ v.len = x.granules * 65536 ∧ v.issued = none ∧ roomTaken t x.lender = true)
  ∧ (∀ (p : PortId) (l d : FabId) (base : Nat) (s : State) (x : Loan) (r : List FabId), heard s p l = true → loanAt s l base = some x →
    x.recalled = none → holdsOnly s x = true → s.fabric.isolating = none → s.mem.waiting = [] →
    lenders s ⟨none, s.mem.reqNext, x.granules, none, [], x.lender, none, []⟩ = d :: r → mayAsk s d = true →
    ∃ t, exec (.recallNotice p l base) s = .next t ∧ SameBytes s t ∧ t.mem.waiting = [⟨none, s.mem.reqNext, x.granules, some d, [], x.lender, none, []⟩]
      ∧ t.out = s.out ++ [.mgmt d (.loanRequest s.mem.reqNext 2 (min 128 x.granules))])
  ∧ (∀ (b : FabId) (base : Nat) (s : State), ready s = true → b ≠ s.fabric.id → s.mem.waiting = [] →
    (s.mem.lent.any fun l => l.borrower == b && glocal l.base == glocal base && (match l.recallAt with | some t => passed s t noticeTicks | none => false)) = true →
    (∀ l ∈ s.mem.lent, l.due = true → l.borrower = b ∧ glocal l.base = glocal base) →
    exec (.recallNoticeExpiry b base) s = .next { s with mem := { s.mem with lent := s.mem.lent.filter fun l => !(l.borrower == b && glocal l.base == glocal base) } })
  ∧ (∀ (base : Nat) (s : State) (l : Loan) (t0 : Tick), ready s = true → s.mem.loans = [l] → l.base = base → l.recalled = some t0 →
    passed s t0 noticeTicks = true → s.mem.moves = [] →
    ∃ t, exec (.recallNoticeExpiry s.fabric.id base) s = .next t ∧ SameBytes s t ∧ t.mem.loans = []
      ∧ (∀ st ∈ t.streams, ∀ k ∈ st.pages, k.tier = 3 → inRange k.addr l.base l.granules = true → k.damaged = true))
  ∧ (∀ (l d : FabId) (s : State) (n : Nat) (r : List FabId), ready s = true → (∀ x ∈ s.mem.loans, x.lender = l → x.room = none) →
    s.mem.roomUsed.find? (·.1 == l) = some (l, n) → s.mem.moves = [] → s.mem.waiting = [] →
    lenders (addWaiting s none n l none []).1 ⟨none, s.mem.reqNext, n, none, [], l, none, []⟩ = d :: r → mayAsk s d = true →
    ∃ t, exec (.recallRoomRestore l) s = .next t ∧ SameBytes s t ∧ t.mem.waiting = [⟨none, s.mem.reqNext, n, some d, [], l, none, []⟩]
      ∧ t.out = s.out ++ [.mgmt d (.loanRequest s.mem.reqNext 2 (min 128 n))])

/-- Loss of a link: LINK_SIGNAL_LOSS puts an ACTIVE port in RETRAINING with its replay buffer kept; LINK_DOWN_TIMEOUT 24,576 ticks later
puts it DOWN, its buffer and queue discarded, its link among those down, where that cuts off no die of the census. In READY: LINK_NOTICE
seen before changes nothing; of a link not known to be down, none of this die's own that holds, whose loss cuts off no die, it adds the
link to those down and passes the notice to every neighbour; DIE_NOTICE of a die that is no neighbour and not lost, with no move, loan,
request or stream, puts it on the lost list and ends what is outstanding to it; ROUTE_GENERATION_NOTICE keeps the neighbour's GEN.
LINK_USABILITY_HOLD_EXPIRY, 245,760 ticks after ACTIVE, makes the link usable and takes it off those down. ROUTE_SET_INSTALL of a cause
other than a rejoin changes nothing where the route set computed is the one in force; where it differs, with nothing lent, no move or
request under way and no work of a lost die's streams, it installs the tables the view gives with the next GEN and posts the change,
streams and memory as before. Where the only stream of another die here is homed on a lost die, the installation drops its work and its
reservations and records 0x0720. -/
def Obligations.LossesAndRoutesTakeEffect : Prop :=
  (∀ (p : PortId) (s : State), (s.fabric.ports.get p).st = .active →
    ∃ t, exec (.linkSignalLoss p) s = .next t ∧ OnlyFabric s t ∧ OtherPorts s t p ∧ (t.fabric.ports.get p).st = .retraining
      ∧ (t.fabric.ports.get p).replay = (s.fabric.ports.get p).replay ∧ (t.fabric.ports.get p).leftAt = now s)
  ∧ (∀ (p : PortId) (s : State), (s.fabric.ports.get p).st = .retraining → passed s ((s.fabric.ports.get p).leftAt) 24576 = true →
    linkOf s.fabric p ∉ s.fabric.downLinks →
    (∀ d ∈ allDies s.fabric, s.fabric.census.contains d = true →
      cutOff { s.fabric with downLinks := s.fabric.downLinks ++ [linkOf s.fabric p] } d = false) →
    ∃ t, exec (.linkDownTimeout p) s = .next t ∧ (t.fabric.ports.get p).st = .down ∧ (t.fabric.ports.get p).replay = [] ∧ (t.fabric.ports.get p).tx = []
      ∧ t.fabric.downLinks = s.fabric.downLinks ++ [linkOf s.fabric p] ∧ t.streams = s.streams ∧ t.mem = s.mem ∧ t.fabric.lost = s.fabric.lost)
  ∧ (∀ (p : PortId) (a b : FabId) (n : Nat) (s : State), ready s = true → (s.fabric.ports.get p).st = .active →
    ((s.fabric.seen.contains (0, a, b, n) = true → exec (.linkNotice p a b n) s = .next s)
    ∧ (s.fabric.seen.contains (0, a, b, n) = false → (a, b) ∉ s.fabric.downLinks →
      (∀ o, linkOf s.fabric o = (a, b) → (s.fabric.ports.get o).st ≠ .active ∧ (s.fabric.ports.get o).st ≠ .retraining) →
      (∀ d ∈ allDies s.fabric, s.fabric.census.contains d = true → cutOff { s.fabric with downLinks := s.fabric.downLinks ++ [(a, b)] } d = false) →
      ∃ t, exec (.linkNotice p a b n) s = .next t ∧ t = { s with fabric := t.fabric, free := t.free, out := t.out } ∧ t.fabric.downLinks = s.fabric.downLinks ++ [(a, b)] ∧ (0, a, b, n) ∈ t.fabric.seen
        ∧ t.out = s.out ++ (neighbours s).map (fun d => .mgmt d (.linkNotice a b n)))))
  ∧ (∀ (p : PortId) (d : FabId) (n : Nat) (s : State), ready s = true → (s.fabric.ports.get p).st = .active →
    s.fabric.seen.contains (1, d, d, n) = false → d ≠ s.fabric.id → s.fabric.lost.contains d = false → s.fabric.lost.length < 1024 →
    (∀ o, (s.fabric.ports.get o).peer ≠ d) → s.mem.moves = [] → s.mem.waiting = [] → s.mem.loans = [] → s.streams = [] →
    ∃ t, exec (.dieNotice p d n) s = .next t ∧ t.fabric.lost = s.fabric.lost ++ [d] ∧ (1, d, d, n) ∈ t.fabric.seen
      ∧ (∀ o ∈ t.fabric.outstanding, o.dest ≠ d) ∧ t.mem = s.mem
      ∧ ∀ o, (t.fabric.ports.get o).st = (s.fabric.ports.get o).st)
  ∧ (∀ (p : PortId) (src : FabId) (g : W32) (s : State), ready s = true → (s.fabric.ports.get p).st = .active →
    exec (.routeGenerationNotice p src g) s = .next { s with fabric := { s.fabric with neighbourGens := assocSet src g s.fabric.neighbourGens } })
  ∧ (∀ (p : PortId) (s : State), (s.fabric.ports.get p).st = .active → (s.fabric.ports.get p).usable = false → passed s ((s.fabric.ports.get p).activeAt) 245760 = true →
    ∃ t, exec (.linkUsabilityHoldExpiry p) s = .next t ∧ OtherPorts s t p ∧ (t.fabric.ports.get p).usable = true
      ∧ t.fabric.downLinks = s.fabric.downLinks.filter (· != linkOf s.fabric p) ∧ t.mem = s.mem ∧ t.streams = s.streams)
  ∧ (∀ (cause : Fin 5) (s : State), ready s = true → s.fw.censusClosed = true → cause ≠ 4 →
    ((routesNew s = false → exec (.routeSetInstall cause) s = .next s)
    ∧ (routesNew s = true → s.mem.lent = [] → s.mem.moves = [] → s.fabric.outstanding = [] →
      (∀ g ∈ s.fabric.guests, s.fabric.lost.contains g.home = false) →
      ∃ t, exec (.routeSetInstall cause) s = .next t ∧ (t.fabric.ring, t.fabric.relay) = routesOf s.fabric ∧ t.fabric.gen = s.fabric.gen + 1
        ∧ t.fw.routeInstalled = true ∧ t.mem = s.mem ∧ t.streams = s.streams ∧ s.host.outbox.length < t.host.outbox.length)))
  ∧ (∀ (cause : Fin 5) (g : Guest) (s : State), RecordOk s → ready s = true → s.fw.censusClosed = true → cause ≠ 4 → routesNew s = true → s.mem.lent = [] →
    s.mem.moves = [] → s.fabric.outstanding = [] → s.fabric.guests = [g] → s.fabric.lost.contains g.home = true →
    ∃ t, exec (.routeSetInstall cause) s = .next t ∧ t.fabric.guests = [] ∧ (∀ r ∈ t.mem.reserved, r.owner ≠ .guest g.home g.handle)
      ∧ ∃ x ∈ t.island.history, x.code = 0x0720)

/-- Roles of an ACTIVE link. ROLE_REQUEST, with none of this die's open, is accepted for a tick 64 ahead; one that crosses this die's own
gives that up, the lower ID asking again after 24,576 ticks and the other not before 49,152. ROLE_ACCEPT of an open request holds the
swap's tick; ROLE_SWAP_TICK at it swaps the roles, posts the change and leaves memory and the other ports as they were.
ROLE_REQUEST_TIMEOUT gives up a request unanswered for 4,096 ticks for 49,152 more. ROLE_HOLDOFF_EXPIRY of an ALIGNED die that should lead
and may ask sends the request again. REMOTE_REQUEST_TIMEOUT in READY of a request of no move and without a tier timeout retires its tag
after 49,152 ticks. MGMT heard from another die: a relay request of an origin not yet served is granted 8 slots while fewer than 112 are
served and refused beyond; a move destination in a range of this die is held as open; an event is posted with its own stamp.
ISOLATE_DRAIN_END in READY, drained or 24,576 ticks after it began, with no loan, move or request under way and no restart waiting, leaves
every port of the die ISOLATED, the die isolated as of now, and memory as it was. -/
def Obligations.LinkRolesAndRemoteEnds : Prop :=
  (∀ (p : PortId) (s : State), (s.fabric.ports.get p).st = .active → (s.fabric.ports.get p).roleReq = none →
    ∃ t, exec (.roleRequest p) s = .next t
      ∧ Sends (modPort s p fun q => { q with swapAt := some (now s + 64) }) t (s.fabric.ports.get p).peer (.roleAccept (now s + 64)))
  ∧ (∀ (p : PortId) (s : State), (s.fabric.ports.get p).st = .active → (s.fabric.ports.get p).roleReq.isSome = true →
    ∃ t, exec (.roleRequest p) s = .next t ∧ OnlyFabric s t ∧ OtherPorts s t p ∧ (t.fabric.ports.get p).roleReq = none ∧ t.out = s.out
      ∧ (s.fabric.id.toNat < (s.fabric.ports.get p).peer.toNat → (t.fabric.ports.get p).noReqUntil = now s + 24576 ∧ (t.fabric.ports.get p).holdoff = true)
      ∧ ((s.fabric.ports.get p).peer.toNat ≤ s.fabric.id.toNat → (t.fabric.ports.get p).noReqUntil = now s + 49152))
  ∧ (∀ (p : PortId) (swap : Nat) (s : State), (s.fabric.ports.get p).st = .active → (s.fabric.ports.get p).roleReq.isSome = true →
    exec (.roleAccept p swap) s = .next (modPort s p fun q => { q with roleReq := none, swapAt := some swap }))
  ∧ (∀ (p : PortId) (s : State) (t0 : Tick), (s.fabric.ports.get p).st = .active → (s.fabric.ports.get p).swapAt = some t0 → reached s t0 = true →
    ∃ t, exec (.roleSwapTick p) s = .next t ∧ OtherPorts s t p ∧ (t.fabric.ports.get p).leads = !(s.fabric.ports.get p).leads
      ∧ (t.fabric.ports.get p).swapAt = none ∧ s.host.outbox.length < t.host.outbox.length ∧ t.mem = s.mem)
  ∧ (∀ (p : PortId) (s : State) (t0 : Tick), (s.fabric.ports.get p).roleReq = some t0 → passed s t0 4096 = true →
    exec (.roleRequestTimeout p) s = .next (modPort s p fun q => { q with roleReq := none, noReqUntil := now s + 49152 }))
  ∧ (∀ (p : PortId) (s : State), (s.fabric.ports.get p).holdoff = true → reached s ((s.fabric.ports.get p).noReqUntil) = true →
    (s.fabric.ports.get p).st = .active → (s.fabric.ports.get p).leads = false → (s.fabric.ports.get p).roleReq = none → (s.fabric.ports.get p).swapAt = none →
    s.time.state = .aligned → shouldLead s p = true →
    mayAsk s (s.fabric.ports.get p).peer = true →
    ∃ t, exec (.roleHoldoffExpiry p) s = .next t
      ∧ Sends (modPort s p fun q => { q with holdoff := false, roleReq := some (now s) }) t (s.fabric.ports.get p).peer .roleRequest)
  ∧ (∀ (tag : BitVec 16) (s : State) (o : Outstanding), s.fabric.outstanding.find? (·.tag == tag) = some o → ready s = true → o.tiered = false →
    passed s o.issued 49152 = true → o.move = none →
    exec (.remoteRequestTimeout tag) s = .next { s with fabric := { s.fabric with outstanding := s.fabric.outstanding.filter fun y => y.tag != tag } })
  ∧ (∀ (p : PortId) (src : FabId) (s : State), heard s p src = true → s.fabric.relayGranted.contains src = false →
    ∃ t, exec (.mgmt p src .relayRequest) s = .next t
      ∧ (s.fabric.relayGranted.length < 112 →
          Sends { s with fabric := { s.fabric with relayGranted := s.fabric.relayGranted ++ [src] } } t src (.relayGrant 8))
      ∧ (112 ≤ s.fabric.relayGranted.length → Sends s t src .relayRefused))
  ∧ (∀ (p : PortId) (src : FabId) (base n : Nat) (s : State), heard s p src = true → rangeOk s base n = true → s.fabric.moveDests.contains (base, n) = false →
    exec (.mgmt p src (.moveDest base n)) s = .next { s with fabric := { s.fabric with moveDests := s.fabric.moveDests ++ [(base, n)] } })
  ∧ (∀ (p : PortId) (src : FabId) (code : Byte) (stamp : W64) (pay : BitVec 384) (s : State), heard s p src = true →
    exec (.mgmt p src (.event code stamp pay)) s = .next (postEventAt s code.toNat stamp.toNat (pay.toNat <<< 128)))
  ∧ (∀ (s : State) (t0 : Tick) (l : List MailCmd), ready s = true → s.fabric.isolating = some (t0, l) → (drained s = true ∨ passed s t0 24576 = true) →
    s.mem.loans = [] → s.mem.moves = [] → s.fabric.outstanding = [] → s.fw.restart = none →
    ∃ t, exec .isolateDrainEnd s = .next t ∧ t.fabric.isolating = none ∧ t.fabric.isolatedAt = some (now s) ∧ t.mem = s.mem
      ∧ (∀ p, hasPort s.fuses.variant p.1 = true → (t.fabric.ports.get p).st = .isolated))

/-- Moves in READY, with all responses come. MOVE_LAND of a frame's item, in time, that its source tier serves next, with readable,
undamaged, intact bytes: the item is staged with the stream, the place, the release tick and the last use of its move, the move is gone,
and its stream is charged. One before which the source tier serves another changes nothing. The last part of a REGION_MOVE that switches no
homes, in time, with a readable source and a destination in a region of this die, writes exactly its bytes there and completes the command
OK with the length, streams as before. MOVE_DEFERRED_ISSUE of the first held move of its frame and tier that can be issued, from T1 or T2,
that fits the staging reservation issues it. MOVE_LATENESS_TIMEOUT, from the tick after the timeout, of a frame's item ends the frame with
TIER_FAULT, its tier and its address, and takes the frame's moves away; other streams and every byte of memory are as before. -/
def Obligations.MovesLand : Prop :=
  (∀ (id h : Nat) (data : List Byte) (k : DataKind) (s : State) (m : Move) (st : Stream) (it : Itin), s.mem.moves.find? (·.id == id) = some m →
    m.purpose = .frame h → isPageMove m = false → streamOf s h = some st → itinOf s st.itin = some it → ready s = true → m.issued.isSome = true →
    stillOut s id = false → (∀ t, lateAfter s m = some t → reached s (t + 1) = false) → badSource s m = false → s.mem.damagedItems.contains (it.handle, m.item) = false →
    tileIntact (moveData s m data) = true → isNext s m = true →
    ∃ t, exec (.moveLand id .ok data k) s = .next t ∧ SameBytes s t ∧ t.streams = (chargeMove s h m.srcTier m.dstTier m.len).streams
      ∧ t.mem.moves = s.mem.moves.filter (fun x => x.id != id)
      ∧ t.mem.staged = s.mem.staged ++ [⟨st.itin, h, m.item, m.dstTier, m.dst, m.len, m.lastUse, m.pin, m.engine, (st.frame.map (·.release)).getD 0⟩])
  ∧ (∀ (id : Nat) (data : List Byte) (k : DataKind) (s : State) (m : Move), s.mem.moves.find? (·.id == id) = some m → isNext s m = false →
    exec (.moveLand id .ok data k) s = .next s)
  ∧ (∀ (id : Nat) (data : List Byte) (k : DataKind) (s : State) (m : Move) (c : MailCmd) (r : Region), Mem.wf s.mem → s.mem.moves.find? (·.id == id) = some m →
    m.purpose = .command c → gid m.dst = s.fabric.id → ready s = true → m.issued.isSome = true → stillOut s id = false →
    (∀ t, lateAfter s m = some t → reached s (t + 1) = false) → badSource s m = false → regionOf s (arg c 16 2) = some r → arg c 32 8 ≤ m.item + m.len → m.switch = false →
    ∃ t, exec (.moveLand id .ok data k) s = .next t ∧ t.streams = s.streams ∧ t.mem.moves = s.mem.moves.filter (fun x => x.id != id)
      ∧ (∀ a, a < glocal m.dst ∨ glocal m.dst + (moveData s m data).length ≤ a → readByte t.mem.cells a = readByte s.mem.cells a)
      ∧ (∀ i, i < (moveData s m data).length → readByte t.mem.cells (glocal m.dst + i) = nth (moveData s m data) i 0)
      ∧ t.host.outbox = (complete s c .ok (put 8 8 (arg c 32 8))).host.outbox)
  ∧ (∀ (id h : Nat) (s : State) (m : Move) (st : Stream) (it : Itin), s.mem.moves.find? (·.id == id) = some m → m.purpose = .frame h →
    streamOf s h = some st → itinOf s st.itin = some it → ready s = true → m.issued = none → m.srcTier ≤ 2 →
    (s.mem.moves.find? fun x => x.purpose == m.purpose && x.dstTier == m.dstTier && canIssue s it x).map (·.id) = some id →
    stagedIn s h m.dstTier + m.len ≤ stagingOf it m.dstTier →
    exec (.moveDeferredIssue id) s = .next { s with mem := { s.mem with
      moves := s.mem.moves.filter (fun x => x.id != id) ++ [{ m with issued := some (now s) }] } })
  ∧ (∀ (id h : Nat) (s : State) (m : Move) (st : Stream) (fr : Frame) (t0 : Tick), s.mem.moves.find? (·.id == id) = some m → m.purpose = .frame h →
    isPageMove m = false → streamOf s h = some st → st.frame = some fr → fr.fault = none → ready s = true → lateAfter s m = some t0 → reached s (t0 + 1) = true →
    ∃ t, exec (.moveLatenessTimeout id) s = .next t ∧ SameBytes s t ∧ OtherStreams s t h
      ∧ (streamOf t h).map (fun x => x.frame.map (·.fault)) = some (some (some (Status.tierFault.code, m.srcTier, 1, BitVec.ofNat 64 m.src)))
      ∧ (∀ x ∈ t.mem.moves, x.purpose ≠ .frame h))

/-- RATE_WINDOW_CLOSE of an engine that reports, 1,024 ticks after the last, adds a window with the point in force, the calibrated chain
count and what was issued to the last 24, calibrates, and starts the counts again; before that it changes nothing. RATE_BELOW_MINIMUM of 24
low windows, with no trim run under way, logs them and indicates ageing. PACER_TOKEN_CREDIT, once a tick, puts the lowest of the limits in
force and credits the buckets with it, up to 64 tokens of 1,024; a second one in a tick changes nothing. WAVEFRONT_ISSUE of an engine that
may not issue changes nothing; a ballast wavefront of an engine with no segment running, and none ready or a change under way, takes a
token and is counted, and changes nothing else; a productive one, of a segment at a step that no bank swap ends, its tile store read
without error, adds to every accumulator of the bank and to the check columns, moves the cursor on, takes a token and is counted.
ATTENTION_STEP_ISSUE of a running segment, without a fault, counts a step up under the pipeline's own tokens. Each changes that engine
alone. -/
def Obligations.RateWindowsAndWavefronts : Prop :=
  (∀ (e : EngineId) (chain : Nat) (s : State), reports s e = true → passed s ((s.engines.get e).rateWinAt) 1024 = true →
    ∃ t, exec (.rateWindowClose e chain) s = .next t ∧ OnlyEngine s t e ∧ (t.engines.get e).productive = 0 ∧ (t.engines.get e).ballast = 0
      ∧ (t.engines.get e).windows = lastN 24 ((s.engines.get e).windows ++
          [⟨s.power.opForce, chain * (s.engines.get e).calib / 65536, (s.engines.get e).productive, (s.engines.get e).ballast⟩])
      ∧ (t.engines.get e).calib = calibration (s.engines.get e) chain
      ∧ (t.engines.get e).rateAt.get s.power.opForce = some (chain * (s.engines.get e).calib / 65536))
  ∧ (∀ (e : EngineId) (chain : Nat) (s : State), passed s ((s.engines.get e).rateWinAt) 1024 = false → exec (.rateWindowClose e chain) s = .next s)
  ∧ (∀ (e : EngineId) (s : State), reports s e = true → 24 ≤ (s.engines.get e).lowWindows → s.power.trimRun = none →
    ∃ t, exec (.rateBelowMinimum e) s = .next t ∧ t = { s with engines := t.engines, fw := t.fw, power := { s.power with ageing := true } }
      ∧ (t.engines.get e).lowWindows = 0 ∧ t.fw.dieLog.length = s.fw.dieLog.length + 1)
  ∧ (∀ (e : EngineId) (s : State), hasEngine s.fuses.variant e.1 = true → (s.engines.get e).creditAt ≠ some (now s) →
    ∃ t, exec (.pacerTokenCredit e) s = .next t ∧ OnlyEngine s t e ∧ (t.engines.get e).limitNow = limitOf (s.engines.get e).limits
      ∧ (t.engines.get e).tokens = (if limitOf (s.engines.get e).limits = 65535 then 65536 else min 65536 ((s.engines.get e).tokens + limitOf (s.engines.get e).limits))
      ∧ (t.engines.get e).attnTokens ≤ 65536)
  ∧ (∀ (e : EngineId) (s : State), (s.engines.get e).creditAt = some (now s) → exec (.pacerTokenCredit e) s = .next s)
  ∧ (∀ (e : EngineId) (b : Bool) (h : Option PatrolHit) (s : State), mayIssue s e (s.engines.get e).tokens = false →
    exec (.wavefrontIssue e ⟨b, h⟩) s = .next s)
  ∧ (∀ (e : EngineId) (h : Option PatrolHit) (s : State), mayIssue s e (s.engines.get e).tokens = true → (s.engines.get e).field = none →
    (nextSeg s e .field = none ∨ s.power.change.isSome = true) →
    ∃ t, exec (.wavefrontIssue e ⟨true, h⟩) s = .next t ∧ OnlyEngine s t e ∧ t.engines.get e = { countUnpaced (s.engines.get e) with
      tokens := spend (s.engines.get e).limitNow (s.engines.get e).tokens, ballast := (s.engines.get e).ballast + 1
      estBallast := (s.engines.get e).estBallast + 1 })
  ∧ (∀ (e : EngineId) (s : State) (f : FieldRun) (it : Itin) (fr : Frame) (b : LayerBody) (w : List Byte) (blk : Block) (d : StepData),
    mayIssue s e (s.engines.get e).tokens = true → (s.engines.get e).field = some f → f.swapWanted = false → f.tile < f.seg.t0 + f.seg.tn →
    cursorData s f f.tile = some (it, fr, b, w, blk, d) → (advance d f).2 = false →
    ∃ t, exec (.wavefrontIssue e ⟨false, none⟩) s = .next t ∧ OnlyEngine s t e ∧ (t.engines.get e).acc = waveData d f.pass f.run f.inStep f.bit (s.engines.get e).acc
      ∧ (t.engines.get e).check = waveCheck d f.pass f.run f.inStep f.bit (s.engines.get e).check ∧ (t.engines.get e).field = some (advance d f).1
      ∧ (t.engines.get e).tokens = spend (s.engines.get e).limitNow (s.engines.get e).tokens
      ∧ (t.engines.get e).productive = (s.engines.get e).productive + 1 ∧ (t.engines.get e).chain = (s.engines.get e).chain)
  ∧ (∀ (e : EngineId) (s : State) (a : AttnRun), (s.engines.get e).attn = some a → mayIssue s e (s.engines.get e).attnTokens = true → a.steps < a.seg.cost →
    ∃ t r, exec (.attentionStepIssue e ⟨false, none⟩) s = .next t ∧ OnlyEngine s t e ∧ (t.engines.get e).attn = some { a with steps := a.steps + 1, rows := r }
      ∧ (t.engines.get e).attnTokens = spend (s.engines.get e).limitNow (s.engines.get e).attnTokens
      ∧ (t.engines.get e).attnSteps = (s.engines.get e).attnSteps + 1 ∧ (t.engines.get e).tokens = (s.engines.get e).tokens)

/-- The check columns. A wavefront that takes no accumulator out of 32 bits, or of 57 of a pair's 64, keeps every check accumulator equal
to the sum of its data columns. A bank that agrees with its check columns no longer does once one accumulator of the run's columns, of a
zero weight too, on any of the 512 rows differs. -/
def Obligations.CheckColumnsDetect : Prop :=
  (∀ (d : StepData) (pass run j i : Nat) (acc chk : List (List Int)), (d.k = 1 ∨ d.k = 2) → i < d.wbits → acc.length = chk.length →
    (∀ row ∈ acc, row.length = min (perRun d) (d.ws.length - run * perRun d)) → (∀ row ∈ chk, row.length = 4) → bankOk d.k acc chk = true →
    (∀ (r c : Nat) (row : List Int) (a x : Int), acc[r]? = some row → row[c]? = some a →
      x = a + peAdds (latched d pass (r / d.acts.length) (r % d.acts.length) j) (weightBit d (r / d.acts.length) (run * perRun d + c) j i) i (d.wbits - 1) →
      -(if d.k = 1 then 2 ^ 31 else 2 ^ 56 : Int) ≤ x ∧ x < (if d.k = 1 then 2 ^ 31 else 2 ^ 56 : Int)) →
    bankOk d.k (waveData d pass run j i acc) (waveCheck d pass run j i chk) = true)
  ∧ (∀ (k cols : Nat) (acc chk : List (List Int)) (u : Upset), (k = 1 ∨ k = 2) → bankOk k acc chk = true → acc.length = chk.length →
    (∀ row ∈ acc, row.length ≤ cols) → cols ≤ 512 / k → u.row < 512 → u.col < cols → u.delta ≠ 0 → bankOk k (upset cols acc [u]) chk = false)

/-- BANK_DRAIN_COMPLETE of an engine whose bank, upsets included, disagrees with its check columns: an engine other than E6 in service is
retired, and a free E6 takes its place; one whose bank agrees, with no swap held, of a single pass: the drain ends and the chain state
takes the sums as combineRun says. WAYMARK_COMMIT of a field segment all of whose work is issued and drained, of a layer that is no
attention layer, in an itinerary with KV pages homed in T1, without a residue mismatch: the engine's field is free, the segment and no
other is committed in its frame at this tick, and no other engine and no byte of memory changes; with a residue mismatch an engine other
than E6 in service is retired. -/
def Obligations.DrainsAndCommits : Prop :=
  (∀ (e : EngineId) (us : List Upset) (s : State) (dr : Drain) (f : FieldRun) (it : Itin) (fr : Frame) (b : LayerBody) (w : List Byte) (blk : Block) (d : StepData),
    (s.engines.get e).drain = some dr → (s.engines.get e).field = some f → cursorData s f dr.tile = some (it, fr, b, w, blk, d) →
    ((bankOk d.k (upset (perRun d) (s.engines.get e).shadow us) (s.engines.get e).shadowCheck = false → (s.engines.get e).life = .inService →
        hasEngine s.fuses.variant e.1 = true → (s.engines.get 6).life = .laybyFree → e ≠ 6 →
        ∃ t, exec (.bankDrainComplete e us) s = .next t ∧ (t.engines.get e).life = .retired ∧ (t.engines.get 6).life = .laybyEngaged)
    ∧ (bankOk d.k (upset (perRun d) (s.engines.get e).shadow us) (s.engines.get e).shadowCheck = true → d.passes = 1 → f.swapWanted = false →
        ∃ t, exec (.bankDrainComplete e us) s = .next t ∧ OnlyEngine s t e ∧ (t.engines.get e).drain = none
          ∧ (t.engines.get e).chain = combineRun it.img fr.replaced b w blk d dr.run (s.engines.get e).high (upset (perRun d) (s.engines.get e).shadow us) (s.engines.get e).chain)))
  ∧ (∀ (e : EngineId) (s : State) (f : FieldRun) (st : Stream) (it : Itin) (fr : Frame), (s.engines.get e).field = some f → (s.engines.get e).drain = none →
    f.swapWanted = false → f.seg.t0 + f.seg.tn ≤ f.tile → streamOf s f.stream = some st → itinOf s st.itin = some it → st.frame = some fr →
    isAttn it fr f.seg = false → it.img.kvTier < 2 →
    ∃ t fr', exec (.waymarkCommit e .field false) s = .next t ∧ (t.engines.get e).field = none ∧ (∀ x, x ≠ e → t.engines.get x = s.engines.get x)
      ∧ SameBytes s t ∧ (streamOf t f.stream).bind (·.frame) = some fr' ∧ fr'.lastCommit = now s
      ∧ fr'.segs = fr.segs.map (fun x => if sameSeg x f.seg then { x with st := .committed } else x))
  ∧ (∀ (e : EngineId) (s : State) (f : FieldRun), (s.engines.get e).field = some f → (s.engines.get e).drain = none → f.swapWanted = false →
    f.seg.t0 + f.seg.tn ≤ f.tile → (s.engines.get e).life = .inService → hasEngine s.fuses.variant e.1 = true → (s.engines.get 6).life = .laybyFree → e ≠ 6 →
    ∃ t, exec (.waymarkCommit e .field true) s = .next t ∧ (t.engines.get e).life = .retired)

/-- SEGMENT_START of an engine in service with its field free and no change under way takes its next ready field segment, of a layer
started before, not of attention, with all moves landed, nothing damaged and no fault, and runs it from its first tile step; other engines,
other streams and memory are as before; in a change's approach or stop it changes nothing. LAYBY_SELF_TEST of a free E6 in READY, never
tested or 16,777,216 ticks after the last test, starts its test. LAYBY_SELF_TEST_DONE of a pass, after the first test, ends the test; of a
failure it uses E6 up, streams and other engines as before. FRAME_RELEASE at the tick fixed, of a forward feed of a stream that is not
postponed or catching up, with engines in service, releases the first feed's frame with its slot, deadline and lengths; before that tick it
changes nothing. EMPTY_SLOT, once the next slot of a RUNNING periodic stream without feeds and without an audio input binding has passed,
counts it. FRAME_FINISH of a frame that is over, fed by a command, not quiet, of a RUNNING periodic stream that has no more feeds,
snapshots, catch-up, audio output or written weights: the stream has one more finished frame, and one more advance where the frame ended
without fault, and the command's completion, with the frame's status, is the one entry added to what the die owes the host; memory and
other streams are as before. -/
def Obligations.SegmentsAndFramesRun : Prop :=
  (∀ (e : EngineId) (s : State) (st : Stream) (sg : Seg) (it : Itin) (fr : Frame), inService s e = true → resFree (s.engines.get e) .field = true →
    s.power.change = none → nextSeg s e .field = some (st, sg) → sg.res = .field → streamOf s st.handle = some st → itinOf s st.itin = some it → st.frame = some fr →
    fr.started.contains sg.layer = true → fr.fault = none → movesDone s st it fr sg = true → isAttn it fr sg = false → damagedItem s it fr sg = none →
    ∃ t f, exec (.segmentStart e .field) s = .next t ∧ (t.engines.get e).field = some f ∧ f.stream = st.handle ∧ f.tile = sg.t0 ∧ f.seg = { sg with st := .running, engine := e }
      ∧ (∀ x, x ≠ e → t.engines.get x = s.engines.get x) ∧ t.mem = s.mem ∧ OtherStreams s t st.handle)
  ∧ (∀ (e : EngineId) (r : Res) (s : State) (c : OpChange), s.power.change = some c → (c.phase = .approach ∨ c.phase = .stop) → exec (.segmentStart e r) s = .next s)
  ∧ (∀ s : State, (s.engines.get 6).life = .laybyFree → (s.engines.get 6).selfTest = none → ready s = true →
    (s.fw.laybyTested = false ∨ passed s ((s.engines.get 6).testAt) 16777216 = true) →
    exec .laybySelfTest s = .next (modEngine s 6 fun en => { en with selfTest := some true, testAt := now s }))
  ∧ (∀ (detail : Byte) (s : State), (s.engines.get 6).life = .laybyFree → (s.engines.get 6).selfTest = some true →
    ((s.fw.laybyTested = true → exec (.laybySelfTestDone true detail) s = .next (modEngine s 6 fun en => { en with selfTest := none }))
    ∧ (∃ t, exec (.laybySelfTestDone false detail) s = .next t ∧ (t.engines.get 6).life = .selfTestFailed ∧ t.streams = s.streams
        ∧ (∀ x, x ≠ 6 → t.engines.get x = s.engines.get x) ∧ t.fw.laybyTested = true)))
  ∧ (∀ (h : Nat) (s : State) (st : Stream) (it : Itin) (f : Feed) (fs : List Feed), streamOf s h = some st → itinOf s st.itin = some it →
    st.nextRelease = some (now s) → st.feeds = f :: fs → ready s = true → st.frame = none → st.st ≠ .lost → st.st ≠ .resuming → postponed s st = false →
    f.backward = false → st.catchup = false → st.active = [] → servingEngines s ≠ [] →
    ∃ t fr st', exec (.frameRelease h) s = .next t ∧ OnlyStreams s t ∧ OtherStreams s t h ∧ streamOf t h = some st' ∧ st'.frame = some fr ∧ st'.feeds = fs
      ∧ st'.nextRelease = none ∧ fr.slot = f.slot ∧ fr.release = now s ∧ fr.feed = f ∧ fr.deadline = st.deadline ∧ fr.lengths = st.lengths ∧ fr.fault = none)
  ∧ (∀ (h : Nat) (s : State) (st : Stream) (r : Tick), streamOf s h = some st → st.nextRelease = some r → reached s r = false → exec (.frameRelease h) s = .next s)
  ∧ (∀ (h : Nat) (s : State) (st : Stream), streamOf s h = some st → st.started = true → st.period ≠ 0 → st.feeds = [] → st.st = .running →
    bindOf s h true = none → reached s (nextSlot s st st.prevSlot 0 + 1) = true →
    ∃ t, exec (.emptySlot h) s = .next t ∧ OnlyStreams s t ∧ OtherStreams s t h
      ∧ streamOf t h = some { st with emptySlots := st.emptySlots + 1, prevSlot := some (nextSlot s st st.prevSlot 0) })
  ∧ (∀ (h : Nat) (s : State) (st : Stream) (it : Itin) (fr : Frame) (m : MailCmd), streamOf s h = some st → itinOf s st.itin = some it → st.frame = some fr →
    fr.feed.cmd = some m → ready s = true → frameOver fr = true → fr.quiet = false → st.feeds = [] → st.snapping = none → fr.snapEvery = 0 → fr.writes = [] →
    bindOf s h false = none → st.catchup = false → fr.catchH = none → st.st = .running → st.period ≠ 0 →
    ∃ t st' e, exec (.frameFinish h) s = .next t ∧ OtherStreams s t h ∧ streamOf t h = some st' ∧ st'.frame = none ∧ st'.finished = st.finished + 1
      ∧ st'.minRelease = fr.lastCommit ∧ st'.prevRelease = fr.release ∧ (fr.fault = none → st'.advances = st.advances + 1)
      ∧ t.host.outbox = s.host.outbox ++ [e] ∧ e.ring = m.ch.castSucc ∧ fld e.entry 0 2 = mailTag m ∧ fld e.entry 2 1 = frameStatus fr % 256 ∧ t.mem = s.mem)

/-- RESUME_COMPLETE of a resuming stream without feeds, a drain command or audio bindings whose snapshot's region is there and read: the
stream runs from 1,024 ticks from now, with the snapshot's lengths, histories and advance count and no debt, and one entry, STREAM_RESUMED,
is added for the host. Of one whose snapshot cannot be read: the stream is LOST without feeds, and each of its feeds has its completion.
AUDIO_BLOCK_END of a RUNNING stream's input block that has ended by the port's frame grid, with a frame in flight, adds a feed with its
slot 96 ticks after the end, in the ring where that has room, and counts the block. AUDIO_PLAY_START of an output block that has come, of a
port with a clock, puts out one serial frame for each of the block's sample frames, its slots' words in the binding's slots. In a serial
frame, of a slot in use, bit i below the word's MSB stands in the i-th BCLK period after that slot's first. AUDIO_FILL_REPOST of a fill
that stands, 24,576 ticks after its last event, posts it again. SLAVE_CLOCK_VALID within the tolerance makes a slave port's clock valid and
anchors its frame grid, and one outside changes nothing; SLAVE_CLOCK_LOST of a valid one makes it invalid. -/
def Obligations.ResumesAndAudioPorts : Prop :=
  (∀ (h : Nat) (s : State) (st : Stream) (it : Itin) (r : Region) (x : Snapshot), streamOf s h = some st → itinOf s st.itin = some it → st.st = .resuming →
    regionOf s st.snapRegion = some r → regionFault s r = none → readStatus s (regionAddr s r) r.bytes .ok = none →
    newestSnap s r.tier (regionAddr s r) = some x → audioBound s h = false → st.feeds = [] → st.drainCmd = none →
    ∃ t st', exec (.resumeComplete h .ok) s = .next t ∧ OnlyStreams s t ∧ OtherStreams s t h ∧ streamOf t h = some st' ∧ st'.st = .running
      ∧ st'.n0 = now s + 1024 ∧ st'.lengths = x.lengths ∧ st'.hist = x.hist.map (fun y => (nth (rmLayers it) y.1 0, y.2)) ∧ st'.advances = x.advances ∧ st'.debt = 0
      ∧ t.host.outbox.length = s.host.outbox.length + 1)
  ∧ (∀ (h : Nat) (s : State) (st : Stream) (it : Itin) (r : Region), streamOf s h = some st → itinOf s st.itin = some it → st.st = .resuming →
    regionOf s st.snapRegion = some r → regionFault s r = none → readStatus s (regionAddr s r) r.bytes .bad ≠ none →
    ∃ t st', exec (.resumeComplete h .bad) s = .next t ∧ OtherStreams s t h ∧ streamOf t h = some st' ∧ st'.st = .lost ∧ st'.feeds = []
      ∧ s.host.outbox.length + st.feeds.length < t.host.outbox.length)
  ∧ (∀ (p : ApId) (h stamp : Nat) (x : List (BitVec 513)) (s : State) (a : AudioPort) (c : ApCfg) (b : Bind) (st : Stream) (it : Itin), (s.audio.get p).cfg = some c →
    (s.audio.get p).binds.find? (fun b => b.stream == h && b.dirIn) = some b → streamOf s h = some st → itinOf s st.itin = some it → ready s = true →
    st.st = .running → b.j0.isSome = true → a = stamped (s.audio.get p) (b.j0.getD 0 + ((b.nextIn + 1) * b.block : Nat)) stamp →
    reached s (blockEnd a b b.nextIn) = true → st.frame.isSome = true →
    ∃ t f, exec (.audioBlockEnd p h ⟨x, stamp⟩) s = .next t ∧ OtherStreams s t h ∧ (streamOf t h).map (·.feeds) = some (st.feeds ++ [f]) ∧ f.cmd = none
      ∧ f.slot = blockEnd a b b.nextIn + 96 ∧ f.accepted = now s
      ∧ f.inRing = decide ((st.feeds.filter (·.inRing)).length < b.inDepth)
      ∧ ((t.audio.get p).binds.find? (fun b => b.stream == h && b.dirIn)).map (fun b => (b.nextIn, b.captured)) = some (b.nextIn + 1, b.captured + 1))
  ∧ (∀ (p : ApId) (h stamp : Nat) (bad : Bool) (s : State) (a : AudioPort) (c : ApCfg) (b : Bind) (st : Stream) (it : Itin), (s.audio.get p).cfg = some c →
    (s.audio.get p).binds.find? (fun b => b.stream == h && b.dirOut) = some b → streamOf s h = some st → itinOf s st.itin = some it → ready s = true →
    b.j0.isSome = true → a = stamped (s.audio.get p) (b.j0.getD 0 + ((b.nextOut + 1) * b.block + b.playSamples : Nat)) stamp →
    reached s (frameStart a (b.j0.getD 0 + ((b.nextOut + 1) * b.block + b.playSamples : Nat))).toNat = true → (c.slave = false ∨ a.clockValid = true) →
    ∃ t, ∃ rows : List (List Int), exec (.audioPlayStart p h ⟨bad, stamp⟩) s = .next t ∧ t = { s with audio := t.audio, host := t.host, out := t.out, free := t.free }
      ∧ t.out = s.out ++ [.audio p (rows.map (serialFrame c (slotsOf b.outMask)
        ((a.binds.filter fun y => y.dirOut && y.stream != h).flatMap fun y => slotsOf y.outMask)))] ∧ rows.length = b.block)
  ∧ (∀ (c : ApCfg) (slots others : List Nat) (words : List Int) (k n i : Nat), apOk c = true → k < c.slots → slots.findIdx? (· == k) = some n →
    i < c.word → (serialFrame c slots others words).data.getLsbD (bitPeriod c k i) = (BitVec.ofInt 32 (nth words n 0)).getLsbD (c.word - 1 - i)
      ∧ (serialFrame c slots others words).drive.getLsbD (bitPeriod c k i) = true)
  ∧ (∀ (p : ApId) (h : Nat) (s : State) (b : Bind), (s.audio.get p).binds.find? (fun b => b.stream == h && b.dirOut) = some b → ready s = true →
    b.fillRun ≠ 0 → passed s b.fillPost 24576 = true →
    exec (.audioFillRepost p h) s = .next (fillEvent (modBind s p h false fun b => { b with fillPost := now s }) p b))
  ∧ (∀ (p : ApId) (start period : Nat) (s : State) (c : ApCfg), (s.audio.get p).cfg = some c → c.slave = true → (s.audio.get p).clockValid = false →
    ((periodOk c period = true → ∃ t, exec (.slaveClockValid p start period) s = .next t ∧ t = { s with audio := t.audio } ∧ (t.audio.get p).clockValid = true
        ∧ (t.audio.get p).anchor = cdiv start 64 ∧ (∀ q, q ≠ p → t.audio.get q = s.audio.get q))
    ∧ (periodOk c period = false → exec (.slaveClockValid p start period) s = .next s)))
  ∧ (∀ (p : ApId) (s : State) (c : ApCfg), (s.audio.get p).cfg = some c → c.slave = true → (s.audio.get p).clockValid = true →
    exec (.slaveClockLost p) s = .next (modAp s p fun a => { a with clockValid := false }))

/-- OP_CHANGE_REQUEST in READY of a cause other than a trim: with no change under way, one that comes to the point in force changes
nothing, and any other holds a change to the point it comes to, deferred to a gap for the host's and BOOST's return, and else begun,
waiting for a ramp-down or in approach; during a change past its deferral it is latched. A deferred change to an allowed point other than
the one in force begins, where no ramp-down runs, at OP_CHANGE_GAP_START when no stream has a frame, and at OP_CHANGE_DEFER_TIMEOUT after
24,576 ticks. OP_STOP_BEGIN of a change in approach, with every engine in service at its boundary, begins the stop: issue is held at zero,
the detectors are masked, and the new set-point goes out. OP_STOP_SETTLED from the 58th to the 491st tick, with no latched target, puts
the new point in force with issue resumed and every engine's rate at it from a fresh chain count, which is a free value (log entry 156);
OP_STOP_TIMEOUT after 491 ticks does the same with the detectors against the lower target and the shortfall logged and counted.
APPROACH_TIMEOUT of an engine not at its boundary after 8,192 ticks not held, with no free E6, retires it; no other engine but E6 changes
its life. -/
def Obligations.OperatingPointChanges : Prop :=
  (∀ (target : Fin 5) (cause : OpCause) (s : State), ready s = true → s.power.change = none → cause ≠ .trim →
    minPoint (minPoint target (wantedPoint s)) (highestAllowed s) ≠ s.power.opForce →
    ∃ c, exec (.opChangeRequest target cause) s = .next { s with power := { s.power with change := some c, preRamp := if waitsForGap cause then s.power.preRamp else none } }
      ∧ c.phase = (if waitsForGap cause then .deferred else if rampingDown s then .waiting else .approach) ∧ c.old = s.power.opForce
      ∧ c.target = minPoint (minPoint target (wantedPoint s)) (highestAllowed s) ∧ c.since = now s)
  ∧ (∀ (target : Fin 5) (cause : OpCause) (s : State), ready s = true → s.power.change = none → cause ≠ .trim →
    minPoint (minPoint target (wantedPoint s)) (highestAllowed s) = s.power.opForce → exec (.opChangeRequest target cause) s = .next s)
  ∧ (∀ (target : Fin 5) (cause : OpCause) (s : State) (c : OpChange), ready s = true → s.power.change = some c → c.phase ≠ .deferred → cause ≠ .trim →
    exec (.opChangeRequest target cause) s = .next { s with power := { s.power with latched := some (minPoint (minPoint target (wantedPoint s)) (highestAllowed s)) } })
  ∧ (∀ (s : State) (c : OpChange), s.power.change = some c → c.phase = .deferred → c.target.1 ≤ (highestAllowed s).1 → c.target ≠ s.power.opForce →
    rampingDown s = false →
    ∃ t, t = { s with power := { s.power with change := some ⟨.approach, s.power.opForce, c.target, now s, c.trim⟩, preRamp := none } }
      ∧ ((∀ st ∈ s.streams, st.frame = none) → exec .opChangeGapStart s = .next t) ∧ (passed s c.since 24576 = true → exec .opChangeDeferTimeout s = .next t))
  ∧ (∀ (s : State) (c : OpChange), s.power.change = some c → c.phase = .approach → (∀ e, inService s e = true → atBoundary (s.engines.get e) = true) →
    ∃ t, exec .opStopBegin s = .next t ∧ t.power.change = some { c with phase := .stop, since := now s } ∧ t.power.masked = true ∧ t.power.vid = vidCode s c.target
      ∧ (∀ e, (t.engines.get e).limits.stop = 0) ∧ t.out = s.out ++ [.vid (vidCode s c.target)] ∧ t.power.opForce = s.power.opForce)
  ∧ (∀ (s : State) (c : OpChange), s.power.change = some c → c.phase = .stop → s.power.latched = none →
    (passed s c.since 58 = true → passed s c.since 492 = false →
      ∃ t, exec .opStopSettled s = .next t ∧ t.power.opForce = c.target ∧ t.power.change = none ∧ t.power.masked = false ∧ t.power.settled = true
        ∧ t.power.opStops = s.power.opStops + 1 ∧ t.power.opStopTicks = s.power.opStopTicks + elapsed s c.since ∧ (∀ e, (t.engines.get e).limits.stop = 65535)
        ∧ (∀ e, (t.engines.get e).rateAt.get c.target = some (Config.freeNat (s.free + e.1) * (s.engines.get e).calib / 65536) ∧ (t.engines.get e).windows = (s.engines.get e).windows)
        ∧ t.fw = s.fw ∧ t.mem = s.mem)
    ∧ (∀ short, passed s c.since 491 = true →
      ∃ t, exec (.opStopTimeout short) s = .next t ∧ t.power.opForce = c.target ∧ t.power.change = none ∧ t.power.masked = false ∧ t.power.settled = false
        ∧ t.power.slowRefMv = some (min (vidMv s.power.vidOld) (vidMv s.power.vidTarget))
        ∧ t.power.slowReg = s.power.slowReg + 1 ∧ t.fw.dieLog = s.fw.dieLog ++ [⟨s.fw.logSeq, now s, 0x0202, 0xFF, 1, BitVec.ofNat 128 (short % 65536)⟩]
        ∧ (∀ e, (t.engines.get e).limits.stop = 65535) ∧ t.mem = s.mem))
  ∧ (∀ (e : EngineId) (s : State) (c : OpChange), s.power.change = some c → c.phase = .approach → inService s e = true → atBoundary (s.engines.get e) = false →
    8192 ≤ (s.engines.get e).unheld → (s.engines.get 6).life ≠ .laybyFree →
    ∃ t, exec (.approachTimeout e) s = .next t ∧ (t.engines.get e).life = .retired ∧ t.power.change = s.power.change
      ∧ ∀ d, d ≠ e → d ≠ 6 → (t.engines.get d).life = (s.engines.get d).life)

/-- The governor's timed work in READY. ESTIMATE_WINDOW 246 ticks after the last starts the next window, the engines' counts at zero; the
base point and memory are as before. CALIBRATION_UPDATE 100 ms after the last, with VLOG read and fewer than four good pairs, keeps gain
and offset. CALIBRATION_FREEZE_GUARD 500 ms after the last calibration, with VLOG's readings lost, sets the guard and logs it. THROTTLE_END
of an episode inactive for 2,048 ticks ends it, posted at once but for DROOP and RAMP; THROTTLE_EVENT_INTERVAL_CLOSE after 24,576 ticks
posts what those held. OP_RETURN_HOLD_EXPIRY, with no change under way and no ramp-down, begins the change to the highest wanted and
allowed point that has stayed allowed for 1 s. ENERGY_CHARGE_SEND after 100 ms sends each stream's home on another die what its work used,
in whole microjoules; ENERGY_CHARGE_RECEIVE at a stream's home adds what it gets, and changes nothing else. A change of the mean current
between windows of exactly ΔI is within the slope limit, and a rise of more is not (R729). -/
def Obligations.GovernorTimersAct : Prop :=
  (∀ (s : State), ready s = true → passed s s.power.windowAt 246 = true →
    ∃ t, exec .estimateWindow s = .next t ∧ t.power.windowAt = now s ∧ t.power.opBase = s.power.opBase ∧ t.mem = s.mem
      ∧ ∀ e, (t.engines.get e).estProductive = 0 ∧ (t.engines.get e).estBallast = 0 ∧ (t.engines.get e).ran = [])
  ∧ (∀ (s : State), ready s = true → passed s s.power.calAt 2457600 = true → (s.power.readings.get 0).stopped = false →
    (s.power.calPairs.filter fun x => !x.2.2).length < 4 →
    exec .calibrationUpdate s = .next { s with power := { s.power with calAt := now s, calPairs := [] } })
  ∧ (∀ (s : State), ready s = true → s.power.guard = false → (s.power.readings.get 0).stopped = true → passed s s.power.calOk 12288000 = true →
    ∃ t, exec .calibrationFreezeGuard s = .next t ∧ t.power = { s.power with guard := true }
      ∧ t.fw.dieLog = s.fw.dieLog ++ [⟨s.fw.logSeq, now s, 0x0604, 0, 1, 0⟩] ∧ t = { s with power := t.power, fw := t.fw })
  ∧ (∀ (r : Fin 6) (s : State) (b : Tick), ready s = true → (s.power.episodes.get r).openAt = some b → (s.power.episodes.get r).active = false →
    passed s ((s.power.episodes.get r).lastActive) 2048 = true →
    ∃ t, exec (.throttleEnd r) s = .next t ∧ (t.power.episodes.get r).openAt = none ∧ (t.power.episodes.get r).ticks = (s.power.episodes.get r).ticks
      ∧ t.host.outbox.length = s.host.outbox.length + (if r = 2 ∨ r = 5 then 0 else 1) ∧ ∀ q, q ≠ r → t.power.episodes.get q = s.power.episodes.get q)
  ∧ (∀ (s : State), ready s = true → passed s s.power.throttleAt 24576 = true →
    ∃ t, exec .throttleEventIntervalClose s = .next t ∧ t.power.throttleAt = now s
      ∧ (∀ r, r = 2 ∨ r = 5 → (t.power.episodes.get r).heldBegin = none ∧ (t.power.episodes.get r).heldEnd = none)
      ∧ t.host.outbox.length = s.host.outbox.length + (s.power.episodes.get 2).heldBegin.toList.length + (s.power.episodes.get 2).heldEnd.toList.length
        + (s.power.episodes.get 5).heldBegin.toList.length + (s.power.episodes.get 5).heldEnd.toList.length)
  ∧ (∀ (s : State) (n : Fin 5) (b : Tick), ready s = true → s.power.change = none → s.power.opForce.1 < n.1 → n.1 ≤ (wantedPoint s).1 → n.1 ≤ (highestAllowed s).1 →
    rampingDown s = false → s.power.allowedAt.get n = some b → passed s b 24576000 = true →
    (∀ k, n.1 < k.1 → k.1 ≤ (wantedPoint s).1 → k.1 ≤ (highestAllowed s).1 → ∀ x, s.power.allowedAt.get k = some x → passed s x 24576000 = false) →
    exec .opReturnHoldExpiry s = .next { s with power := { s.power with change := some ⟨.approach, s.power.opForce, n, now s, false⟩, preRamp := none } })
  ∧ (∀ (s : State), ready s = true → passed s s.power.chargeAt 2457600 = true →
    ∃ t, exec .energyChargeSend s = .next t ∧ t.power = { s.power with chargeAt := now s } ∧ t.streams.length = s.streams.length ∧ t.mem = s.mem
      ∧ ∀ st ∈ s.streams, st.home ≠ s.fabric.id → 1000000 ≤ st.chargePj → .mgmt st.home (.energyCharge st.handle (st.chargePj / 1000000)) ∈ t.out)
  ∧ (∀ (p : PortId) (h uj : Nat) (s : State) (st : Stream), (s.fabric.ports.get p).st = .active → streamOf s h = some st → st.home = s.fabric.id →
    ∃ t st', exec (.energyChargeReceive p h uj) s = .next t ∧ streamOf t h = some st' ∧ st' = { st with energyPj := st.energyPj + uj * 1000000 }
      ∧ OtherStreams s t h ∧ t = { s with streams := t.streams })
  ∧ (∀ (s : State) (old : Nat), slopeKept s old (old + slopeStepMa s) = true ∧ slopeKept s (old + slopeStepMa s) old = true
    ∧ slopeKept s old (old + slopeStepMa s + 1) = false)

/-- DROOP_TRIP of a detector that sees VLOG more than 40 mV low against its reference, not masked, holds its engine where that is not held;
masked, or at 40 mV or less, it changes nothing. DROOP_RELEASE ends a hold when every detector of the engine not masked sees at most 20 mV.
DROOP_HOLD_TIMEOUT after 24,576 ticks masks and logs a detector that disagrees with the sense, the hold ended; where the sense agrees, the
highest point is held one below the point in force. THERMAL_SENSOR_READ of a reading in range sets the sensor's reading and its level by
levelOf, a reading exactly at an entry value entering that level, and posts a change of level and nothing else; a fourth missed reading
makes the sensor faulty and is logged. THERMAL_POINT_DROP after 1 s below half lowers the highest point by one; THERMAL_POINT_RETURN when
every sensor stayed below 92 degrees for 1 s raises it by one. THERMAL_TRIP of 120 degrees in S6 asserts internal reset at once and is
recorded. AGEING_TRIM_RUN of an indicated run whose counts all meet their target ends, the trim as it was, and is posted. -/
def Obligations.DroopThermalAndAgeing : Prop :=
  (∀ (e : EngineId) (q : Fin 4) (mv : Nat) (s : State), hasEngine s.fuses.variant e.1 = true → s.power.masked = false →
    (s.engines.get e).detMask.get q = false → (s.engines.get e).droopHold = none → 40 < refSag s mv →
    ∃ t, exec (.droopTrip e q mv) s = .next t ∧ (t.engines.get e).droopHold = some (now s)
      ∧ t = { s with engines := t.engines, power := { s.power with unshaped := true } } ∧ ∀ d, d ≠ e → t.engines.get d = s.engines.get d)
  ∧ (∀ (e : EngineId) (q : Fin 4) (mv : Nat) (s : State), (s.power.masked = true ∨ (s.engines.get e).detMask.get q = true ∨ refSag s mv ≤ 40) →
    exec (.droopTrip e q mv) s = .next s)
  ∧ (∀ (e : EngineId) (sags : Vector Nat 4) (s : State), (∀ q, (s.engines.get e).detMask.get q = true ∨ refSag s (sags.get q) ≤ 20) →
    ∃ t, exec (.droopRelease e sags) s = .next t ∧ (t.engines.get e).droopHold = none ∧ OnlyEngine s t e)
  ∧ (∀ (e : EngineId) (q : Fin 4) (mv : Nat) (s : State) (b : Tick), (s.engines.get e).droopHold = some b → (s.engines.get e).droopTold = false → passed s b 24576 = true →
    (mv ≤ 20 → ∃ t, exec (.droopHoldTimeout e q mv) s = .next t ∧ (t.engines.get e).droopHold = none ∧ (t.engines.get e).detMask.get q = true
      ∧ (∀ d, d ≠ e → t.engines.get d = s.engines.get d) ∧ t.power = s.power
      ∧ t.fw.dieLog = s.fw.dieLog ++ [⟨s.fw.logSeq, now s, 0x0602, BitVec.ofNat 8 e.1, 1, BitVec.ofNat 128 (e.1 + 256 * q.1)⟩])
    ∧ (20 < mv → s.power.opForce ≠ 0 → s.power.droopLimit = none → ∃ t l, exec (.droopHoldTimeout e q mv) s = .next t
      ∧ (t.engines.get e).droopTold = true ∧ (t.engines.get e).droopHold = some b ∧ t.power.droopLimit = some l ∧ l.1 + 1 = s.power.opForce.1))
  ∧ (∀ (n : SensorId) (r : Int) (s : State), ready s = true → sensorPresent s.fuses.variant n.1 = true → -640 ≤ r → r ≤ 2400 →
    (s.power.sensors.get n).faulty = false →
    ∃ t, exec (.thermalSensorRead n (some r)) s = .next t ∧ (t.power.sensors.get n).reading = r ∧ (t.power.sensors.get n).missed = 0
      ∧ (t.power.sensors.get n).level = levelOf s (s.power.sensors.get n).level r
      ∧ (∀ k ∈ [1, 2, 3], r = thermalEntry s k → k ≤ (t.power.sensors.get n).level)
      ∧ t.host.outbox.length = s.host.outbox.length + (if levelOf s (s.power.sensors.get n).level r = (s.power.sensors.get n).level then 0 else 1)
      ∧ ∀ k, k ≠ n → t.power.sensors.get k = s.power.sensors.get k)
  ∧ (∀ (n : SensorId) (s : State), ready s = true → sensorPresent s.fuses.variant n.1 = true → (s.power.sensors.get n).missed = 3 → (s.power.sensors.get n).faulty = false →
    ∃ t, exec (.thermalSensorRead n none) s = .next t ∧ (t.power.sensors.get n).faulty = true
      ∧ t.fw.dieLog = s.fw.dieLog ++ [⟨s.fw.logSeq, now s, 0x0608, 0xFF, 1, BitVec.ofNat 128 n.1⟩])
  ∧ (∀ (s : State) (b : Tick), ready s = true → s.power.thermLowSince = some b → passed s b 24576000 = true →
    ∃ t, exec .thermalPointDrop s = .next t ∧ t.power.thermalDrop = min 4 (s.power.thermalDrop + 1) ∧ t.power.sensors = s.power.sensors ∧ t.mem = s.mem)
  ∧ (∀ (s : State), ready s = true → s.power.thermalDrop ≠ 0 →
    (∀ n, sensorPresent s.fuses.variant n.1 = true → ∃ b, (s.power.sensors.get n).below92 = some b ∧ passed s b 24576000 = true) →
    ∃ t, exec .thermalPointReturn s = .next t ∧ t.power.thermalDrop + 1 = s.power.thermalDrop ∧ t.mem = s.mem)
  ∧ (∀ (n : SensorId) (r : Int) (s : State), RecordOk s → sensorPresent s.fuses.variant n.1 = true → 1920 ≤ r → s.seq.internalReset = false → s.seq.state = .s6 →
    ∃ t, exec (.thermalTrip n r) s = .next t ∧ t.seq.internalReset = true ∧ t.fw.state = .bootstrap ∧ t.streams = []
      ∧ ∃ x ∈ t.island.history, x.code = 0x070A ∧ x.data = BitVec.ofNat 128 (n.1 + (r.toNat % 65536) * 65536))
  ∧ (∀ (counts : List Nat) (s : State), ready s = true → s.power.change = none → s.power.trimRun = none → s.power.ageing = true → counts ≠ [] →
    (∀ c ∈ counts, s.fuses.canaryTarget.get s.power.opForce ≤ c) →
    ∃ t, exec (.ageingTrimRun 2 counts) s = .next t ∧ t.power.ageing = false ∧ t.power.trimRun = none ∧ t.power.trimMv = s.power.trimMv
      ∧ t.power.trimAt = s.power.trimAt ∧ t.host.outbox.length = s.host.outbox.length + 1)

/-- With AON_RST_N high and no step running, an on request of an enabled source in S1, with the island ready and 10 ms in S1 over: it is
ignored and logged while the shut or leak latch holds; outside a tray it starts the ascent, VMEM first; in a tray ASCENT_HOLDOFF_EXPIRY
starts it for an admitted die whose request is latched. A rail step of the ascent whose power-good comes 2,458 to 245,760 ticks after it
began starts the next step, and the fixed holds of steps 2 and 4 do the same after 2,458 ticks; step 7's hold, after 24,576 ticks with
SYS_RST_N high, enters S5 in BOOTSTRAP. An off request in S6 starts the quiescence; the firmware's report, or 20 ms, asserts internal reset
and takes VDDQ_M down. The last rail of the descent off within 245,760 ticks reaches S1, memory lost. A rail that becomes good or off at
245,760 ticks has not timed out: RAIL_STEP_TIMEOUT up to that tick changes nothing, and later in the ascent it is a sequence fault,
recorded as 0x0708, with one more ascent requested unless one has been made. A good rail that is lost is recorded as 0x0708, and in S5 or
S6 asserts internal reset. -/
def Obligations.SequencerAscendsAndDescends : Prop :=
  (∀ (src : ReqSrc) (s : State), (src = .auto → s.seq.pwrAuto = true) → s.seq.aonRst = false → s.seq.state = .s1 → s.seq.step = none → s.island.ready = true →
    (∀ x, s.seq.s1At = some x → passed s x 245760 = true) →
    ((s.seq.shut = true ∨ s.island.leakLatch = true) →
      ∃ t, exec (.powerOnRequest src) s = .next t ∧ t.seq = s.seq ∧ t.island.log.length = s.island.log.length + 1 ∧ t.mem = s.mem)
    ∧ (s.seq.shut = false → s.island.leakLatch = false → s.island.trayEn = false →
      ∃ t, exec (.powerOnRequest src) s = .next t ∧ t.seq.step = some ⟨true, 1, now s⟩ ∧ t.seq.vmem.en = true ∧ t.seq.request = none
        ∧ t = { s with seq := t.seq })
    ∧ (s.seq.shut = false → s.island.leakLatch = false → s.island.admitted = true → s.seq.request = some true →
      ∃ t, exec .ascentHoldoffExpiry s = .next t ∧ t.seq.step = some ⟨true, 1, now s⟩ ∧ t.seq.vmem.en = true ∧ t.seq.request = none ∧ t = { s with seq := t.seq }))
  ∧ (∀ (s : State) (n : Nat) (b : Tick), s.seq.step = some ⟨true, n, b⟩ → n ∈ [1, 3, 5, 6] → passed s b 2458 = true → passed s b 245761 = false → s.seq.request ≠ some false →
    s.seq.sysRst = false →
    ∃ t, exec .railStepDone s = .next t ∧ t.seq.step = some ⟨true, n + 1, now s⟩
      ∧ t.seq.state = (if n = 1 then .s2 else if n = 3 then .s3 else if n = 6 then .s4 else s.seq.state) ∧ t.mem = s.mem ∧ t.island = s.island)
  ∧ (∀ (s : State) (n : Nat) (b : Tick), s.seq.step = some ⟨true, n, b⟩ → (n = 2 ∨ n = 4) → passed s b 2458 = true → s.seq.request ≠ some false →
    ∃ t, exec .sequencerHoldExpiry s = .next t ∧ t.seq.step = some ⟨true, n + 1, now s⟩ ∧ t.mem = s.mem
      ∧ (n = 2 → t.seq.vlog.en = true ∧ t.power.vid = 40) ∧ (n = 4 → t.seq.vlnk.en = true ∧ t.seq.vddqmx.en = true))
  ∧ (∀ (s : State) (b : Tick), s.seq.step = some ⟨true, 7, b⟩ → passed s b 24576 = true → s.seq.sysRst = false → s.seq.request ≠ some false →
    ∃ t, exec .sequencerHoldExpiry s = .next t ∧ t.seq.state = .s5 ∧ t.seq.step = none ∧ t.seq.internalReset = false ∧ t.fw.state = .bootstrap
      ∧ t.fw.stage = stageFuses ∧ t.mem = s.mem)
  ∧ (∀ (src : ReqSrc) (s : State), src ≠ .auto → s.seq.aonRst = false → s.seq.state = .s6 → s.seq.step = none →
    ∃ t, exec (.powerOffRequest src) s = .next t ∧ t.seq.step = some ⟨false, 1, now s⟩ ∧ t.seq.request = none ∧ t.seq.cold = (s.seq.cold || src == .cold)
      ∧ t.seq.state = .s6 ∧ t = { s with seq := t.seq })
  ∧ (∀ (s : State) (b : Tick), s.seq.step = some ⟨false, 1, b⟩ → s.seq.vddqm.en = true →
    ∃ t, (ready s = true → exec .firmwareQuiesced s = .next t) ∧ (passed s b 491520 = true → exec .quiesceTimeout s = .next t)
      ∧ t.seq.internalReset = true ∧ t.seq.state = .s4 ∧ t.seq.step = some ⟨false, 3, now s⟩ ∧ t.seq.vddqm.en = false ∧ t.fw.state = .bootstrap ∧ t.streams = [] ∧ SameBytes s t)
  ∧ (∀ (s : State) (b : Tick), s.seq.step = some ⟨false, 6, b⟩ → passed s b 245761 = false →
    ∃ t, exec .railStepDone s = .next t ∧ t.seq.state = .s1 ∧ t.seq.step = none ∧ t.seq.s1At = some (now s) ∧ t.mem.cells = []
      ∧ t.seq.request = (if s.seq.cold then some true else s.seq.request) ∧ t.island.admitted = false)
  ∧ (∀ (s : State) (n : Nat) (b : Tick), s.seq.step = some ⟨false, n, b⟩ → n ∈ [3, 4, 5] → passed s b 245761 = false → s.seq.vmem.en = true →
    ∃ t, exec .railStepDone s = .next t ∧ t.seq.step = some ⟨false, if n = 3 ∧ (s.seq.vlnk.en = true ∨ s.seq.vddqmx.en = true) then 4 else
      if n ≤ 4 ∧ s.seq.vlog.en = true then 5 else 6, now s⟩ ∧ t.mem = s.mem)
  ∧ (∀ (s : State) (n : Nat) (b : Tick), RecordOk s → s.seq.step = some ⟨true, n, b⟩ → n ∈ [1, 3, 5, 6] → passed s b 245761 = true → s.seq.request ≠ some false →
    s.seq.cold = false →
    ∃ t, exec .railStepTimeout s = .next t ∧ t.seq.faulted = true ∧ t.seq.retried = true ∧ t.seq.request = (if s.seq.retried then none else some true)
      ∧ ∃ x ∈ t.island.history, x.code = 0x0708)
  ∧ (∀ (s : State) (st : SeqStep), s.seq.step = some st → passed s st.since 245761 = false → exec .railStepTimeout s = .next s)
  ∧ (∀ (d : Domain) (s : State) (r : Rail), RecordOk s → railOf s.seq d = some r → r.en = true → r.good = true →
    ∃ t r', exec (.railLoss d) s = .next t ∧ railOf t.seq d = some r' ∧ r'.good = false ∧ ((s.seq.state = .s5 ∨ s.seq.state = .s6) → t.seq.internalReset = true)
      ∧ ∃ x ∈ t.island.history, x.code = 0x0708)

/-- AON_RST_N low leads to S0 with no step running: it takes every rail enable away at once, T0 to T2 lost, no stream left and the island
down; the fuses, the shut latch, the baselines, and the island's key and fault record stay. Its release clears the MSC and samples the
straps. SYS_RST_N low in S5 or S6, with no descent running and no off request latched, asserts internal reset in S4 with the rails as they
were, no stream or itinerary left, the PCIe link down and memory kept; its release in S4, with no step running, starts step 7 of the
ascent. -/
def Obligations.ResetPinsAct : Prop :=
  (∀ (s : State), ∃ t, exec .aonReset s = .next t ∧ t.seq.state = .s0 ∧ t.seq.step = none ∧ t.seq.aonRst = true ∧ t.seq.vlog.en = false ∧ t.seq.vmem.en = false
    ∧ t.seq.vlnk.en = false ∧ t.seq.vddqm.en = false ∧ t.seq.vddqmx.en = false ∧ t.mem.cells = [] ∧ t.streams = [] ∧ t.island.up = false
    ∧ t.island.key = s.island.key ∧ t.island.standing = s.island.standing ∧ t.island.history = s.island.history ∧ (∀ d, (t.seq.pdn.get d).baseline = (s.seq.pdn.get d).baseline) ∧ t.seq.shut = s.seq.shut
    ∧ t.power.stewardCap = none ∧ t.fuses = s.fuses)
  ∧ (∀ (trayEn auto : Bool) (slot : SlotId) (s : State), s.seq.aonRst = true →
    ∃ t, exec (.aonResetRelease trayEn slot auto) s = .next t ∧ now t = 0 ∧ t.seq = { s.seq with aonRst := false, pwrAuto := auto }
      ∧ t.island = { s.island with trayEn := trayEn, slot := slot, startAt := 0 } ∧ t.mem = s.mem ∧ t.flash = s.flash)
  ∧ (∀ (s : State), (s.seq.state = .s5 ∨ s.seq.state = .s6) → s.seq.request ≠ some false → goingDown s = false →
    ∃ t, exec .sysResetAssert s = .next t ∧ t.seq.sysRst = true ∧ t.seq.internalReset = true ∧ t.seq.state = .s4 ∧ t.seq.step = none
      ∧ t.seq.vlog = s.seq.vlog ∧ t.seq.vmem = s.seq.vmem ∧ t.fw.state = .bootstrap ∧ t.streams = [] ∧ t.itins = [] ∧ t.host.linkUp = false ∧ SameBytes s t)
  ∧ (∀ (s : State), s.seq.state = .s4 → s.seq.step = none →
    exec .sysResetRelease s = .next { s with seq := { s.seq with sysRst := false, step := some ⟨true, 7, now s⟩ } })

/-- The island's PMBus readings, while it is up and the rail on: a good one is kept and counted, a failed one counted, three in a row
stopping the domain's checks; STATUS is kept, and an alert keeps STATUS_WORD alone. A sample exactly 30 % above baseline leaves no count
toward the alarm, and one exactly 60 % above none toward the shut. BASELINE_LEARNED of a domain without baseline, 30 minutes of S6 after
its learning began, makes the median sample its baseline. PDN_ALARM_RAISE of a domain sampled above 130 % for 1 s, while the shut latch is
open, raises its alarm with a cap target of half the cap in force; PDN_SHUT after three samples above 160 % latches the shut and starts the
descent of a die in S6; PDN_ALARM_CLEAR of one sampled at or below 120 % for 60 s clears it. Each of the three posts one event. -/
def Obligations.PowerDeliveryGuarded : Prop :=
  (∀ (d : Domain) (ma uv : Nat) (temp : Int) (con : Bool) (s : State), (∀ r, railOf s.seq d = some r → r.en = true) → s.seq.aonRst = false → s.island.up = true →
    (∃ t, exec (.pmbusIoutRead d ma uv temp con true) s = .next t ∧ (t.power.readings.get (domIdx d)).ioutMa = ma ∧ (t.power.readings.get (domIdx d)).fails = 0
      ∧ (t.power.readings.get (domIdx d)).goods = (s.power.readings.get (domIdx d)).goods + 1 ∧ (∀ e, e ≠ domIdx d → t.power.readings.get e = s.power.readings.get e)
      ∧ t.mem = s.mem ∧ t.fw = s.fw)
    ∧ (∃ t, exec (.pmbusIoutRead d ma uv temp con false) s = .next t ∧ (t.power.readings.get (domIdx d)).fails = (s.power.readings.get (domIdx d)).fails + 1
      ∧ (t.power.readings.get (domIdx d)).stopped = ((s.power.readings.get (domIdx d)).stopped || decide (2 ≤ (s.power.readings.get (domIdx d)).fails))
      ∧ (t.power.readings.get (domIdx d)).ioutMa = (s.power.readings.get (domIdx d)).ioutMa ∧ t.seq = s.seq))
  ∧ (∀ (d : Domain) (ma uv base : Nat) (temp : Int) (s : State), (∀ r, railOf s.seq d = some r → r.en = true) → s.seq.aonRst = false → s.island.up = true →
    d ≠ .vddqmx → (s.power.readings.get (domIdx d)).stopped = false → peakMa s.fuses.variant d ≤ 10 * ma → ma ≠ 0 →
    (s.seq.pdn.get (domIdx d)).baseline = some base →
    (10 * resAtBase (uv * 1000 / ma) temp (s.seq.pdn.get (domIdx d)).baseTemp = 13 * base →
      ∃ t, exec (.pmbusIoutRead d ma uv temp true true) s = .next t ∧ (t.seq.pdn.get (domIdx d)).over30Since = none)
    ∧ (10 * resAtBase (uv * 1000 / ma) temp (s.seq.pdn.get (domIdx d)).baseTemp = 16 * base →
      ∃ t, exec (.pmbusIoutRead d ma uv temp true true) s = .next t ∧ (t.seq.pdn.get (domIdx d)).over60 = 0))
  ∧ (∀ (d : Domain) (mv : Nat) (temp : Int) (w : BitVec 16) (s : State) (r : Rail), railOf s.seq d = some r → r.en = true → s.seq.aonRst = false → s.island.up = true →
    (∃ t, exec (.pmbusStatusRead d mv temp w true) s = .next t ∧ (t.power.readings.get (domIdx d)).voutMv = mv ∧ (t.power.readings.get (domIdx d)).temp = temp
      ∧ (t.power.readings.get (domIdx d)).status = w ∧ (t.power.readings.get (domIdx d)).ioutMa = (s.power.readings.get (domIdx d)).ioutMa ∧ t.seq = s.seq ∧ t.mem = s.mem)
    ∧ (∃ t, exec (.pmbusAlert d w) s = .next t ∧ t.power.readings.get (domIdx d) = { s.power.readings.get (domIdx d) with status := w }
      ∧ (∀ e, e ≠ domIdx d → t.power.readings.get e = s.power.readings.get e) ∧ t = { s with power := t.power }))
  ∧ (∀ (d : Domain) (s : State) (m : Nat × Int), (s.seq.pdn.get (domIdx d)).baseline = none → (s.seq.pdn.get (domIdx d)).learnFrom + 44236800000 ≤ s6Time s →
    medianSample (s.seq.pdn.get (domIdx d)).samples = some m →
    ∃ t, exec (.baselineLearned d) s = .next t ∧ t.seq.pdn.get (domIdx d) = { s.seq.pdn.get (domIdx d) with baseline := some m.1, baseTemp := m.2, samples := [] }
      ∧ (∀ e, e ≠ domIdx d → t.seq.pdn.get e = s.seq.pdn.get e) ∧ t = { s with seq := t.seq })
  ∧ (∀ (d : Domain) (s : State) (b base : Nat), (s.seq.pdn.get (domIdx d)).over30Since = some b → 24576000 ≤ sampledFor s (s.seq.pdn.get (domIdx d)) b → (s.seq.pdn.get (domIdx d)).baseline = some base →
    (s.seq.pdn.get (domIdx d)).alarm = false → s.seq.shut = false →
    ∃ t, exec (.pdnAlarmRaise d) s = .next t ∧ (t.seq.pdn.get (domIdx d)).alarm = true ∧ (t.seq.pdn.get (domIdx d)).alarmTarget = some (capInForce s / 2)
      ∧ capTarget t ≤ capInForce s / 2 ∧ t.host.outbox.length = s.host.outbox.length + 1 ∧ t.mem = s.mem)
  ∧ (∀ (d : Domain) (s : State) (base : Nat), s.seq.shut = false → (s.seq.pdn.get (domIdx d)).baseline = some base → 3 ≤ (s.seq.pdn.get (domIdx d)).over60 →
    s.seq.aonRst = false → s.seq.state = .s6 → s.seq.step = none →
    ∃ t, exec (.pdnShut d) s = .next t ∧ t.seq.shut = true ∧ t.seq.step = some ⟨false, 1, now s⟩ ∧ t.host.outbox.length = s.host.outbox.length + 1)
  ∧ (∀ (d : Domain) (s : State) (b : Tick), (s.seq.pdn.get (domIdx d)).under20Since = some b → 1474560000 ≤ sampledFor s (s.seq.pdn.get (domIdx d)) b → (s.seq.pdn.get (domIdx d)).alarm = true →
    ∃ t, exec (.pdnAlarmClear d) s = .next t ∧ (t.seq.pdn.get (domIdx d)).alarm = false ∧ (t.seq.pdn.get (domIdx d)).alarmTarget = none
      ∧ t.host.outbox.length = s.host.outbox.length + 1 ∧ t.mem = s.mem)

/-- STAT_TOGGLE at a multiple of 50 ms drives STAT_OUT low under an error, else the half of the square wave the tick falls in, and kicks
the watchdog; 200 ms without a kick drive it high. STAT_IN_SAMPLE notes each input's level and the tick of a change; an input unchanged for
300 ms without a rising edge is hung where it is high and in error where it is low; one that changes 150 ms or less after its last opposite
edge is healthy. ELECTION, 1 s after the island's start with no HEARTBEAT heard, makes the lowest eligible slot primary and the next one
standby. A standby that heard its primary last 500 ms ago takes over, and counts every slot whose input is not in error with the cap it
holds itself. A primary without standby names the lowest other eligible slot, and the slot named is standby. -/
def Obligations.StatLinesAndElection : Prop :=
  (∀ (s : State), islandRuns s = true → now s % 1228800 = 0 →
    ∃ t, exec .statToggle s = .next t ∧ t.island.statOut = (if statError s then .low else .wave (now s / 1228800 % 2 == 1)) ∧ t.island.statKick = now s
      ∧ OnlyIsland s t)
  ∧ (∀ (s : State), islandRuns s = true → passed s s.island.statKick 4915200 = true →
    exec .statWatchdogExpiry s = .next { s with island := { s.island with statOut := .high } })
  ∧ (∀ (lv : BitVec 16) (s : State), inTray s = true →
    ∃ t, exec (.statInSample lv) s = .next t ∧ OnlyIsland s t ∧ ∀ n : SlotId, (t.island.statIn.get n).level = lv.getLsbD n.1
      ∧ ((s.island.statIn.get n).level ≠ lv.getLsbD n.1 → (t.island.statIn.get n).since = now s)
      ∧ ((s.island.statIn.get n).level = lv.getLsbD n.1 → (s.island.statIn.get n).rise = none → passed s ((s.island.statIn.get n).since) 7372800 = true →
          (t.island.statIn.get n).cls = if lv.getLsbD n.1 then .hung else .error)
      ∧ ((s.island.statIn.get n).level ≠ lv.getLsbD n.1 → (∀ b, (if lv.getLsbD n.1 then (s.island.statIn.get n).fall else (s.island.statIn.get n).rise) = some b →
          passed s b 3686401 = false → (t.island.statIn.get n).cls = .healthy)))
  ∧ (∀ (s : State), inTray s = true → s.island.elected = false → s.island.beatSeen = false → passed s s.island.startAt 24576000 = true →
    ∃ t, exec .election s = .next t ∧ t.island.elected = true ∧ t.island.primary = (eligible s).head? ∧ t.island.standby = (eligible s).tail.head?
      ∧ t.island.role = (if (eligible s).head? = some s.island.slot then .primary else if (eligible s).tail.head? = some s.island.slot then .standby else .none)
      ∧ t.mem = s.mem)
  ∧ (∀ (s : State), inTray s = true → s.island.role = .standby → passed s s.island.lastBeat 12288000 = true →
    ∃ t, exec .primaryVacant s = .next t ∧ t.island.role = .primary ∧ t.island.primary = some s.island.slot ∧ t.island.coolArmed = true ∧ t.island.lastBeat = now s
      ∧ t.mem = s.mem ∧ t.streams = s.streams
      ∧ (∀ (mw : Nat) (n : SlotId), s.power.stewardCap = some mw → n ≠ s.island.slot → (s.island.statIn.get n).cls ≠ .error →
          n ∈ t.island.counted ∧ t.island.caps.get n = mw))
  ∧ (∀ (s : State) (d : SlotId), inTray s = true → s.island.role = .primary → s.island.standby = none → ((eligible s).filter (· != s.island.slot)).head? = some d →
    ∃ t, exec .primaryRerank s = .next t ∧ OnlyIsland s t ∧ t.island.standby = some d ∧ t.out = s.out ++ [.tray none s.island.txSeq (.standbyNamed d)])
  ∧ (∀ (h : TrayHead) (n : SlotId) (s : State), inTray s = true → h.pecOk = true →
    ∃ t, exec (.standbyNamed h n) s = .next t ∧ OnlyIsland s t ∧ t.island.standby = some n
      ∧ t.island.role = (if n = s.island.slot then .standby else if s.island.role = .standby then .none else s.island.role))

/-- HEARTBEAT, STATE and CAP in a tray, between islands whose messages have a good PEC. The primary sends its HEARTBEAT 100 ms after the
last; an island that takes one, none that is primary at a lower slot, has the roles and values it carries. Any other island sends the
primary its STATE 100 ms after the last, and the primary keeps it and counts the die that waits for admission or runs, and not one in S1. A
CAP becomes the steward cap and is acknowledged, and it admits a die whose on request is latched. The acknowledgement of the push sent puts
its cap in place. A push of another slot not acknowledged in 10 ms is sent again up to three times, then given up with record 0x0506, that
slot counted with the higher cap. Under demand sharing CAP_RECOMPUTE 100 ms after the last is a new generation. A CAP with a bad PEC is
dropped, counted and logged. -/
def Obligations.BeatsStatesAndCaps : Prop :=
  (∀ (s : State), inTray s = true → s.island.role = .primary → passed s s.island.beatAt 2457600 = true →
    ∃ t, exec .heartbeatSend s = .next t ∧ OnlyIsland s t ∧ t.out = s.out ++ [.tray none s.island.txSeq (.heartbeat (beatOf s))] ∧ t.island.beatAt = now s)
  ∧ (∀ (h : TrayHead) (b : Beat) (s : State), inTray s = true → h.pecOk = true → (s.island.role = .primary → h.src.1 ≤ s.island.slot.1) →
    ∃ t, exec (.trayHeartbeat h b) s = .next t ∧ t.island.primary = some b.primary ∧ t.island.standby = b.standby ∧ t.island.trayCapW = b.trayCapW
      ∧ t.island.lastBeat = now s ∧ t.island.beatSeen = true ∧ t.island.shutdownAt = none ∧ t.island.seqMark = max s.island.seqMark b.seqMark
      ∧ t.island.role = (if b.primary = s.island.slot then .primary else if b.standby = some s.island.slot then .standby else .none)
      ∧ t.power.slope = b.slope ∧ t.power.entryOff = #v[b.warnOff, b.throttleOff, b.criticalOff] ∧ t.power.stewardHalf = b.stewardHalf ∧ t.mem = s.mem)
  ∧ (∀ (s : State), inTray s = true → s.island.role ≠ .primary → passed s s.island.stateAt 2457600 = true →
    ∃ t, exec .stateSend s = .next t ∧ OnlyIsland s t ∧ t.out = s.out ++ [.tray s.island.primary s.island.txSeq (.state (stateOfDie s))] ∧ t.island.stateAt = now s)
  ∧ (∀ (h : TrayHead) (b : TrayStateBody) (s : State), inTray s = true → h.pecOk = true → s.island.role = .primary → s.island.pushes.get h.src = none →
    ∃ t, exec (.trayState h b) s = .next t ∧ t.mem = s.mem ∧ t.island.tray.get h.src = some b ∧ (∀ n, n ≠ h.src → t.island.tray.get n = s.island.tray.get n)
      ∧ ((b.onPending = true ∨ 2 ≤ b.seqState) → h.src ∈ t.island.counted) ∧ (b.onPending = false → b.seqState ≤ 1 → h.src ∉ t.island.counted)
      ∧ (b.onPending = false → 2 ≤ b.seqState → h.src ∈ s.island.counted → allKnown s = true →
        OnlyIsland s t ∧ t.out = s.out ∧ t.island.counted = s.island.counted ∧ t.island.pushes = s.island.pushes
        ∧ t.island.caps.get h.src = b.capMw.getD 130000 ∧ ∀ n, n ≠ h.src → t.island.caps.get n = s.island.caps.get n))
  ∧ (∀ (h : TrayHead) (mw g : Nat) (s : State), inTray s = true → h.pecOk = true →
    ∃ t, exec (.trayCap h mw g) s = .next t ∧ t.power.stewardCap = some mw ∧ .tray (some h.src) s.island.txSeq (.capAck g) ∈ t.out ∧ t.mem = s.mem
      ∧ (s.seq.request = some true → t.island.admitted = true) ∧ (s.seq.request ≠ some true → t.island.capAfterRequest = true))
  ∧ (∀ (h : TrayHead) (g : Nat) (s : State) (p : CapPush), inTray s = true → h.pecOk = true → s.island.role = .primary → s.island.pushes.get h.src = some p → p.gen = g →
    ∃ t, exec (.capAck h g) s = .next t ∧ t.island.caps.get h.src = p.cap ∧ t.island.pushes.get h.src = none ∧ t.mem = s.mem)
  ∧ (∀ (n : SlotId) (s : State) (p : CapPush) (b : Tick), inTray s = true → s.island.role = .primary → s.island.pushes.get n = some p → p.sentAt = some b →
    passed s b 245760 = true → n ≠ s.island.slot →
    (p.tries < 4 → ∃ t, exec (.capResend n) s = .next t ∧ OnlyIsland s t ∧ t.island.pushes.get n = some { p with tries := p.tries + 1, sentAt := some (now s) }
      ∧ t.out = s.out ++ [.tray (some n) s.island.txSeq (.cap p.cap p.gen)])
    ∧ (4 ≤ p.tries → ∃ t, exec (.capResend n) s = .next t ∧ t.island.pushes.get n = some { p with sentAt := none } ∧ t.island.caps.get n = max p.cap p.old
      ∧ ∃ x ∈ t.island.log, x.code = 0x0506))
  ∧ (∀ (s : State), inTray s = true → s.island.role = .primary → s.island.demand = true → passed s s.island.capAt 2457600 = true →
    ∃ t, exec .capRecompute s = .next t ∧ t.island.capAt = now s ∧ t.island.gen = s.island.gen + 1 ∧ t.mem = s.mem)
  ∧ (∀ (h : TrayHead) (mw g : Nat) (s : State), inTray s = true → h.pecOk = false →
    ∃ t, exec (.trayCap h mw g) s = .next t ∧ OnlyIsland s t ∧ t.island.pecDropped = s.island.pecDropped + 1 ∧ t.island.log.length = s.island.log.length + 1
      ∧ t.power = s.power)

/-- Roles in a tray. TRAY_ROLE_REQUEST to an island with a role is accepted for 10 ms later; one that crosses its own gives that up, with a
hold of 1 s at the lower slot and 2 s at the other; an acceptance sets the tick. TRAY_ROLE_SWAP at that tick swaps primary and standby. A
request unanswered for 100 ms is given up for 1 s; a standby of a lower slot than the primary asks again when its hold is over. TRAY_POWER
off starts the descent of a die in S6; on admits one in S1 that had its CAP. RELAY is sent on to the rack manager by the primary; another
island, and only the forms named here, clears its leak latch, or sets its lamp and answers (log entry 24). TRAY_POWER_ON_SEQUENCE counts
the first slot to be powered on and waits 10 ms for the next. Without HEARTBEAT for 30 s an island that is not primary sets its power-down
100 ms per slot number later, and at that tick descends from S6; a primary that takes its tray down switches the next slot off when its
moment comes. -/
def Obligations.RolesSwapAndTrayPower : Prop :=
  (∀ (h : TrayHead) (s : State), inTray s = true → h.pecOk = true →
    (s.island.roleReq = none → s.island.role ≠ .none → s.island.swapAt = none →
      ∃ t, exec (.trayRoleRequest h) s = .next t ∧ OnlyIsland s t ∧ t.island.swapAt = some (now s + 245760) ∧ t.island.role = s.island.role
        ∧ t.out = s.out ++ [.tray (some h.src) s.island.txSeq (.roleAccept (now s + 245760))])
    ∧ (∀ b, s.island.roleReq = some b → exec (.trayRoleRequest h) s =
        .next { s with island := { s.island with roleReq := none, noReqUntil := now s + (if s.island.slot.1 < h.src.1 then 24576 else 49152) } })
    ∧ (∀ b sw, s.island.roleReq = some b → exec (.trayRoleAccept h sw) s = .next { s with island := { s.island with roleReq := none, swapAt := some sw } }))
  ∧ (∀ (s : State) (b : Tick), inTray s = true → s.island.swapAt = some b → reached s b = true → s.island.role ≠ .none →
    ∃ t, exec .trayRoleSwap s = .next t ∧ OnlyIsland s t ∧ t.island.role = (if s.island.role = .primary then .standby else .primary)
      ∧ t.island.primary = s.island.standby ∧ t.island.standby = s.island.primary ∧ t.island.swapAt = none ∧ t.island.coolArmed = (s.island.role == .standby))
  ∧ (∀ (s : State) (b : Tick), s.island.roleReq = some b → passed s b 2457600 = true →
    exec .trayRoleRequestTimeout s = .next { s with island := { s.island with roleReq := none, noReqUntil := now s + 24576000 } })
  ∧ (∀ (s : State) (p : SlotId), inTray s = true → s.island.noReqUntil ≠ 0 → reached s s.island.noReqUntil = true → s.island.role = .standby → s.island.roleReq = none →
    s.island.swapAt = none → s.island.primary = some p → s.island.slot.1 < p.1 →
    ∃ t, exec .trayRoleHoldoffExpiry s = .next t ∧ OnlyIsland s t ∧ t.island.noReqUntil = 0 ∧ t.island.roleReq = some (now s)
      ∧ t.out = s.out ++ [.tray (some p) s.island.txSeq .roleRequest])
  ∧ (∀ (h : TrayHead) (s : State), inTray s = true → h.pecOk = true → s.seq.step = none →
    (s.seq.state = .s6 → ∃ t, exec (.trayPower h false) s = .next t ∧ t.seq.step = some ⟨false, 1, now s⟩ ∧ t = { s with seq := t.seq })
    ∧ (s.seq.state = .s1 → s.seq.shut = false → s.island.leakLatch = false → s.island.capAfterRequest = true →
      ∃ t, exec (.trayPower h true) s = .next t ∧ t.island.admitted = true ∧ t.island.capAfterRequest = false
        ∧ (t.seq.request = some true ∨ t.seq.step = some ⟨true, 1, now s⟩) ∧ t.mem = s.mem))
  ∧ (∀ (h : TrayHead) (ty res echo : Nat) (body : List Byte) (s : State), inTray s = true → h.pecOk = true → s.island.role = .primary → hasEth s.fuses.variant = true → res < 256 →
    ∃ t hd tag, exec (.trayRelay h (relayLoad ty res echo body)) s = .next t ∧ OnlyIsland s t ∧ t.out = s.out ++ [.wairiq hd body tag] ∧ fld hd 11 1 = res
      ∧ t.island.wqSeq = s.island.wqSeq + 1)
  ∧ (∀ (h : TrayHead) (s : State), inTray s = true → h.pecOk = true → s.island.role ≠ .primary →
    exec (.trayRelay h (relayLoad 0x08 0 0 [2])) s = .next (clearLeakHere s)
    ∧ ∀ (n : LampId) (d echo : Nat), d ≤ 1000 → echo ≠ 0 → echo < 2 ^ 64 →
      ∃ t, exec (.trayRelay h (relayLoad 0x07 0 echo ([BitVec.ofNat 8 s.island.slot.1, BitVec.ofNat 8 n.1] ++ leBytes 2 d))) s = .next t ∧ OnlyIsland s t
        ∧ (t.island.lamps.get n).next = some d ∧ t.out = s.out ++ [.tray (some h.src) s.island.txSeq (.relay (relayLoad 0x07 wqDone echo []))])
  ∧ (∀ (s : State) (n : SlotId), inTray s = true → s.island.role = .primary → reached s s.island.nextPower = true → (fins 16).find? (wantsPower s) = some n →
    ∃ t, exec .trayPowerOnSequence s = .next t ∧ t.island.nextPower = now s + 245760 ∧ n ∈ t.island.counted ∧ t.mem = s.mem)
  ∧ (∀ (s : State), inTray s = true → s.island.role ≠ .primary → s.island.shutdownAt = none → s.island.shutDone = false → passed s s.island.lastBeat 737280000 = true →
    ∃ t, exec .heartbeatLossShutdown s = .next t ∧ OnlyIsland s t ∧ t.island.shutdownAt = some (now s + s.island.slot.1 * 2457600))
  ∧ (∀ (s : State) (b : Tick), inTray s = true → s.island.shutdownAt = some b → reached s b = true → s.island.trayDown = none → s.seq.state = .s6 → s.seq.step = none →
    ∃ t, exec .orderedPowerdownStart s = .next t ∧ t.island.shutdownAt = none ∧ t.island.shutDone = true ∧ t.seq.step = some ⟨false, 1, now s⟩ ∧ t.mem = s.mem)
  ∧ (∀ (s : State) (b : Tick) (d : SlotId), inTray s = true → s.island.role = .primary → s.island.shutdownAt = none → s.island.trayDown = some b →
    s.island.trayDownNext = d.1 → passed s b (d.1 * 2457600) = true → d ≠ s.island.slot →
    ∃ t, exec .orderedPowerdownStart s = .next t ∧ OnlyIsland s t ∧ t.island.trayDownNext = d.1 + 1 ∧ d ∈ t.island.markedOff
      ∧ t.out = s.out ++ [.tray (some d) s.island.txSeq (.power false)])

/-- Cooling. The armed watchdog's first stage, 2 s after the last kick, drives the cooling to its most; its second, 4 s after it, resets
the island's core, which keeps its leak latch, key and standing entries. AIN_SAMPLE keeps a reading; on the primary it also sets the pumps'
duty, from 20 to 100 %, and kicks the watchdog. On a primary with coolant limits: an input beyond a warning limit for 1 s warns, with the
duty at 100 %; beyond a critical one for 1 s it halves the steward's rate and lowers the thermal entries by 20 degrees, sent at once; 60 s
beyond one the tray begins to go down; 10 s within its limits, with no other input critical, restores what the steward had set. -/
def Obligations.CoolingGuarded : Prop :=
  (∀ (s : State), s.island.coolArmed = true → s.island.coolMax = false → passed s s.island.coolKick 49152000 = true →
    ∃ t, exec .coolingWatchdogStage1 s = .next t ∧ OnlyIsland s t ∧ t.island.coolMax = true ∧ t.island.role = s.island.role)
  ∧ (∀ (s : State), s.island.coolArmed = true → s.island.coolMax = true → passed s s.island.coolKick 98304000 = true →
    ∃ t, exec .coolingWatchdogStage2 s = .next t ∧ OnlyIsland s t ∧ t.island.up = false ∧ t.island.role = .none ∧ t.island.leakLatch = s.island.leakLatch
      ∧ t.island.key = s.island.key ∧ t.island.standing = s.island.standing ∧ t.out = s.out)
  ∧ (∀ (n : Fin 8) (raw : Nat) (s : State), islandRuns s = true →
    ∃ t, exec (.ainSample n raw) s = .next t ∧ t.island.ain.get n = min raw 4095 ∧ (∀ k, k ≠ n → t.island.ain.get k = s.island.ain.get k)
      ∧ t = { s with island := t.island, free := t.free } ∧ (s.island.role ≠ .primary → t.free = s.free ∧ t.island.coolKick = s.island.coolKick)
      ∧ (s.island.role = .primary → t.island.coolKick = now s ∧ t.island.coolMax = false ∧ 20 ≤ t.island.coolDuty ∧ t.island.coolDuty ≤ 100))
  ∧ (∀ (n : Fin 4) (s : State) (b : Tick), inTray s = true → s.island.role = .primary → s.island.limitsOk = true →
    ((s.island.coolant.get n).warned = false → (s.island.coolant.get n).warnSince = some b → passed s b 24576000 = true →
      ∃ t, exec (.coolantWarn n) s = .next t ∧ OnlyIsland s t ∧ (t.island.coolant.get n).warned = true ∧ t.island.coolDuty = 100
        ∧ ∀ k, k ≠ n → t.island.coolant.get k = s.island.coolant.get k)
    ∧ ((s.island.coolant.get n).critical = false → (s.island.coolant.get n).critSince = some b → passed s b 24576000 = true →
      ∃ t, exec (.coolantCritical n) s = .next t ∧ (t.island.coolant.get n).critical = true ∧ t.power.stewardHalf = true ∧ t.power.entryOff = #v[20, 20, 20]
        ∧ t.island.beatAt = now s ∧ t.mem = s.mem)
    ∧ ((s.island.coolant.get n).critical = true → (s.island.coolant.get n).critSince = some b → passed s b 1474560000 = true → s.island.trayDown = none →
      exec .coolantCriticalShutdown s = .next { s with island := { s.island with trayDown := some (now s), trayDownNext := 0 } })
    ∧ ((s.island.coolant.get n).warned = true → (s.island.coolant.get n).okSince = some b → passed s b 245760000 = true → (∀ k, k ≠ n → (s.island.coolant.get k).critical = false) →
      ∃ t, exec (.coolantRestored n) s = .next t ∧ (t.island.coolant.get n).warned = false ∧ (t.island.coolant.get n).critical = false
        ∧ t.power.stewardHalf = false ∧ t.power.entryOff = s.island.thermOff ∧ t.island.trayDown = none ∧ t.mem = s.mem))

/-- LEAK_TRIP of an enabled input, with no sequence running, sets the island's leak latch and asserts TRAY_PWR_KILL_N, and is logged where
the latch was clear; of one not enabled it does nothing; the cooling watchdog's second stage leaves both set. An open enabled sensor is
logged once. CABLE_PRESENCE_ASSERT on a fitted port: a cable whose identity record passes the seven checks is accepted; one whose record
cannot be read is not, and is logged. A cable taken away leaves its port not ACTIVE and without a clock. LAMP_PWM_PERIOD, outside a test
and owing nothing, lights a lamp for 5 µs per step of the duty it shows. LAMP_OPEN_CHECK of a lamp that is lit: half the drive current or
more clears its failures; less counts one, the third in a row making it open. -/
def Obligations.LeaksCablesAndLamps : Prop :=
  (∀ (b : Bool) (s : State), (s.island.leak.get (leakIdx b)).enabled = true → s.seq.aonRst = false → s.seq.step = none →
    ∃ t, exec (.leakTrip b) s = .next t ∧ OnlyIsland s t ∧ t.island.leakLatch = true ∧ t.island.kill = true ∧ (t.island.leak.get (leakIdx b)).wet = true
      ∧ t.island.leak.get (leakIdx !b) = s.island.leak.get (leakIdx !b)
      ∧ (s.island.leakLatch = false → ∃ x ∈ t.island.log, x.code = 0x0508 ∧ x.data = if b then 2 else 1) ∧ (s.island.leakLatch = true → t.island.log = s.island.log))
  ∧ (∀ (b : Bool) (s : State), (s.island.leak.get (leakIdx b)).enabled = false → exec (.leakTrip b) s = .next s)
  ∧ (∀ s : State, s.island.leakLatch = true → s.island.kill = true →
    ∃ t, exec .coolingWatchdogStage2 s = .next t ∧ t.island.leakLatch = true ∧ t.island.kill = true)
  ∧ (∀ (b : Bool) (s : State), (s.island.leak.get (leakIdx b)).enabled = true → (s.island.leak.get (leakIdx b)).isOpen = false → islandRuns s = true →
    ∃ t, exec (.leakSensorOpen b) s = .next t ∧ (t.island.leak.get (leakIdx b)).isOpen = true ∧ t.island.leakLatch = s.island.leakLatch
      ∧ t.island.log.length = s.island.log.length + 1 ∧ t.mem = s.mem)
  ∧ (∀ (p : PortId) (s : State), s.island.up = true → hasPort s.fuses.variant p.1 = true → (s.island.cable.get p).present = false →
    (∀ r, fld r 28 4 = (crc32c (leBytes 28 r.toNat)).toNat → fld r 0 2 = 0x4357 → fld r 2 1 = 1 → fld r 3 1 ≤ 1 → fld r 4 1 = 5 → 32 ≤ fld r 5 1 → fld r 6 2 ≤ 500 →
      ∃ t, exec (.cablePresenceAssert p (some r)) s = .next t ∧ t.island.cable.get p = ⟨true, true⟩ ∧ (∀ q, q ≠ p → t.island.cable.get q = s.island.cable.get q)
        ∧ t = { s with island := { s.island with cable := t.island.cable } })
    ∧ (∃ t, exec (.cablePresenceAssert p none) s = .next t ∧ t.island.cable.get p = ⟨true, false⟩ ∧ OnlyIsland s t ∧ ∃ x ∈ t.island.log, x.code = 0x0505))
  ∧ (∀ (p : PortId) (s : State), s.island.up = true → (s.island.cable.get p).present = true →
    ∃ t, exec (.cablePresenceDeassert p) s = .next t ∧ t.island.cable.get p = ⟨false, false⟩ ∧ OtherPorts s t p ∧ (t.fabric.ports.get p).fckSeen = false
      ∧ (t.fabric.ports.get p).st ≠ .active ∧ t.mem = s.mem)
  ∧ (∀ (n : LampId) (s : State), islandRuns s = true → now s % 122880 = 0 → passed s ((s.island.lamps.get n).checkAt) 24576000 = false → (s.island.lamps.get n).owed = 0 →
    (s.island.lamps.get n).next = none →
    ∃ t, exec (.lampPwmPeriod n) s = .next t ∧ t.out = s.out ++ [.lamp n (5 * lampDuty s n)] ∧ OnlyIsland s t ∧ t.island.lamps = s.island.lamps)
  ∧ (∀ (n : LampId) (ua : Nat) (s : State), islandRuns s = true → (s.island.lamps.get n).testDue = true → lampDuty s n ≠ 0 →
    ((s.island.lamps.get n).driveUa ≤ 2 * ua →
      ∃ t, exec (.lampOpenCheck n ua) s = .next t ∧ OnlyIsland s t ∧ (t.island.lamps.get n).fails = 0 ∧ (t.island.lamps.get n).isOpen = false)
    ∧ (2 * ua < (s.island.lamps.get n).driveUa →
      ∃ t, exec (.lampOpenCheck n ua) s = .next t ∧ OnlyIsland s t ∧ (t.island.lamps.get n).fails = (s.island.lamps.get n).fails + 1
        ∧ (t.island.lamps.get n).isOpen = ((s.island.lamps.get n).isOpen || decide (2 ≤ (s.island.lamps.get n).fails))))

/-- SMBus transactions to an island that is up. A bad PEC is not acknowledged and has no effect. With a good one, the island's own firmware
running: STATUS, THERMAL and POWER_READING answer 7, 3 and 8 bytes and change nothing; NOTICE answers the first notice held, where it is
unread, and marks it, and nothing where all are read; LOG answers the records from the number set. POWER off starts the descent of a die in
S6. A CAP of 15,000 to 130,000 mW outside a tray becomes the steward cap. SERVICE_ARM arms its action; SERVICE_GO clears the shut latch in
S1 where that was armed in the previous 24,576,000 ticks. A CAP write on a die in a tray with Ethernet, or a SERVICE_GO without a matching
SERVICE_ARM in the previous 24,576,000 ticks, is not acknowledged and has no effect. LAMP sets a lamp's next duty. -/
def Obligations.SmbusTransactionsAnswer : Prop :=
  (∀ (b : Smb) (s : State), s.seq.aonRst = false → s.island.up = true → b.pecOk = false →
    ∀ c ∈ [Instr.smbusStatus b, .smbusPower b, .smbusThermal b, .smbusPowerReading b, .smbusNotice b, .smbusLog b, .smbusCap b, .smbusServiceArm b,
      .smbusServiceGo b, .smbusLamp b], exec c s = .next { s with out := s.out ++ [.smb none] })
  ∧ (∀ (b : Smb) (s : State), SmbTaken s b →
    (∃ l, exec (.smbusStatus b) s = .next { s with out := s.out ++ [.smb (some l)] } ∧ l.length = 7 ∧ l.head? = some (BitVec.ofNat 8 (seqCode (shownState s))))
    ∧ (∃ l, exec (.smbusThermal b) s = .next { s with out := s.out ++ [.smb (some l)] } ∧ l.length = 3)
    ∧ (∃ l, exec (.smbusPowerReading b) s = .next { s with out := s.out ++ [.smb (some l)] } ∧ l.length = 8 ∧ leNat (l.take 4) = satTo 32 s.power.estMw)
    ∧ ((∀ n ∈ s.island.notices, n.smbRead = true) → exec (.smbusNotice b) s = .next { s with out := s.out ++ [.smb (some [])] })
    ∧ (∀ n r, s.island.notices = n :: r → n.smbRead = false →
      ∃ t, exec (.smbusNotice b) s = .next t ∧ OnlyIsland s t ∧ t.island.notices = { n with smbRead := true } :: r
        ∧ t.out = s.out ++ [.smb (some ([n.code, n.slot] ++ leBytes 44 n.data.toNat))])
    ∧ (∃ t, exec (.smbusLog b) s = .next t ∧ OnlyIsland s t
      ∧ t.out = s.out ++ [.smb (some ((s.island.log.filter fun r => decide (t.island.smbLogFrom ≤ r.seq)).flatMap logBytes))]
      ∧ t.island.smbLogFrom = (if b.data = [] then s.island.smbLogFrom else leNat b.data))
    ∧ (b.data = [0] → s.seq.state = .s6 → s.seq.step = none →
      ∃ t, exec (.smbusPower b) s = .next t ∧ t.seq.step = some ⟨false, 1, now s⟩ ∧ t.out = s.out ++ [.smb (some [])])
    ∧ (b.data.length = 4 → s.island.trayEn = false → 15000 ≤ leNat b.data → leNat b.data ≤ 130000 →
      ∃ t, exec (.smbusCap b) s = .next t ∧ t.power.stewardCap = some (leNat b.data) ∧ t.out = s.out ++ [.smb (some [])])
    ∧ (∀ a r, b.data = a :: r → exec (.smbusServiceArm b) s =
        .next { s with island := { s.island with arm := some (a.toNat, now s) }, out := s.out ++ [.smb (some [])] })
    ∧ (∀ r k, b.data = 3 :: r → s.island.arm = some (3, k) →
      (passed s k 24576001 = false → s.seq.state = .s1 → exec (.smbusServiceGo b) s =
        .next { s with island := { s.island with arm := none }, seq := { s.seq with shut := false }, out := s.out ++ [.smb (some [])] })
      ∧ (passed s k 24576001 = true → exec (.smbusServiceGo b) s = .next { s with out := s.out ++ [.smb none] }))
    ∧ ((∀ a r x k, b.data = a :: r → s.island.arm = some (x, k) → a.toNat ≠ x ∨ passed s k 24576001 = true) →
      exec (.smbusServiceGo b) s = .next { s with out := s.out ++ [.smb none] })
    ∧ (s.island.trayEn = true → hasEth s.fuses.variant = true → exec (.smbusCap b) s = .next { s with out := s.out ++ [.smb none] })
    ∧ (∀ (n : LampId) d, b.data = BitVec.ofNat 8 n.1 :: leBytes 2 d → d ≤ 1000 →
      ∃ t, exec (.smbusLamp b) s = .next t ∧ (t.island.lamps.get n).next = some d ∧ t.out = s.out ++ [.smb (some [])] ∧ OnlyIsland s t
        ∧ ∀ k, k ≠ n → t.island.lamps.get k = s.island.lamps.get k))

/-- Who carries a Wairiq request out, shown of SLOPE_SET on an island with Ethernet: a wrong frame or tag is answered BAD or AUTH with
nothing done; one whose SEQ is not above the mark has no effect. In a tray, with the checks passed, the mark is raised: an island that is
not primary answers NOT_PRIMARY, and the primary relays what is for another slot. -/
def Obligations.WairiqRequestsAreGuarded : Prop :=
  (∀ (w : Wairiq) (s : State), islandRuns s = true → hasEth s.fuses.variant = true → wqType w = 0x04 →
    (wqFrameOk w = false → ∃ t, exec (.slopeSet w) s = .next t ∧ Replied s t wqBad ∧ OnlyIsland s t ∧ t.island.seqMark = s.island.seqMark)
    ∧ (wqFrameOk w = true → wqTagOk s w = false → ∃ t, exec (.slopeSet w) s = .next t ∧ Replied s t wqAuth ∧ OnlyIsland s t ∧ t.island.seqMark = s.island.seqMark)
    ∧ (wqFrameOk w = true → wqTagOk s w = true → wqSeqOf w ≤ s.island.seqMark → exec (.slopeSet w) s = .next s))
  ∧ (∀ (w : Wairiq) (s : State), WairiqTaken s w 0x04 → s.island.trayEn = true →
    (s.island.role ≠ .primary → ∃ t, exec (.slopeSet w) s = .next t ∧ Replied s t wqNotPrimary ∧ OnlyIsland s t ∧ t.island.seqMark = wqSeqOf w)
    ∧ (∀ n : SlotId, s.island.role = .primary → wqSlot w = n.1 → n ≠ s.island.slot →
      ∃ t, exec (.slopeSet w) s = .next t ∧ OnlyIsland s t ∧ t.out = s.out ++ [.tray (some n) s.island.txSeq (.relay (relayLoad 0x04 0 (fld w.header 4 8) w.body))]
        ∧ t.island.seqMark = wqSeqOf w))

/-- Wairiq messages that pass their checks, carried out by the island they reach: IDENT, STATUS and LOG_READ are answered DONE with nothing
else changed but the mark. TRAY_CAP_SET puts a cap in range in force as a new generation and refuses one out of range; SLOPE_SET sets a
slope of 1 to 64 and refuses another; THERMAL_SET with no input critical sets offsets of at most 20 degrees. Outside a tray POWER off marks
slot 0 off and starts the descent of a die in S6, and LAMP sets a lamp's next duty. CONFIG of a leak input sets its threshold and filter
and enables it. -/
def Obligations.WairiqSetsValues : Prop :=
  (∀ (w : Wairiq) (s : State), islandRuns s = true → hasEth s.fuses.variant = true → wqType w = 0x01 → wqFrameOk w = true → wqTagOk s w = true →
    ∃ t, exec (.wairiqIdent w) s = .next t ∧ Replied s t wqDone ∧ OnlyIsland s t ∧ t.island.seqMark = s.island.seqMark)
  ∧ (∀ (w : Wairiq) (s : State), WairiqTaken s w 0x02 → CarriesOut s w →
    ∃ t, exec (.wairiqStatus w) s = .next t ∧ Replied s t wqDone ∧ OnlyIsland s t ∧ t.island.seqMark = wqSeqOf w)
  ∧ (∀ (w : Wairiq) (s : State) (c : Nat), WairiqTaken s w 0x03 → CarriesOut s w → w.body.length = 3 → c = bfld w.body 0 2 →
    (capRangeOk s c = false → bfld w.body 2 1 ≤ 1 → ∃ t, exec (.trayCapSet w) s = .next t ∧ Replied s t wqRefused ∧ t.island.trayCapW = s.island.trayCapW)
    ∧ (capRangeOk s c = true → bfld w.body 2 1 ≤ 1 → ∃ t, exec (.trayCapSet w) s = .next t ∧ t.island.trayCapW = some c
      ∧ t.island.demand = (bfld w.body 2 1 == 1) ∧ t.island.gen = s.island.gen + 1 ∧ t.mem = s.mem))
  ∧ (∀ (w : Wairiq) (s : State) (c : Byte), WairiqTaken s w 0x04 → CarriesOut s w → w.body = [c] →
    (1 ≤ c.toNat → c.toNat ≤ 64 → ∃ t, exec (.slopeSet w) s = .next t ∧ Replied s t wqDone ∧ t.power.slope = c.toNat ∧ t.power.entryOff = s.power.entryOff)
    ∧ ((c.toNat = 0 ∨ 64 < c.toNat) → ∃ t, exec (.slopeSet w) s = .next t ∧ Replied s t wqRefused ∧ t.power = s.power))
  ∧ (∀ (w : Wairiq) (s : State) (a b c : Byte), WairiqTaken s w 0x05 → CarriesOut s w → w.body = [a, b, c] → (∀ k, (s.island.coolant.get k).critical = false) →
    a.toNat ≤ 20 → b.toNat ≤ 20 → c.toNat ≤ 20 →
    ∃ t, exec (.thermalSet w) s = .next t ∧ Replied s t wqDone ∧ t.power.entryOff = #v[a.toNat, b.toNat, c.toNat] ∧ t.power.slope = s.power.slope)
  ∧ (∀ (w : Wairiq) (s : State), WairiqTaken s w 0x06 → s.island.trayEn = false → w.body = [1, 0, 0] → s.seq.state = .s6 → s.seq.step = none →
    ∃ t, exec (.wairiqPower w) s = .next t ∧ Replied s t wqDone ∧ t.seq.step = some ⟨false, 1, now s⟩ ∧ 0 ∈ t.island.markedOff ∧ t.mem = s.mem)
  ∧ (∀ (w : Wairiq) (s : State) (n : LampId) (d : Nat), WairiqTaken s w 0x07 → s.island.trayEn = false → d ≤ 1000 →
    w.body = [0, BitVec.ofNat 8 n.1] ++ leBytes 2 d →
    ∃ t, exec (.wairiqLamp w) s = .next t ∧ Replied s t wqDone ∧ OnlyIsland s t ∧ (t.island.lamps.get n).next = some d)
  ∧ (∀ (w : Wairiq) (s : State), WairiqTaken s w 0x0A → s.island.trayEn = false → w.body.length = 5 → bfld w.body 0 1 ≤ 15 →
    ∃ t, exec (.wairiqLogRead w) s = .next t ∧ Replied s t wqDone ∧ OnlyIsland s t ∧ t.island.log = s.island.log)
  ∧ (∀ (w : Wairiq) (s : State) (n : Fin 2) (thr us : Nat), WairiqTaken s w 0x0B → CarriesOut s w → 30 ≤ thr → thr ≤ 150 → 1 ≤ us → us ≤ 1000 →
    w.body = [0, BitVec.ofNat 8 n.1, 1, BitVec.ofNat 8 thr] ++ leBytes 2 us →
    ∃ t, exec (.config w) s = .next t ∧ Replied s t wqDone ∧ OnlyIsland s t ∧ (t.island.leak.get n).enabled = true ∧ (t.island.leak.get n).thrMv = 10 * thr
      ∧ (t.island.leak.get n).filterUs = us ∧ ∀ k, k ≠ n → t.island.leak.get k = s.island.leak.get k)

/-- Wairiq SERVICE and KEY that pass their checks. YIELD to a primary with a standby and no exchange or hold under way requests the
exchange. CLEAR_LEAK outside a tray clears the latch where the inputs are dry, and is refused elsewhere. CLEAR_SHUT for this slot, or
outside a tray, clears the shut latch in S1 and is refused elsewhere. CLEAR_BASELINE of one of five domains starts its learning again, the
others as they were. GOLDEN_REFLASH in S1, with the island ready, a golden image there and no slot being written, starts writing both
slots. KEY stores the first key and starts the sequence numbers again; a second key is refused while KEY is not open. -/
def Obligations.WairiqServicesAct : Prop :=
  (∀ (w : Wairiq) (s : State) (d : SlotId), WairiqTaken s w 0x08 → bfld w.body 0 1 = 1 → s.island.trayEn = true → wqSlot w = s.island.slot.1 →
    s.island.role = .primary → s.island.standby = some d → s.island.roleReq = none → s.island.swapAt = none → reached s s.island.noReqUntil = true →
    ∃ t h b tag, exec (.yieldRole w) s = .next t ∧ OnlyIsland s t ∧ t.island.roleReq = some (now s)
      ∧ t.out = s.out ++ [.tray (some d) s.island.txSeq .roleRequest, .wairiq h b tag])
  ∧ (∀ (w : Wairiq) (s : State), WairiqTaken s w 0x08 → bfld w.body 0 1 = 2 → s.island.trayEn = false →
    ∃ t, exec (.clearLeak w) s = .next t ∧ OnlyIsland s t ∧ Replied s t (if leaksDry s then wqDone else wqRefused)
      ∧ t.island.leakLatch = (s.island.leakLatch && !leaksDry s) ∧ t.island.kill = (s.island.kill && !leaksDry s))
  ∧ (∀ (w : Wairiq) (s : State), WairiqTaken s w 0x08 → bfld w.body 0 1 = 3 → CarriesOut s w → (s.island.trayEn = true → wqSlot w ≠ 0xFF) →
    (shownState s = .s1 → ∃ t, exec (.clearShut w) s = .next t ∧ Replied s t wqDone ∧ t.seq = { s.seq with shut := false })
    ∧ (shownState s ≠ .s1 → ∃ t, exec (.clearShut w) s = .next t ∧ Replied s t wqRefused ∧ t.seq = s.seq))
  ∧ (∀ (w : Wairiq) (s : State) (d : Fin 6), WairiqTaken s w 0x08 → bfld w.body 0 1 = 4 → CarriesOut s w → bfld w.body 1 1 = d.1 → d.1 < 5 →
    ∃ t, exec (.clearBaseline w) s = .next t ∧ Replied s t wqDone ∧ (t.seq.pdn.get d).baseline = none ∧ (t.seq.pdn.get d).samples = []
      ∧ (t.seq.pdn.get d).learnFrom = s6Time s ∧ ∀ e, e ≠ d → t.seq.pdn.get e = s.seq.pdn.get e)
  ∧ (∀ (w : Wairiq) (s : State) (img : FwImage), WairiqTaken s w 0x08 → bfld w.body 0 1 = 5 → CarriesOut s w → s.island.ready = true → s.seq.state = .s1 →
    s.fw.slotWrite = none → slotImage s 0 2 = some img →
    ∃ t, exec (.goldenReflash w) s = .next t ∧ Replied s t wqDone ∧ t.fw.slotWrite = some ⟨0, [0, 1], img, none, true⟩ ∧ t.flash = s.flash)
  ∧ (∀ (w : Wairiq) (s : State), WairiqTaken s w 0x0C → CarriesOut s w → w.body.length = 48 →
    (s.island.key = none → ∃ t, exec (.key w) s = .next t ∧ Replied s t wqDone ∧ t.island.key = some (BitVec.ofNat 384 (leNat w.body))
      ∧ t.island.seqMark = 0 ∧ t.island.seqFloor = 0 ∧ OnlyIsland s t)
    ∧ (∀ k, s.island.key = some k → s.island.keyOpen = false → ∃ t, exec (.key w) s = .next t ∧ Replied s t wqRefused ∧ t.island.key = some k ∧ OnlyIsland s t))

/-- In READY. PATROL_READ of a correctable word of a unit that is here, in a row with no errors before, notes the row with its pass and
bit, and counts the word where it is in T0; of an uncorrectable one in T1 that no other kind claims, it makes its address unreadable and
records 0x0706; of one in T0, with E6 not free, it retires the engine. A pass that ends begins the next and is logged where it was late.
CHANNEL_FAILURE with training lost takes a channel in service out, its reservations and bytes with it, and with fewer than 16 bad reads
does nothing. CHANNEL_TRAINING_DONE of a fitted untrained channel: one that passes within Table 5-6, with no entry against it or its
devices replaced, is in service and adds its size to T2; one that does not pass is recorded with reason 2; one that an entry says failed in
service stays out. ECS_COUNT_READ after 24 h keeps and logs the counts. FIRMWARE_AREA_MOVE to channel 0, where it has room, takes the
lowest run and clears it. -/
def Obligations.DamageIsHandled : Prop :=
  (∀ (x : PatrolHit) (k : DataKind) (s : State), ready s = true → patrolHere s x = true → x.uncorrectable = false →
    (∀ e ∈ s.mem.rowErrors, ¬(e.tier = x.tier ∧ e.unit = x.unit ∧ e.bank = x.bank ∧ e.row = x.row)) →
    ∃ t, exec (.patrolRead ⟨some x, none⟩ k) s = .next t ∧ t.mem.rowErrors = s.mem.rowErrors ++ [⟨x.tier, x.unit, x.bank, x.row, [passNo s x.tier], [x.bit]⟩]
      ∧ (∀ e : EngineId, t.mem.t0Corrected.get e = s.mem.t0Corrected.get e + if x.tier = 0 ∧ x.unit = e.1 then 1 else 0)
      ∧ t = { s with mem := { s.mem with rowErrors := t.mem.rowErrors, t0Corrected := t.mem.t0Corrected } })
  ∧ (∀ (x : PatrolHit) (s : State), RecordOk s → ready s = true → patrolHere s x = true → x.uncorrectable = true → x.tier = 1 →
    ∃ t, exec (.patrolRead ⟨some x, none⟩ .other) s = .next t ∧ x.addr ∈ t.mem.bad ∧ SameBytes s t ∧ t.streams = s.streams ∧ ∃ r ∈ t.island.history, r.code = 0x0706)
  ∧ (∀ (x : PatrolHit) (k : DataKind) (e : EngineId) (s : State), ready s = true → patrolHere s x = true → x.uncorrectable = true → x.tier = 0 → x.unit = e.1 →
    (s.engines.get 6).life ≠ .laybyFree →
    ∃ t, exec (.patrolRead ⟨some x, none⟩ k) s = .next t ∧ (t.engines.get e).life = .retired)
  ∧ (∀ (k : DataKind) (n : Fin 3) (s : State), ready s = true →
    ∃ t, exec (.patrolRead ⟨none, some n⟩ k) s = .next t ∧ t.mem.patrol.get n = ((s.mem.patrol.get n).1 + 1, some (now s))
      ∧ (∀ m, m ≠ n → t.mem.patrol.get m = s.mem.patrol.get m)
      ∧ t.fw.dieLog.length = s.fw.dieLog.length + (if passed s (passStart s n.1) (patrolPeriod n.1 + 1) then 1 else 0) ∧ SameBytes s t)
  ∧ (∀ (n : McId) (s : State), ready s = true → (s.mem.channels.get n).st = .inService →
    (∃ t, exec (.channelFailure n 1) s = .next t ∧ (t.mem.channels.get n).st = .failedService
      ∧ (s.mem.moves = [] → s.mem.wf → (∀ a, chanOf a = some n → readByte t.mem.cells a = 0) ∧ (∀ a, chanOf a ≠ some n → readByte t.mem.cells a = readByte s.mem.cells a)
        ∧ ∀ r ∈ t.mem.reserved, ¬(r.tier = 2 ∧ r.chan = n.1)))
    ∧ ((s.mem.channels.get n).badReads.length < 16 → exec (.channelFailure n 0) s = .next s))
  ∧ (∀ (n : McId) (gib mts ranks : Nat) (x16 pass replaced : Bool) (bad : List Nat) (s : State), ready s = true → n.1 < mcCount s.fuses.variant →
    (s.mem.channels.get n).st = .untrained →
    (table56 s ⟨gib, mts, ranks, x16⟩ = true → pass = true → (replaced = true ∨ (channelEntry s n 0 = false ∧ channelEntry s n 1 = false)) →
      ∃ t, exec (.channelTrainingDone n ⟨gib, mts, ranks, x16⟩ pass replaced bad) s = .next t ∧ (t.mem.channels.get n).st = .inService
        ∧ (t.mem.channels.get n).gib = gib ∧ (t.mem.channels.get n).mts = mts ∧ (t.mem.channels.get n).ranks = ranks
        ∧ t.mem.t2Size = s.mem.t2Size + gib * 16384 ∧ SameBytes s t
        ∧ (replaced = true → ∀ r ∈ t.island.standing, r.code = 0x0705 → bits r.data.toNat 0 8 ≠ n.1))
    ∧ ((table56 s ⟨gib, mts, ranks, x16⟩ = false ∨ pass = false) → replaced = false → channelEntry s n 0 = false → channelEntry s n 1 = false → channelEntry s n 2 = false →
      s.island.standing.length < 256 →
      ∃ t, exec (.channelTrainingDone n ⟨gib, mts, ranks, x16⟩ pass replaced bad) s = .next t ∧ (t.mem.channels.get n).st = .failedTraining
        ∧ t.mem.t2Size = s.mem.t2Size ∧ ∃ r ∈ t.island.standing, r.code = 0x0705 ∧ r.data = BitVec.ofNat 128 (n.1 + 512))
    ∧ ((channelEntry s n 0 = true ∨ channelEntry s n 1 = true) → replaced = false →
      ∃ t, exec (.channelTrainingDone n ⟨gib, mts, ranks, x16⟩ pass replaced bad) s = .next t ∧ (t.mem.channels.get n).st = .failedService
        ∧ t.mem.t2Size = s.mem.t2Size ∧ SameBytes s t))
  ∧ (∀ (n : McId) (c : List Nat) (s : State), ready s = true → (s.mem.channels.get n).st = .inService → passed s (s.mem.channels.get n).ecsAt 2123366400000 = true →
    ∃ t, exec (.ecsCountRead n c) s = .next t ∧ (t.mem.channels.get n).eccCounts = c ∧ (t.mem.channels.get n).ecsAt = now s ∧ t.fw.dieLog.length = s.fw.dieLog.length + 1 ∧ SameBytes s t
      ∧ ∀ k, k ≠ n → t.mem.channels.get k = s.mem.channels.get k)
  ∧ (∀ (s : State) (b : Nat), s.mem.wf → ready s = true → s.mem.fwArea = none → 0 < chanAllocatable s 0 → 2048 ≤ freeChan s 0 → placeOn s 2 0 2048 = some b →
    ∃ t, exec .firmwareAreaMove s = .next t ∧ t.mem.fwArea = some 0 ∧ t.mem.fwBase = b ∧ t.mem.reserved = s.mem.reserved
      ∧ ∀ a, readByte t.mem.cells a = if b ≤ a ∧ a < b + 2 ^ 27 then 0 else readByte s.mem.cells a)

/-- TRIAL_CONFIRM 60 s after READY of a trial image that runs confirms it, revoking no key less. TRIAL_ROLLBACK of a trial image, of a die
whose fuses and self-test are good and a slot that verified: one not READY 500 ms after S5, one that halted, and an island image that left
the STAT watchdog unkicked for 10 s, are rolled back to the other slot with record 0x0712, the main die loading again with its memory kept,
the island's core down. SLOT_REFLASH in READY of a failed slot, with no slot being written and golden not running, starts from a golden
image that verifies, and else changes nothing. SLOT_WRITE_COMPLETE of a commit: verified, the slot holds the image and is selected for
trial, and the command completes OK; not verified, it is erased and the command completes VERIFY_FAILED. GOLDEN_VERIFY 24 h after the last
notes the tick and logs an image that fails. -/
def Obligations.ImagesTriedAndReflashed : Prop :=
  (∀ (s : State) (r : Tick), ready s = true → s.fw.readyAt = some r → passed s r 1474560000 = true → (s.flash.select.get 0).trial = true →
    s.fw.image = (s.flash.select.get 0).next.1 →
    ∃ t, exec (.trialConfirm 0) s = .next t ∧ t.flash.select.get 0 = ⟨(s.flash.select.get 0).next, false⟩ ∧ t.flash.select.get 1 = s.flash.select.get 1
      ∧ t.fuses.revoked &&& s.fuses.revoked = s.fuses.revoked ∧ t.mem = s.mem)
  ∧ (∀ (s : State), RecordOk s → s.fuses.ok = true → s.fw.fault ≠ 3 → s.seq.state = .s5 → ready s = false → passed s s.fw.s5At 12288000 = true →
    (s.flash.select.get 0).trial = true → slotFailed s 0 (s.flash.select.get 0).next = false →
    ∃ t, exec (.trialRollback 0 0) s = .next t ∧ t.flash.select.get 0 = ⟨otherSlot (s.flash.select.get 0).next, false⟩ ∧ t.fw.state = .loading ∧ t.streams = []
      ∧ SameBytes s t ∧ ∃ x ∈ t.island.history, x.code = 0x0712)
  ∧ (∀ (s : State), RecordOk s → s.fuses.ok = true → s.fw.fault ≠ 3 → s.fw.state = .halted → (s.flash.select.get 0).trial = true → s.fw.image = (s.flash.select.get 0).next.1 →
    slotFailed s 0 (s.flash.select.get 0).next = false →
    ∃ t, exec (.trialRollback 0 1) s = .next t ∧ t.flash.select.get 0 = ⟨otherSlot (s.flash.select.get 0).next, false⟩ ∧ t.fw.state = .loading ∧ t.streams = []
      ∧ SameBytes s t ∧ ∃ x ∈ t.island.history, x.code = 0x0712)
  ∧ (∀ (s : State), RecordOk s → s.island.up = true → (s.flash.select.get 1).trial = true → s.flash.islandRunning = (s.flash.select.get 1).next.1 →
    slotFailed s 1 (s.flash.select.get 1).next = false → passed s s.island.statKick 245760000 = true →
    ∃ t, exec (.trialRollback 1 2) s = .next t ∧ t.flash.select.get 1 = ⟨otherSlot (s.flash.select.get 1).next, false⟩ ∧ t.island.up = false ∧ t.fw = s.fw
      ∧ t.streams = s.streams ∧ ∃ x ∈ t.island.history, x.code = 0x0712)
  ∧ (∀ (d : Fin 2) (s : State), ready s = true → s.fw.slotWrite = none → s.flash.verdict.get (slotNo d) = .fail → s.fw.image ≠ 2 →
    ∃ t, exec (.slotReflash 0 d) s = .next t ∧ t.flash = s.flash
      ∧ ((slotCheck s 0 2).isSome = true → t = s)
      ∧ (∀ img, slotImage s 0 2 = some img → slotCheck s 0 2 = none → t = { s with fw := { s.fw with slotWrite := some ⟨0, [d], img, none, true⟩ } }))
  ∧ (∀ (s : State) (tg d : Fin 2) (img : FwImage) (m : MailCmd), s.fw.slotWrite = some ⟨tg, [d], img, some m, false⟩ →
    (∃ u, exec (.slotWriteComplete true) s = .next (complete u m .ok (put 8 1 d.1 + put 12 4 (imgVersion img).toNat)) ∧ slotImage u tg.1 (slotNo d) = some img
      ∧ u.flash.select.get tg = ⟨d, true⟩ ∧ u.fw.slotWrite = none ∧ u.mem = s.mem)
    ∧ (∃ u, exec (.slotWriteComplete false) s = .next (complete u m .verifyFailed 0) ∧ slotImage u tg.1 (slotNo d) = none
      ∧ u.flash.select = s.flash.select ∧ u.fw.slotWrite = none ∧ u.mem = s.mem))
  ∧ (∀ (tg : Fin 2) (s : State), islandRuns s = true → passed s (s.island.goldenAt.get tg) 2123366400000 = true →
    ∃ t, exec (.goldenVerify tg) s = .next t ∧ t.island.goldenAt.get tg = now s ∧ t.flash = s.flash
      ∧ ((slotCheck s tg.1 2).isSome = true → ∃ x ∈ t.island.log, x.code = 0x0713))

/-- Start-up. ISLAND_FIRMWARE_RUNNING of an island that is down brings it up, in ROM mode where none of its images verifies, with STAT_OUT
low and the coolant limits read. ISLAND_READY makes it ready, a die in S0 then in S1. DEPOT_SELF_TEST_DONE in S5: passed, the boot ROM
loads; failed, the boot stops with fault 3; with bad fuses, with fault 1. FIRMWARE_LOADED of the first slot not failed: unread, it fails
the slot with record 0x0802, and with no other slot left the boot stops with fault 2; read, an image that verifies runs and one that does
not fails its slot; with no slot left the boot stops with fault 2. FIRMWARE_READY with the boot trim done and no off request: READY in S6
with base point OP3 and the point in force the highest allowed up to it, the pending column repairs applied. DISCOVERY_COMPLETE when the
channels, the lay-by engine, the census, the routes and the time are settled, on a die that did not rejoin. -/
def Obligations.StartUpReachesReady : Prop :=
  (∀ (recordOk : Bool) (limits : Option (Vector CoolLimits 4)) (x y z : Fin 16) (n : Vector Nat 4) (wr : Vector Bool 4) (s : State), s.seq.aonRst = false → s.island.up = false →
    ∃ t, exec (.islandFirmwareRunning recordOk x y z n wr limits) s = .next t ∧ t.island.up = true ∧ t.island.startAt = now s
      ∧ t.island.romMode = (bootOrder s 1).all (fun i => (slotCheck s 1 i).isSome) ∧ t.island.statOut = .low ∧ t.island.limitsOk = limits.isSome
      ∧ (∀ l, limits = some l → t.island.coolLimits = l) ∧ t.mem = s.mem ∧ t.streams = s.streams)
  ∧ (∀ (s : State), islandRuns s = true → s.island.ready = false →
    ∃ t, exec .islandReady s = .next t ∧ t.island.ready = true ∧ t.seq.state = (if s.seq.state = .s0 then .s1 else s.seq.state) ∧ t.mem = s.mem)
  ∧ (∀ (s : State), s.seq.state = .s5 → s.fw.state = .bootstrap → s.fw.stage = stageFuses →
    (s.fuses.ok = true → ∃ t, exec (.depotSelfTestDone true) s = .next t ∧ t.fw.state = .loading ∧ t.fw.stage = stageLoad ∧ t.fw.fault = 0
      ∧ t.host.irqCause.getLsbD 0 = true ∧ t.mem = s.mem)
    ∧ (s.fuses.ok = true → exec (.depotSelfTestDone false) s = .next { s with fw := { s.fw with fault := 3, stage := stageStopped } })
    ∧ (∀ pass, s.fuses.ok = false → ∃ t, exec (.depotSelfTestDone pass) s = .next t ∧ t.fw.fault = 1 ∧ t.fw.state = .bootstrap ∧ t.fw.stage = stageStopped))
  ∧ (∀ (s : State) (i : Fin 3) (rest : List (Fin 3)), s.fw.state = .loading → s.fw.stage = stageLoad → candidates s = i :: rest →
    (∃ t, exec (.firmwareLoaded false) s = .next t ∧ t.flash.verdict.get i = .fail ∧ t.fw.state = (if rest = [] then .bootstrap else .loading)
      ∧ t.fw.fault = (if rest = [] then 2 else s.fw.fault) ∧ ∃ x ∈ t.fw.dieLog, x.code = 0x0802)
    ∧ (∃ t, exec (.firmwareLoaded true) s = .next t ∧ ((slotCheck s 0 i).isSome = true → t.flash.verdict.get i = .fail)
      ∧ (∀ img, slotImage s 0 i = some img → slotCheck s 0 i = none → t.fw.image = i.1 ∧ t.fw.version = imgVersion img ∧ t.fw.stage = stageInit
        ∧ t.flash.verdict.get i = .pass)))
  ∧ (∀ (s : State), s.fw.state = .loading → s.fw.stage = stageLoad → candidates s = [] →
    ∃ t, ∀ r, exec (.firmwareLoaded r) s = .next t ∧ t.fw.fault = 2 ∧ t.fw.state = .bootstrap ∧ t.fw.stage = stageStopped)
  ∧ (∀ (s : State), s.fw.state = .loading → s.fw.stage = stageInit → s.power.bootTrimmed = true → s.seq.request ≠ some false →
    ∃ t, exec .firmwareReady s = .next t ∧ t.fw.state = .ready ∧ t.seq.state = .s6 ∧ t.fw.stage = stageReady ∧ t.fw.readyAt = some (now s) ∧ t.power.opBase = 3
      ∧ t.power.opForce = minPoint 3 (highestAllowed s) ∧ t.host.irqCause.getLsbD 0 = true ∧ t.mem.colPending = [] ∧ SameBytes s t)
  ∧ (∀ (s : State), ready s = true → (∀ n : Fin 4, n.1 < mcCount s.fuses.variant → (s.mem.channels.get n).st ≠ .untrained) →
    ((s.engines.get 6).life = .laybyFree → s.fw.laybyTested = true) → s.fw.censusClosed = true → s.fw.rejoined = false → s.fw.routeInstalled = true →
    (s.time.state = .aligned ∨ s.time.state = .standalone) → exec .discoveryComplete s = .next { s with fw := { s.fw with discovered := true } })

/-- The fabric at start-up, in READY with the census open. PRESENT_NOTICE on an ACTIVE port of another die's ID not in the census enters it
with the tick and passes it to every neighbour. CENSUS_CLOSE, with every fitted port settled and 100 ms after the last entry and after
READY, closes it, installs the first route set and logs 0x0804. REJOIN_STATE of a neighbour with the same shape closes the census at once
and installs a route set, this die's own position never entering the lost list. The last two are for a die with nothing lent and no move or
request under way; memory is as before. -/
def Obligations.CensusClosesAndRejoins : Prop :=
  (∀ (p : PortId) (d : FabId) (v : Variant) (s : State), ready s = true → (s.fabric.ports.get p).st = .active → d ≠ s.fabric.id → s.fw.censusClosed = false → d ∉ s.fabric.census →
    ∃ t, exec (.presentNotice p ⟨d, v⟩) s = .next t ∧ t.fabric.census = s.fabric.census ++ [d] ∧ t.fabric.censusAt = now s ∧ t.mem = s.mem
      ∧ ∀ q, (s.fabric.ports.get q).st = .active → .mgmt (s.fabric.ports.get q).peer (.presentNotice d v) ∈ t.out)
  ∧ (∀ (s : State) (r : Tick), ready s = true → s.fw.censusClosed = false → (∀ p, hasPort s.fuses.variant p.1 = true → portSettled s p = true) →
    passed s s.fabric.censusAt 2457600 = true → s.fw.readyAt = some r → passed s r 2457600 = true →
    s.mem.lent = [] → s.mem.moves = [] → s.fabric.outstanding = [] →
    ∃ t, exec .censusClose s = .next t ∧ t.fw.censusClosed = true ∧ t.fw.routeInstalled = true ∧ t.fabric.gen = s.fabric.gen + 1
      ∧ (∃ x ∈ t.fw.dieLog, x.code = 0x0804) ∧ SameBytes s t)
  ∧ (∀ (p : PortId) (n : Vector Nat 4) (wr : Vector Bool 4) (g : W32) (lost : List FabId) (down : List (FabId × FabId)) (s : State), ready s = true →
    (s.fabric.ports.get p).st = .active → n = s.fabric.sizes → wr = s.fabric.wraps → s.fw.censusClosed = false →
    s.mem.lent = [] → s.mem.moves = [] → s.fabric.outstanding = [] →
    ∃ t, exec (.rejoinState p n wr g lost down) s = .next t ∧ t.fw.rejoined = true ∧ t.fw.censusClosed = true ∧ t.fabric.gen = s.fabric.gen + 1
      ∧ (s.fabric.id ∉ s.fabric.lost → s.fabric.id ∉ t.fabric.lost) ∧ SameBytes s t)

/-- The bytes of memory: bytes written read back, every other address reads as before, and a cleared address reads as one that nothing has
written. -/
def Obligations.MemoryReadsBackWrites : Prop :=
  (∀ (m : List Host.Cell) (a : Nat) (v : Byte), cellsOk m = true → readByte (writeByte m a v) a = v ∧ ∀ x, x ≠ a → readByte (writeByte m a v) x = readByte m x)
  ∧ (∀ (m : List Host.Cell) (a : Nat) (l : List Byte), cellsOk m = true → readBytes (writeBytes m a l) a l.length = l
    ∧ ∀ x, (x < a ∨ a + l.length ≤ x) → readByte (writeBytes m a l) x = readByte m x)
  ∧ (∀ (m : List Host.Cell) (lost : Nat → Bool), cellsOk m = true → ∀ x, readByte (clearBytes m lost) x = if lost x then 0 else readByte m x)

/-- A step that runs a command takes that command from the queue and leaves the rest as it stands, whatever the command does. -/
def Obligations.StepTakesOneCommand : Prop :=
  ∀ (s t : State) (c : Instr) (rest : List Instr), s.pending = c :: rest → step s = .next t → t.pending = rest

/-- Every step keeps the memory in its canonical form. -/
def Obligations.MemoryFormKept : Prop :=
  ∀ (s t : State), s.mem.wf → step s = .next t → t.mem.wf

/-- Every step keeps the bounds of the overflow log and of the fault record, and the tenant of channel 0. -/
def Obligations.HostAndRecordKept : Prop :=
  ∀ (s t : State), HostOk s → RecordOk s → step s = .next t → HostOk t ∧ RecordOk t

/-- The invariants hold at reset. -/
def Obligations.InvariantsHoldAtReset : Prop :=
  State.reset.mem.wf ∧ HostOk State.reset ∧ RecordOk State.reset ∧ State.reset.pending = []
end

