-- ==== Sys2Proof/Laws/State.lean ====
section
/-! SUPPORT. What each named update of State leaves in each of its fields. -/

namespace Sys2Proof.Laws

open Sys2Proof Sys2Proof.Machine

/-! `emit` -/
@[simp] theorem emit_fuses (s : State) (o : Out) : (emit s o).fuses = s.fuses := rfl
@[simp] theorem emit_time (s : State) (o : Out) : (emit s o).time = s.time := rfl
@[simp] theorem emit_host (s : State) (o : Out) : (emit s o).host = s.host := rfl
@[simp] theorem emit_fw (s : State) (o : Out) : (emit s o).fw = s.fw := rfl
@[simp] theorem emit_flash (s : State) (o : Out) : (emit s o).flash = s.flash := rfl
@[simp] theorem emit_mem (s : State) (o : Out) : (emit s o).mem = s.mem := rfl
@[simp] theorem emit_engines (s : State) (o : Out) : (emit s o).engines = s.engines := rfl
@[simp] theorem emit_itins (s : State) (o : Out) : (emit s o).itins = s.itins := rfl
@[simp] theorem emit_streams (s : State) (o : Out) : (emit s o).streams = s.streams := rfl
@[simp] theorem emit_snaps (s : State) (o : Out) : (emit s o).snaps = s.snaps := rfl
@[simp] theorem emit_power (s : State) (o : Out) : (emit s o).power = s.power := rfl
@[simp] theorem emit_seq (s : State) (o : Out) : (emit s o).seq = s.seq := rfl
@[simp] theorem emit_island (s : State) (o : Out) : (emit s o).island = s.island := rfl
@[simp] theorem emit_audio (s : State) (o : Out) : (emit s o).audio = s.audio := rfl
@[simp] theorem emit_fabric (s : State) (o : Out) : (emit s o).fabric = s.fabric := rfl
@[simp] theorem emit_tap (s : State) (o : Out) : (emit s o).tap = s.tap := rfl
@[simp] theorem emit_out (s : State) (o : Out) : (emit s o).out = s.out ++ [o] := rfl
@[simp] theorem emit_free (s : State) (o : Out) : (emit s o).free = s.free := rfl
@[simp] theorem emit_pending (s : State) (o : Out) : (emit s o).pending = s.pending := rfl

/-! `modEngine` -/
@[simp] theorem modEngine_fuses (s : State) (e : EngineId) (f : Engine → Engine) : (modEngine s e f).fuses = s.fuses := rfl
@[simp] theorem modEngine_time (s : State) (e : EngineId) (f : Engine → Engine) : (modEngine s e f).time = s.time := rfl
@[simp] theorem modEngine_host (s : State) (e : EngineId) (f : Engine → Engine) : (modEngine s e f).host = s.host := rfl
@[simp] theorem modEngine_fw (s : State) (e : EngineId) (f : Engine → Engine) : (modEngine s e f).fw = s.fw := rfl
@[simp] theorem modEngine_flash (s : State) (e : EngineId) (f : Engine → Engine) : (modEngine s e f).flash = s.flash := rfl
@[simp] theorem modEngine_mem (s : State) (e : EngineId) (f : Engine → Engine) : (modEngine s e f).mem = s.mem := rfl
@[simp] theorem modEngine_engines (s : State) (e : EngineId) (f : Engine → Engine) : (modEngine s e f).engines = vmod s.engines e f := rfl
@[simp] theorem modEngine_itins (s : State) (e : EngineId) (f : Engine → Engine) : (modEngine s e f).itins = s.itins := rfl
@[simp] theorem modEngine_streams (s : State) (e : EngineId) (f : Engine → Engine) : (modEngine s e f).streams = s.streams := rfl
@[simp] theorem modEngine_snaps (s : State) (e : EngineId) (f : Engine → Engine) : (modEngine s e f).snaps = s.snaps := rfl
@[simp] theorem modEngine_power (s : State) (e : EngineId) (f : Engine → Engine) : (modEngine s e f).power = s.power := rfl
@[simp] theorem modEngine_seq (s : State) (e : EngineId) (f : Engine → Engine) : (modEngine s e f).seq = s.seq := rfl
@[simp] theorem modEngine_island (s : State) (e : EngineId) (f : Engine → Engine) : (modEngine s e f).island = s.island := rfl
@[simp] theorem modEngine_audio (s : State) (e : EngineId) (f : Engine → Engine) : (modEngine s e f).audio = s.audio := rfl
@[simp] theorem modEngine_fabric (s : State) (e : EngineId) (f : Engine → Engine) : (modEngine s e f).fabric = s.fabric := rfl
@[simp] theorem modEngine_tap (s : State) (e : EngineId) (f : Engine → Engine) : (modEngine s e f).tap = s.tap := rfl
@[simp] theorem modEngine_out (s : State) (e : EngineId) (f : Engine → Engine) : (modEngine s e f).out = s.out := rfl
@[simp] theorem modEngine_free (s : State) (e : EngineId) (f : Engine → Engine) : (modEngine s e f).free = s.free := rfl
@[simp] theorem modEngine_pending (s : State) (e : EngineId) (f : Engine → Engine) : (modEngine s e f).pending = s.pending := rfl

/-! `modEngines` -/
@[simp] theorem modEngines_fuses (s : State) (f : Engine → Engine) : (modEngines s f).fuses = s.fuses := rfl
@[simp] theorem modEngines_time (s : State) (f : Engine → Engine) : (modEngines s f).time = s.time := rfl
@[simp] theorem modEngines_host (s : State) (f : Engine → Engine) : (modEngines s f).host = s.host := rfl
@[simp] theorem modEngines_fw (s : State) (f : Engine → Engine) : (modEngines s f).fw = s.fw := rfl
@[simp] theorem modEngines_flash (s : State) (f : Engine → Engine) : (modEngines s f).flash = s.flash := rfl
@[simp] theorem modEngines_mem (s : State) (f : Engine → Engine) : (modEngines s f).mem = s.mem := rfl
@[simp] theorem modEngines_engines (s : State) (f : Engine → Engine) : (modEngines s f).engines = vmap f s.engines := rfl
@[simp] theorem modEngines_itins (s : State) (f : Engine → Engine) : (modEngines s f).itins = s.itins := rfl
@[simp] theorem modEngines_streams (s : State) (f : Engine → Engine) : (modEngines s f).streams = s.streams := rfl
@[simp] theorem modEngines_snaps (s : State) (f : Engine → Engine) : (modEngines s f).snaps = s.snaps := rfl
@[simp] theorem modEngines_power (s : State) (f : Engine → Engine) : (modEngines s f).power = s.power := rfl
@[simp] theorem modEngines_seq (s : State) (f : Engine → Engine) : (modEngines s f).seq = s.seq := rfl
@[simp] theorem modEngines_island (s : State) (f : Engine → Engine) : (modEngines s f).island = s.island := rfl
@[simp] theorem modEngines_audio (s : State) (f : Engine → Engine) : (modEngines s f).audio = s.audio := rfl
@[simp] theorem modEngines_fabric (s : State) (f : Engine → Engine) : (modEngines s f).fabric = s.fabric := rfl
@[simp] theorem modEngines_tap (s : State) (f : Engine → Engine) : (modEngines s f).tap = s.tap := rfl
@[simp] theorem modEngines_out (s : State) (f : Engine → Engine) : (modEngines s f).out = s.out := rfl
@[simp] theorem modEngines_free (s : State) (f : Engine → Engine) : (modEngines s f).free = s.free := rfl
@[simp] theorem modEngines_pending (s : State) (f : Engine → Engine) : (modEngines s f).pending = s.pending := rfl

/-! `modPort` -/
@[simp] theorem modPort_fuses (s : State) (p : PortId) (f : Port → Port) : (modPort s p f).fuses = s.fuses := rfl
@[simp] theorem modPort_time (s : State) (p : PortId) (f : Port → Port) : (modPort s p f).time = s.time := rfl
@[simp] theorem modPort_host (s : State) (p : PortId) (f : Port → Port) : (modPort s p f).host = s.host := rfl
@[simp] theorem modPort_fw (s : State) (p : PortId) (f : Port → Port) : (modPort s p f).fw = s.fw := rfl
@[simp] theorem modPort_flash (s : State) (p : PortId) (f : Port → Port) : (modPort s p f).flash = s.flash := rfl
@[simp] theorem modPort_mem (s : State) (p : PortId) (f : Port → Port) : (modPort s p f).mem = s.mem := rfl
@[simp] theorem modPort_engines (s : State) (p : PortId) (f : Port → Port) : (modPort s p f).engines = s.engines := rfl
@[simp] theorem modPort_itins (s : State) (p : PortId) (f : Port → Port) : (modPort s p f).itins = s.itins := rfl
@[simp] theorem modPort_streams (s : State) (p : PortId) (f : Port → Port) : (modPort s p f).streams = s.streams := rfl
@[simp] theorem modPort_snaps (s : State) (p : PortId) (f : Port → Port) : (modPort s p f).snaps = s.snaps := rfl
@[simp] theorem modPort_power (s : State) (p : PortId) (f : Port → Port) : (modPort s p f).power = s.power := rfl
@[simp] theorem modPort_seq (s : State) (p : PortId) (f : Port → Port) : (modPort s p f).seq = s.seq := rfl
@[simp] theorem modPort_island (s : State) (p : PortId) (f : Port → Port) : (modPort s p f).island = s.island := rfl
@[simp] theorem modPort_audio (s : State) (p : PortId) (f : Port → Port) : (modPort s p f).audio = s.audio := rfl
@[simp] theorem modPort_fabric (s : State) (p : PortId) (f : Port → Port) : (modPort s p f).fabric = { s.fabric with ports := vmod s.fabric.ports p f } := rfl
@[simp] theorem modPort_tap (s : State) (p : PortId) (f : Port → Port) : (modPort s p f).tap = s.tap := rfl
@[simp] theorem modPort_out (s : State) (p : PortId) (f : Port → Port) : (modPort s p f).out = s.out := rfl
@[simp] theorem modPort_free (s : State) (p : PortId) (f : Port → Port) : (modPort s p f).free = s.free := rfl
@[simp] theorem modPort_pending (s : State) (p : PortId) (f : Port → Port) : (modPort s p f).pending = s.pending := rfl

/-! `modChan` -/
@[simp] theorem modChan_fuses (s : State) (c : ChanId) (f : Chan → Chan) : (modChan s c f).fuses = s.fuses := rfl
@[simp] theorem modChan_time (s : State) (c : ChanId) (f : Chan → Chan) : (modChan s c f).time = s.time := rfl
@[simp] theorem modChan_host (s : State) (c : ChanId) (f : Chan → Chan) : (modChan s c f).host = { s.host with channels := vmod s.host.channels c f } := rfl
@[simp] theorem modChan_fw (s : State) (c : ChanId) (f : Chan → Chan) : (modChan s c f).fw = s.fw := rfl
@[simp] theorem modChan_flash (s : State) (c : ChanId) (f : Chan → Chan) : (modChan s c f).flash = s.flash := rfl
@[simp] theorem modChan_mem (s : State) (c : ChanId) (f : Chan → Chan) : (modChan s c f).mem = s.mem := rfl
@[simp] theorem modChan_engines (s : State) (c : ChanId) (f : Chan → Chan) : (modChan s c f).engines = s.engines := rfl
@[simp] theorem modChan_itins (s : State) (c : ChanId) (f : Chan → Chan) : (modChan s c f).itins = s.itins := rfl
@[simp] theorem modChan_streams (s : State) (c : ChanId) (f : Chan → Chan) : (modChan s c f).streams = s.streams := rfl
@[simp] theorem modChan_snaps (s : State) (c : ChanId) (f : Chan → Chan) : (modChan s c f).snaps = s.snaps := rfl
@[simp] theorem modChan_power (s : State) (c : ChanId) (f : Chan → Chan) : (modChan s c f).power = s.power := rfl
@[simp] theorem modChan_seq (s : State) (c : ChanId) (f : Chan → Chan) : (modChan s c f).seq = s.seq := rfl
@[simp] theorem modChan_island (s : State) (c : ChanId) (f : Chan → Chan) : (modChan s c f).island = s.island := rfl
@[simp] theorem modChan_audio (s : State) (c : ChanId) (f : Chan → Chan) : (modChan s c f).audio = s.audio := rfl
@[simp] theorem modChan_fabric (s : State) (c : ChanId) (f : Chan → Chan) : (modChan s c f).fabric = s.fabric := rfl
@[simp] theorem modChan_tap (s : State) (c : ChanId) (f : Chan → Chan) : (modChan s c f).tap = s.tap := rfl
@[simp] theorem modChan_out (s : State) (c : ChanId) (f : Chan → Chan) : (modChan s c f).out = s.out := rfl
@[simp] theorem modChan_free (s : State) (c : ChanId) (f : Chan → Chan) : (modChan s c f).free = s.free := rfl
@[simp] theorem modChan_pending (s : State) (c : ChanId) (f : Chan → Chan) : (modChan s c f).pending = s.pending := rfl

/-! `modStream` -/
@[simp] theorem modStream_fuses (s : State) (h : Nat) (f : Stream → Stream) : (modStream s h f).fuses = s.fuses := rfl
@[simp] theorem modStream_time (s : State) (h : Nat) (f : Stream → Stream) : (modStream s h f).time = s.time := rfl
@[simp] theorem modStream_host (s : State) (h : Nat) (f : Stream → Stream) : (modStream s h f).host = s.host := rfl
@[simp] theorem modStream_fw (s : State) (h : Nat) (f : Stream → Stream) : (modStream s h f).fw = s.fw := rfl
@[simp] theorem modStream_flash (s : State) (h : Nat) (f : Stream → Stream) : (modStream s h f).flash = s.flash := rfl
@[simp] theorem modStream_mem (s : State) (h : Nat) (f : Stream → Stream) : (modStream s h f).mem = s.mem := rfl
@[simp] theorem modStream_engines (s : State) (h : Nat) (f : Stream → Stream) : (modStream s h f).engines = s.engines := rfl
@[simp] theorem modStream_itins (s : State) (h : Nat) (f : Stream → Stream) : (modStream s h f).itins = s.itins := rfl
@[simp] theorem modStream_streams (s : State) (h : Nat) (f : Stream → Stream) : (modStream s h f).streams = s.streams.map fun t => if t.handle == h then f t else t := rfl
@[simp] theorem modStream_snaps (s : State) (h : Nat) (f : Stream → Stream) : (modStream s h f).snaps = s.snaps := rfl
@[simp] theorem modStream_power (s : State) (h : Nat) (f : Stream → Stream) : (modStream s h f).power = s.power := rfl
@[simp] theorem modStream_seq (s : State) (h : Nat) (f : Stream → Stream) : (modStream s h f).seq = s.seq := rfl
@[simp] theorem modStream_island (s : State) (h : Nat) (f : Stream → Stream) : (modStream s h f).island = s.island := rfl
@[simp] theorem modStream_audio (s : State) (h : Nat) (f : Stream → Stream) : (modStream s h f).audio = s.audio := rfl
@[simp] theorem modStream_fabric (s : State) (h : Nat) (f : Stream → Stream) : (modStream s h f).fabric = s.fabric := rfl
@[simp] theorem modStream_tap (s : State) (h : Nat) (f : Stream → Stream) : (modStream s h f).tap = s.tap := rfl
@[simp] theorem modStream_out (s : State) (h : Nat) (f : Stream → Stream) : (modStream s h f).out = s.out := rfl
@[simp] theorem modStream_free (s : State) (h : Nat) (f : Stream → Stream) : (modStream s h f).free = s.free := rfl
@[simp] theorem modStream_pending (s : State) (h : Nat) (f : Stream → Stream) : (modStream s h f).pending = s.pending := rfl

/-! `modMem` -/
@[simp] theorem modMem_fuses (s : State) (f : Mem → Mem) : (modMem s f).fuses = s.fuses := rfl
@[simp] theorem modMem_time (s : State) (f : Mem → Mem) : (modMem s f).time = s.time := rfl
@[simp] theorem modMem_host (s : State) (f : Mem → Mem) : (modMem s f).host = s.host := rfl
@[simp] theorem modMem_fw (s : State) (f : Mem → Mem) : (modMem s f).fw = s.fw := rfl
@[simp] theorem modMem_flash (s : State) (f : Mem → Mem) : (modMem s f).flash = s.flash := rfl
@[simp] theorem modMem_mem (s : State) (f : Mem → Mem) : (modMem s f).mem = f s.mem := rfl
@[simp] theorem modMem_engines (s : State) (f : Mem → Mem) : (modMem s f).engines = s.engines := rfl
@[simp] theorem modMem_itins (s : State) (f : Mem → Mem) : (modMem s f).itins = s.itins := rfl
@[simp] theorem modMem_streams (s : State) (f : Mem → Mem) : (modMem s f).streams = s.streams := rfl
@[simp] theorem modMem_snaps (s : State) (f : Mem → Mem) : (modMem s f).snaps = s.snaps := rfl
@[simp] theorem modMem_power (s : State) (f : Mem → Mem) : (modMem s f).power = s.power := rfl
@[simp] theorem modMem_seq (s : State) (f : Mem → Mem) : (modMem s f).seq = s.seq := rfl
@[simp] theorem modMem_island (s : State) (f : Mem → Mem) : (modMem s f).island = s.island := rfl
@[simp] theorem modMem_audio (s : State) (f : Mem → Mem) : (modMem s f).audio = s.audio := rfl
@[simp] theorem modMem_fabric (s : State) (f : Mem → Mem) : (modMem s f).fabric = s.fabric := rfl
@[simp] theorem modMem_tap (s : State) (f : Mem → Mem) : (modMem s f).tap = s.tap := rfl
@[simp] theorem modMem_out (s : State) (f : Mem → Mem) : (modMem s f).out = s.out := rfl
@[simp] theorem modMem_free (s : State) (f : Mem → Mem) : (modMem s f).free = s.free := rfl
@[simp] theorem modMem_pending (s : State) (f : Mem → Mem) : (modMem s f).pending = s.pending := rfl

/-! `modSeq` -/
@[simp] theorem modSeq_fuses (s : State) (f : Seqr → Seqr) : (modSeq s f).fuses = s.fuses := rfl
@[simp] theorem modSeq_time (s : State) (f : Seqr → Seqr) : (modSeq s f).time = s.time := rfl
@[simp] theorem modSeq_host (s : State) (f : Seqr → Seqr) : (modSeq s f).host = s.host := rfl
@[simp] theorem modSeq_fw (s : State) (f : Seqr → Seqr) : (modSeq s f).fw = s.fw := rfl
@[simp] theorem modSeq_flash (s : State) (f : Seqr → Seqr) : (modSeq s f).flash = s.flash := rfl
@[simp] theorem modSeq_mem (s : State) (f : Seqr → Seqr) : (modSeq s f).mem = s.mem := rfl
@[simp] theorem modSeq_engines (s : State) (f : Seqr → Seqr) : (modSeq s f).engines = s.engines := rfl
@[simp] theorem modSeq_itins (s : State) (f : Seqr → Seqr) : (modSeq s f).itins = s.itins := rfl
@[simp] theorem modSeq_streams (s : State) (f : Seqr → Seqr) : (modSeq s f).streams = s.streams := rfl
@[simp] theorem modSeq_snaps (s : State) (f : Seqr → Seqr) : (modSeq s f).snaps = s.snaps := rfl
@[simp] theorem modSeq_power (s : State) (f : Seqr → Seqr) : (modSeq s f).power = s.power := rfl
@[simp] theorem modSeq_seq (s : State) (f : Seqr → Seqr) : (modSeq s f).seq = f s.seq := rfl
@[simp] theorem modSeq_island (s : State) (f : Seqr → Seqr) : (modSeq s f).island = s.island := rfl
@[simp] theorem modSeq_audio (s : State) (f : Seqr → Seqr) : (modSeq s f).audio = s.audio := rfl
@[simp] theorem modSeq_fabric (s : State) (f : Seqr → Seqr) : (modSeq s f).fabric = s.fabric := rfl
@[simp] theorem modSeq_tap (s : State) (f : Seqr → Seqr) : (modSeq s f).tap = s.tap := rfl
@[simp] theorem modSeq_out (s : State) (f : Seqr → Seqr) : (modSeq s f).out = s.out := rfl
@[simp] theorem modSeq_free (s : State) (f : Seqr → Seqr) : (modSeq s f).free = s.free := rfl
@[simp] theorem modSeq_pending (s : State) (f : Seqr → Seqr) : (modSeq s f).pending = s.pending := rfl

/-! `modIsland` -/
@[simp] theorem modIsland_fuses (s : State) (f : Island → Island) : (modIsland s f).fuses = s.fuses := rfl
@[simp] theorem modIsland_time (s : State) (f : Island → Island) : (modIsland s f).time = s.time := rfl
@[simp] theorem modIsland_host (s : State) (f : Island → Island) : (modIsland s f).host = s.host := rfl
@[simp] theorem modIsland_fw (s : State) (f : Island → Island) : (modIsland s f).fw = s.fw := rfl
@[simp] theorem modIsland_flash (s : State) (f : Island → Island) : (modIsland s f).flash = s.flash := rfl
@[simp] theorem modIsland_mem (s : State) (f : Island → Island) : (modIsland s f).mem = s.mem := rfl
@[simp] theorem modIsland_engines (s : State) (f : Island → Island) : (modIsland s f).engines = s.engines := rfl
@[simp] theorem modIsland_itins (s : State) (f : Island → Island) : (modIsland s f).itins = s.itins := rfl
@[simp] theorem modIsland_streams (s : State) (f : Island → Island) : (modIsland s f).streams = s.streams := rfl
@[simp] theorem modIsland_snaps (s : State) (f : Island → Island) : (modIsland s f).snaps = s.snaps := rfl
@[simp] theorem modIsland_power (s : State) (f : Island → Island) : (modIsland s f).power = s.power := rfl
@[simp] theorem modIsland_seq (s : State) (f : Island → Island) : (modIsland s f).seq = s.seq := rfl
@[simp] theorem modIsland_island (s : State) (f : Island → Island) : (modIsland s f).island = f s.island := rfl
@[simp] theorem modIsland_audio (s : State) (f : Island → Island) : (modIsland s f).audio = s.audio := rfl
@[simp] theorem modIsland_fabric (s : State) (f : Island → Island) : (modIsland s f).fabric = s.fabric := rfl
@[simp] theorem modIsland_tap (s : State) (f : Island → Island) : (modIsland s f).tap = s.tap := rfl
@[simp] theorem modIsland_out (s : State) (f : Island → Island) : (modIsland s f).out = s.out := rfl
@[simp] theorem modIsland_free (s : State) (f : Island → Island) : (modIsland s f).free = s.free := rfl
@[simp] theorem modIsland_pending (s : State) (f : Island → Island) : (modIsland s f).pending = s.pending := rfl

/-! `modFlash` -/
@[simp] theorem modFlash_fuses (s : State) (f : Flash → Flash) : (modFlash s f).fuses = s.fuses := rfl
@[simp] theorem modFlash_time (s : State) (f : Flash → Flash) : (modFlash s f).time = s.time := rfl
@[simp] theorem modFlash_host (s : State) (f : Flash → Flash) : (modFlash s f).host = s.host := rfl
@[simp] theorem modFlash_fw (s : State) (f : Flash → Flash) : (modFlash s f).fw = s.fw := rfl
@[simp] theorem modFlash_flash (s : State) (f : Flash → Flash) : (modFlash s f).flash = f s.flash := rfl
@[simp] theorem modFlash_mem (s : State) (f : Flash → Flash) : (modFlash s f).mem = s.mem := rfl
@[simp] theorem modFlash_engines (s : State) (f : Flash → Flash) : (modFlash s f).engines = s.engines := rfl
@[simp] theorem modFlash_itins (s : State) (f : Flash → Flash) : (modFlash s f).itins = s.itins := rfl
@[simp] theorem modFlash_streams (s : State) (f : Flash → Flash) : (modFlash s f).streams = s.streams := rfl
@[simp] theorem modFlash_snaps (s : State) (f : Flash → Flash) : (modFlash s f).snaps = s.snaps := rfl
@[simp] theorem modFlash_power (s : State) (f : Flash → Flash) : (modFlash s f).power = s.power := rfl
@[simp] theorem modFlash_seq (s : State) (f : Flash → Flash) : (modFlash s f).seq = s.seq := rfl
@[simp] theorem modFlash_island (s : State) (f : Flash → Flash) : (modFlash s f).island = s.island := rfl
@[simp] theorem modFlash_audio (s : State) (f : Flash → Flash) : (modFlash s f).audio = s.audio := rfl
@[simp] theorem modFlash_fabric (s : State) (f : Flash → Flash) : (modFlash s f).fabric = s.fabric := rfl
@[simp] theorem modFlash_tap (s : State) (f : Flash → Flash) : (modFlash s f).tap = s.tap := rfl
@[simp] theorem modFlash_out (s : State) (f : Flash → Flash) : (modFlash s f).out = s.out := rfl
@[simp] theorem modFlash_free (s : State) (f : Flash → Flash) : (modFlash s f).free = s.free := rfl
@[simp] theorem modFlash_pending (s : State) (f : Flash → Flash) : (modFlash s f).pending = s.pending := rfl

/-! `modAp` -/
@[simp] theorem modAp_fuses (s : State) (p : ApId) (f : AudioPort → AudioPort) : (modAp s p f).fuses = s.fuses := rfl
@[simp] theorem modAp_time (s : State) (p : ApId) (f : AudioPort → AudioPort) : (modAp s p f).time = s.time := rfl
@[simp] theorem modAp_host (s : State) (p : ApId) (f : AudioPort → AudioPort) : (modAp s p f).host = s.host := rfl
@[simp] theorem modAp_fw (s : State) (p : ApId) (f : AudioPort → AudioPort) : (modAp s p f).fw = s.fw := rfl
@[simp] theorem modAp_flash (s : State) (p : ApId) (f : AudioPort → AudioPort) : (modAp s p f).flash = s.flash := rfl
@[simp] theorem modAp_mem (s : State) (p : ApId) (f : AudioPort → AudioPort) : (modAp s p f).mem = s.mem := rfl
@[simp] theorem modAp_engines (s : State) (p : ApId) (f : AudioPort → AudioPort) : (modAp s p f).engines = s.engines := rfl
@[simp] theorem modAp_itins (s : State) (p : ApId) (f : AudioPort → AudioPort) : (modAp s p f).itins = s.itins := rfl
@[simp] theorem modAp_streams (s : State) (p : ApId) (f : AudioPort → AudioPort) : (modAp s p f).streams = s.streams := rfl
@[simp] theorem modAp_snaps (s : State) (p : ApId) (f : AudioPort → AudioPort) : (modAp s p f).snaps = s.snaps := rfl
@[simp] theorem modAp_power (s : State) (p : ApId) (f : AudioPort → AudioPort) : (modAp s p f).power = s.power := rfl
@[simp] theorem modAp_seq (s : State) (p : ApId) (f : AudioPort → AudioPort) : (modAp s p f).seq = s.seq := rfl
@[simp] theorem modAp_island (s : State) (p : ApId) (f : AudioPort → AudioPort) : (modAp s p f).island = s.island := rfl
@[simp] theorem modAp_audio (s : State) (p : ApId) (f : AudioPort → AudioPort) : (modAp s p f).audio = vmod s.audio p f := rfl
@[simp] theorem modAp_fabric (s : State) (p : ApId) (f : AudioPort → AudioPort) : (modAp s p f).fabric = s.fabric := rfl
@[simp] theorem modAp_tap (s : State) (p : ApId) (f : AudioPort → AudioPort) : (modAp s p f).tap = s.tap := rfl
@[simp] theorem modAp_out (s : State) (p : ApId) (f : AudioPort → AudioPort) : (modAp s p f).out = s.out := rfl
@[simp] theorem modAp_free (s : State) (p : ApId) (f : AudioPort → AudioPort) : (modAp s p f).free = s.free := rfl
@[simp] theorem modAp_pending (s : State) (p : ApId) (f : AudioPort → AudioPort) : (modAp s p f).pending = s.pending := rfl

/-! `releaseOwner` -/
@[simp] theorem releaseOwner_fuses (s : State) (o : Owner) : (releaseOwner s o).fuses = s.fuses := rfl
@[simp] theorem releaseOwner_time (s : State) (o : Owner) : (releaseOwner s o).time = s.time := rfl
@[simp] theorem releaseOwner_host (s : State) (o : Owner) : (releaseOwner s o).host = s.host := rfl
@[simp] theorem releaseOwner_fw (s : State) (o : Owner) : (releaseOwner s o).fw = s.fw := rfl
@[simp] theorem releaseOwner_flash (s : State) (o : Owner) : (releaseOwner s o).flash = s.flash := rfl
@[simp] theorem releaseOwner_mem (s : State) (o : Owner) : (releaseOwner s o).mem = { s.mem with reserved := s.mem.reserved.filter fun r => r.owner != o } := rfl
@[simp] theorem releaseOwner_engines (s : State) (o : Owner) : (releaseOwner s o).engines = s.engines := rfl
@[simp] theorem releaseOwner_itins (s : State) (o : Owner) : (releaseOwner s o).itins = s.itins := rfl
@[simp] theorem releaseOwner_streams (s : State) (o : Owner) : (releaseOwner s o).streams = s.streams := rfl
@[simp] theorem releaseOwner_snaps (s : State) (o : Owner) : (releaseOwner s o).snaps = s.snaps := rfl
@[simp] theorem releaseOwner_power (s : State) (o : Owner) : (releaseOwner s o).power = s.power := rfl
@[simp] theorem releaseOwner_seq (s : State) (o : Owner) : (releaseOwner s o).seq = s.seq := rfl
@[simp] theorem releaseOwner_island (s : State) (o : Owner) : (releaseOwner s o).island = s.island := rfl
@[simp] theorem releaseOwner_audio (s : State) (o : Owner) : (releaseOwner s o).audio = s.audio := rfl
@[simp] theorem releaseOwner_fabric (s : State) (o : Owner) : (releaseOwner s o).fabric = s.fabric := rfl
@[simp] theorem releaseOwner_tap (s : State) (o : Owner) : (releaseOwner s o).tap = s.tap := rfl
@[simp] theorem releaseOwner_out (s : State) (o : Owner) : (releaseOwner s o).out = s.out := rfl
@[simp] theorem releaseOwner_free (s : State) (o : Owner) : (releaseOwner s o).free = s.free := rfl
@[simp] theorem releaseOwner_pending (s : State) (o : Owner) : (releaseOwner s o).pending = s.pending := rfl

/-! `reserve` -/
@[simp] theorem reserve_fuses (s : State) (o : Owner) (tenant tier chan n : Nat) (b : Option Nat) : (reserve s o tenant tier chan n b).fuses = s.fuses := rfl
@[simp] theorem reserve_time (s : State) (o : Owner) (tenant tier chan n : Nat) (b : Option Nat) : (reserve s o tenant tier chan n b).time = s.time := rfl
@[simp] theorem reserve_host (s : State) (o : Owner) (tenant tier chan n : Nat) (b : Option Nat) : (reserve s o tenant tier chan n b).host = s.host := rfl
@[simp] theorem reserve_fw (s : State) (o : Owner) (tenant tier chan n : Nat) (b : Option Nat) : (reserve s o tenant tier chan n b).fw = s.fw := rfl
@[simp] theorem reserve_flash (s : State) (o : Owner) (tenant tier chan n : Nat) (b : Option Nat) : (reserve s o tenant tier chan n b).flash = s.flash := rfl
@[simp] theorem reserve_mem (s : State) (o : Owner) (tenant tier chan n : Nat) (b : Option Nat) : (reserve s o tenant tier chan n b).mem = { s.mem with reserved := s.mem.reserved ++ [⟨o, tenant, tier, chan, n, b⟩] } := rfl
@[simp] theorem reserve_engines (s : State) (o : Owner) (tenant tier chan n : Nat) (b : Option Nat) : (reserve s o tenant tier chan n b).engines = s.engines := rfl
@[simp] theorem reserve_itins (s : State) (o : Owner) (tenant tier chan n : Nat) (b : Option Nat) : (reserve s o tenant tier chan n b).itins = s.itins := rfl
@[simp] theorem reserve_streams (s : State) (o : Owner) (tenant tier chan n : Nat) (b : Option Nat) : (reserve s o tenant tier chan n b).streams = s.streams := rfl
@[simp] theorem reserve_snaps (s : State) (o : Owner) (tenant tier chan n : Nat) (b : Option Nat) : (reserve s o tenant tier chan n b).snaps = s.snaps := rfl
@[simp] theorem reserve_power (s : State) (o : Owner) (tenant tier chan n : Nat) (b : Option Nat) : (reserve s o tenant tier chan n b).power = s.power := rfl
@[simp] theorem reserve_seq (s : State) (o : Owner) (tenant tier chan n : Nat) (b : Option Nat) : (reserve s o tenant tier chan n b).seq = s.seq := rfl
@[simp] theorem reserve_island (s : State) (o : Owner) (tenant tier chan n : Nat) (b : Option Nat) : (reserve s o tenant tier chan n b).island = s.island := rfl
@[simp] theorem reserve_audio (s : State) (o : Owner) (tenant tier chan n : Nat) (b : Option Nat) : (reserve s o tenant tier chan n b).audio = s.audio := rfl
@[simp] theorem reserve_fabric (s : State) (o : Owner) (tenant tier chan n : Nat) (b : Option Nat) : (reserve s o tenant tier chan n b).fabric = s.fabric := rfl
@[simp] theorem reserve_tap (s : State) (o : Owner) (tenant tier chan n : Nat) (b : Option Nat) : (reserve s o tenant tier chan n b).tap = s.tap := rfl
@[simp] theorem reserve_out (s : State) (o : Owner) (tenant tier chan n : Nat) (b : Option Nat) : (reserve s o tenant tier chan n b).out = s.out := rfl
@[simp] theorem reserve_free (s : State) (o : Owner) (tenant tier chan n : Nat) (b : Option Nat) : (reserve s o tenant tier chan n b).free = s.free := rfl
@[simp] theorem reserve_pending (s : State) (o : Owner) (tenant tier chan n : Nat) (b : Option Nat) : (reserve s o tenant tier chan n b).pending = s.pending := rfl

/-! `hold` -/
@[simp] theorem hold_fuses (s : State) (m : MailCmd) : (hold s m).fuses = s.fuses := rfl
@[simp] theorem hold_time (s : State) (m : MailCmd) : (hold s m).time = s.time := rfl
@[simp] theorem hold_fw (s : State) (m : MailCmd) : (hold s m).fw = s.fw := rfl
@[simp] theorem hold_flash (s : State) (m : MailCmd) : (hold s m).flash = s.flash := rfl
@[simp] theorem hold_mem (s : State) (m : MailCmd) : (hold s m).mem = s.mem := rfl
@[simp] theorem hold_engines (s : State) (m : MailCmd) : (hold s m).engines = s.engines := rfl
@[simp] theorem hold_itins (s : State) (m : MailCmd) : (hold s m).itins = s.itins := rfl
@[simp] theorem hold_streams (s : State) (m : MailCmd) : (hold s m).streams = s.streams := rfl
@[simp] theorem hold_snaps (s : State) (m : MailCmd) : (hold s m).snaps = s.snaps := rfl
@[simp] theorem hold_power (s : State) (m : MailCmd) : (hold s m).power = s.power := rfl
@[simp] theorem hold_seq (s : State) (m : MailCmd) : (hold s m).seq = s.seq := rfl
@[simp] theorem hold_island (s : State) (m : MailCmd) : (hold s m).island = s.island := rfl
@[simp] theorem hold_audio (s : State) (m : MailCmd) : (hold s m).audio = s.audio := rfl
@[simp] theorem hold_fabric (s : State) (m : MailCmd) : (hold s m).fabric = s.fabric := rfl
@[simp] theorem hold_tap (s : State) (m : MailCmd) : (hold s m).tap = s.tap := rfl
@[simp] theorem hold_out (s : State) (m : MailCmd) : (hold s m).out = s.out := rfl
@[simp] theorem hold_free (s : State) (m : MailCmd) : (hold s m).free = s.free := rfl
@[simp] theorem hold_pending (s : State) (m : MailCmd) : (hold s m).pending = s.pending := rfl

/-! `completeCode` -/
@[simp] theorem completeCode_fuses (s : State) (m : MailCmd) (code result : Nat) : (completeCode s m code result).fuses = s.fuses := rfl
@[simp] theorem completeCode_time (s : State) (m : MailCmd) (code result : Nat) : (completeCode s m code result).time = s.time := rfl
@[simp] theorem completeCode_fw (s : State) (m : MailCmd) (code result : Nat) : (completeCode s m code result).fw = s.fw := rfl
@[simp] theorem completeCode_flash (s : State) (m : MailCmd) (code result : Nat) : (completeCode s m code result).flash = s.flash := rfl
@[simp] theorem completeCode_mem (s : State) (m : MailCmd) (code result : Nat) : (completeCode s m code result).mem = s.mem := rfl
@[simp] theorem completeCode_engines (s : State) (m : MailCmd) (code result : Nat) : (completeCode s m code result).engines = s.engines := rfl
@[simp] theorem completeCode_itins (s : State) (m : MailCmd) (code result : Nat) : (completeCode s m code result).itins = s.itins := rfl
@[simp] theorem completeCode_streams (s : State) (m : MailCmd) (code result : Nat) : (completeCode s m code result).streams = s.streams := rfl
@[simp] theorem completeCode_snaps (s : State) (m : MailCmd) (code result : Nat) : (completeCode s m code result).snaps = s.snaps := rfl
@[simp] theorem completeCode_power (s : State) (m : MailCmd) (code result : Nat) : (completeCode s m code result).power = s.power := rfl
@[simp] theorem completeCode_seq (s : State) (m : MailCmd) (code result : Nat) : (completeCode s m code result).seq = s.seq := rfl
@[simp] theorem completeCode_island (s : State) (m : MailCmd) (code result : Nat) : (completeCode s m code result).island = s.island := rfl
@[simp] theorem completeCode_audio (s : State) (m : MailCmd) (code result : Nat) : (completeCode s m code result).audio = s.audio := rfl
@[simp] theorem completeCode_fabric (s : State) (m : MailCmd) (code result : Nat) : (completeCode s m code result).fabric = s.fabric := rfl
@[simp] theorem completeCode_tap (s : State) (m : MailCmd) (code result : Nat) : (completeCode s m code result).tap = s.tap := rfl
@[simp] theorem completeCode_out (s : State) (m : MailCmd) (code result : Nat) : (completeCode s m code result).out = s.out := rfl
@[simp] theorem completeCode_free (s : State) (m : MailCmd) (code result : Nat) : (completeCode s m code result).free = s.free := rfl
@[simp] theorem completeCode_pending (s : State) (m : MailCmd) (code result : Nat) : (completeCode s m code result).pending = s.pending := rfl

/-! `complete` -/
@[simp] theorem complete_fuses (s : State) (m : MailCmd) (st : Status) (result : Nat) : (complete s m st result).fuses = s.fuses := rfl
@[simp] theorem complete_time (s : State) (m : MailCmd) (st : Status) (result : Nat) : (complete s m st result).time = s.time := rfl
@[simp] theorem complete_fw (s : State) (m : MailCmd) (st : Status) (result : Nat) : (complete s m st result).fw = s.fw := rfl
@[simp] theorem complete_flash (s : State) (m : MailCmd) (st : Status) (result : Nat) : (complete s m st result).flash = s.flash := rfl
@[simp] theorem complete_mem (s : State) (m : MailCmd) (st : Status) (result : Nat) : (complete s m st result).mem = s.mem := rfl
@[simp] theorem complete_engines (s : State) (m : MailCmd) (st : Status) (result : Nat) : (complete s m st result).engines = s.engines := rfl
@[simp] theorem complete_itins (s : State) (m : MailCmd) (st : Status) (result : Nat) : (complete s m st result).itins = s.itins := rfl
@[simp] theorem complete_streams (s : State) (m : MailCmd) (st : Status) (result : Nat) : (complete s m st result).streams = s.streams := rfl
@[simp] theorem complete_snaps (s : State) (m : MailCmd) (st : Status) (result : Nat) : (complete s m st result).snaps = s.snaps := rfl
@[simp] theorem complete_power (s : State) (m : MailCmd) (st : Status) (result : Nat) : (complete s m st result).power = s.power := rfl
@[simp] theorem complete_seq (s : State) (m : MailCmd) (st : Status) (result : Nat) : (complete s m st result).seq = s.seq := rfl
@[simp] theorem complete_island (s : State) (m : MailCmd) (st : Status) (result : Nat) : (complete s m st result).island = s.island := rfl
@[simp] theorem complete_audio (s : State) (m : MailCmd) (st : Status) (result : Nat) : (complete s m st result).audio = s.audio := rfl
@[simp] theorem complete_fabric (s : State) (m : MailCmd) (st : Status) (result : Nat) : (complete s m st result).fabric = s.fabric := rfl
@[simp] theorem complete_tap (s : State) (m : MailCmd) (st : Status) (result : Nat) : (complete s m st result).tap = s.tap := rfl
@[simp] theorem complete_out (s : State) (m : MailCmd) (st : Status) (result : Nat) : (complete s m st result).out = s.out := rfl
@[simp] theorem complete_free (s : State) (m : MailCmd) (st : Status) (result : Nat) : (complete s m st result).free = s.free := rfl
@[simp] theorem complete_pending (s : State) (m : MailCmd) (st : Status) (result : Nat) : (complete s m st result).pending = s.pending := rfl

/-! `completeUnsolicited` -/
@[simp] theorem completeUnsolicited_fuses (s : State) (c : ChanId) (h : Nat) (st : Status) (result : Nat) : (completeUnsolicited s c h st result).fuses = s.fuses := rfl
@[simp] theorem completeUnsolicited_time (s : State) (c : ChanId) (h : Nat) (st : Status) (result : Nat) : (completeUnsolicited s c h st result).time = s.time := rfl
@[simp] theorem completeUnsolicited_fw (s : State) (c : ChanId) (h : Nat) (st : Status) (result : Nat) : (completeUnsolicited s c h st result).fw = s.fw := rfl
@[simp] theorem completeUnsolicited_flash (s : State) (c : ChanId) (h : Nat) (st : Status) (result : Nat) : (completeUnsolicited s c h st result).flash = s.flash := rfl
@[simp] theorem completeUnsolicited_mem (s : State) (c : ChanId) (h : Nat) (st : Status) (result : Nat) : (completeUnsolicited s c h st result).mem = s.mem := rfl
@[simp] theorem completeUnsolicited_engines (s : State) (c : ChanId) (h : Nat) (st : Status) (result : Nat) : (completeUnsolicited s c h st result).engines = s.engines := rfl
@[simp] theorem completeUnsolicited_itins (s : State) (c : ChanId) (h : Nat) (st : Status) (result : Nat) : (completeUnsolicited s c h st result).itins = s.itins := rfl
@[simp] theorem completeUnsolicited_streams (s : State) (c : ChanId) (h : Nat) (st : Status) (result : Nat) : (completeUnsolicited s c h st result).streams = s.streams := rfl
@[simp] theorem completeUnsolicited_snaps (s : State) (c : ChanId) (h : Nat) (st : Status) (result : Nat) : (completeUnsolicited s c h st result).snaps = s.snaps := rfl
@[simp] theorem completeUnsolicited_power (s : State) (c : ChanId) (h : Nat) (st : Status) (result : Nat) : (completeUnsolicited s c h st result).power = s.power := rfl
@[simp] theorem completeUnsolicited_seq (s : State) (c : ChanId) (h : Nat) (st : Status) (result : Nat) : (completeUnsolicited s c h st result).seq = s.seq := rfl
@[simp] theorem completeUnsolicited_island (s : State) (c : ChanId) (h : Nat) (st : Status) (result : Nat) : (completeUnsolicited s c h st result).island = s.island := rfl
@[simp] theorem completeUnsolicited_audio (s : State) (c : ChanId) (h : Nat) (st : Status) (result : Nat) : (completeUnsolicited s c h st result).audio = s.audio := rfl
@[simp] theorem completeUnsolicited_fabric (s : State) (c : ChanId) (h : Nat) (st : Status) (result : Nat) : (completeUnsolicited s c h st result).fabric = s.fabric := rfl
@[simp] theorem completeUnsolicited_tap (s : State) (c : ChanId) (h : Nat) (st : Status) (result : Nat) : (completeUnsolicited s c h st result).tap = s.tap := rfl
@[simp] theorem completeUnsolicited_out (s : State) (c : ChanId) (h : Nat) (st : Status) (result : Nat) : (completeUnsolicited s c h st result).out = s.out := rfl
@[simp] theorem completeUnsolicited_free (s : State) (c : ChanId) (h : Nat) (st : Status) (result : Nat) : (completeUnsolicited s c h st result).free = s.free := rfl
@[simp] theorem completeUnsolicited_pending (s : State) (c : ChanId) (h : Nat) (st : Status) (result : Nat) : (completeUnsolicited s c h st result).pending = s.pending := rfl

/-! `postEventAt` -/
@[simp] theorem postEventAt_fuses (s : State) (code stamp pay : Nat) : (postEventAt s code stamp pay).fuses = s.fuses := rfl
@[simp] theorem postEventAt_time (s : State) (code stamp pay : Nat) : (postEventAt s code stamp pay).time = s.time := rfl
@[simp] theorem postEventAt_fw (s : State) (code stamp pay : Nat) : (postEventAt s code stamp pay).fw = s.fw := rfl
@[simp] theorem postEventAt_flash (s : State) (code stamp pay : Nat) : (postEventAt s code stamp pay).flash = s.flash := rfl
@[simp] theorem postEventAt_mem (s : State) (code stamp pay : Nat) : (postEventAt s code stamp pay).mem = s.mem := rfl
@[simp] theorem postEventAt_engines (s : State) (code stamp pay : Nat) : (postEventAt s code stamp pay).engines = s.engines := rfl
@[simp] theorem postEventAt_itins (s : State) (code stamp pay : Nat) : (postEventAt s code stamp pay).itins = s.itins := rfl
@[simp] theorem postEventAt_streams (s : State) (code stamp pay : Nat) : (postEventAt s code stamp pay).streams = s.streams := rfl
@[simp] theorem postEventAt_snaps (s : State) (code stamp pay : Nat) : (postEventAt s code stamp pay).snaps = s.snaps := rfl
@[simp] theorem postEventAt_power (s : State) (code stamp pay : Nat) : (postEventAt s code stamp pay).power = s.power := rfl
@[simp] theorem postEventAt_seq (s : State) (code stamp pay : Nat) : (postEventAt s code stamp pay).seq = s.seq := rfl
@[simp] theorem postEventAt_island (s : State) (code stamp pay : Nat) : (postEventAt s code stamp pay).island = s.island := rfl
@[simp] theorem postEventAt_audio (s : State) (code stamp pay : Nat) : (postEventAt s code stamp pay).audio = s.audio := rfl
@[simp] theorem postEventAt_fabric (s : State) (code stamp pay : Nat) : (postEventAt s code stamp pay).fabric = s.fabric := rfl
@[simp] theorem postEventAt_tap (s : State) (code stamp pay : Nat) : (postEventAt s code stamp pay).tap = s.tap := rfl
@[simp] theorem postEventAt_out (s : State) (code stamp pay : Nat) : (postEventAt s code stamp pay).out = s.out := rfl
@[simp] theorem postEventAt_free (s : State) (code stamp pay : Nat) : (postEventAt s code stamp pay).free = s.free := rfl
@[simp] theorem postEventAt_pending (s : State) (code stamp pay : Nat) : (postEventAt s code stamp pay).pending = s.pending := rfl

/-! `postEvent` -/
@[simp] theorem postEvent_fuses (s : State) (code pay : Nat) : (postEvent s code pay).fuses = s.fuses := rfl
@[simp] theorem postEvent_time (s : State) (code pay : Nat) : (postEvent s code pay).time = s.time := rfl
@[simp] theorem postEvent_fw (s : State) (code pay : Nat) : (postEvent s code pay).fw = s.fw := rfl
@[simp] theorem postEvent_flash (s : State) (code pay : Nat) : (postEvent s code pay).flash = s.flash := rfl
@[simp] theorem postEvent_mem (s : State) (code pay : Nat) : (postEvent s code pay).mem = s.mem := rfl
@[simp] theorem postEvent_engines (s : State) (code pay : Nat) : (postEvent s code pay).engines = s.engines := rfl
@[simp] theorem postEvent_itins (s : State) (code pay : Nat) : (postEvent s code pay).itins = s.itins := rfl
@[simp] theorem postEvent_streams (s : State) (code pay : Nat) : (postEvent s code pay).streams = s.streams := rfl
@[simp] theorem postEvent_snaps (s : State) (code pay : Nat) : (postEvent s code pay).snaps = s.snaps := rfl
@[simp] theorem postEvent_power (s : State) (code pay : Nat) : (postEvent s code pay).power = s.power := rfl
@[simp] theorem postEvent_seq (s : State) (code pay : Nat) : (postEvent s code pay).seq = s.seq := rfl
@[simp] theorem postEvent_island (s : State) (code pay : Nat) : (postEvent s code pay).island = s.island := rfl
@[simp] theorem postEvent_audio (s : State) (code pay : Nat) : (postEvent s code pay).audio = s.audio := rfl
@[simp] theorem postEvent_fabric (s : State) (code pay : Nat) : (postEvent s code pay).fabric = s.fabric := rfl
@[simp] theorem postEvent_tap (s : State) (code pay : Nat) : (postEvent s code pay).tap = s.tap := rfl
@[simp] theorem postEvent_out (s : State) (code pay : Nat) : (postEvent s code pay).out = s.out := rfl
@[simp] theorem postEvent_free (s : State) (code pay : Nat) : (postEvent s code pay).free = s.free := rfl
@[simp] theorem postEvent_pending (s : State) (code pay : Nat) : (postEvent s code pay).pending = s.pending := rfl

/-! `logDie` -/
@[simp] theorem logDie_fuses (s : State) (code unit sev data : Nat) : (logDie s code unit sev data).fuses = s.fuses := rfl
@[simp] theorem logDie_time (s : State) (code unit sev data : Nat) : (logDie s code unit sev data).time = s.time := rfl
@[simp] theorem logDie_host (s : State) (code unit sev data : Nat) : (logDie s code unit sev data).host = s.host := rfl
@[simp] theorem logDie_flash (s : State) (code unit sev data : Nat) : (logDie s code unit sev data).flash = s.flash := rfl
@[simp] theorem logDie_mem (s : State) (code unit sev data : Nat) : (logDie s code unit sev data).mem = s.mem := rfl
@[simp] theorem logDie_engines (s : State) (code unit sev data : Nat) : (logDie s code unit sev data).engines = s.engines := rfl
@[simp] theorem logDie_itins (s : State) (code unit sev data : Nat) : (logDie s code unit sev data).itins = s.itins := rfl
@[simp] theorem logDie_streams (s : State) (code unit sev data : Nat) : (logDie s code unit sev data).streams = s.streams := rfl
@[simp] theorem logDie_snaps (s : State) (code unit sev data : Nat) : (logDie s code unit sev data).snaps = s.snaps := rfl
@[simp] theorem logDie_power (s : State) (code unit sev data : Nat) : (logDie s code unit sev data).power = s.power := rfl
@[simp] theorem logDie_seq (s : State) (code unit sev data : Nat) : (logDie s code unit sev data).seq = s.seq := rfl
@[simp] theorem logDie_island (s : State) (code unit sev data : Nat) : (logDie s code unit sev data).island = s.island := rfl
@[simp] theorem logDie_audio (s : State) (code unit sev data : Nat) : (logDie s code unit sev data).audio = s.audio := rfl
@[simp] theorem logDie_fabric (s : State) (code unit sev data : Nat) : (logDie s code unit sev data).fabric = s.fabric := rfl
@[simp] theorem logDie_tap (s : State) (code unit sev data : Nat) : (logDie s code unit sev data).tap = s.tap := rfl
@[simp] theorem logDie_out (s : State) (code unit sev data : Nat) : (logDie s code unit sev data).out = s.out := rfl
@[simp] theorem logDie_free (s : State) (code unit sev data : Nat) : (logDie s code unit sev data).free = s.free := rfl
@[simp] theorem logDie_pending (s : State) (code unit sev data : Nat) : (logDie s code unit sev data).pending = s.pending := rfl

/-! `logIsland` -/
@[simp] theorem logIsland_fuses (s : State) (code unit sev data : Nat) : (logIsland s code unit sev data).fuses = s.fuses := rfl
@[simp] theorem logIsland_time (s : State) (code unit sev data : Nat) : (logIsland s code unit sev data).time = s.time := rfl
@[simp] theorem logIsland_host (s : State) (code unit sev data : Nat) : (logIsland s code unit sev data).host = s.host := rfl
@[simp] theorem logIsland_fw (s : State) (code unit sev data : Nat) : (logIsland s code unit sev data).fw = s.fw := rfl
@[simp] theorem logIsland_flash (s : State) (code unit sev data : Nat) : (logIsland s code unit sev data).flash = s.flash := rfl
@[simp] theorem logIsland_mem (s : State) (code unit sev data : Nat) : (logIsland s code unit sev data).mem = s.mem := rfl
@[simp] theorem logIsland_engines (s : State) (code unit sev data : Nat) : (logIsland s code unit sev data).engines = s.engines := rfl
@[simp] theorem logIsland_itins (s : State) (code unit sev data : Nat) : (logIsland s code unit sev data).itins = s.itins := rfl
@[simp] theorem logIsland_streams (s : State) (code unit sev data : Nat) : (logIsland s code unit sev data).streams = s.streams := rfl
@[simp] theorem logIsland_snaps (s : State) (code unit sev data : Nat) : (logIsland s code unit sev data).snaps = s.snaps := rfl
@[simp] theorem logIsland_power (s : State) (code unit sev data : Nat) : (logIsland s code unit sev data).power = s.power := rfl
@[simp] theorem logIsland_seq (s : State) (code unit sev data : Nat) : (logIsland s code unit sev data).seq = s.seq := rfl
@[simp] theorem logIsland_audio (s : State) (code unit sev data : Nat) : (logIsland s code unit sev data).audio = s.audio := rfl
@[simp] theorem logIsland_fabric (s : State) (code unit sev data : Nat) : (logIsland s code unit sev data).fabric = s.fabric := rfl
@[simp] theorem logIsland_tap (s : State) (code unit sev data : Nat) : (logIsland s code unit sev data).tap = s.tap := rfl
@[simp] theorem logIsland_out (s : State) (code unit sev data : Nat) : (logIsland s code unit sev data).out = s.out := rfl
@[simp] theorem logIsland_free (s : State) (code unit sev data : Nat) : (logIsland s code unit sev data).free = s.free := rfl
@[simp] theorem logIsland_pending (s : State) (code unit sev data : Nat) : (logIsland s code unit sev data).pending = s.pending := rfl

/-! `sendMgmt` -/
@[simp] theorem sendMgmt_fuses (s : State) (d : FabId) (k : Mgmt) : (sendMgmt s d k).fuses = s.fuses := rfl
@[simp] theorem sendMgmt_time (s : State) (d : FabId) (k : Mgmt) : (sendMgmt s d k).time = s.time := rfl
@[simp] theorem sendMgmt_host (s : State) (d : FabId) (k : Mgmt) : (sendMgmt s d k).host = s.host := rfl
@[simp] theorem sendMgmt_fw (s : State) (d : FabId) (k : Mgmt) : (sendMgmt s d k).fw = s.fw := rfl
@[simp] theorem sendMgmt_flash (s : State) (d : FabId) (k : Mgmt) : (sendMgmt s d k).flash = s.flash := rfl
@[simp] theorem sendMgmt_mem (s : State) (d : FabId) (k : Mgmt) : (sendMgmt s d k).mem = s.mem := rfl
@[simp] theorem sendMgmt_engines (s : State) (d : FabId) (k : Mgmt) : (sendMgmt s d k).engines = s.engines := rfl
@[simp] theorem sendMgmt_itins (s : State) (d : FabId) (k : Mgmt) : (sendMgmt s d k).itins = s.itins := rfl
@[simp] theorem sendMgmt_streams (s : State) (d : FabId) (k : Mgmt) : (sendMgmt s d k).streams = s.streams := rfl
@[simp] theorem sendMgmt_snaps (s : State) (d : FabId) (k : Mgmt) : (sendMgmt s d k).snaps = s.snaps := rfl
@[simp] theorem sendMgmt_power (s : State) (d : FabId) (k : Mgmt) : (sendMgmt s d k).power = s.power := rfl
@[simp] theorem sendMgmt_seq (s : State) (d : FabId) (k : Mgmt) : (sendMgmt s d k).seq = s.seq := rfl
@[simp] theorem sendMgmt_island (s : State) (d : FabId) (k : Mgmt) : (sendMgmt s d k).island = s.island := rfl
@[simp] theorem sendMgmt_audio (s : State) (d : FabId) (k : Mgmt) : (sendMgmt s d k).audio = s.audio := rfl
@[simp] theorem sendMgmt_tap (s : State) (d : FabId) (k : Mgmt) : (sendMgmt s d k).tap = s.tap := rfl
@[simp] theorem sendMgmt_out (s : State) (d : FabId) (k : Mgmt) : (sendMgmt s d k).out = s.out ++ [.mgmt d k] := rfl
@[simp] theorem sendMgmt_pending (s : State) (d : FabId) (k : Mgmt) : (sendMgmt s d k).pending = s.pending := rfl

/-! `sendLink` -/
@[simp] theorem sendLink_fuses (s : State) (p : PortId) (k : Mgmt) : (sendLink s p k).fuses = s.fuses := rfl
@[simp] theorem sendLink_time (s : State) (p : PortId) (k : Mgmt) : (sendLink s p k).time = s.time := rfl
@[simp] theorem sendLink_host (s : State) (p : PortId) (k : Mgmt) : (sendLink s p k).host = s.host := rfl
@[simp] theorem sendLink_fw (s : State) (p : PortId) (k : Mgmt) : (sendLink s p k).fw = s.fw := rfl
@[simp] theorem sendLink_flash (s : State) (p : PortId) (k : Mgmt) : (sendLink s p k).flash = s.flash := rfl
@[simp] theorem sendLink_mem (s : State) (p : PortId) (k : Mgmt) : (sendLink s p k).mem = s.mem := rfl
@[simp] theorem sendLink_engines (s : State) (p : PortId) (k : Mgmt) : (sendLink s p k).engines = s.engines := rfl
@[simp] theorem sendLink_itins (s : State) (p : PortId) (k : Mgmt) : (sendLink s p k).itins = s.itins := rfl
@[simp] theorem sendLink_streams (s : State) (p : PortId) (k : Mgmt) : (sendLink s p k).streams = s.streams := rfl
@[simp] theorem sendLink_snaps (s : State) (p : PortId) (k : Mgmt) : (sendLink s p k).snaps = s.snaps := rfl
@[simp] theorem sendLink_power (s : State) (p : PortId) (k : Mgmt) : (sendLink s p k).power = s.power := rfl
@[simp] theorem sendLink_seq (s : State) (p : PortId) (k : Mgmt) : (sendLink s p k).seq = s.seq := rfl
@[simp] theorem sendLink_island (s : State) (p : PortId) (k : Mgmt) : (sendLink s p k).island = s.island := rfl
@[simp] theorem sendLink_audio (s : State) (p : PortId) (k : Mgmt) : (sendLink s p k).audio = s.audio := rfl
@[simp] theorem sendLink_tap (s : State) (p : PortId) (k : Mgmt) : (sendLink s p k).tap = s.tap := rfl
@[simp] theorem sendLink_pending (s : State) (p : PortId) (k : Mgmt) : (sendLink s p k).pending = s.pending := rfl
@[simp] theorem sendLink_out (s : State) (p : PortId) (k : Mgmt) : (sendLink s p k).out = s.out ++ [.mgmt (s.fabric.ports.get p).peer k] := rfl

/-! `sendNeighbours` -/

/-- Sending to every neighbour touches the output queues, the count of free values, and what leaves the die, and nothing else. -/
theorem sendNeighbours_only (s : State) (k : Mgmt) : sendNeighbours s k =
    { s with fabric := (sendNeighbours s k).fabric, free := (sendNeighbours s k).free, out := (sendNeighbours s k).out } := by
  unfold sendNeighbours
  generalize activePorts s = l
  induction l generalizing s with
  | nil => rfl
  | cons p r ih => simp only [List.foldl_cons]; rw [ih (sendLink s p k)]; rfl

@[simp] theorem sendNeighbours_fuses (s : State) (k : Mgmt) : (sendNeighbours s k).fuses = s.fuses := by rw [sendNeighbours_only]
@[simp] theorem sendNeighbours_time (s : State) (k : Mgmt) : (sendNeighbours s k).time = s.time := by rw [sendNeighbours_only]
@[simp] theorem sendNeighbours_host (s : State) (k : Mgmt) : (sendNeighbours s k).host = s.host := by rw [sendNeighbours_only]
@[simp] theorem sendNeighbours_fw (s : State) (k : Mgmt) : (sendNeighbours s k).fw = s.fw := by rw [sendNeighbours_only]
@[simp] theorem sendNeighbours_flash (s : State) (k : Mgmt) : (sendNeighbours s k).flash = s.flash := by rw [sendNeighbours_only]
@[simp] theorem sendNeighbours_mem (s : State) (k : Mgmt) : (sendNeighbours s k).mem = s.mem := by rw [sendNeighbours_only]
@[simp] theorem sendNeighbours_engines (s : State) (k : Mgmt) : (sendNeighbours s k).engines = s.engines := by rw [sendNeighbours_only]
@[simp] theorem sendNeighbours_itins (s : State) (k : Mgmt) : (sendNeighbours s k).itins = s.itins := by rw [sendNeighbours_only]
@[simp] theorem sendNeighbours_streams (s : State) (k : Mgmt) : (sendNeighbours s k).streams = s.streams := by rw [sendNeighbours_only]
@[simp] theorem sendNeighbours_snaps (s : State) (k : Mgmt) : (sendNeighbours s k).snaps = s.snaps := by rw [sendNeighbours_only]
@[simp] theorem sendNeighbours_power (s : State) (k : Mgmt) : (sendNeighbours s k).power = s.power := by rw [sendNeighbours_only]
@[simp] theorem sendNeighbours_seq (s : State) (k : Mgmt) : (sendNeighbours s k).seq = s.seq := by rw [sendNeighbours_only]
@[simp] theorem sendNeighbours_island (s : State) (k : Mgmt) : (sendNeighbours s k).island = s.island := by rw [sendNeighbours_only]
@[simp] theorem sendNeighbours_audio (s : State) (k : Mgmt) : (sendNeighbours s k).audio = s.audio := by rw [sendNeighbours_only]
@[simp] theorem sendNeighbours_tap (s : State) (k : Mgmt) : (sendNeighbours s k).tap = s.tap := by rw [sendNeighbours_only]
@[simp] theorem sendNeighbours_pending (s : State) (k : Mgmt) : (sendNeighbours s k).pending = s.pending := by rw [sendNeighbours_only]

/-! `sendTray` -/
@[simp] theorem sendTray_fuses (s : State) (d : Option SlotId) (k : TrayMsg) : (sendTray s d k).fuses = s.fuses := rfl
@[simp] theorem sendTray_time (s : State) (d : Option SlotId) (k : TrayMsg) : (sendTray s d k).time = s.time := rfl
@[simp] theorem sendTray_host (s : State) (d : Option SlotId) (k : TrayMsg) : (sendTray s d k).host = s.host := rfl
@[simp] theorem sendTray_fw (s : State) (d : Option SlotId) (k : TrayMsg) : (sendTray s d k).fw = s.fw := rfl
@[simp] theorem sendTray_flash (s : State) (d : Option SlotId) (k : TrayMsg) : (sendTray s d k).flash = s.flash := rfl
@[simp] theorem sendTray_mem (s : State) (d : Option SlotId) (k : TrayMsg) : (sendTray s d k).mem = s.mem := rfl
@[simp] theorem sendTray_engines (s : State) (d : Option SlotId) (k : TrayMsg) : (sendTray s d k).engines = s.engines := rfl
@[simp] theorem sendTray_itins (s : State) (d : Option SlotId) (k : TrayMsg) : (sendTray s d k).itins = s.itins := rfl
@[simp] theorem sendTray_streams (s : State) (d : Option SlotId) (k : TrayMsg) : (sendTray s d k).streams = s.streams := rfl
@[simp] theorem sendTray_snaps (s : State) (d : Option SlotId) (k : TrayMsg) : (sendTray s d k).snaps = s.snaps := rfl
@[simp] theorem sendTray_power (s : State) (d : Option SlotId) (k : TrayMsg) : (sendTray s d k).power = s.power := rfl
@[simp] theorem sendTray_seq (s : State) (d : Option SlotId) (k : TrayMsg) : (sendTray s d k).seq = s.seq := rfl
@[simp] theorem sendTray_island (s : State) (d : Option SlotId) (k : TrayMsg) : (sendTray s d k).island = { s.island with txSeq := s.island.txSeq + 1 } := rfl
@[simp] theorem sendTray_audio (s : State) (d : Option SlotId) (k : TrayMsg) : (sendTray s d k).audio = s.audio := rfl
@[simp] theorem sendTray_fabric (s : State) (d : Option SlotId) (k : TrayMsg) : (sendTray s d k).fabric = s.fabric := rfl
@[simp] theorem sendTray_tap (s : State) (d : Option SlotId) (k : TrayMsg) : (sendTray s d k).tap = s.tap := rfl
@[simp] theorem sendTray_out (s : State) (d : Option SlotId) (k : TrayMsg) : (sendTray s d k).out = s.out ++ [.tray d s.island.txSeq k] := rfl
@[simp] theorem sendTray_free (s : State) (d : Option SlotId) (k : TrayMsg) : (sendTray s d k).free = s.free := rfl
@[simp] theorem sendTray_pending (s : State) (d : Option SlotId) (k : TrayMsg) : (sendTray s d k).pending = s.pending := rfl

/-! `modItin` -/
@[simp] theorem modItin_fuses (s : State) (h : Nat) (f : Itin → Itin) : (modItin s h f).fuses = s.fuses := rfl
@[simp] theorem modItin_time (s : State) (h : Nat) (f : Itin → Itin) : (modItin s h f).time = s.time := rfl
@[simp] theorem modItin_host (s : State) (h : Nat) (f : Itin → Itin) : (modItin s h f).host = s.host := rfl
@[simp] theorem modItin_fw (s : State) (h : Nat) (f : Itin → Itin) : (modItin s h f).fw = s.fw := rfl
@[simp] theorem modItin_flash (s : State) (h : Nat) (f : Itin → Itin) : (modItin s h f).flash = s.flash := rfl
@[simp] theorem modItin_mem (s : State) (h : Nat) (f : Itin → Itin) : (modItin s h f).mem = s.mem := rfl
@[simp] theorem modItin_engines (s : State) (h : Nat) (f : Itin → Itin) : (modItin s h f).engines = s.engines := rfl
@[simp] theorem modItin_itins (s : State) (h : Nat) (f : Itin → Itin) : (modItin s h f).itins = s.itins.map fun x => if x.handle == h then f x else x := rfl
@[simp] theorem modItin_streams (s : State) (h : Nat) (f : Itin → Itin) : (modItin s h f).streams = s.streams := rfl
@[simp] theorem modItin_snaps (s : State) (h : Nat) (f : Itin → Itin) : (modItin s h f).snaps = s.snaps := rfl
@[simp] theorem modItin_power (s : State) (h : Nat) (f : Itin → Itin) : (modItin s h f).power = s.power := rfl
@[simp] theorem modItin_seq (s : State) (h : Nat) (f : Itin → Itin) : (modItin s h f).seq = s.seq := rfl
@[simp] theorem modItin_island (s : State) (h : Nat) (f : Itin → Itin) : (modItin s h f).island = s.island := rfl
@[simp] theorem modItin_audio (s : State) (h : Nat) (f : Itin → Itin) : (modItin s h f).audio = s.audio := rfl
@[simp] theorem modItin_fabric (s : State) (h : Nat) (f : Itin → Itin) : (modItin s h f).fabric = s.fabric := rfl
@[simp] theorem modItin_tap (s : State) (h : Nat) (f : Itin → Itin) : (modItin s h f).tap = s.tap := rfl
@[simp] theorem modItin_out (s : State) (h : Nat) (f : Itin → Itin) : (modItin s h f).out = s.out := rfl
@[simp] theorem modItin_free (s : State) (h : Nat) (f : Itin → Itin) : (modItin s h f).free = s.free := rfl
@[simp] theorem modItin_pending (s : State) (h : Nat) (f : Itin → Itin) : (modItin s h f).pending = s.pending := rfl

/-! `modGuests` -/
@[simp] theorem modGuests_fuses (s : State) (f : List Guest → List Guest) : (modGuests s f).fuses = s.fuses := rfl
@[simp] theorem modGuests_time (s : State) (f : List Guest → List Guest) : (modGuests s f).time = s.time := rfl
@[simp] theorem modGuests_host (s : State) (f : List Guest → List Guest) : (modGuests s f).host = s.host := rfl
@[simp] theorem modGuests_fw (s : State) (f : List Guest → List Guest) : (modGuests s f).fw = s.fw := rfl
@[simp] theorem modGuests_flash (s : State) (f : List Guest → List Guest) : (modGuests s f).flash = s.flash := rfl
@[simp] theorem modGuests_mem (s : State) (f : List Guest → List Guest) : (modGuests s f).mem = s.mem := rfl
@[simp] theorem modGuests_engines (s : State) (f : List Guest → List Guest) : (modGuests s f).engines = s.engines := rfl
@[simp] theorem modGuests_itins (s : State) (f : List Guest → List Guest) : (modGuests s f).itins = s.itins := rfl
@[simp] theorem modGuests_streams (s : State) (f : List Guest → List Guest) : (modGuests s f).streams = s.streams := rfl
@[simp] theorem modGuests_snaps (s : State) (f : List Guest → List Guest) : (modGuests s f).snaps = s.snaps := rfl
@[simp] theorem modGuests_power (s : State) (f : List Guest → List Guest) : (modGuests s f).power = s.power := rfl
@[simp] theorem modGuests_seq (s : State) (f : List Guest → List Guest) : (modGuests s f).seq = s.seq := rfl
@[simp] theorem modGuests_island (s : State) (f : List Guest → List Guest) : (modGuests s f).island = s.island := rfl
@[simp] theorem modGuests_audio (s : State) (f : List Guest → List Guest) : (modGuests s f).audio = s.audio := rfl
@[simp] theorem modGuests_fabric (s : State) (f : List Guest → List Guest) : (modGuests s f).fabric = { s.fabric with guests := f s.fabric.guests } := rfl
@[simp] theorem modGuests_tap (s : State) (f : List Guest → List Guest) : (modGuests s f).tap = s.tap := rfl
@[simp] theorem modGuests_out (s : State) (f : List Guest → List Guest) : (modGuests s f).out = s.out := rfl
@[simp] theorem modGuests_free (s : State) (f : List Guest → List Guest) : (modGuests s f).free = s.free := rfl
@[simp] theorem modGuests_pending (s : State) (f : List Guest → List Guest) : (modGuests s f).pending = s.pending := rfl

/-! What a fresh reading of the chains and the note of a target leave. -/
@[simp] theorem freshLimits_mem (s : State) : (freshLimits s).mem = s.mem := rfl
@[simp] theorem freshLimits_power (s : State) : (freshLimits s).power = s.power := rfl
@[simp] theorem freshLimits_streams (s : State) : (freshLimits s).streams = s.streams := rfl

end Sys2Proof.Laws
end

