-- ==== Sys2Proof/Laws/Memory.lean ====
section
/-! SUPPORT. The canonical form of memory: every memory operation keeps it, and reset has it. -/

namespace Sys2Proof.Laws

open Sys2Proof Sys2Proof.Machine

/-- The canonical form, one entry at a time: the entry is not an unlisted byte's, and every later address is above it. -/
theorem cellsOk_cons (a : Nat) (b : Byte) (l : List Host.Cell) :
    cellsOk ((a, b) :: l) = true ↔ b ≠ emptyByte ∧ cellsOk l = true ∧ ∀ c ∈ l, a < c.1 := by
  induction l generalizing a b with
  | nil => simp [cellsOk]
  | cons c r ih =>
    obtain ⟨a', b'⟩ := c
    have h := ih a' b'
    simp only [cellsOk, Bool.and_eq_true, decide_eq_true_eq, bne_iff_ne]
    constructor
    · rintro ⟨⟨h1, h2⟩, h3⟩
      refine ⟨h2, h3, ?_⟩
      intro c hc
      rcases List.mem_cons.1 hc with rfl | hc
      · exact h1
      · exact h1.trans ((h.1 h3).2.2 c hc)
    · rintro ⟨h2, h3, h4⟩
      exact ⟨⟨h4 _ (List.mem_cons_self ..), h2⟩, h3⟩

/-- Writing a byte brings in no address but its own. -/
theorem mem_writeByte {m : List Host.Cell} {x : Nat} {v : Byte} {c : Host.Cell} (h : c ∈ writeByte m x v) : c ∈ m ∨ c.1 = x := by
  induction m with
  | nil =>
    simp only [writeByte] at h
    split at h <;> simp_all
  | cons d r ih =>
    obtain ⟨a, b⟩ := d
    simp only [writeByte] at h
    split at h
    · rcases List.mem_cons.1 h with rfl | h
      · exact .inl (List.mem_cons_self ..)
      · exact (ih h).imp (List.mem_cons_of_mem _) id
    · have key : c = (x, v) ∨ c ∈ (a, b) :: r := by
        split at h <;> split at h
        · exact .inr (List.mem_cons_of_mem _ h)
        · exact (List.mem_cons.1 h).imp id (List.mem_cons_of_mem _)
        · exact .inr h
        · exact List.mem_cons.1 h
      rcases key with rfl | key
      · exact .inr rfl
      · exact .inl key

/-- Writing a byte keeps the canonical form. -/
theorem writeByte_ok {m : List Host.Cell} (h : cellsOk m = true) (x : Nat) (v : Byte) : cellsOk (writeByte m x v) = true := by
  induction m with
  | nil =>
    simp only [writeByte]
    split
    · rfl
    · simp_all [cellsOk]
  | cons d r ih =>
    obtain ⟨a, b⟩ := d
    obtain ⟨hb, hr, ha⟩ := (cellsOk_cons a b r).1 h
    simp only [writeByte]
    split
    · rename_i hax
      refine (cellsOk_cons _ _ _).2 ⟨hb, ih hr, fun c hc => ?_⟩
      rcases mem_writeByte hc with hc | hc
      · exact ha c hc
      · rw [hc]; exact hax
    · rename_i hax
      split
      · rename_i he
        split
        · exact hr
        · rename_i hv
          have : a = x := by simpa using he
          exact (cellsOk_cons _ _ _).2 ⟨by simpa using hv, hr, fun c hc => this ▸ ha c hc⟩
      · rename_i he
        split
        · exact h
        · rename_i hv
          have hxa : x < a := by have : a ≠ x := by simpa using he
                                 omega
          refine (cellsOk_cons _ _ _).2 ⟨by simpa using hv, h, fun c hc => ?_⟩
          rcases List.mem_cons.1 hc with rfl | hc
          · exact hxa
          · exact hxa.trans (ha c hc)

/-- Writing bytes keeps the canonical form. -/
theorem writeBytes_ok {m : List Host.Cell} (h : cellsOk m = true) (a : Nat) (l : List Byte) : cellsOk (writeBytes m a l) = true := by
  induction l generalizing m a with
  | nil => exact h
  | cons b r ih => exact ih (writeByte_ok h a b) (a + 1)

/-- Clearing bytes keeps the canonical form. -/
theorem clearBytes_ok {m : List Host.Cell} (h : cellsOk m = true) (lost : Nat → Bool) : cellsOk (clearBytes m lost) = true := by
  induction m with
  | nil => rfl
  | cons d r ih =>
    obtain ⟨a, b⟩ := d
    obtain ⟨hb, hr, ha⟩ := (cellsOk_cons a b r).1 h
    simp only [clearBytes, List.filter_cons]
    split
    · exact (cellsOk_cons _ _ _).2 ⟨hb, ih hr, fun c hc => ha c (List.mem_of_mem_filter hc)⟩
    · exact ih hr

/-- The memory at reset lists nothing, which is canonical. -/
theorem reset_wf : State.reset.mem.wf := rfl

end Sys2Proof.Laws
end

