-- ==== Sys2Proof/Laws/Ops.lean ====
section
/-! SUPPORT. What the shared operations can do: vectors, streams, interrupts, the logs and the fault record. -/

namespace Sys2Proof.Laws

open Sys2Proof Sys2Proof.Machine Sys2Proof.Safety

/-! ## Vectors -/

/-- One element of a vector is changed, and only that one. -/
theorem vget_vmod {α : Type} {n : Nat} (v : Vector α n) (i j : Fin n) (f : α → α) :
    (vmod v i f).get j = if j = i then f (v.get i) else v.get j := by
  unfold vmod
  simp only [Vector.get_eq_getElem, Vector.getElem_set]
  by_cases h : j = i
  · subst h; simp
  · have : ¬ (i.1 = j.1) := fun e => h (Fin.ext e.symm)
    simp [h, this]

@[simp] theorem vget_vmod_same {α : Type} {n : Nat} (v : Vector α n) (i : Fin n) (f : α → α) : (vmod v i f).get i = f (v.get i) := by
  rw [vget_vmod, if_pos rfl]

theorem vget_vmod_other {α : Type} {n : Nat} (v : Vector α n) {i j : Fin n} (f : α → α) (h : j ≠ i) : (vmod v i f).get j = v.get j := by
  rw [vget_vmod, if_neg h]

@[simp] theorem vget_vmap {α β : Type} {n : Nat} (f : α → β) (v : Vector α n) (i : Fin n) : (vmap f v).get i = f (v.get i) := by
  simp only [Vector.get_eq_getElem, vmap]
  simp

@[simp] theorem vget_vmapIdx {α β : Type} {n : Nat} (f : Nat → α → β) (v : Vector α n) (i : Fin n) : (vmapIdx f v).get i = f i.1 (v.get i) := by
  simp only [Vector.get_eq_getElem, vmapIdx]
  simp

/-- Membership in the list of all numbers below a bound. -/
@[simp] theorem mem_fins {n : Nat} (i : Fin n) : i ∈ fins n := by simp [fins]

/-! ## Streams -/

/-- Changing a stream, with its handle kept, changes that stream and no other. -/
theorem streamOf_modStream (s : State) (h k : Nat) (f : Stream → Stream) (hf : ∀ st, (f st).handle = st.handle) :
    streamOf (modStream s h f) k = if k = h then (streamOf s h).map f else streamOf s k := by
  have e : ∀ t : Machine.Stream, (if t.handle == h then f t else t).handle = t.handle := fun t => by split <;> simp [hf]
  simp only [streamOf, modStream_streams, List.find?_map, Function.comp_def, e]
  cases hs : s.streams.find? fun x => x.handle == k with
  | none =>
    split
    · rename_i hk; subst hk; simp [hs]
    · simp
  | some st =>
    have hst : st.handle = k := by simpa using List.find?_some hs
    by_cases hk : k = h
    · subst hk; simp [hs, hst]
    · simp [hst, hk]

/-! ## Interrupts (R556, R559) -/

/-- Raising a cause touches the host interface and what leaves the die, and nothing else. -/
theorem raiseIrq_only (s : State) (b : Nat) : OnlyHost s (raiseIrq s b) := by
  unfold raiseIrq sendMsix; simp only []; split <;> (try split) <;> rfl

/-- Raising a cause sets its bit. -/
theorem raiseIrq_cause (s : State) (b : Nat) : (raiseIrq s b).host.irqCause = s.host.irqCause ||| (1#32 <<< b) := by
  unfold raiseIrq sendMsix; simp only []; split <;> (try split) <;> rfl

/-- Raising a cause leaves the channels, the lists of commands, and the logs as they are. -/
theorem raiseIrq_host (s : State) (b : Nat) :
    (raiseIrq s b).host = { s.host with irqCause := (raiseIrq s b).host.irqCause, pba := (raiseIrq s b).host.pba } := by
  unfold raiseIrq sendMsix; simp only []; split <;> (try split) <;> rfl

/-- FW_STATE changes touch the firmware's state, the host interface, and what leaves the die. -/
theorem setFw_only (s : State) (st : FwState) : setFw s st = { s with fw := { s.fw with state := st }, host := (setFw s st).host, out := (setFw s st).out } := by
  unfold setFw
  split
  · rename_i h
    have : s.fw.state = st := by simpa using h
    subst this
    rfl
  · exact raiseIrq_only _ _

/-! ## Completions and events -/

/-- A completion leaves the accepted and running lists, and waits in the outbox. -/
theorem completeCode_host (s : State) (m : MailCmd) (code result : Nat) : (completeCode s m code result).host = { s.host with
    accepted := dropFirst (sameCmd m) s.host.accepted, running := dropFirst (sameCmd m) s.host.running
    outbox := s.host.outbox ++ [⟨m.ch.castSucc, cmpEntry (mailTag m) code (mailOpcode m) 0 result, !mailNoIrq m⟩] } := rfl

/-- An event waits in the outbox. -/
@[simp] theorem postEvent_outbox_length (s : State) (code pay : Nat) : (postEvent s code pay).host.outbox.length = s.host.outbox.length + 1 := by
  simp only [postEvent, postEventAt, List.length_append, List.length_singleton]

/-! ## The fault record (R888, R889) -/

/-- A history record touches the island only and keeps the record's bounds. -/
theorem faultHistory_only (s : State) (code unit data : Nat) : faultHistory s code unit data = { s with island := (faultHistory s code unit data).island } := rfl

theorem faultHistory_ok {s : State} (h : RecordOk s) (code unit data : Nat) : RecordOk (faultHistory s code unit data) := by
  obtain ⟨h1, h2⟩ := h
  refine ⟨h1, ?_⟩
  simp only [faultHistory, List.length_drop, List.length_append, List.length_singleton]
  omega

/-- Within the bounds, the record just written is in the history. -/
theorem faultHistory_mem {s : State} (h : RecordOk s) (code unit data : Nat) :
    (⟨s.island.faultSeq, now s, BitVec.ofNat 16 code, BitVec.ofNat 8 unit, 2, BitVec.ofNat 128 data⟩ : LogRec) ∈ (faultHistory s code unit data).island.history := by
  obtain ⟨h1, h2⟩ := h
  simp only [faultHistory]
  rw [List.drop_append_of_le_length (by simp only [List.length_append, List.length_singleton]; omega)]
  exact List.mem_append_right _ (List.mem_singleton_self _)

/-- A standing entry touches the island only and keeps the record's bounds. -/
theorem faultStanding_only (s : State) (code unit data : Nat) : faultStanding s code unit data = { s with island := (faultStanding s code unit data).island } := by
  unfold faultStanding; split <;> rfl

theorem faultStanding_ok {s : State} (h : RecordOk s) (code unit data : Nat) : RecordOk (faultStanding s code unit data) := by
  unfold faultStanding
  split
  · rename_i hs
    obtain ⟨h1, h2⟩ := h
    refine ⟨?_, ?_⟩ <;> simp only [List.length_append, List.length_singleton, List.length_drop] <;> omega
  · exact faultHistory_ok h _ _ _

/-- A notice touches the island and the host interface only. -/
theorem notify_only (s : State) (code slot data : Nat) : OnlyIsland s (notify s code slot data) := by
  unfold notify
  simp only []
  split <;> split <;> rfl

end Sys2Proof.Laws
end

