-- ==== Sys2Proof/Tests/Slice0.lean ====
section
/-! SUPPORT. Tests: small states, terms WellFormed refuses, the spec's worked examples, and for every statement with hypotheses one theorem
that names states and operands which meet them, clause by clause. -/

namespace Sys2Proof.Tests

open Sys2Proof Sys2Proof.Machine Sys2Proof.Safety

section

set_option Elab.async false

/-! ## Small states -/

/-- A READY die of the largest variant: its rails on, its links to the host up, its channels in service. -/
def die : State :=
  { fw := { state := .ready, discovered := true, stage := 6, readyAt := some 0, censusClosed := true, routeInstalled := true }
    host := { linkUp := true }
    mem := { channels := Vector.replicate 4 { st := .inService } }
    seq := { state := .s6, aonRst := false, internalReset := false, vmem := ⟨true, true⟩, vlog := ⟨true, true⟩, vlnk := ⟨true, true⟩
             vddqmx := ⟨true, true⟩, vddqm := ⟨true, true⟩ }
    island := { up := true, ready := true } }

/-- A die in its boot ROM with the host link up. -/
def booting : State := { host := { linkUp := true }, seq := { state := .s5, aonRst := false, internalReset := false } }

/-- The same state at another tick. -/
def atTick (n : Nat) (s : State) : State := { s with time := { s.time with msc := n, replica := n } }

/-- A mailbox command on channel 0: its opcode and its argument fields at their offsets. -/
def mail (op fields : Nat) : MailCmd := ⟨0, BitVec.ofNat 512 (op + fields), false⟩

/-- A state in which the command has been accepted. -/
def accept (m : MailCmd) (s : State) : State := { s with host := { s.host with accepted := [m] } }

/-- An itinerary with no layers, on this die alone. -/
def itin : Itin :=
  { handle := 1, tenant := 0, crc := 0, fallback := false, fbDies := 1, homes := [], granules := 0, steps := 0, srcRegion := 0, replaced := []
    img := { bytes := [], items := [], inputs := [], gradInputs := [], fallback := none, tables := [], outputs := [], outBytes := 0, portIn := none
             portDesc := ⟨0, 0, []⟩, portOut := none, dies := [0], spares := [], kvTier := 1, hasBackward := false
             main := ⟨0, 0, ⟨false, [], [], []⟩, [], [], [], 0, 0, 0, 0⟩ } }

/-- A stream of that itinerary, OPENED, with period 1,000. -/
def stream : Machine.Stream :=
  { handle := 1, itin := 1, tenant := 0, ch := 0, st := .opened, started := false, period := 1000, deadline := 500, prio := 1, guaranteed := false
    cuRatio := 0, cuOrder := [], snapEvery := 0, quiet := false, snapRegion := 0, timeouts := Vector.replicate 3 0, kvFmt := 0, pageLog2 := 4
    ragged := false, backward := false, maxSeqs := 0, maxPos := 0, maxRows := 0, n0 := 0, feeds := [], frame := none, prevSlot := none
    prevRelease := 0, nextRelease := none, minRelease := 0, debt := 0, maxDebt := 0, cuFrames := 0, catchup := false, active := [], used := []
    demoted := false, emptySlots := 0, finished := 0, late := 0, drainedFrames := 0, advances := 0, lastAdvSlot := 0, map := [0], home := 0
    energyPj := 0, chargePj := 0, openTick := 0, hist := [], stats := [], lengths := [], pages := [], recurrent := [], rowRecords := []
    gradients := [], kept := none, snapSeq := 0, snapping := none, drainCmd := none, lostDie := 0, dies := [0], rebase := false, rowsBad := none }

/-- A die that has loaded that itinerary. -/
def loaded : State := { die with itins := [itin] }

/-- A die with that stream open, as given. -/
def opened (t : Machine.Stream) : State := { die with itins := [itin], streams := [t] }

/-- An image of 64 bytes with no sections' layers, its CRC-32C in its last word (R862). -/
def image : Image :=
  let b : List Byte := List.replicate 60 0
  { itin.img with bytes := b ++ leBytes 4 (crc32c b).toNat }

/-- A region of 64 KiB on T1, and one on T2. -/
def region (tier base : Nat) : Region := ⟨1, 0, tier, 0, base, 65536, 0, none, false⟩

/-- A snapshot of the itinerary's stream in that region's first area. -/
def snap (bytes : Nat) : Snapshot :=
  { tier := 2, base := t2Base, area := 0, valid := true, auto := false, advances := 0, itinCrc := 0, stream := 1, homeId := 0, seq := 1, snapSlot := 0
    capture := 0, params := BitVec.ofNat 192 ((put 10 1 8 + put 11 1 16 + put 12 1 0x39) >>> 80), timeouts := #v[4915, 49152, 49152], lengths := [], pages := []
    hist := [], recurrent := [], bytes := bytes }

/-- A tile of a kind and format (Table 2-7) with one payload of 64 bytes, its checks filled in. -/
def tile (kind fmt rows cols : Nat) : List Byte :=
  let p : List Byte := List.replicate 64 0
  let h : List Byte := [BitVec.ofNat 8 (fmt + 16 * kind), 0] ++ leBytes 2 rows ++ leBytes 2 cols ++ List.replicate 18 0 ++ leBytes 4 (crc32c p).toNat ++ leBytes 2 1 ++ [1, 0]
  h.take 31 ++ [0 - h.foldl (· + ·) 0] ++ p

/-- That itinerary with one INT8 input of one row. -/
def itinIn : Itin := { itin with img := { itin.img with inputs := [⟨.int8, 1, 8, [], none⟩] } }

/-- A frame with nothing to compute. -/
def frame : Frame :=
  { slot := 0, release := 0, feed := ⟨none, 0, 0, [], [], 0, false, false⟩, segs := [], blocks := [], partials := [], attnParts := [], staging := [], maxima := []
    lean := false, boost := false, replayed := false, replayLat := 0, fault := none, deadline := 500, lengths := [], pages := [], replaced := [], writes := []
    started := [], lastCommit := 0, prio := 1, guar := false, quiet := false, timeouts := Vector.replicate 3 0, catchH := none }

/-- That itinerary as a port feeds it: blocks of 8 rows of one channel. -/
def itinPort : Itin := { itin with img := { itin.img with inputs := [⟨.int8, 8, 1, [], none⟩], portIn := some 0 } }

/-- A stream of the period of 8 samples at 48 kHz, and a port set to 48 kHz, 16 bits, two slots. -/
def audioDie (binds : List Bind) : State :=
  { die with itins := [itinPort], streams := [{ stream with period := 4096 }]
             audio := Vector.replicate 2 { cfg := some ⟨false, false, 1, 16, 16, 32, 2, true, false, false, false, 0, 0⟩, clockValid := true, binds := binds } }

/-- The binding of that stream's input to slot 0. -/
def bindIn : Bind := { stream := 1, dirIn := true, dirOut := false, inMask := 1, outMask := 0, block := 8, playSamples := 0, fill := 0, inDepth := 4, granules := 1 }

/-- An itinerary whose frames need far more wavefronts than a period has. -/
def itinBig : Itin := { itin with img := { itin.img with main := { itin.img.main with costs := [⟨1000000, 0⟩] } } }

/-- A die at position 0 of a ring of four, every port as given, its routes installed. -/
def ringDie (q : Port) : State :=
  let f : Fabric := { sizes := #v[4, 1, 1, 1], wraps := #v[true, false, false, false], ports := Vector.replicate 8 q, census := [0, 0x1000, 0x2000, 0x3000] }
  { die with fabric := { f with ring := (routesOf f).1, relay := (routesOf f).2 } }

/-- A port in service to the die at 0x1000. -/
def link : Port := { st := .active, peer := 0x1000, usable := true, settled := true }

/-- What a command's reservations leave: the request it waits as, with all its needs placed. -/
def placed (s : State) (m : MailCmd) (img : Option Image) (l : List Need) : State :=
  (takeAll (addWaiting s (some m) 0 0xFFFF img l).1 (.wait s.mem.reqNext) (mailTenant s m) l).getD s

/-- Where the needs can all be placed, they are. -/
theorem placed_some (s : State) (m : MailCmd) (img : Option Image) (l : List Need)
    (h : (takeAll (addWaiting s (some m) 0 0xFFFF img l).1 (.wait s.mem.reqNext) (mailTenant s m) l).isSome = true) :
    takeAll (addWaiting s (some m) 0 0xFFFF img l).1 (.wait s.mem.reqNext) (mailTenant s m) l = some (placed s m img l) := by
  obtain ⟨t, e⟩ := Option.isSome_iff_exists.mp h
  simp only [placed, e, Option.getD_some]

/-- A die with a region of 64 KiB on T2. -/
def withRegion (s : State) : State := { s with mem := { s.mem with regions := [region 2 t2Base] } }

/-- That die with the root at 0x1000 one hop away through its port 0, its leader, after 16 exchanges. -/
def rootedDie : State :=
  let s := ringDie { st := .active, peer := 0x1000, usable := true }
  { s with time := { s.time with rootId := 0x1000, leader := some 0, exchanges := 16 }, fabric := { s.fabric with id := 0x2000, lost := [0] } }

/-- A packet to this die from 0x1000, with no body. -/
def pkt (op len addr : Nat) : Packet := ⟨0, 0x1000, BitVec.ofNat 8 op, len, false, 2, 7, BitVec.ofNat 64 addr, 0, 0, 0, 0, []⟩

/-- That port with a packet at the front of the buffer it sinks from. -/
def arriving (k : Packet) : Port := { link with rx := [⟨vcOf k.op, 0, k, 0⟩] }

/-- Every member of a list has a property when the list's own check says so. -/
theorem of_all {α : Type} {p : α → Prop} [DecidablePred p] (l : List α) (h : l.all (fun x => decide (p x)) = true) : ∀ x ∈ l, p x :=
  fun x hx => of_decide_eq_true (List.all_eq_true.mp h x hx)

/-- A layer of one INT8 weight tile of 8 inputs and one output. -/
def layer : Layer :=
  { engine := 0, rows := 1, width := 1, lean := none, append := none, writes := [], stateful := false, needsAttn := false
    body := { fold := 1, srcs := [.input 0], chains := [⟨[0], [1]⟩], desc := ⟨0, 0, []⟩, bypass := 0, table := none, norm := none, escape := false, attn := none } }

/-- An itinerary of that layer, its tile at the image's start, with staging for 64 KiB. -/
def itinWork : Itin :=
  { itin with img := { itin.img with bytes := tile 0 5 1 8
                                     main := { itin.img.main with layers := [layer], costs := [⟨8, 0⟩], peakT0 := 65536, peakT1 := 65536 } } }

/-- That layer with its statistics on, and a die with a stream of it. -/
def layerStat : Layer := { layer with body := { layer.body with desc := ⟨0, 0x1000, []⟩ } }
def statDie : State := { opened stream with itins := [{ itin with img := { itin.img with main := { itin.img.main with layers := [layerStat] } } }] }

/-- Its one segment. -/
def seg : Seg := ⟨0, 0, 0, .field, 0, 0, 8, true, 0, 1, 0, 1, 0, 0, 0, 0, false, 0, .waiting⟩

/-- A frame of that itinerary. -/
def frameWork : Frame :=
  { frame with segs := [seg], started := [0]
               feed := { frame.feed with inputs := [⟨.int8, 1, 8, [List.replicate 8 1], [0x3F800000], [0], [], [], 0⟩] } }

/-- A die whose stream is running that frame. -/
def working (en : Engine) (f : Frame) : State :=
  { die with itins := [itinWork], streams := [{ stream with st := .running, started := true, frame := some f }]
             engines := Vector.ofFn fun k : Fin 7 => if k = 0 then en else if k = 6 then { life := .laybyFree } else {} }

/-- The segment on the field, at a tile step. -/
def onField (tile : Nat) : FieldRun := ⟨1, { seg with st := .running }, tile, 0, 0, 0, 0, false⟩

/-- A move of a frame's item from host memory to T1. -/
def move (issued : Option Tick) (src len : Nat) : Move := ⟨0, .frame 1, 0, 0, 4, src, 1, 0x20000, len, false, 0, false, issued, 5, false, none⟩

/-- The work of a stream of the die at 0x1000. -/
def guest : Guest := ⟨0x1000, 4, itin, true, 1, 1000, 500, 8, 0, false, false, []⟩

/-- A die of a tray, in slot 3, as an island gives it. -/
def tray (f : Island → Island) : State := { die with island := f { die.island with trayEn := true, slot := 3, elected := true } }

/-- The head of a tray message from slot 2. -/
def head : TrayHead := ⟨2, 5, true⟩

/-- A cable record of 5 m of copper rated 32 GT/s (Table 6-13), its CRC-32C in its last word. -/
def cable : BitVec 256 :=
  let v := put 0 2 0x4357 + put 2 1 1 + put 4 1 5 + put 5 1 32 + put 6 2 500
  BitVec.ofNat 256 (v + put 28 4 (crc32c (leBytes 28 v)).toNat)

/-- A Wairiq request with SEQ 5 and the tag of the key 0. -/
def wq (type slot : Nat) (body : List Byte) : Wairiq :=
  let h := wqHeader type 5 0 slot 0 body.length 0 0
  ⟨h, body, wqTag 0 h body⟩

/-- A die alone, or of a tray, that holds the key 0. -/
def keyed (f : Island → Island) : State := { die with island := f { die.island with key := some 0 } }

/-- A request with the tag of the stored key passes the tag check. -/
theorem tag_ok (s : State) (k : BitVec 384) (h : s.island.key = some k) (hd : BitVec 256) (b : List Byte) :
    wqTagOk s ⟨hd, b, wqTag k hd b⟩ = true := by simp [wqTagOk, h]

/-- It is taken where its frame is right and its SEQ above the mark. -/
theorem wq_taken (s : State) (type slot : Nat) (body : List Byte) (hk : s.island.key = some 0)
    (h : islandRuns s = true ∧ hasEth s.fuses.variant = true ∧ wqType (wq type slot body) = type ∧ wqFrameOk (wq type slot body) = true
      ∧ s.island.seqMark < wqSeqOf (wq type slot body)) : WairiqTaken s (wq type slot body) type :=
  ⟨h.1, h.2.1, h.2.2.1, h.2.2.2.1, tag_ok s 0 hk _ _, h.2.2.2.2⟩

/-- The state a step gives. -/
def stepped (s : State) : State := match step s with | .next t => t | _ => s

/-! ## What WellFormed refuses -/

theorem test_wellformed_opcode : WellFormed (.devQuery (mail 0x02 0)) = false ∧ WellFormed (.devQuery (mail 0x01 0)) = true := by decide +kernel
theorem test_wellformed_packet_op : WellFormed (.readPkt 0 (pkt 2 1 0)) = false ∧ WellFormed (.readPkt 0 (pkt 1 1 0)) = true := by decide +kernel
theorem test_wellformed_packet_body : WellFormed (.movePkt 0 (pkt 3 1 0)) = false ∧ WellFormed (.movePkt 0 { pkt 3 1 0 with body := [0] }) = true := by
  decide +kernel
theorem test_wellformed_packet_len : WellFormed (.readPkt 0 (pkt 1 17 0)) = false := by decide +kernel
theorem test_wellformed_packet_dir : WellFormed (.readPkt 0 { pkt 1 1 0 with rdir := 3 }) = false := by decide +kernel
theorem test_wellformed_wairiq_type :
    WellFormed (.slopeSet ⟨wqHeader 5 1 0 0 0 1 0 0, [8], 0⟩) = false ∧ WellFormed (.slopeSet ⟨wqHeader 4 1 0 0 0 1 0 0, [8], 0⟩) = true := by decide +kernel
theorem test_wellformed_register : WellFormed (.registerWrite 0xFFFC 8 0) = false ∧ WellFormed (.registerWrite 0 3 0) = false := by decide +kernel
theorem test_wellformed_ring_sizes : WellFormed (.rejoinState 0 #v[17, 1, 1, 1] (Vector.replicate 4 false) 0 [] []) = false := by decide +kernel
theorem test_wellformed_sample : WellFormed (.ainSample 0 4096) = false ∧ WellFormed (.ainSample 0 4095) = true := by decide +kernel
theorem test_wellformed_loan : WellFormed (.loanRequest 0 0 0 0 1) = false ∧ WellFormed (.loanRequest 0 0 0 2 129) = false := by decide +kernel
theorem test_wellformed_cap : WellFormed (.trayCap head (2 ^ 32) 0) = false := by decide +kernel
theorem test_wellformed_trim : WellFormed (.ageingTrimRun 0 []) = false := by decide +kernel
theorem test_wellformed_patrol : WellFormed (.patrolRead ⟨some ⟨3, 0, 0, 0, 0, 0, 0, false, false⟩, none⟩ .other) = false := by decide +kernel

/-! ## Worked examples of the spec -/

/-- A conversion descriptor's values for a format, its zero point and SAT_INF; scaled unless `src` is 2. -/
def convDesc (f : Fmt) (zp src : Nat) (satInf : Bool) : Desc :=
  { fmt := f, src := src, satInf := satInf, escEn := false, rmN := 4, statsEn := false, window := 0, scale := 0x3E000000, zp := zp, outliers := []
    escThr := 0x40800000, margin := 0x40000000, floor := 0x00800000 }

/-- Table 3-9, row by row: the code and whether SAT is counted, under the scale 0.125. -/
theorem test_table_3_9 :
    ([(.int4, 0, 0x3EA00000), (.int4, 0, 0x3EE00000), (.int4, 0, 0x3F8CCCCD), (.int4, 0, 0xBF880000), (.int4, 0, 0xBF99999A), (.tern, 0, 0x3D800000),
      (.tern, 0, 0x3E400000), (.uint8z, 128, 0xC0480000), (.uint8z, 128, 0xC1808000), (.uint8z, 128, 0xC1818000), (.uint8z, 128, 0x41900000)]
      : List (Fmt × Nat × F32)).map (fun x => let k := convert (convDesc x.1 x.2.1 0 false) (recip32 0x3E000000) [] false x.2.2; (k.code, k.sat))
    = [(2, false), (4, false), (7, true), (8, false), (8, true), (0, false), (1, true), (0x67, false), (0, false), (0, true), (0xFF, true)] := by
  decide +kernel

/-- Table 3-10, row by row: the code, SAT and UNDERFLOW. -/
theorem test_table_3_10 :
    ([(.fp8a, false, 0x43960000), (.fp8a, false, 0x43980000), (.fp8a, false, 0x43FA0000), (.fp8b, false, 0x476A6000), (.fp8b, false, 0x47723000),
      (.fp8b, true, 0x47723000), (.fp8a, false, 0xBA6BEDFA)] : List (Fmt × Bool × F32)).map
      (fun x => let k := convert (convDesc x.1 0 2 x.2.1) 0x3F800000 [] false x.2.2; (k.code, k.sat, k.underflow))
    = [(0x79, false, false), (0x7A, false, false), (0x7F, true, false), (0x7B, false, false), (0x7B, true, false), (0x7C, true, false), (0, false, true)] := by
  decide +kernel

/-- The codebook examples below Table 3-10: t = 6, -6, 75 and 130. -/
theorem test_codebook_examples :
    ([0x40C00000, 0xC0C00000, 0x42960000, 0x43020000] : List F32).map (fun t => cbNearest [-96, -40, -12, 0, 12, 40, 70, 100, 80] t) = [4, 2, 6, 7]
    ∧ cbBeyond [-96, -40, -12, 0, 12, 40, 70, 100, 80] 0x43020000 = true := by decide +kernel

/-- The escape examples: 117.3 escapes as FP16 0x5755, 114.0 takes the entry 110. -/
theorem test_escape_examples :
    (let k := toCb { convDesc .cb256 0 0 false with escEn := true } [0, 110] true 0x42EA999A; (k.code, k.esc, k.side)) = (255, true, some 0x5755)
    ∧ (let k := toCb { convDesc .cb256 0 0 false with escEn := true } [0, 110] true 0x42E40000; (k.code, k.esc)) = (1, false) := by decide +kernel

/-- The Lantern translator's input scale: maxima 6.5, 7.9375, 7.25 and 5.0, margin 2.0, INT8, give 0.125. -/
theorem test_running_maximum_scale : outScale (convDesc .int8 0 1 false) [0x40D00000, 0x40FE0000, 0x40E80000, 0x40A00000] = 0x3E000000 := by
  decide +kernel

/-- Activation 37 and INT4 weight -6 (0b1010): the four wavefronts add up to -222. -/
theorem test_bit_serial_product :
    ((List.range 4).map fun i => peAdds 37 ((twos 4 (-6)).testBit i) i 3).foldl (· + ·) 0 = -222 := by decide +kernel

/-- Harrow 40's tile step: INT4 weights, INT8 activations and F = 8 cost 256 wavefronts. -/
theorem test_tile_step_cost : tileCost ⟨.int4, 0, 0, 512, 512, 0, 0, 0, 0, 0, 1⟩ .int8 8 = 256 := by decide +kernel

/-- A page of 16 tokens of d = 32 in INT8 is 1,216 bytes. -/
theorem test_page_size : pageBytes 4 5 32 = 1216 := by decide +kernel

/-- The Harrow 40 frame of Table 7-6, with a priority and a deadline, and a die at OP3 whose E0 has reported 24,576. -/
def harrow (h prio dl : Nat) : Task :=
  ⟨h, prio, 16384, dl, { itin with img := { itin.img with main := { itin.img.main with costs := [⟨90000, 0⟩], span := 90000 } } }, [0], 0, 0, false, false⟩
def studio : State := { die with power := { die.power with opBase := 3, opForce := 3 }, engines := Vector.replicate 7 { windows := List.replicate 24 ⟨3, 24576, 0, 0⟩ } }

/-- The tollgate's worked example: PR is 23,040, C is 4,064, B is 1,948; A and B pass on one engine, and a third instance does not. -/
theorem test_tollgate_example :
    planRate studio 0 = 23040 ∧ taskC studio (harrow 1 0 8192) 0 .field = 4064 ∧ cost studio 32768 0 + 491 = 1948
    ∧ passAll studio [harrow 1 0 8192, harrow 2 1 12288] = true ∧ passAll studio [harrow 1 0 8192, harrow 2 1 12288, harrow 3 2 8192] = false
    ∧ spanOk studio (harrow 1 0 8192) = true := by decide +kernel

/-- Chapter 8's worked example: PLAY_SAMPLES 17 is the smallest for P = 16,384 and D = 8,192, and the binding reserves 1,792 bytes. -/
theorem test_play_samples_example :
    ([17, 16].map fun n => bindFits ⟨false, false, 1, 24, 32, 64, 2, true, false, false, false, 2, 0⟩ { stream with period := 16384, deadline := 8192 }
      { itin with img := { itin.img with portOut := some 0, main := { itin.img.main with layers := [{ layer with rows := 32, width := 2 }] } } }
      { bindIn with dirIn := false, dirOut := true, outMask := 3, block := 32, playSamples := n }) = [true, false]
    ∧ total ([{ bindIn with block := 32 }, { bindIn with dirIn := false, dirOut := true, outMask := 3, block := 32 }].map bindBytes) = 1792
    ∧ framesFloor 1 32 = 16384 := by decide +kernel

/-- Chapter 4's worked example: the Lantern stream's 176 pages take 1,543,168 bytes. -/
theorem test_lantern_pages : 11 * 2 * cdiv 512 64 * pageBytes 6 5 64 = 1543168 := by decide +kernel

/-- No row of the table gives bits: no word spells a command. -/
theorem test_no_word_decodes : decodeTableWord 64 5 = none ∧ (State.reset.withFetchWord 64 5).pending = [] := by decide +kernel

/-- D5 of the Causeway bench tray's ring of sixteen, with the dies it has lost. -/
def d5 (lost : List FabId) : Fabric :=
  { id := 0x5000, sizes := #v[16, 1, 1, 1], wraps := #v[true, false, false, false], lost := lost
    downLinks := lost.flatMap fun d => [(d, d + 0x1000), (d - 0x1000, d)] }

/-- Chapter 6's worked example: with D6 lost, D5's ring table forces the minus way for coordinates 7 to 15 and 6 cannot be reached. -/
theorem test_ring_table_example :
    ((nth (routesOf (d5 [0x6000])).1 0 []).drop 6 = [.unreachable, .minus, .minus, .minus, .minus, .minus, .minus, .minus, .minus, .minus])
    ∧ hops (d5 [0x6000]) 0x5000 0x7000 = some 14 ∧ hops (d5 []) 0x5000 0x7000 = some 2 := by decide +kernel

/-- Chapter 12's worked example: under 87.5 W OP3 is the highest point allowed. -/
theorem test_allowed_point_example : highestAllowed { die with power := { die.power with stewardCap := some 87500 } } = 3 := by decide +kernel

/-! ## Witnesses of the hypotheses of the statements -/

theorem wit_EveryStepAnswersNext :
    (∃ s : State, s.pending = []) :=
  ⟨die, by decide +kernel⟩

theorem wit_RingIndicesAndEnables :
    (∃ ch : ChanId, ∃ v : W32, ∃ s : State, s.host.linkUp = true ∧ (s.host.channels.get ch).st = .enabled ∧ v.setWidth 16 ≠ (s.host.channels.get ch).cmdTail ∧ inUse (v.setWidth 16) (s.host.channels.get ch).cmdHead ≤ 2 ^ (s.host.channels.get ch).cmdLog2)
    ∧ (∃ ch : ChanId, ∃ v : W32, ∃ s : State, s.host.linkUp = true ∧ (s.host.channels.get ch).st = .enabled ∧ v.setWidth 16 ≠ (s.host.channels.get ch).cmdTail ∧ 2 ^ (s.host.channels.get ch).cmdLog2 < inUse (v.setWidth 16) (s.host.channels.get ch).cmdHead)
    ∧ (∃ ch : ChanId, ∃ v : W32, ∃ s : State, s.host.linkUp = true ∧ inUse (s.host.channels.get ch).cmpTail (v.setWidth 16) ≤ 2 ^ (s.host.channels.get ch).cmpLog2)
    ∧ (∃ ch : ChanId, ∃ v : W32, ∃ s : State, s.host.linkUp = true ∧ 2 ^ (s.host.channels.get ch).cmpLog2 < inUse (s.host.channels.get ch).cmpTail (v.setWidth 16))
    ∧ (∃ v : W32, ∃ s : State, s.host.linkUp = true ∧ inUse s.host.evtTail (v.setWidth 16) ≤ 2 ^ s.host.evtLog2)
    ∧ (∃ v : W32, ∃ s : State, s.host.linkUp = true ∧ 2 ^ s.host.evtLog2 < inUse s.host.evtTail (v.setWidth 16))
    ∧ (∃ ch : ChanId, ∃ s : State, s.host.linkUp = true ∧ ch ≠ 0 ∧ (s.host.channels.get ch).st = .disabled)
    ∧ (∃ ch : ChanId, ∃ s : State, s.host.linkUp = true ∧ (s.host.channels.get ch).st ≠ .disabled) :=
  ⟨⟨1, 16, modChan die 1 fun c => { c with st := .enabled, cmdLog2 := 4 }, by decide +kernel⟩,
   ⟨1, 17, modChan die 1 fun c => { c with st := .enabled, cmdLog2 := 4 }, by decide +kernel⟩,
   ⟨1, 16, modChan die 1 fun c => { c with cmpLog2 := 4, cmpTail := 32 }, by decide +kernel⟩,
   ⟨1, 16, modChan die 1 fun c => { c with cmpLog2 := 4, cmpTail := 33 }, by decide +kernel⟩,
   ⟨16, { die with host := { die.host with evtLog2 := 4, evtTail := 32 } }, by decide +kernel⟩,
   ⟨16, { die with host := { die.host with evtLog2 := 4, evtTail := 33 } }, by decide +kernel⟩,
   ⟨1, die, by decide +kernel⟩,
   ⟨1, modChan die 1 fun c => { c with st := .enabled }, by decide +kernel⟩⟩

theorem wit_InterruptRegistersAct :
    (∃ s : State, s.host.linkUp = true)
    ∧ (∃ s : State, s.host.linkUp = true ∧ s.host.irqMask = 4 ∧ s.host.irqCause = 4 ∧ s.host.fnMask = false ∧ (s.host.msix.get 0).mask = false)
    ∧ (∃ s : State, s.host.linkUp = true ∧ s.host.fnMask = false ∧ (s.host.msix.get 3).mask = true ∧ s.host.pba = 8)
    ∧ (∃ ch : ChanId, ∃ s : State, ∃ t0 : Tick, (s.host.channels.get ch).firstAt = some t0 ∧ 0 < (s.host.channels.get ch).delay ∧ passed s t0 ((s.host.channels.get ch).delay) = true)
    ∧ (∃ s : State, s.host.linkUp = true)
    ∧ (∃ off : Nat, ∃ size : Nat, ∃ s : State, s.host.linkUp = true ∧ ((size ≠ 4 ∧ size ≠ 8) ∨ off % size ≠ 0))
    ∧ (∃ ch : ChanId, ∃ s : State, s.host.linkUp = true ∧ (s.host.channels.get ch).st = .disabled)
    ∧ (∃ s : State, s.host.linkUp = true) :=
  ⟨⟨die, by decide +kernel⟩,
   ⟨{ die with host := { die.host with irqMask := 4, irqCause := 4, msix := Vector.replicate 32 { mask := false } } }, by decide +kernel⟩,
   ⟨{ die with host := { die.host with pba := 8 } }, by decide +kernel⟩,
   ⟨1, atTick 5 (modChan die 1 fun c => { c with firstAt := some 0, delay := 5 }), 0, by decide +kernel⟩,
   ⟨die, by decide +kernel⟩,
   ⟨1, 4, die, by decide +kernel⟩,
   ⟨1, die, by decide +kernel⟩,
   ⟨die, by decide +kernel⟩⟩

theorem wit_BootCommandsAnswer :
    (∃ s : State, s.host.linkUp = true ∧ s.host.bootBusy = true)
    ∧ (∃ v : W64, ∃ s : State, s.host.linkUp = true ∧ s.host.bootBusy = false ∧ 1 ≤ v.toNat % 256 ∧ v.toNat % 256 ≤ 4)
    ∧ (∃ v : W64, ∃ s : State, s.host.linkUp = true ∧ s.host.bootBusy = false ∧ 5 ≤ v.toNat % 256)
    ∧ (∃ s : State, BootBusy s 1)
    ∧ (∃ s : State, BootBusy s 2 ∧ (s.host.bootArg.get 0).toNat % 64 = 0 ∧ 64 ≤ (s.host.bootArg.get 1).toNat ∧ (s.host.bootArg.get 1).toNat ≤ 65536 ∧ (s.host.bootArg.get 1).toNat % 64 = 0)
    ∧ (∃ s : State, BootBusy s 3 ∧ s.fw.state = .bootstrap ∧ s.fuses.ok = true)
    ∧ (∃ data : List Byte, ∃ img : FwImage, ∃ s : State, BootBusy s 4 ∧ (s.host.bootArg.get 0).toNat % 4096 = 0 ∧ 0 < (s.host.bootArg.get 1).toNat ∧ (s.host.bootArg.get 1).toNat ≤ 2 ^ 24 ∧ s.fw.state = .bootstrap ∧ s.fuses.ok = true ∧ (s.host.bootArg.get 1).toNat ≤ data.length ∧ img = imageOf (data.take (s.host.bootArg.get 1).toNat)) :=
  ⟨⟨{ booting with host := { booting.host with bootBusy := true, bootCmd := 1 } }, by decide +kernel⟩,
   ⟨4, booting, by decide +kernel⟩,
   ⟨5, booting, by decide +kernel⟩,
   ⟨{ booting with host := { booting.host with bootBusy := true, bootCmd := 1 } }, by decide +kernel⟩,
   ⟨{ booting with host := { booting.host with bootBusy := true, bootCmd := 2, bootArg := #v[0, 64, 0, 0, 0, 0] } }, by decide +kernel⟩,
   ⟨{ booting with host := { booting.host with bootBusy := true, bootCmd := 3 } }, by decide +kernel⟩,
   ⟨[0], imageOf [0], { booting with host := { booting.host with bootBusy := true, bootCmd := 4, bootArg := #v[0, 1, 0, 0, 0, 0] } }, by decide +kernel⟩⟩

theorem wit_RingsCarryEntries :
    (∃ ch : ChanId, ∃ e : BitVec 512, ∃ s : State, ready s = true ∧ s.host.linkUp = true ∧ quiescing s = false ∧ nextChannel s = some ch ∧ fencedOf s ch = none ∧ fld e 0 1 ∈ opcodes ∧ fld e 0 1 ≠ 0x24 ∧ (ch = 0 ∨ fld e 0 1 ∉ chan0Only) ∧ (bit (fld e 1 1) 0 && outstandingOn s ch) = false)
    ∧ (∃ ch : ChanId, ∃ e : BitVec 512, ∃ s : State, ready s = true ∧ s.host.linkUp = true ∧ quiescing s = false ∧ nextChannel s = some ch ∧ fencedOf s ch = none ∧ bit (fld e 1 1) 0 = true ∧ outstandingOn s ch = true)
    ∧ (∃ ch : ChanId, ∃ e : BitVec 512, ∃ s : State, ready s = true ∧ s.host.linkUp = true ∧ quiescing s = false ∧ nextChannel s = some ch ∧ fencedOf s ch = none ∧ fld e 0 1 ∉ opcodes ∧ (bit (fld e 1 1) 0 && outstandingOn s ch) = false)
    ∧ (∃ ch : ChanId, ∃ s : State, ∃ p : Post, ∃ r : List Post, ready s = true ∧ s.host.outbox = p :: r ∧ p.ring = ch.castSucc ∧ p.counts = false ∧ ringOpen s p.ring = true ∧ logHeld s p.ring = 0 ∧ s.host.lost.get p.ring = 0)
    ∧ (∃ ch : ChanId, ∃ s : State, ∃ p : Post, ready s = true ∧ ringOpen s ch.castSucc = true ∧ s.host.log.find? (·.ring == ch.castSucc) = some p ∧ p.counts = false)
    ∧ (∃ s : State, ∃ p : Post, ∃ r : List Post, ready s = true ∧ s.host.outbox = p :: r ∧ ringOpen s p.ring = false) :=
  ⟨⟨0, 1, modChan die 0 fun c => { c with st := .enabled, cmdTail := 1 }, by decide +kernel⟩,
   ⟨0, 0x101, { (modChan die 0 fun c => { c with st := .enabled, cmdTail := 1 }) with host := { (modChan die 0 fun c => { c with st := .enabled, cmdTail := 1 }).host with accepted := [mail 1 0] } }, by decide +kernel⟩,
   ⟨0, 0x7F, modChan die 0 fun c => { c with st := .enabled, cmdTail := 1 }, by decide +kernel⟩,
   ⟨1, modChan { die with host := { die.host with outbox := [⟨1, 0, false⟩] } } 1 fun c => { c with st := .enabled, cmpLog2 := 4 }, ⟨1, 0, false⟩, [], by decide +kernel⟩,
   ⟨1, modChan { die with host := { die.host with log := [⟨1, 0, false⟩] } } 1 fun c => { c with st := .enabled, cmpLog2 := 4 }, ⟨1, 0, false⟩, by decide +kernel⟩,
   ⟨{ die with host := { die.host with outbox := [⟨1, 0, false⟩] } }, ⟨1, 0, false⟩, [], by decide +kernel⟩⟩

theorem wit_FirmwareHaltAndHostResets :
    (∃ s : State, s.fw.state = .ready ∧ passed s s.fw.beatAt 245760 = true)
    ∧ (∃ s : State, s.fw.state ≠ .ready)
    ∧ (∃ s : State, s.fw.state = .ready)
    ∧ (∃ s : State, s.host.linkUp = true)
    ∧ (∃ s : State, (s.seq.state = .s5 ∨ s.seq.state = .s6) ∧ s.seq.perst = false) :=
  ⟨⟨atTick 245760 die, by decide +kernel⟩,
   ⟨booting, by decide +kernel⟩,
   ⟨die, by decide +kernel⟩,
   ⟨die, by decide +kernel⟩,
   ⟨die, by decide +kernel⟩⟩

theorem wit_QueriesAnswer :
    (∃ m : MailCmd, ∃ s : State, Accepted s m 0x01)
    ∧ (∃ m : MailCmd, ∃ s : State, ∃ leader : FabId, Accepted s m 0x04 ∧ leader = (match s.time.leader with | some p => (s.fabric.ports.get p).peer | none => 0xFFFF))
    ∧ (∃ m : MailCmd, ∃ s : State, Accepted s m 0x33 ∧ arg m 8 1 = 0)
    ∧ (∃ m : MailCmd, ∃ s : State, ∃ st : Stream, Accepted s m 0x33 ∧ arg m 8 1 = 1 ∧ Names s m (arg m 10 2) st)
    ∧ (∃ m : MailCmd, ∃ s : State, Accepted s m 0x40 ∧ arg m 8 1 = 0xFF)
    ∧ (∃ m : MailCmd, ∃ s : State, ∃ p : PortId, ∃ q : Port, Accepted s m 0x40 ∧ arg m 8 1 = p.1 ∧ hasPort s.fuses.variant p.1 = true ∧ q = s.fabric.ports.get p)
    ∧ (∃ m : MailCmd, ∃ s : State, Accepted s m 0x02 ∧ s.fw.discovered = true ∧ arg m 8 8 % 64 = 0 ∧ arg m 16 4 ≤ 2 ^ 24)
    ∧ (∃ m : MailCmd, ∃ s : State, Accepted s m 0x02 ∧ s.fw.discovered = true ∧ arg m 8 8 % 64 = 0 ∧ arg m 16 4 ≤ 2 ^ 24 ∧ 256 ≤ arg m 16 4 ∧ s.host.linkUp = true)
    ∧ (∃ m : MailCmd, ∃ s : State, Accepted s m 0x02 ∧ s.fw.discovered = true ∧ arg m 8 8 % 64 = 0 ∧ arg m 16 4 ≤ 2 ^ 24 ∧ 256 ≤ arg m 16 4 ∧ s.host.linkUp = false)
    ∧ (∃ m : MailCmd, ∃ s : State, Accepted s m 0x02 ∧ s.fw.discovered = true ∧ arg m 8 8 % 64 = 0 ∧ arg m 16 4 ≤ 2 ^ 24 ∧ arg m 16 4 < 256)
    ∧ (∃ m : MailCmd, ∃ s : State, ∃ rec : List Byte, Accepted s m 0x31 ∧ arg m 8 8 % 64 = 0 ∧ arg m 16 4 ≤ 2 ^ 24 ∧ rec = pwrRecord s ∧ rec.length ≤ arg m 16 4 ∧ s.host.linkUp = true)
    ∧ (∃ m : MailCmd, ∃ s : State, ∃ rec : List Byte, Accepted s m 0x31 ∧ arg m 8 8 % 64 = 0 ∧ arg m 16 4 ≤ 2 ^ 24 ∧ rec = pwrRecord s ∧ rec.length ≤ arg m 16 4 ∧ s.host.linkUp = false)
    ∧ (∃ m : MailCmd, ∃ s : State, ∃ rec : List Byte, Accepted s m 0x31 ∧ arg m 8 8 % 64 = 0 ∧ arg m 16 4 ≤ 2 ^ 24 ∧ rec = pwrRecord s ∧ arg m 16 4 < rec.length)
    ∧ (∃ m : MailCmd, ∃ s : State, ∃ p : ApId, ∃ rec : List Byte, Accepted s m 0x62 ∧ arg m 8 1 = 1 ∧ arg m 9 1 = p.1 ∧ p.1 < apCount s.fuses.variant ∧ arg m 16 8 % 64 = 0 ∧ arg m 24 4 ≤ 2 ^ 24 ∧ rec = portRecord p.1 (s.audio.get p))
    ∧ (∃ m : MailCmd, ∃ s : State, ∃ p : ApId, ∃ rec : List Byte, Accepted s m 0x62 ∧ arg m 8 1 = 1 ∧ arg m 9 1 = p.1 ∧ p.1 < apCount s.fuses.variant ∧ arg m 16 8 % 64 = 0 ∧ arg m 24 4 ≤ 2 ^ 24 ∧ rec = portRecord p.1 (s.audio.get p) ∧ rec.length ≤ arg m 24 4 ∧ s.host.linkUp = true)
    ∧ (∃ m : MailCmd, ∃ s : State, ∃ p : ApId, ∃ rec : List Byte, Accepted s m 0x62 ∧ arg m 8 1 = 1 ∧ arg m 9 1 = p.1 ∧ p.1 < apCount s.fuses.variant ∧ arg m 16 8 % 64 = 0 ∧ arg m 24 4 ≤ 2 ^ 24 ∧ rec = portRecord p.1 (s.audio.get p) ∧ rec.length ≤ arg m 24 4 ∧ s.host.linkUp = false)
    ∧ (∃ m : MailCmd, ∃ s : State, ∃ p : ApId, ∃ rec : List Byte, Accepted s m 0x62 ∧ arg m 8 1 = 1 ∧ arg m 9 1 = p.1 ∧ p.1 < apCount s.fuses.variant ∧ arg m 16 8 % 64 = 0 ∧ arg m 24 4 ≤ 2 ^ 24 ∧ rec = portRecord p.1 (s.audio.get p) ∧ arg m 24 4 < rec.length)
    ∧ (∃ m : MailCmd, ∃ s : State, ∃ st : Stream, ∃ ly : Layer, ∃ rec : List Byte, Accepted s m 0x62 ∧ arg m 8 1 = 0 ∧ Names s m (arg m 10 2) st ∧ statsLayer s m st = some ly ∧ arg m 16 8 % 64 = 0 ∧ arg m 24 4 ≤ 2 ^ 24 ∧ rec = statsRecord st.handle (statsOf st (arg m 12 2) ly.width) (desc ly.body.desc).window ∧ rec.length ≤ arg m 24 4 ∧ s.host.linkUp = true)
    ∧ (∃ m : MailCmd, ∃ s : State, ∃ st : Stream, ∃ ly : Layer, ∃ rec : List Byte, Accepted s m 0x62 ∧ arg m 8 1 = 0 ∧ Names s m (arg m 10 2) st ∧ statsLayer s m st = some ly ∧ arg m 16 8 % 64 = 0 ∧ arg m 24 4 ≤ 2 ^ 24 ∧ rec = statsRecord st.handle (statsOf st (arg m 12 2) ly.width) (desc ly.body.desc).window ∧ rec.length ≤ arg m 24 4 ∧ s.host.linkUp = false)
    ∧ (∃ m : MailCmd, ∃ s : State, ∃ st : Stream, ∃ ly : Layer, ∃ rec : List Byte, Accepted s m 0x62 ∧ arg m 8 1 = 0 ∧ Names s m (arg m 10 2) st ∧ statsLayer s m st = some ly ∧ arg m 16 8 % 64 = 0 ∧ arg m 24 4 ≤ 2 ^ 24 ∧ rec = statsRecord st.handle (statsOf st (arg m 12 2) ly.width) (desc ly.body.desc).window ∧ arg m 24 4 < rec.length)
    ∧ (∃ m : MailCmd, ∃ s : State, ∃ r : LogRec, ∃ l : List LogRec, ∃ bs : List Byte, Accepted s m 0x61 ∧ arg m 8 1 = 0 ∧ arg m 16 8 % 64 = 0 ∧ arg m 24 4 % 32 = 0 ∧ arg m 24 4 ≤ 2 ^ 24 ∧ s.host.linkUp = true ∧ s.fw.dieLog = r :: l ∧ bs = ((s.fw.dieLog.filter fun x => decide (max (arg m 12 4) r.seq ≤ x.seq)).take (arg m 24 4 / 32)).flatMap logBytes ∧ bs ≠ []) :=
  ⟨⟨mail 0x01 (0), accept (mail 0x01 (0)) die, by decide +kernel⟩,
   ⟨mail 0x04 (0), accept (mail 0x04 (0)) ({ die with time := { die.time with leader := some 0 } }), (die.fabric.ports.get 0).peer, by decide +kernel⟩,
   ⟨mail 0x33 (0), accept (mail 0x33 (0)) die, by decide +kernel⟩,
   ⟨mail 0x33 (put 8 1 1 + put 10 2 1), accept (mail 0x33 (put 8 1 1 + put 10 2 1)) (opened stream), stream, by decide +kernel⟩,
   ⟨mail 0x40 (put 8 1 0xFF), accept (mail 0x40 (put 8 1 0xFF)) die, by decide +kernel⟩,
   ⟨mail 0x40 (put 8 1 3), accept (mail 0x40 (put 8 1 3)) (die), 3, {}, by decide +kernel⟩,
   ⟨mail 0x02 (put 16 4 256), accept (mail 0x02 (put 16 4 256)) (die), by decide +kernel⟩,
   ⟨mail 0x02 (put 16 4 256), accept (mail 0x02 (put 16 4 256)) die, by decide +kernel⟩,
   ⟨mail 0x02 (put 16 4 256), accept (mail 0x02 (put 16 4 256)) ({ die with host := { die.host with linkUp := false } }), by decide +kernel⟩,
   ⟨mail 0x02 (put 16 4 255), accept (mail 0x02 (put 16 4 255)) die, by decide +kernel⟩,
   ⟨mail 0x31 (put 16 4 352), accept (mail 0x31 (put 16 4 352)) (die), pwrRecord (accept (mail 0x31 (put 16 4 352)) (die)), by decide +kernel⟩,
   ⟨mail 0x31 (put 16 4 352), accept (mail 0x31 (put 16 4 352)) ({ die with host := { die.host with linkUp := false } }), pwrRecord (accept (mail 0x31 (put 16 4 352)) ({ die with host := { die.host with linkUp := false } })), by decide +kernel⟩,
   ⟨mail 0x31 (put 16 4 351), accept (mail 0x31 (put 16 4 351)) (die), pwrRecord (accept (mail 0x31 (put 16 4 351)) (die)), by decide +kernel⟩,
   ⟨mail 0x62 (put 8 1 1 + put 24 4 32), accept (mail 0x62 (put 8 1 1 + put 24 4 32)) (die), 0, portRecord 0 {}, by decide +kernel⟩,
   ⟨mail 0x62 (put 8 1 1 + put 24 4 32), accept (mail 0x62 (put 8 1 1 + put 24 4 32)) (die), 0, portRecord 0 {}, by decide +kernel⟩,
   ⟨mail 0x62 (put 8 1 1 + put 24 4 32), accept (mail 0x62 (put 8 1 1 + put 24 4 32)) ({ die with host := { die.host with linkUp := false } }), 0, portRecord 0 {}, by decide +kernel⟩,
   ⟨mail 0x62 (put 8 1 1 + put 24 4 31), accept (mail 0x62 (put 8 1 1 + put 24 4 31)) (die), 0, portRecord 0 {}, by decide +kernel⟩,
   ⟨mail 0x62 (put 10 2 1 + put 24 4 4096), accept (mail 0x62 (put 10 2 1 + put 24 4 4096)) (statDie), stream, layerStat, statsRecord 1 (statsOf stream 0 1) 0, by decide +kernel⟩,
   ⟨mail 0x62 (put 10 2 1 + put 24 4 4096), accept (mail 0x62 (put 10 2 1 + put 24 4 4096)) ({ statDie with host := { statDie.host with linkUp := false } }), stream, layerStat, statsRecord 1 (statsOf stream 0 1) 0, by decide +kernel⟩,
   ⟨mail 0x62 (put 10 2 1 + put 24 4 1), accept (mail 0x62 (put 10 2 1 + put 24 4 1)) (statDie), stream, layerStat, statsRecord 1 (statsOf stream 0 1) 0, by decide +kernel⟩,
   ⟨mail 0x61 (put 24 4 32), accept (mail 0x61 (put 24 4 32)) ({ die with fw := { die.fw with dieLog := [⟨0, 0, 0, 0, 0, 0⟩] } }), ⟨0, 0, 0, 0, 0, 0⟩, [], logBytes ⟨0, 0, 0, 0, 0, 0⟩, by decide +kernel⟩⟩

theorem wit_MemoryCommandsReserve :
    (∃ m : MailCmd, ∃ s : State, ∃ b : Nat, Accepted s m 0x10 ∧ s.fw.discovered = true ∧ arg m 8 1 = 1 ∧ arg m 9 1 = 0xFF ∧ 0 < arg m 12 4 ∧ waitOf s m = none ∧ (∀ r ∈ s.mem.reserved, r.owner ≠ .wait s.mem.reqNext) ∧ overQuota s (mailTenant s m) 1 (arg m 12 4) = false ∧ arg m 12 4 ≤ freeFor s s.mem.reqNext (reserveNeed m) ∧ placeOn s 1 0 (arg m 12 4) = some b)
    ∧ (∃ m : MailCmd, ∃ s : State, ∃ r : Region, Accepted s m 0x11 ∧ namedRegion s m (arg m 8 2) = some r ∧ regionUsed s r = false ∧ (∀ x ∈ s.mem.reserved, x.owner = .region r.handle → x.tier ≠ 3))
    ∧ (∃ m : MailCmd, ∃ s : State, Accepted s m 0x12 ∧ arg m 8 1 = 0 ∧ arg m 9 1 ≤ 15 ∧ 1 ≤ arg m 10 1 ∧ arg m 10 1 ≤ 3)
    ∧ (∃ m : MailCmd, ∃ s : State, ∃ b : Nat, Accepted s m 0x13 ∧ arg m 8 8 % 4096 = 0 ∧ arg m 16 8 % 4096 = 0 ∧ 0 < arg m 16 8 ∧ arg m 16 8 ≤ 2 ^ 40 ∧ (mapped s).length < 1024 ∧ t4Place s (arg m 16 8) = some b)
    ∧ (∃ m : MailCmd, ∃ s : State, Accepted s m 0x12 ∧ arg m 8 1 = 1 ∧ (arg m 10 1 = 1 ∨ arg m 10 1 = 2) ∧ allocatable s (arg m 10 1) < arg m 12 4)
    ∧ (∃ m : MailCmd, ∃ s : State, Accepted s m 0x12 ∧ arg m 8 1 = 2 ∧ (arg m 12 4 = 0 ∨ 32 < arg m 12 4))
    ∧ (∃ m : MailCmd, ∃ s : State, Accepted s m 0x12 ∧ arg m 8 1 = 2 ∧ 1 ≤ arg m 12 4 ∧ arg m 12 4 ≤ 32) :=
  ⟨⟨mail 0x10 (put 8 1 1 + put 9 1 0xFF + put 12 4 1), accept (mail 0x10 (put 8 1 1 + put 9 1 0xFF + put 12 4 1)) die, 0, by and_intros <;> first | exact of_all _ (by decide +kernel) | decide +kernel⟩,
   ⟨mail 0x11 (put 8 2 1), accept (mail 0x11 (put 8 2 1)) ({ die with mem := { die.mem with regions := [⟨1, 0, 1, 0, 0, 65536, 0, none, false⟩] } }), ⟨1, 0, 1, 0, 0, 65536, 0, none, false⟩, by and_intros <;> first | exact of_all _ (by decide +kernel) | decide +kernel⟩,
   ⟨mail 0x12 (put 9 1 15 + put 10 1 3), accept (mail 0x12 (put 9 1 15 + put 10 1 3)) die, by decide +kernel⟩,
   ⟨mail 0x13 (put 16 8 4096), accept (mail 0x13 (put 16 8 4096)) die, t4Base, by decide +kernel⟩,
   ⟨mail 0x12 (put 8 1 1 + put 10 1 1 + put 12 4 0xFFFFFFFF), accept (mail 0x12 (put 8 1 1 + put 10 1 1 + put 12 4 0xFFFFFFFF)) die, by decide +kernel⟩,
   ⟨mail 0x12 (put 8 1 2 + put 12 4 33), accept (mail 0x12 (put 8 1 2 + put 12 4 33)) die, by decide +kernel⟩,
   ⟨mail 0x12 (put 8 1 2 + put 12 4 32), accept (mail 0x12 (put 8 1 2 + put 12 4 32)) die, by decide +kernel⟩⟩

theorem wit_ItinerariesAndRegionMoves :
    (∃ m : MailCmd, ∃ s : State, ∃ r : Region, Accepted s m 0x14 ∧ srcStatus s (arg m 8 8) (arg m 32 8) = none ∧ namedRegion s m (arg m 16 2) = some r ∧ (r.tier = 1 ∨ r.tier = 2) ∧ regionFault s r = none ∧ arg m 8 8 % 64 = 0 ∧ arg m 24 8 % 64 = 0 ∧ arg m 32 8 % 64 = 0 ∧ 0 < arg m 32 8 ∧ arg m 18 1 = 0 ∧ arg m 24 8 + arg m 32 8 ≤ r.bytes ∧ writableSrc s (arg m 8 8) (arg m 32 8) = false ∧ (tierOf s (arg m 8 8) = 1 ∨ tierOf s (arg m 8 8) = 2 ∨ (tierOf s (arg m 8 8) = 4 ∧ s.host.linkUp = true)))
    ∧ (∃ m : MailCmd, ∃ s : State, ∃ r : Region, Accepted s m 0x14 ∧ srcStatus s (arg m 8 8) (arg m 32 8) = none ∧ namedRegion s m (arg m 16 2) = some r ∧ (r.tier = 1 ∨ r.tier = 2) ∧ regionFault s r = none ∧ arg m 8 8 % 64 = 0 ∧ arg m 24 8 % 64 = 0 ∧ arg m 32 8 % 64 = 0 ∧ 0 < arg m 32 8 ∧ arg m 18 1 = 0 ∧ r.bytes < arg m 24 8 + arg m 32 8)
    ∧ (∃ m : MailCmd, ∃ img : Image, ∃ s : State, ∃ off : Nat, Accepted s m 0x20 ∧ srcStatus s (arg m 8 8) (arg m 16 4) = none ∧ readStatus s (arg m 8 8) (arg m 16 4) .ok = none ∧ arg m 16 4 % 64 = 0 ∧ 0 < arg m 16 4 ∧ imageFault { img with bytes := img.bytes.take (arg m 16 4) } = some off)
    ∧ (∃ m : MailCmd, ∃ img : Image, ∃ img' : Image, ∃ s : State, ∃ s1 : State, Accepted s m 0x20 ∧ srcStatus s (arg m 8 8) (arg m 16 4) = none ∧ readStatus s (arg m 8 8) (arg m 16 4) .ok = none ∧ arg m 16 4 % 64 = 0 ∧ 0 < arg m 16 4 ∧ img' = { img with bytes := img.bytes.take (arg m 16 4) } ∧ imageFault img' = none ∧ (∀ d ∈ img'.dies ++ img'.spares ++ img'.items.map (·.die), d = s.fabric.id) ∧ (∀ i ∈ img'.items, i.tier ≤ 2) ∧ fitHere s img' = .main ∧ s.fw.discovered = true ∧ needsOverQuota s (mailTenant s m) (itinNeeds s img' false) 0 = false ∧ s.itins.length < 32 ∧ waitOf s m = none ∧ withRecalls s s.mem.reqNext (itinNeeds s img' false) = true ∧ takeAll (addWaiting s (some m) 0 0xFFFF (some img') (itinNeeds s img' false)).1 (.wait s.mem.reqNext) (mailTenant s m) (itinNeeds s img' false) = some s1)
    ∧ (∃ m : MailCmd, ∃ img : Image, ∃ img' : Image, ∃ s : State, ∃ k : Nat, Accepted s m 0x20 ∧ srcStatus s (arg m 8 8) (arg m 16 4) = none ∧ readStatus s (arg m 8 8) (arg m 16 4) .ok = none ∧ arg m 16 4 % 64 = 0 ∧ 0 < arg m 16 4 ∧ img' = { img with bytes := img.bytes.take (arg m 16 4) } ∧ imageFault img' = none ∧ (∀ d ∈ img'.dies ++ img'.spares ++ img'.items.map (·.die), d = s.fabric.id) ∧ (∀ i ∈ img'.items, i.tier ≤ 3) ∧ fitHere s img' = .lacks k)
    ∧ (∃ m : MailCmd, ∃ s : State, ∃ it : Itin, Accepted s m 0x21 ∧ namedItin s m (arg m 8 2) = some it ∧ (s.streams.any fun st => st.itin == it.handle) = true)
    ∧ (∃ m : MailCmd, ∃ s : State, ∃ it : Itin, Accepted s m 0x21 ∧ namedItin s m (arg m 8 2) = some it ∧ (s.streams.any fun st => st.itin == it.handle) = false ∧ (∀ x ∈ s.mem.reserved, x.owner = .itin it.handle → x.tier ≠ 3)) :=
  ⟨⟨mail 0x14 (put 8 8 0 + put 16 2 1 + put 24 8 0 + put 32 8 64), accept (mail 0x14 (put 8 8 0 + put 16 2 1 + put 24 8 0 + put 32 8 64)) ({ die with mem := { die.mem with regions := [region 1 0x10000] } }), region 1 0x10000, by decide +kernel⟩,
   ⟨mail 0x14 (put 8 8 0 + put 16 2 1 + put 24 8 0 + put 32 8 65600), accept (mail 0x14 (put 8 8 0 + put 16 2 1 + put 24 8 0 + put 32 8 65600)) ({ die with mem := { die.mem with regions := [region 1 0x10000] } }), region 1 0x10000, by decide +kernel⟩,
   ⟨mail 0x20 (put 8 8 0 + put 16 4 64), { image with bytes := List.replicate 64 1 }, accept (mail 0x20 (put 8 8 0 + put 16 4 64)) die, 0, by decide +kernel⟩,
   ⟨mail 0x20 (put 16 4 64), image, image, accept (mail 0x20 (put 16 4 64)) (die), placed (accept (mail 0x20 (put 16 4 64)) (die)) (mail 0x20 (put 16 4 64)) (some image) (itinNeeds (accept (mail 0x20 (put 16 4 64)) (die)) image false), by and_intros; (on_goal -1 => exact placed_some _ _ _ _ (by decide +kernel)); all_goals first | exact of_all _ (by decide +kernel) | decide +kernel⟩,
   ⟨mail 0x20 (put 16 4 64), { image with main := { image.main with needs := ⟨false, [], [0], []⟩ } }, { image with main := { image.main with needs := ⟨false, [], [0], []⟩ } }, accept (mail 0x20 (put 16 4 64)) ({ die with fuses := { die.fuses with variant := .sv6112 } }), 2, by and_intros <;> first | exact of_all _ (by decide +kernel) | decide +kernel⟩,
   ⟨mail 0x21 (put 8 2 1), accept (mail 0x21 (put 8 2 1)) (opened stream), itin, by decide +kernel⟩,
   ⟨mail 0x21 (put 8 2 1), accept (mail 0x21 (put 8 2 1)) (loaded), itin, by and_intros <;> first | exact of_all _ (by decide +kernel) | decide +kernel⟩⟩

theorem wit_HandlesFresh :
    (∃ live : List Nat, ∃ n : Nat, 1 ≤ n ∧ n ≤ 0xFFFF ∧ live.length < 0xFFFF) :=
  ⟨[], 0xFFFF, by decide +kernel⟩

theorem wit_StreamsOpenAndStart :
    (∃ m : MailCmd, ∃ s : State, ∃ s1 : State, ∃ it : Itin, ∃ p : OpenArgs, ∃ map : List EngineId, Accepted s m 0x22 ∧ p = openArgs m.entry.toNat ∧ namedItin s m p.itin = some it ∧ openBad s m it p = false ∧ (p.backward && attnFallback it) = false ∧ s.fw.discovered = true ∧ waitOf s m = none ∧ needsOverQuota s (mailTenant s m) (streamNeeds it p) 0 = false ∧ admitEngines s p.guar (openTask it p) = some map ∧ s.streams.length < 64 ∧ strandsHeld s + it.steps ≤ 16384 ∧ (∀ d ∈ it.img.dies, reachable s d = true) ∧ withRecalls s s.mem.reqNext (streamNeeds it p) = true ∧ needOn (streamNeeds it p) 3 = 0 ∧ takeAll (addWaiting s (some m) 0 0xFFFF none (streamNeeds it p)).1 (.wait s.mem.reqNext) (mailTenant s m) (streamNeeds it p) = some s1)
    ∧ (∃ m : MailCmd, ∃ s : State, ∃ it : Itin, Accepted s m 0x22 ∧ namedItin s m (openArgs m.entry.toNat).itin = some it ∧ waitOf s m = none ∧ openBad s m it (openArgs m.entry.toNat) = true)
    ∧ (∃ m : MailCmd, ∃ s : State, ∃ st : Stream, Accepted s m 0x23 ∧ Names s m (arg m 8 2) st ∧ (∀ p, ∀ b ∈ (s.audio.get p).binds, b.stream ≠ arg m 8 2) ∧ st.st ≠ .opened)
    ∧ (∃ m : MailCmd, ∃ s : State, ∃ st : Stream, Accepted s m 0x23 ∧ Names s m (arg m 8 2) st ∧ (∀ p, ∀ b ∈ (s.audio.get p).binds, b.stream ≠ arg m 8 2) ∧ st.st = .opened ∧ st.period ≠ 0 ∧ 0 < arg m 16 8 ∧ within s (arg m 16 8) 256 = true)
    ∧ (∃ m : MailCmd, ∃ s : State, ∃ st : Stream, Accepted s m 0x23 ∧ Names s m (arg m 8 2) st ∧ (∀ p, ∀ b ∈ (s.audio.get p).binds, b.stream ≠ arg m 8 2) ∧ st.st = .opened ∧ st.period ≠ 0 ∧ arg m 16 8 = 0 ∧ s.time.state = .unaligned)
    ∧ (∃ m : MailCmd, ∃ s : State, ∃ st : Stream, ∃ n0 : Nat, Accepted s m 0x23 ∧ Names s m (arg m 8 2) st ∧ (∀ p, ∀ b ∈ (s.audio.get p).binds, b.stream ≠ arg m 8 2) ∧ st.st = .opened ∧ (arg m 16 8 = 0 ∨ within s (arg m 16 8) 256 = false) ∧ s.time.state ≠ .unaligned ∧ st.feeds = [] ∧ n0 = (if st.period = 0 then now s else if arg m 16 8 = 0 then now s + 1024 else arg m 16 8))
    ∧ (∃ m : MailCmd, ∃ s : State, ∃ st : Stream, Accepted s m 0x29 ∧ Names s m (arg m 8 2) st ∧ policyBad s m st (policyApplied m st) = true)
    ∧ (∃ m : MailCmd, ∃ s : State, ∃ st : Stream, Accepted s m 0x29 ∧ Names s m (arg m 8 2) st ∧ policyBad s m st (policyApplied m st) = false ∧ policyAdmitted s st (policyApplied m st) = false)
    ∧ (∃ m : MailCmd, ∃ s : State, ∃ st : Stream, Accepted s m 0x29 ∧ Names s m (arg m 8 2) st ∧ policyBad s m st (policyApplied m st) = false ∧ policyAdmitted s st (policyApplied m st) = true ∧ (bit (arg m 10 2) 7 && bit (arg m 12 1) 5) = false)
    ∧ (∃ m : MailCmd, ∃ s : State, ∃ st : Stream, Accepted s m 0x29 ∧ Names s m (arg m 8 2) st ∧ policyBad s m st (policyApplied m st) = false ∧ policyAdmitted s st (policyApplied m st) = true ∧ (bit (arg m 10 2) 7 && bit (arg m 12 1) 5) = false ∧ bit (arg m 10 2) 0 = false)
    ∧ (∃ m : MailCmd, ∃ s : State, ∃ st : Stream, Accepted s m 0x29 ∧ Names s m (arg m 8 2) st ∧ policyBad s m st (policyApplied m st) = false ∧ policyAdmitted s st (policyApplied m st) = true ∧ (bit (arg m 10 2) 7 && bit (arg m 12 1) 5) = false ∧ bit (arg m 10 2) 0 = true) :=
  ⟨⟨mail 0x22 (put 8 2 1 + put 10 1 8 + put 11 1 0x80), accept (mail 0x22 (put 8 2 1 + put 10 1 8 + put 11 1 0x80)) (loaded), placed (accept (mail 0x22 (put 8 2 1 + put 10 1 8 + put 11 1 0x80)) (loaded)) (mail 0x22 (put 8 2 1 + put 10 1 8 + put 11 1 0x80)) none (streamNeeds itin (openArgs (mail 0x22 (put 8 2 1 + put 10 1 8 + put 11 1 0x80)).entry.toNat)), itin, openArgs (mail 0x22 (put 8 2 1 + put 10 1 8 + put 11 1 0x80)).entry.toNat, [], by and_intros; (on_goal -1 => exact placed_some _ _ _ _ (by decide +kernel)); all_goals first | exact of_all _ (by decide +kernel) | decide +kernel⟩,
   ⟨mail 0x22 (put 8 2 1 + put 10 1 8), accept (mail 0x22 (put 8 2 1 + put 10 1 8)) (loaded), itin, by decide +kernel⟩,
   ⟨mail 0x23 (put 8 2 1), accept (mail 0x23 (put 8 2 1)) (opened ({ stream with st := .running, started := true })), { stream with st := .running, started := true }, by and_intros <;> first | exact of_all _ (by decide +kernel) | decide +kernel⟩,
   ⟨mail 0x23 (put 8 2 1 + put 16 8 200), accept (mail 0x23 (put 8 2 1 + put 16 8 200)) (opened stream), stream, by and_intros <;> first | exact of_all _ (by decide +kernel) | decide +kernel⟩,
   ⟨mail 0x23 (put 8 2 1), accept (mail 0x23 (put 8 2 1)) (opened stream), stream, by and_intros <;> first | exact of_all _ (by decide +kernel) | decide +kernel⟩,
   ⟨mail 0x23 (put 8 2 1), accept (mail 0x23 (put 8 2 1)) ({ opened stream with time := { die.time with state := .aligned } }), stream, 1024, by and_intros <;> first | exact of_all _ (by decide +kernel) | decide +kernel⟩,
   ⟨mail 0x29 (put 8 2 1 + put 10 2 4 + put 13 1 33), accept (mail 0x29 (put 8 2 1 + put 10 2 4 + put 13 1 33)) (opened stream), stream, by decide +kernel⟩,
   ⟨mail 0x29 (put 8 2 1 + put 10 2 3), accept (mail 0x29 (put 8 2 1 + put 10 2 3)) ({ opened stream with itins := [itinBig] }), stream, by decide +kernel⟩,
   ⟨mail 0x29 (put 8 2 1 + put 10 2 32 + put 12 1 16), accept (mail 0x29 (put 8 2 1 + put 10 2 32 + put 12 1 16)) (opened stream), stream, by decide +kernel⟩,
   ⟨mail 0x29 (put 8 2 1 + put 10 2 32 + put 12 1 16), accept (mail 0x29 (put 8 2 1 + put 10 2 32 + put 12 1 16)) (opened stream), stream, by decide +kernel⟩,
   ⟨mail 0x29 (put 8 2 1 + put 10 2 1 + put 12 1 2), accept (mail 0x29 (put 8 2 1 + put 10 2 1 + put 12 1 2)) (opened stream), stream, by decide +kernel⟩⟩

theorem wit_StreamsFeedDrainAndClose :
    (∃ m : MailCmd, ∃ addrs : List Nat, ∃ items : List (List Byte), ∃ seqs : List (BitVec 64), ∃ s : State, ∃ st : Stream, ∃ it : Itin, ∃ x : Status, ∃ i : Nat, Accepted s m 0x24 ∧ Names s m (arg m 8 2) st ∧ itinOf s st.itin = some it ∧ feedFault (passFeed s m) m st it addrs items seqs .ok = some (x, i))
    ∧ (∃ m : MailCmd, ∃ addrs : List Nat, ∃ items : List (List Byte), ∃ seqs : List (BitVec 64), ∃ s : State, ∃ st : Stream, ∃ it : Itin, Accepted s m 0x24 ∧ Names s m (arg m 8 2) st ∧ itinOf s st.itin = some it ∧ feedFault (passFeed s m) m st it addrs items seqs .ok = none ∧ st.started = false)
    ∧ (∃ m : MailCmd, ∃ s : State, ∃ st : Stream, Accepted s m 0x25 ∧ Names s m (arg m 8 2) st ∧ st.st = .running)
    ∧ (∃ m : MailCmd, ∃ s : State, ∃ st : Stream, Accepted s m 0x26 ∧ namedStream s m (arg m 8 2) = some st ∧ st.started = true ∧ st.st ≠ .lost ∧ st.frame.isSome = true)
    ∧ (∃ m : MailCmd, ∃ s : State, ∃ st : Stream, Accepted s m 0x26 ∧ namedStream s m (arg m 8 2) = some st ∧ st.st ≠ .resuming ∧ (st.st = .lost ∨ st.started = false ∨ (st.frame = none ∧ st.feeds = [])) ∧ st.snapping = none) :=
  ⟨⟨mail 0x24 (put 8 2 1), [], [], [], accept (mail 0x24 (put 8 2 1)) (opened stream), stream, itin, .badArgument, 0xFFFF, by decide +kernel⟩,
   ⟨mail 0x24 (put 8 2 1 + put 12 2 2 + put 32 8 64), [64, 192], [tile 1 5 1 8, tile 3 0 1 0], [], accept (mail 0x24 (put 8 2 1 + put 12 2 2 + put 32 8 64)) ({ opened stream with itins := [itinIn] }), stream, itinIn, by decide +kernel⟩,
   ⟨mail 0x25 (put 8 2 1), accept (mail 0x25 (put 8 2 1)) (opened ({ stream with st := .running, started := true })), { stream with st := .running, started := true }, by decide +kernel⟩,
   ⟨mail 0x26 (put 8 2 1), accept (mail 0x26 (put 8 2 1)) (opened ({ stream with st := .running, started := true, frame := some frame })), { stream with st := .running, started := true, frame := some frame }, by decide +kernel⟩,
   ⟨mail 0x26 (put 8 2 1), accept (mail 0x26 (put 8 2 1)) (opened stream), stream, by decide +kernel⟩⟩

theorem wit_SnapshotsCaptureAndResume :
    (∃ m : MailCmd, ∃ s : State, ∃ st : Stream, ∃ r : Region, ∃ it : Itin, Accepted s m 0x27 ∧ Names s m (arg m 8 2) st ∧ st.st = .running ∧ namedRegion s m (if arg m 10 2 = 0 then st.snapRegion else arg m 10 2) = some r ∧ (r.tier = 2 ∨ r.tier = 3) ∧ st.snapping = none ∧ st.frame = none ∧ itinOf s st.itin = some it ∧ regionFault s r = none ∧ snapBytes st it ≤ areaBytes r)
    ∧ (∃ h : Nat, ∃ s : State, ∃ st : Stream, ∃ x : Snapshot, ∃ m : MailCmd, ∃ r : Region, streamOf s h = some st ∧ st.snapping = some (x, some m) ∧ waitsCapture x = false ∧ regionAt s x = some r ∧ regionFault s r = none)
    ∧ (∃ h : Nat, ∃ res : ReadEnd, ∃ s : State, ∃ st : Stream, ∃ x : Snapshot, ∃ m : MailCmd, ∃ r : Region, streamOf s h = some st ∧ st.snapping = some (x, some m) ∧ waitsCapture x = false ∧ regionAt s x = some r ∧ regionFault s r = none ∧ (res = .late ∨ res = .bad))
    ∧ (∃ m : MailCmd, ∃ s : State, ∃ s1 : State, ∃ it : Itin, ∃ r : Region, ∃ x : Snapshot, ∃ p : OpenArgs, ∃ map : List EngineId, Accepted s m 0x28 ∧ namedItin s m (arg m 8 2) = some it ∧ namedRegion s m (arg m 10 2) = some r ∧ r.tier ≠ 4 ∧ s.fw.discovered = true ∧ regionFault s r = none ∧ readStatus s (regionAddr s r) r.bytes .ok = none ∧ newestSnap s r.tier (regionAddr s r) = some x ∧ x.itinCrc = it.crc ∧ p = openArgs (put 8 2 it.handle + x.params.toNat <<< 80) ∧ (p.backward && attnFallback it) = false ∧ waitOf s m = none ∧ needsOverQuota s (mailTenant s m) (streamNeeds it p) 0 = false ∧ admitEngines s p.guar (openTask it p) = some map ∧ s.streams.length < 64 ∧ strandsHeld s + it.steps ≤ 16384 ∧ (∀ d ∈ it.img.dies, reachable s d = true) ∧ withRecalls s s.mem.reqNext (streamNeeds it p) = true ∧ needOn (streamNeeds it p) 3 = 0 ∧ (∀ y ∈ s.streams, y.handle ≠ nextStream s) ∧ takeAll (addWaiting s (some m) 0 0xFFFF none (streamNeeds it p)).1 (.wait s.mem.reqNext) (mailTenant s m) (streamNeeds it p) = some s1)
    ∧ (∃ m : MailCmd, ∃ s : State, ∃ it : Itin, ∃ r : Region, Accepted s m 0x28 ∧ namedItin s m (arg m 8 2) = some it ∧ namedRegion s m (arg m 10 2) = some r ∧ r.tier ≠ 4 ∧ s.fw.discovered = true ∧ regionFault s r = none ∧ readStatus s (regionAddr s r) r.bytes .ok = none ∧ waitOf s m = none ∧ (newestSnap s r.tier (regionAddr s r) = none ∨ ∃ x, newestSnap s r.tier (regionAddr s r) = some x ∧ x.itinCrc ≠ it.crc)) :=
  ⟨⟨mail 0x27 (put 8 2 1 + put 10 2 1), accept (mail 0x27 (put 8 2 1 + put 10 2 1)) (withRegion (opened { stream with st := .running, started := true })), { stream with st := .running, started := true }, region 2 t2Base, itin, by decide +kernel⟩,
   ⟨1, (withRegion (opened { stream with snapping := some (snap 128, some (mail 0x27 0)) })), { stream with snapping := some (snap 128, some (mail 0x27 0)) }, snap 128, mail 0x27 0, region 2 t2Base, by decide +kernel⟩,
   ⟨1, .late, (withRegion (opened { stream with snapping := some (snap 128, some (mail 0x27 0)) })), { stream with snapping := some (snap 128, some (mail 0x27 0)) }, snap 128, mail 0x27 0, region 2 t2Base, by decide +kernel⟩,
   ⟨mail 0x28 (put 8 2 1 + put 10 2 1), accept (mail 0x28 (put 8 2 1 + put 10 2 1)) ({ withRegion loaded with snaps := [snap 0] }), placed (accept (mail 0x28 (put 8 2 1 + put 10 2 1)) ({ withRegion loaded with snaps := [snap 0] })) (mail 0x28 (put 8 2 1 + put 10 2 1)) none (streamNeeds itin (openArgs (put 8 2 1 + (snap 0).params.toNat <<< 80))), itin, region 2 t2Base, snap 0, openArgs (put 8 2 1 + (snap 0).params.toNat <<< 80), [], by and_intros; (on_goal -1 => exact placed_some _ _ _ _ (by decide +kernel)); all_goals first | exact of_all _ (by decide +kernel) | decide +kernel⟩,
   ⟨mail 0x28 (put 8 2 1 + put 10 2 1), accept (mail 0x28 (put 8 2 1 + put 10 2 1)) (withRegion loaded), itin, region 2 t2Base, by decide +kernel⟩⟩

theorem wit_PowerCommandsAct :
    (∃ m : MailCmd, ∃ s : State, Accepted s m 0x30 ∧ arg m 8 4 ≠ 0 ∧ (arg m 8 4 < 15000 ∨ 130000 < arg m 8 4))
    ∧ (∃ m : MailCmd, ∃ s : State, Accepted s m 0x30 ∧ (arg m 8 4 = 0 ∨ (15000 ≤ arg m 8 4 ∧ arg m 8 4 ≤ 130000)))
    ∧ (∃ m : MailCmd, ∃ s : State, ∃ u : State, Accepted s m 0x30 ∧ 15000 ≤ arg m 8 4 ∧ arg m 8 4 ≤ 130000 ∧ s.streams = [] ∧ s.power.change = none ∧ u = { s with power := { s.power with hostCap := some (arg m 8 4) } } ∧ (highestAllowed u).1 < s.power.opForce.1)
    ∧ (∃ m : MailCmd, ∃ s : State, Accepted s m 0x32 ∧ 4 ≤ arg m 8 1)
    ∧ (∃ m : MailCmd, ∃ s : State, ∃ n : Fin 5, Accepted s m 0x32 ∧ arg m 8 1 = n.1 ∧ n.1 ≤ 3 ∧ boostActive s = false ∧ s.power.change = none ∧ minPoint n (highestAllowed s) ≠ s.power.opForce)
    ∧ (∃ m : MailCmd, ∃ s : State, ∃ n : Fin 5, Accepted s m 0x32 ∧ arg m 8 1 = n.1 ∧ n.1 ≤ 3 ∧ boostActive s = false ∧ s.power.change = none ∧ minPoint n (highestAllowed s) = s.power.opForce) :=
  ⟨⟨mail 0x30 (put 8 4 14999), accept (mail 0x30 (put 8 4 14999)) die, by decide +kernel⟩,
   ⟨mail 0x30 (put 8 4 15000), accept (mail 0x30 (put 8 4 15000)) die, by decide +kernel⟩,
   ⟨mail 0x30 (put 8 4 15000), accept (mail 0x30 (put 8 4 15000)) ({ die with power := { die.power with opForce := 3 } }), (let m := mail 0x30 (put 8 4 15000); let s := accept m ({ die with power := { die.power with opForce := 3 } }); { s with power := { s.power with hostCap := some (arg m 8 4) } }), by decide +kernel⟩,
   ⟨mail 0x32 (put 8 1 4), accept (mail 0x32 (put 8 1 4)) die, by decide +kernel⟩,
   ⟨mail 0x32 (put 8 1 3), accept (mail 0x32 (put 8 1 3)) die, 3, by decide +kernel⟩,
   ⟨mail 0x32 (put 8 1 0), accept (mail 0x32 (put 8 1 0)) die, 0, by decide +kernel⟩⟩

theorem wit_FabricCommandsAct :
    (∃ m : MailCmd, ∃ s : State, Accepted s m 0x41 ∧ hasFabric s.fuses.variant = true ∧ (badPin m = true ∨ pinsAfter s.fabric m = none))
    ∧ (∃ m : MailCmd, ∃ s : State, ∃ pins : List Pin, Accepted s m 0x41 ∧ hasFabric s.fuses.variant = true ∧ pinsAfter s.fabric m = some pins ∧ badPin m = false ∧ (∀ g ∈ s.fabric.guests, s.fabric.lost.contains g.home = false) ∧ s.fabric.relay.length < 256 ∧ s.mem.lent = [] ∧ s.mem.moves = [] ∧ s.fabric.outstanding = [])
    ∧ (∃ m : MailCmd, ∃ s : State, Accepted s m 0x42 ∧ arg m 8 1 ≠ 0x5A)
    ∧ (∃ m : MailCmd, ∃ s : State, ∃ t : Tick, Accepted s m 0x42 ∧ arg m 8 1 = 0x5A ∧ hasFabric s.fuses.variant = true ∧ s.fabric.isolatedAt = some t)
    ∧ (∃ m : MailCmd, ∃ s : State, Accepted s m 0x42 ∧ arg m 8 1 = 0x5A ∧ hasFabric s.fuses.variant = true ∧ s.fabric.isolatedAt = none ∧ s.fabric.isolating = none ∧ s.mem.lent = [] ∧ s.mem.loans = []) :=
  ⟨⟨mail 0x41 (put 8 1 5), accept (mail 0x41 (put 8 1 5)) die, by decide +kernel⟩,
   ⟨mail 0x41 (put 10 1 1 + put 11 1 1), accept (mail 0x41 (put 10 1 1 + put 11 1 1)) ({ die with fabric := { die.fabric with sizes := #v[4, 1, 1, 1], wraps := #v[true, false, false, false], ports := Vector.replicate 8 { st := .active, peer := 0x1000 } } }), [.ring 0 1 .plus], by and_intros <;> first | exact of_all _ (by decide +kernel) | decide +kernel⟩,
   ⟨mail 0x42 (0), accept (mail 0x42 (0)) die, by decide +kernel⟩,
   ⟨mail 0x42 (put 8 1 0x5A), accept (mail 0x42 (put 8 1 0x5A)) ({ die with fabric := { die.fabric with isolatedAt := some 5 } }), 5, by decide +kernel⟩,
   ⟨mail 0x42 (put 8 1 0x5A), accept (mail 0x42 (put 8 1 0x5A)) die, by decide +kernel⟩⟩

theorem wit_FirmwareSlotCommands :
    (∃ m : MailCmd, ∃ s : State, ∃ tg : Fin 2, Accepted s m 0x50 ∧ arg m 8 1 = tg.1 ∧ 0 < arg m 24 4 ∧ arg m 24 4 % 64 = 0 ∧ arg m 24 4 ≤ imageLimit tg.1 ∧ srcStatus s (arg m 16 8) (arg m 24 4) = none ∧ s.fw.slotWrite = none ∧ s.mem.fwArea.isSome = true ∧ readStatus s (arg m 16 8) (arg m 24 4) .ok = none)
    ∧ (∃ m : MailCmd, ∃ s : State, ∃ tg : Fin 2, ∃ dest : Fin 2, ∃ img : FwImage, Accepted s m 0x51 ∧ arg m 8 1 = tg.1 ∧ arg m 9 1 = dest.1 + 1 ∧ s.fw.staged.get tg = some img ∧ s.fw.slotWrite = none ∧ runningSlot s tg.1 ≠ dest.1)
    ∧ (∃ m : MailCmd, ∃ s : State, ∃ tg : Fin 2, Accepted s m 0x51 ∧ arg m 8 1 = tg.1 ∧ arg m 9 1 ≤ 2 ∧ s.fw.staged.get tg = none)
    ∧ (∃ m : MailCmd, ∃ s : State, ∃ tg : Fin 2, ∃ img : FwImage, Accepted s m 0x52 ∧ arg m 8 1 = tg.1 ∧ arg m 9 1 = 3 ∧ s.fw.staged.get tg = some img)
    ∧ (∃ m : MailCmd, ∃ s : State, ∃ tg : Fin 2, Accepted s m 0x53 ∧ arg m 8 1 = tg.1) :=
  ⟨⟨mail 0x50 (put 8 1 1 + put 24 4 64), accept (mail 0x50 (put 8 1 1 + put 24 4 64)) die, 1, by decide +kernel⟩,
   ⟨mail 0x51 (put 9 1 2), accept (mail 0x51 (put 9 1 2)) ({ die with fw := { die.fw with staged := #v[some ⟨[], []⟩, none] } }), 0, 1, ⟨[], []⟩, by decide +kernel⟩,
   ⟨mail 0x51 (put 9 1 2), accept (mail 0x51 (put 9 1 2)) die, 0, by decide +kernel⟩,
   ⟨mail 0x52 (put 9 1 3), accept (mail 0x52 (put 9 1 3)) ({ die with fw := { die.fw with staged := #v[some ⟨[], []⟩, none] } }), 0, ⟨[], []⟩, by decide +kernel⟩,
   ⟨mail 0x53 (put 8 1 1), accept (mail 0x53 (put 8 1 1)) die, 1, by decide +kernel⟩⟩

theorem wit_ResetAndDiagnosticCommands :
    (∃ m : MailCmd, ∃ s : State, Accepted s m 0x03 ∧ arg m 8 1 ≤ 1 ∧ arg m 9 1 = 0 ∧ (s.streams ≠ [] ∨ s.itins ≠ []))
    ∧ (∃ m : MailCmd, ∃ s : State, Accepted s m 0x03 ∧ arg m 8 1 = 0 ∧ (arg m 9 1 = 1 ∨ (s.streams = [] ∧ s.itins = [])) ∧ s.fw.restart = none ∧ neighbours s = [] ∧ (s.flash.select.get 1).next.1 = s.flash.islandRunning)
    ∧ (∃ m : MailCmd, ∃ s : State, Accepted s m 0x03 ∧ arg m 8 1 = 1 ∧ arg m 9 1 = 0 ∧ s.streams = [] ∧ s.itins = [] ∧ s.fw.restart = none ∧ s.seq.state = .s6 ∧ s.seq.step = none ∧ s.seq.aonRst = false ∧ (s.flash.select.get 1).next.1 = s.flash.islandRunning)
    ∧ (∃ m : MailCmd, ∃ s : State, Accepted s m 0x60)
    ∧ (∃ pass : Bool, ∃ s : State, ∃ m : MailCmd, s.host.running.find? (fun m => mailOpcode m == 0x60) = some m ∧ (pass = true ∨ arg m 8 1 ≠ 1))
    ∧ (∃ s : State, ∃ m : MailCmd, ∃ e : EngineId, s.host.running.find? (fun m => mailOpcode m == 0x60) = some m ∧ arg m 8 1 = 1 ∧ arg m 9 1 = e.1 ∧ e ≠ 6 ∧ hasEngine s.fuses.variant e.1 = true ∧ (s.engines.get e).life = .inService ∧ (s.engines.get 6).life = .laybyFree) :=
  ⟨⟨mail 0x03 (put 8 1 1), accept (mail 0x03 (put 8 1 1)) ({ die with itins := [itin] }), by decide +kernel⟩,
   ⟨mail 0x03 (0), accept (mail 0x03 (0)) die, by decide +kernel⟩,
   ⟨mail 0x03 (put 8 1 1), accept (mail 0x03 (put 8 1 1)) die, by decide +kernel⟩,
   ⟨mail 0x60 (0), accept (mail 0x60 (0)) die, by decide +kernel⟩,
   ⟨true, { die with host := { die.host with running := [mail 0x60 0] } }, mail 0x60 0, by decide +kernel⟩,
   ⟨{ die with host := { die.host with running := [mail 0x60 (put 8 1 1)] } }, mail 0x60 (put 8 1 1), 0, by decide +kernel⟩⟩

theorem wit_AudioConfigAndBind :
    (∃ m : MailCmd, ∃ s : State, Accepted s m 0x71 ∧ apOk (apArgs m) = false)
    ∧ (∃ m : MailCmd, ∃ s : State, ∃ p : ApId, Accepted s m 0x71 ∧ arg m 8 1 = p.1 ∧ apOk (apArgs m) = true ∧ portHere s p.1 = true ∧ (∀ b ∈ (s.audio.get p).binds, bindKeeps s p (apArgs m) b = true ∧ ∀ st, streamOf s b.stream = some st → st.st ≠ .running ∧ st.st ≠ .draining ∧ st.st ≠ .resuming))
    ∧ (∃ m : MailCmd, ∃ s : State, ∃ s1 : State, ∃ st : Stream, ∃ p : ApId, ∃ c : ApCfg, ∃ it : Itin, Accepted s m 0x70 ∧ Names s m (arg m 8 2) st ∧ st.st = .opened ∧ bit (arg m 11 1) 7 = false ∧ bindRangeBad m = false ∧ arg m 10 1 = p.1 ∧ portHere s p.1 = true ∧ (s.audio.get p).cfg = some c ∧ itinOf s st.itin = some it ∧ (bindArgs m).all (bindFits c st it) = true ∧ arg m 12 2 % 65536 ||| arg m 14 2 < 2 ^ c.slots ∧ (∀ d, bindOf s (arg m 8 2) d = none) ∧ needsOverQuota s (mailTenant s m) [⟨1, none, granules (total ((bindArgs m).map bindBytes)), true, false⟩] 0 = false ∧ withRecalls s s.mem.reqNext [⟨1, none, granules (total ((bindArgs m).map bindBytes)), true, false⟩] = true ∧ bindBusy (s.audio.get p) (arg m 8 2) (bindArgs m) = false ∧ waitOf s m = none ∧ takeAll (addWaiting s (some m) 0 0xFFFF none [⟨1, none, granules (total ((bindArgs m).map bindBytes)), true, false⟩]).1 (.wait s.mem.reqNext) (mailTenant s m) [⟨1, none, granules (total ((bindArgs m).map bindBytes)), true, false⟩] = some s1)
    ∧ (∃ m : MailCmd, ∃ s : State, ∃ st : Stream, ∃ p : ApId, ∃ b : Bind, ∃ d : Bool, Accepted s m 0x70 ∧ Names s m (arg m 8 2) st ∧ st.st = .opened ∧ ((arg m 11 1 = 0x81 ∧ d = true) ∨ (arg m 11 1 = 0x82 ∧ d = false)) ∧ arg m 10 1 = 0 ∧ arg m 12 10 = 0 ∧ bindOf s (arg m 8 2) d = some (p, b)) :=
  ⟨⟨mail 0x71 (0), accept (mail 0x71 (0)) die, by decide +kernel⟩,
   ⟨mail 0x71 (put 8 1 0 + put 9 1 4 + put 10 1 1 + put 11 1 16 + put 12 1 16 + put 13 1 2 + put 14 2 32), accept (mail 0x71 (put 8 1 0 + put 9 1 4 + put 10 1 1 + put 11 1 16 + put 12 1 16 + put 13 1 2 + put 14 2 32)) die, 0, by and_intros <;> decide +kernel⟩,
   ⟨mail 0x70 (put 8 2 1 + put 11 1 1 + put 12 2 1 + put 16 2 8), accept (mail 0x70 (put 8 2 1 + put 11 1 1 + put 12 2 1 + put 16 2 8)) (audioDie []), placed (accept (mail 0x70 (put 8 2 1 + put 11 1 1 + put 12 2 1 + put 16 2 8)) (audioDie [])) (mail 0x70 (put 8 2 1 + put 11 1 1 + put 12 2 1 + put 16 2 8)) none [⟨1, none, granules (total ((bindArgs (mail 0x70 (put 8 2 1 + put 11 1 1 + put 12 2 1 + put 16 2 8))).map bindBytes)), true, false⟩], { stream with period := 4096 }, 0, ⟨false, false, 1, 16, 16, 32, 2, true, false, false, false, 0, 0⟩, itinPort, by and_intros; (on_goal -1 => exact placed_some _ _ _ _ (by decide +kernel)); all_goals first | exact of_all _ (by decide +kernel) | decide +kernel⟩,
   ⟨mail 0x70 (put 8 2 1 + put 11 1 0x81), accept (mail 0x70 (put 8 2 1 + put 11 1 0x81)) (audioDie [bindIn]), { stream with period := 4096 }, 0, bindIn, true, by decide +kernel⟩⟩

theorem wit_TickCountsMsc :
    (∃ s : State, s.seq.aonRst = true)
    ∧ (∃ s : State, s.seq.aonRst = false ∧ s.seq.internalReset = false ∧ s.time.replica = s.time.msc ∧ s.time.corr = 0)
    ∧ (∃ s : State, s.seq.aonRst = false ∧ s.seq.internalReset = true ∧ s.time.corr = 0)
    ∧ (∃ s : State, s.seq.aonRst = false ∧ s.seq.internalReset = false ∧ s.time.replica = s.time.msc ∧ s.time.state = .aligned ∧ passed s s.time.lastCorr 4096 = true ∧ s.time.msc + 2 < 2 ^ 64)
    ∧ (∃ s : State, s.seq.aonRst = false ∧ s.seq.internalReset = false ∧ s.time.replica ≠ s.time.msc ∧ RecordOk s) :=
  ⟨⟨({} : State), by decide +kernel⟩,
   ⟨die, by decide +kernel⟩,
   ⟨{ die with seq := { die.seq with internalReset := true } }, by decide +kernel⟩,
   ⟨(let s := atTick 4096 die; { s with time := { s.time with state := .aligned } }), by decide +kernel⟩,
   ⟨{ die with time := { die.time with replica := 1 } }, by decide +kernel⟩⟩

theorem wit_TimeAlignment :
    (∃ s : State, ∃ u : State, s.time.state = .unaligned ∧ s.streams = [] ∧ isRoot s = true ∧ neighbours s ≠ [] ∧ u = { s with time := { s.time with state := .aligned, hops := 0 } } ∧ rootOf u = s.fabric.id)
    ∧ (∃ s : State, ∃ p : PortId, s.time.state = .unaligned ∧ s.streams = [] ∧ isRoot s = false ∧ leaderPort s = some p ∧ s.time.exchanges < 16 ∧ reached s s.time.nextExch = true ∧ mayAsk { s with time := { s.time with exchOut := none } } (s.fabric.ports.get p).peer = true)
    ∧ (∃ s : State, ∃ u : State, ∃ p : PortId, s.time.state = .unaligned ∧ s.streams = [] ∧ isRoot s = false ∧ leaderPort s = some p ∧ 16 ≤ s.time.exchanges ∧ u = { s with time := { s.time with state := .aligned } })
    ∧ (∃ s : State, ∃ p : PortId, s.time.state = .aligned ∧ reached s s.time.nextExch = true ∧ leaderPort s = some p ∧ mayAsk { s with time := { s.time with exchOut := none } } (s.fabric.ports.get p).peer = true)
    ∧ (∃ p : PortId, ∃ s : State, (s.fabric.ports.get p).st = .active ∧ (s.fabric.ports.get p).leads = true ∧ (s.time.state = .aligned ∨ (s.time.state = .refLost ∧ s.time.before = .aligned)))
    ∧ (∃ p : PortId, ∃ t1 : Nat, ∃ t2 : Nat, ∃ t3 : Nat, ∃ t4 : Nat, ∃ frac : Fin 64, ∃ off : Int, ∃ s : State, (s.fabric.ports.get p).st = .active ∧ s.time.leader = some p ∧ s.time.exchOut = some t1 ∧ s.time.state = .unaligned ∧ s.time.bestRtt = none ∧ t4 = capture s frac.1 ∧ off = (((t2 : Int) - t1 - (((s.fabric.ports.get p).txDelay + (s.fabric.ports.get p).flight : Nat) : Int)) + ((t3 : Int) - t4 + (((s.fabric.ports.get p).rxDelay + (s.fabric.ports.get p).flight : Nat) : Int))) / 2)
    ∧ (∃ s : State, s.time.refPresent = true ∧ s.seq.aonRst = false)
    ∧ (∃ s : State, s.time.refPresent = false ∧ s.seq.aonRst = false) :=
  ⟨⟨{ die with fabric := { die.fabric with ports := Vector.replicate 8 { st := .active, peer := 0x1000 } } }, (let s : State := { die with fabric := { die.fabric with ports := Vector.replicate 8 { st := .active, peer := 0x1000 } } }; { s with time := { s.time with state := .aligned, hops := 0 } }), by decide +kernel⟩,
   ⟨({ die with time := { die.time with rootId := 1, leader := some 0 }, fabric := { die.fabric with ports := Vector.replicate 8 { st := .active, peer := 0x1000 } } } : State), 0, by decide +kernel⟩,
   ⟨rootedDie, { rootedDie with time := { rootedDie.time with state := .aligned } }, 0, by decide +kernel⟩,
   ⟨({ die with time := { die.time with state := .aligned, leader := some 0 }, fabric := { die.fabric with ports := Vector.replicate 8 { st := .active, peer := 0x1000 } } } : State), 0, by decide +kernel⟩,
   ⟨0, ({ die with time := { die.time with state := .aligned }, fabric := { die.fabric with ports := Vector.replicate 8 { st := .active, peer := 0x1000, leads := true } } } : State), by decide +kernel⟩,
   ⟨0, 3, 0, 0, 3, 3, -3, ({ die with time := { die.time with exchOut := some 3, leader := some 0 }, fabric := { die.fabric with ports := Vector.replicate 8 { st := .active, peer := 0x1000 } } } : State), by decide +kernel⟩,
   ⟨die, by decide +kernel⟩,
   ⟨{ die with time := { die.time with refPresent := false } }, by decide +kernel⟩⟩

theorem wit_LinkTrainingEnds :
    (∃ p : PortId, ∃ s : State, mayTrain s p = true ∧ (s.fabric.ports.get p).trying = false ∧ (s.fabric.ports.get p).pauseUntil = none ∧ (s.fabric.ports.get p).st = .idle)
    ∧ (∃ p : PortId, ∃ s : State, mayTrain s p = true ∧ (s.fabric.ports.get p).fckSeen = false ∧ (s.fabric.ports.get p).st = .idle ∧ (s.fabric.ports.get p).trying = true)
    ∧ (∃ p : PortId, ∃ t : TrainSet, ∃ s : State, (s.fabric.ports.get p).trying = true ∧ (s.fabric.ports.get p).fckSeen = true ∧ (s.fabric.ports.get p).st = .training ∧ duplicate s p t = false ∧ setFits s p t = false)
    ∧ (∃ p : PortId, ∃ t : TrainSet, ∃ s : State, (s.fabric.ports.get p).trying = true ∧ (s.fabric.ports.get p).fckSeen = true ∧ (s.fabric.ports.get p).st = .training ∧ duplicate s p t = false ∧ setFits s p t = true ∧ s.fabric.lost.contains t.id = false)
    ∧ (∃ p : PortId, ∃ t : TrainSet, ∃ s : State, (s.fabric.ports.get p).trying = true ∧ (s.fabric.ports.get p).fckSeen = true ∧ (s.fabric.ports.get p).st = .training ∧ duplicate s p t = false ∧ setFits s p t = true ∧ s.fabric.lost.contains t.id = true ∧ t.joinReady = false)
    ∧ (∃ p : PortId, ∃ s : State, (s.fabric.ports.get p).trying = true ∧ (s.fabric.ports.get p).fckSeen = true ∧ (s.fabric.ports.get p).setOk = true ∧ (s.fabric.ports.get p).heldAt5 = false ∧ (s.fabric.ports.get p).st = .training ∧ passed s ((s.fabric.ports.get p).trainAt) 10241 = false ∧ (s.fabric.ports.get p).swapAt = none)
    ∧ (∃ p : PortId, ∃ s : State, (s.fabric.ports.get p).trying = true ∧ (s.fabric.ports.get p).fckSeen = true ∧ (s.fabric.ports.get p).heldAt5 = false ∧ (s.fabric.ports.get p).st = .training ∧ passed s ((s.fabric.ports.get p).trainAt) 10240 = true)
    ∧ (∃ p : PortId, ∃ s : State, ∃ t : Tick, (s.fabric.ports.get p).pauseUntil = some t ∧ mayTrain s p = true ∧ reached s t = true ∧ (s.fabric.ports.get p).st ≠ .miswired ∧ (s.fabric.ports.get p).st ≠ .isolated)
    ∧ (∃ p : PortId, ∃ s : State, (s.fabric.ports.get p).st = .active)
    ∧ (∃ p : PortId, ∃ s : State, portsUp s = true ∧ (s.fabric.ports.get p).st = .idle ∧ passed s s.fw.s5At 24576000 = true) :=
  ⟨⟨0, { ({ die with fabric := { die.fabric with ports := Vector.replicate 8 { st := .idle } } }) with island := { die.island with cable := Vector.replicate 8 ⟨true, true⟩ } }, by decide +kernel⟩,
   ⟨0, { ({ die with fabric := { die.fabric with ports := Vector.replicate 8 { trying := true } } }) with island := { die.island with cable := Vector.replicate 8 ⟨true, true⟩ } }, by decide +kernel⟩,
   ⟨0, ⟨0x1000, .sv6118, 1, #v[4, 1, 1, 1], #v[true, false, false, false], 0, false⟩, { ({ die with fabric := { die.fabric with ports := Vector.replicate 8 { trying := true, fckSeen := true, st := .training } } }) with island := { die.island with cable := Vector.replicate 8 ⟨true, true⟩ } }, by decide +kernel⟩,
   ⟨0, ⟨0x1000, .sv6118, 1, #v[4, 1, 1, 1], #v[true, false, false, false], 0, false⟩, { ({ die with fabric := { die.fabric with sizes := #v[4, 1, 1, 1], wraps := #v[true, false, false, false], ports := Vector.replicate 8 { trying := true, fckSeen := true, st := .training } } }) with island := { die.island with cable := Vector.replicate 8 ⟨true, true⟩ } }, by decide +kernel⟩,
   ⟨0, ⟨0x1000, .sv6118, 1, #v[4, 1, 1, 1], #v[true, false, false, false], 0, false⟩, { ({ die with fabric := { die.fabric with sizes := #v[4, 1, 1, 1], wraps := #v[true, false, false, false], ports := Vector.replicate 8 { trying := true, fckSeen := true, st := .training }, lost := [0x1000] } }) with island := { die.island with cable := Vector.replicate 8 ⟨true, true⟩ } }, by decide +kernel⟩,
   ⟨0, { die with fabric := { die.fabric with ports := Vector.replicate 8 { trying := true, fckSeen := true, st := .training, setOk := true } }, island := { die.island with cable := Vector.replicate 8 ⟨true, true⟩ } }, by decide +kernel⟩,
   ⟨0, atTick 10240 ({ ({ die with fabric := { die.fabric with ports := Vector.replicate 8 { trying := true, fckSeen := true, st := .training } } }) with island := { die.island with cable := Vector.replicate 8 ⟨true, true⟩ } }), by decide +kernel⟩,
   ⟨0, { ({ die with fabric := { die.fabric with ports := Vector.replicate 8 { pauseUntil := some 0 } } }) with island := { die.island with cable := Vector.replicate 8 ⟨true, true⟩ } }, 0, by decide +kernel⟩,
   ⟨0, { ({ die with fabric := { die.fabric with ports := Vector.replicate 8 { st := .active } } }) with island := { die.island with cable := Vector.replicate 8 ⟨true, true⟩ } }, by decide +kernel⟩,
   ⟨0, atTick 24576000 ({ ({ die with fabric := { die.fabric with ports := Vector.replicate 8 { st := .idle } } }) with island := { die.island with cable := Vector.replicate 8 ⟨true, true⟩ } }), by decide +kernel⟩⟩

theorem wit_FlitsAndPackets :
    (∃ p : PortId, ∃ f : BitVec 576, ∃ s : State, (s.fabric.ports.get p).st = .active ∧ (flitOk f = false ∨ ((s.fabric.ports.get p).nakSent = false ∧ bits f.toNat 20 2 ≠ 0 ∧ flitSeq f ≠ (s.fabric.ports.get p).rxSeq)))
    ∧ (∃ p : PortId, ∃ f : BitVec 576, ∃ s : State, (s.fabric.ports.get p).st = .active ∧ flitOk f = true ∧ bits f.toNat 20 2 = 0)
    ∧ (∃ p : PortId, ∃ f : BitVec 576, ∃ s : State, (s.fabric.ports.get p).st = .active ∧ flitOk f = true ∧ (bits f.toNat 20 2 = 1 ∨ bits f.toNat 20 2 = 3) ∧ flitSeq f = (s.fabric.ports.get p).rxSeq)
    ∧ (∃ p : PortId, ∃ seq : BitVec 10, ∃ s : State, ∃ l : List (BitVec 576), (s.fabric.ports.get p).st = .active ∧ l = (s.fabric.ports.get p).replay.dropWhile (fun f => flitSeq f != seq) ∧ l ≠ [])
    ∧ (∃ p : PortId, ∃ s : State, (s.fabric.ports.get p).st = .active ∧ 64 < ((s.fabric.ports.get p).replayTicks.filter fun t => !passed s t 24576).length)
    ∧ (∃ p : PortId, ∃ s : State, ∃ x : Queued, (s.fabric.ports.get p).st = .active ∧ choose (s.fabric.ports.get p) = some x ∧ x.pkt.body.length = bodyFlits x.pkt)
    ∧ (∃ p : PortId, ∃ s : State, (s.fabric.ports.get p).st = .active ∧ choose (s.fabric.ports.get p) = none ∧ (nextReturn (s.fabric.ports.get p).toReturn).2 ≠ 0)
    ∧ (∃ p : PortId, ∃ o : PortId, ∃ vc : Fin 4, ∃ cls : Fin 2, ∃ c : Fin 2, ∃ s : State, ∃ x : Queued, ∃ k : Packet, arrived s p vc cls = some x ∧ (x.pkt.rly && x.pkt.via == s.fabric.id) = false ∧ (!x.pkt.rly && x.pkt.dest == s.fabric.id) = false ∧ wayOf s x.pkt (some (portDim p, cls)) = some (o, k, c) ∧ (s.fabric.ports.get o).st = .active ∧ o ≠ p) :=
  ⟨⟨0, 1, (ringDie link), by decide +kernel⟩,
   ⟨0, flitOf 0 0 0 0 0 0 0 0, (ringDie link), by decide +kernel⟩,
   ⟨0, flitOf 0 0 3 1 0 0 0 (headerOf (pkt 1 1 0)), (ringDie link), by decide +kernel⟩,
   ⟨0, 4, (ringDie { link with replay := [flitOf 3 0 3 1 0 0 0 0, flitOf 4 0 3 1 0 0 0 0] }), [flitOf 4 0 3 1 0 0 0 0], by decide +kernel⟩,
   ⟨0, (ringDie { link with replayTicks := List.replicate 65 0 }), by decide +kernel⟩,
   ⟨0, (ringDie { link with credits := fullCredits, tx := [⟨1, 0, ⟨0x3000, 0x1000, 1, 1, false, 1, 7, 0, 0, 0, 0, 0, []⟩, 0⟩] }), ⟨1, 0, ⟨0x3000, 0x1000, 1, 1, false, 1, 7, 0, 0, 0, 0, 0, []⟩, 0⟩, by decide +kernel⟩,
   ⟨0, (ringDie { link with toReturn := Vector.replicate 8 1 }), by decide +kernel⟩,
   ⟨0, 1, 1, 0, 1, (ringDie { link with rx := [⟨1, 0, ⟨0x3000, 0x1000, 1, 1, false, 1, 7, 0, 0, 0, 0, 0, []⟩, 0⟩] }), ⟨1, 0, ⟨0x3000, 0x1000, 1, 1, false, 1, 7, 0, 0, 0, 0, 0, []⟩, 0⟩, ⟨0x3000, 0x1000, 1, 1, false, 1, 7, 0, 0, 0, 0, 0, []⟩, by decide +kernel⟩⟩

theorem wit_RemoteReadsMovesAndRelays :
    (∃ p : PortId, ∃ k : Packet, ∃ s : State, ∃ x : Queued, k.op = 1 ∧ ready s = true ∧ atSink s p k = some x ∧ openTo s k.src k.addr.toNat (64 * k.len) = true ∧ 1 ≤ k.len ∧ k.len ≤ 16 ∧ k.addr.toNat % 64 = 0 ∧ cannotRead s k.addr.toNat (64 * k.len) = false ∧ canAnswer s (packet s k.src 2 k.len k.tag k.addr.toNat 0 (flitsOf (readBytes s.mem.cells (glocal k.addr.toNat) (64 * k.len)))) = true)
    ∧ (∃ p : PortId, ∃ k : Packet, ∃ s : State, ∃ x : Queued, k.op = 1 ∧ ready s = true ∧ atSink s p k = some x ∧ openTo s k.src k.addr.toNat (64 * k.len) = false ∧ canAnswer s (packet s k.src 2 1 k.tag k.addr.toNat 1 [0]) = true)
    ∧ (∃ p : PortId, ∃ k : Packet, ∃ s : State, ∃ x : Queued, k.op = 3 ∧ ready s = true ∧ atSink s p k = some x ∧ Mem.wf s.mem)
    ∧ (∃ p : PortId, ∃ k : Packet, ∃ s : State, ∃ x : Queued, ∃ o : Outstanding, k.op = 2 ∧ ready s = true ∧ atSink s p k = some x ∧ s.fabric.outstanding.find? (fun o => o.tag == k.tag && o.isRead == true && o.dest == k.src) = some o ∧ k.status = 0 ∧ o.move = none)
    ∧ (∃ p : PortId, ∃ k : Packet, ∃ s : State, ∃ x : Queued, k.op = 4 ∧ ready s = true ∧ atSink s p k = some x ∧ s.fabric.outstanding.find? (fun o => o.tag == k.tag && o.isRead == false && o.dest == k.src) = none)
    ∧ (∃ s : State, ∃ x : Queued, ∃ r : List Queued, s.fabric.relayBuf = x :: r)
    ∧ (∃ p : PortId, ∃ s : State, (s.fabric.ports.get p).st = .active ∧ s.fabric.relayWait = []) :=
  ⟨⟨0, pkt 1 1 0x10000, modMem (ringDie { arriving (pkt 1 1 0x10000) with credits := Vector.replicate 8 64 }) fun m => { m with lent := [⟨0x1000, 1, 0x10000, 1, 0, false, none⟩] }, ⟨vcOf (pkt 1 1 0x10000).op, 0, pkt 1 1 0x10000, 0⟩, by decide +kernel⟩,
   ⟨0, pkt 1 1 0x10000, ringDie { arriving (pkt 1 1 0x10000) with credits := Vector.replicate 8 64 }, ⟨vcOf (pkt 1 1 0x10000).op, 0, pkt 1 1 0x10000, 0⟩, by decide +kernel⟩,
   ⟨0, pkt 3 1 0x10000, modMem (ringDie (arriving (pkt 3 1 0x10000))) fun m => { m with lent := [⟨0x1000, 1, 0x10000, 1, 0, false, none⟩] }, ⟨vcOf (pkt 3 1 0x10000).op, 0, pkt 3 1 0x10000, 0⟩, by decide +kernel⟩,
   ⟨0, pkt 2 1 0, (let s := ringDie (arriving (pkt 2 1 0)); { s with fabric := { s.fabric with outstanding := [⟨7, true, 0x1000, none, 0, false, 0, 1⟩] } }), ⟨vcOf (pkt 2 1 0).op, 0, pkt 2 1 0, 0⟩, ⟨7, true, 0x1000, none, 0, false, 0, 1⟩, by decide +kernel⟩,
   ⟨0, pkt 4 1 0, ringDie (arriving (pkt 4 1 0)), ⟨vcOf (pkt 4 1 0).op, 0, pkt 4 1 0, 0⟩, by decide +kernel⟩,
   ⟨((let s := ringDie link; { s with fabric := { s.fabric with relayBuf := [⟨1, 0, ⟨0x3000, 0x1000, 1, 1, false, 1, 7, 0, 0, 0, 0, 0, []⟩, 0⟩] } })), ⟨1, 0, ⟨0x3000, 0x1000, 1, 1, false, 1, 7, 0, 0, 0, 0, 0, []⟩, 0⟩, [], by decide +kernel⟩,
   ⟨0, (ringDie link), by decide +kernel⟩⟩

theorem wit_LoansGrantedAndReturned :
    (∃ p : PortId, ∃ src : FabId, ∃ tier : Nat, ∃ n : Nat, ∃ b : Nat, ∃ s : State, heard s p src = true ∧ lendPlace s tier n = some b)
    ∧ (∃ p : PortId, ∃ src : FabId, ∃ tier : Nat, ∃ n : Nat, ∃ s : State, heard s p src = true ∧ lendPlace s tier n = none)
    ∧ (∃ p : PortId, ∃ l : FabId, ∃ req : Nat, ∃ s : State, heard s p l = true ∧ s.mem.waiting.find? (fun w => w.req == req && w.ask == some l) = none)
    ∧ (∃ p : PortId, ∃ b : FabId, ∃ base : Nat, ∃ s : State, heard s p b = true ∧ s.mem.waiting = [] ∧ (s.mem.lent.any fun l => l.borrower == b && glocal l.base == glocal base) = true ∧ (∀ l ∈ s.mem.lent, l.due = true → l.borrower = b ∧ glocal l.base = glocal base))
    ∧ (∃ p : PortId, ∃ l : FabId, ∃ req : Nat, ∃ tier : Nat, ∃ base : Nat, ∃ n : Nat, ∃ s : State, ∃ w : Waiting, ∃ d : FabId, ∃ r : List FabId, heard s p l = true ∧ loanFits s w l = true ∧ s.mem.waiting = [w] ∧ w.req = req ∧ w.ask = some l ∧ n = min 128 w.need ∧ n < w.need ∧ (tier = 1 ∨ tier = 2) ∧ lenders (takeLoan s w ((w.cmd.map (mailTenant s)).getD 0) l base n) { w with need := w.need - n, ask := none } = d :: r ∧ mayAsk (takeLoan s w ((w.cmd.map (mailTenant s)).getD 0) l base n) d = true) :=
  ⟨⟨0, 0x1000, 2, 1, 0x1008000000, (modMem ((ringDie link)) fun m => { m with lendLimit := #v[0, 10, 10] }), by decide +kernel⟩,
   ⟨0, 0x1000, 2, 129, (ringDie link), by decide +kernel⟩,
   ⟨0, 0x1000, 5, (ringDie link), by decide +kernel⟩,
   ⟨0, 0x1000, 0x10000, (modMem ((ringDie link)) fun m => { m with lent := [⟨0x1000, 1, 0x10000, 1, 0, true, none⟩] }), by and_intros <;> first | exact of_all _ (by decide +kernel) | decide +kernel⟩,
   ⟨0, 0x1000, 3, 2, 0, 128, (modMem ((ringDie link)) fun m => { m with waiting := [⟨none, 3, 200, some 0x1000, [], 0xFFFF, none, []⟩], fwArea := some 0 }), ⟨none, 3, 200, some 0x1000, [], 0xFFFF, none, []⟩, 0x1000, [0x3000, 0x2000], by decide +kernel⟩⟩

theorem wit_RecallsServed :
    (∃ p : PortId, ∃ l : FabId, ∃ base : Nat, ∃ s : State, ∃ x : Loan, heard s p l = true ∧ loanAt s l base = some x ∧ x.recalled = none ∧ holdsOnly s x = false)
    ∧ (∃ p : PortId, ∃ l : FabId, ∃ base : Nat, ∃ s : State, ∃ x : Loan, ∃ i : Fin 8, heard s p l = true ∧ loanAt s l base = some x ∧ x.recalled = none ∧ holdsOnly s x = true ∧ s.mem.fwArea.isSome = true ∧ roomOf s x.lender = some i ∧ roomTaken s x.lender = false ∧ recallBusy s = true ∧ s.mem.waiting = [] ∧ (s.fabric.isolating.isSome = true ∨ lenders s ⟨none, s.mem.reqNext, x.granules, none, [], x.lender, none, []⟩ = []))
    ∧ (∃ p : PortId, ∃ l : FabId, ∃ d : FabId, ∃ base : Nat, ∃ s : State, ∃ x : Loan, ∃ r : List FabId, heard s p l = true ∧ loanAt s l base = some x ∧ x.recalled = none ∧ holdsOnly s x = true ∧ s.fabric.isolating = none ∧ s.mem.waiting = [] ∧ lenders s ⟨none, s.mem.reqNext, x.granules, none, [], x.lender, none, []⟩ = d :: r ∧ mayAsk s d = true)
    ∧ (∃ b : FabId, ∃ base : Nat, ∃ s : State, ready s = true ∧ b ≠ s.fabric.id ∧ s.mem.waiting = [] ∧ (s.mem.lent.any fun l => l.borrower == b && glocal l.base == glocal base && (match l.recallAt with | some t => passed s t noticeTicks | none => false)) = true ∧ (∀ l ∈ s.mem.lent, l.due = true → l.borrower = b ∧ glocal l.base = glocal base))
    ∧ (∃ base : Nat, ∃ s : State, ∃ l : Loan, ∃ t0 : Tick, ready s = true ∧ s.mem.loans = [l] ∧ l.base = base ∧ l.recalled = some t0 ∧ passed s t0 noticeTicks = true ∧ s.mem.moves = [])
    ∧ (∃ l : FabId, ∃ d : FabId, ∃ s : State, ∃ n : Nat, ∃ r : List FabId, ready s = true ∧ (∀ x ∈ s.mem.loans, x.lender = l → x.room = none) ∧ s.mem.roomUsed.find? (·.1 == l) = some (l, n) ∧ s.mem.moves = [] ∧ s.mem.waiting = [] ∧ lenders (addWaiting s none n l none []).1 ⟨none, s.mem.reqNext, n, none, [], l, none, []⟩ = d :: r ∧ mayAsk s d = true) :=
  ⟨⟨0, 0x1000, 0x10000, (modMem ((ringDie link)) fun m => { m with loans := [⟨0x1000, 0x1000000010000, 1, false, none, none⟩] }), ⟨0x1000, 0x1000000010000, 1, false, none, none⟩, by decide +kernel⟩,
   ⟨0, 0x1000, 0x10000, (modMem (((let s := ringDie link; { s with fabric := { s.fabric with isolating := some (0, []) } }))) fun m => { m with loans := [⟨0x1000, 0x1000000010000, 1, true, none, none⟩], rooms := Vector.replicate 8 (some 0x1000), moves := [⟨0, .recall 0x2000, 0, 0, 3, 0, 2, 0, 64, false, 0, false, some 0, 0, false, none⟩] }), ⟨0x1000, 0x1000000010000, 1, true, none, none⟩, 0, by decide +kernel⟩,
   ⟨0, 0x1000, 0x3000, 0x10000, (modMem ((ringDie link)) fun m => { m with loans := [⟨0x1000, 0x1000000010000, 1, true, none, none⟩], fwArea := some 0 }), ⟨0x1000, 0x1000000010000, 1, true, none, none⟩, [0x2000], by decide +kernel⟩,
   ⟨0x1000, 0x10000, atTick 24576 (modMem ((ringDie link)) fun m => { m with lent := [⟨0x1000, 1, 0x10000, 1, 0, true, some 0⟩] }), by and_intros <;> first | exact of_all _ (by decide +kernel) | decide +kernel⟩,
   ⟨0x1000000010000, atTick 24576 (modMem ((ringDie link)) fun m => { m with loans := [⟨0x1000, 0x1000000010000, 1, true, some 0, none⟩] }), ⟨0x1000, 0x1000000010000, 1, true, some 0, none⟩, 0, by decide +kernel⟩,
   ⟨0x2000, 0x1000, (modMem ((ringDie link)) fun m => { m with roomUsed := [(0x2000, 1)] }), 1, [0x3000], by and_intros <;> first | exact of_all _ (by decide +kernel) | decide +kernel⟩⟩

theorem wit_LossesAndRoutesTakeEffect :
    (∃ p : PortId, ∃ s : State, (s.fabric.ports.get p).st = .active)
    ∧ (∃ p : PortId, ∃ s : State, (s.fabric.ports.get p).st = .retraining ∧ passed s ((s.fabric.ports.get p).leftAt) 24576 = true ∧ linkOf s.fabric p ∉ s.fabric.downLinks ∧ (∀ d ∈ allDies s.fabric, s.fabric.census.contains d = true → cutOff { s.fabric with downLinks := s.fabric.downLinks ++ [linkOf s.fabric p] } d = false))
    ∧ (∃ p : PortId, ∃ a : FabId, ∃ b : FabId, ∃ n : Nat, ∃ s : State, ready s = true ∧ (s.fabric.ports.get p).st = .active ∧ s.fabric.seen.contains (0, a, b, n) = true)
    ∧ (∃ p : PortId, ∃ a : FabId, ∃ b : FabId, ∃ n : Nat, ∃ s : State, ready s = true ∧ (s.fabric.ports.get p).st = .active ∧ s.fabric.seen.contains (0, a, b, n) = false ∧ (a, b) ∉ s.fabric.downLinks ∧ (∀ o, linkOf s.fabric o = (a, b) → (s.fabric.ports.get o).st ≠ .active ∧ (s.fabric.ports.get o).st ≠ .retraining) ∧ (∀ d ∈ allDies s.fabric, s.fabric.census.contains d = true → cutOff { s.fabric with downLinks := s.fabric.downLinks ++ [(a, b)] } d = false))
    ∧ (∃ p : PortId, ∃ d : FabId, ∃ n : Nat, ∃ s : State, ready s = true ∧ (s.fabric.ports.get p).st = .active ∧ s.fabric.seen.contains (1, d, d, n) = false ∧ d ≠ s.fabric.id ∧ s.fabric.lost.contains d = false ∧ s.fabric.lost.length < 1024 ∧ (∀ o, (s.fabric.ports.get o).peer ≠ d) ∧ s.mem.moves = [] ∧ s.mem.waiting = [] ∧ s.mem.loans = [] ∧ s.streams = [])
    ∧ (∃ p : PortId, ∃ s : State, ready s = true ∧ (s.fabric.ports.get p).st = .active)
    ∧ (∃ p : PortId, ∃ s : State, (s.fabric.ports.get p).st = .active ∧ (s.fabric.ports.get p).usable = false ∧ passed s ((s.fabric.ports.get p).activeAt) 245760 = true)
    ∧ (∃ cause : Fin 5, ∃ s : State, ready s = true ∧ s.fw.censusClosed = true ∧ cause ≠ 4 ∧ routesNew s = false)
    ∧ (∃ cause : Fin 5, ∃ s : State, ready s = true ∧ s.fw.censusClosed = true ∧ cause ≠ 4 ∧ routesNew s = true ∧ s.mem.lent = [] ∧ s.mem.moves = [] ∧ s.fabric.outstanding = [] ∧ (∀ g ∈ s.fabric.guests, s.fabric.lost.contains g.home = false))
    ∧ (∃ cause : Fin 5, ∃ g : Guest, ∃ s : State, RecordOk s ∧ ready s = true ∧ s.fw.censusClosed = true ∧ cause ≠ 4 ∧ routesNew s = true ∧ s.mem.lent = [] ∧ s.mem.moves = [] ∧ s.fabric.outstanding = [] ∧ s.fabric.guests = [g] ∧ s.fabric.lost.contains g.home = true) :=
  ⟨⟨0, (ringDie link), by decide +kernel⟩,
   ⟨0, atTick 24576 (ringDie { link with st := .retraining }), by and_intros <;> first | exact of_all _ (by decide +kernel) | decide +kernel⟩,
   ⟨0, 1, 2, 3, ((let s := ringDie link; { s with fabric := { s.fabric with seen := [(0, 1, 2, 3)] } })), by decide +kernel⟩,
   ⟨0, 0x1000, 0x2000, 3, (ringDie link), by and_intros <;> first | exact of_all _ (by decide +kernel) | decide +kernel⟩,
   ⟨0, 0x2000, 3, (ringDie link), by decide +kernel⟩,
   ⟨0, (ringDie link), by decide +kernel⟩,
   ⟨0, atTick 245760 (ringDie { link with usable := false }), by decide +kernel⟩,
   ⟨0, ((let s := ringDie link; { s with fw := { s.fw with censusClosed := true, routeInstalled := true } })), by decide +kernel⟩,
   ⟨0, ((let s := ringDie link; { s with fabric := { s.fabric with ring := [] } })), by and_intros <;> first | exact of_all _ (by decide +kernel) | decide +kernel⟩,
   ⟨0, guest, (let s := ringDie link; { s with fabric := { s.fabric with ring := [], guests := [guest], lost := [0x1000] } }), by decide +kernel⟩⟩

theorem wit_LinkRolesAndRemoteEnds :
    (∃ p : PortId, ∃ s : State, (s.fabric.ports.get p).st = .active ∧ (s.fabric.ports.get p).roleReq = none)
    ∧ (∃ p : PortId, ∃ s : State, (s.fabric.ports.get p).st = .active ∧ (s.fabric.ports.get p).roleReq.isSome = true)
    ∧ (∃ p : PortId, ∃ s : State, (s.fabric.ports.get p).st = .active ∧ (s.fabric.ports.get p).roleReq.isSome = true)
    ∧ (∃ p : PortId, ∃ s : State, ∃ t0 : Tick, (s.fabric.ports.get p).st = .active ∧ (s.fabric.ports.get p).swapAt = some t0 ∧ reached s t0 = true)
    ∧ (∃ p : PortId, ∃ s : State, ∃ t0 : Tick, (s.fabric.ports.get p).roleReq = some t0 ∧ passed s t0 4096 = true)
    ∧ (∃ p : PortId, ∃ s : State, (s.fabric.ports.get p).holdoff = true ∧ reached s ((s.fabric.ports.get p).noReqUntil) = true ∧ (s.fabric.ports.get p).st = .active ∧ (s.fabric.ports.get p).leads = false ∧ (s.fabric.ports.get p).roleReq = none ∧ (s.fabric.ports.get p).swapAt = none ∧ s.time.state = .aligned ∧ shouldLead s p = true ∧ mayAsk s (s.fabric.ports.get p).peer = true)
    ∧ (∃ tag : BitVec 16, ∃ s : State, ∃ o : Outstanding, s.fabric.outstanding.find? (·.tag == tag) = some o ∧ ready s = true ∧ o.tiered = false ∧ passed s o.issued 49152 = true ∧ o.move = none)
    ∧ (∃ p : PortId, ∃ src : FabId, ∃ s : State, heard s p src = true ∧ s.fabric.relayGranted.contains src = false)
    ∧ (∃ p : PortId, ∃ src : FabId, ∃ base : Nat, ∃ n : Nat, ∃ s : State, heard s p src = true ∧ rangeOk s base n = true ∧ s.fabric.moveDests.contains (base, n) = false)
    ∧ (∃ p : PortId, ∃ src : FabId, ∃ s : State, heard s p src = true)
    ∧ (∃ s : State, ∃ t0 : Tick, ∃ l : List MailCmd, ready s = true ∧ s.fabric.isolating = some (t0, l) ∧ (drained s = true ∨ passed s t0 24576 = true) ∧ s.mem.loans = [] ∧ s.mem.moves = [] ∧ s.fabric.outstanding = [] ∧ s.fw.restart = none) :=
  ⟨⟨0, (ringDie link), by decide +kernel⟩,
   ⟨0, (ringDie { link with roleReq := some 0 }), by decide +kernel⟩,
   ⟨0, (ringDie { link with roleReq := some 0 }), by decide +kernel⟩,
   ⟨0, (ringDie { link with swapAt := some 0 }), 0, by decide +kernel⟩,
   ⟨0, atTick 4096 (ringDie { link with roleReq := some 0 }), 0, by decide +kernel⟩,
   ⟨0, ((let s := ringDie { link with holdoff := true }; { s with time := { s.time with state := .aligned } })), by decide +kernel⟩,
   ⟨7, atTick 49152 ((let s := ringDie link; { s with fabric := { s.fabric with outstanding := [⟨7, true, 0x1000, none, 0, false, 0, 1⟩] } })), ⟨7, true, 0x1000, none, 0, false, 0, 1⟩, by decide +kernel⟩,
   ⟨0, 0x1000, (ringDie link), by decide +kernel⟩,
   ⟨0, 0x1000, 0, 64, (ringDie link), by decide +kernel⟩,
   ⟨0, 0x1000, (ringDie link), by decide +kernel⟩,
   ⟨((let s := ringDie link; { s with fabric := { s.fabric with isolating := some (0, []) } })), 0, [], by decide +kernel⟩⟩

theorem wit_MovesLand :
    (∃ id : Nat, ∃ h : Nat, ∃ data : List Byte, ∃ s : State, ∃ m : Move, ∃ st : Stream, ∃ it : Itin, s.mem.moves.find? (·.id == id) = some m ∧ m.purpose = .frame h ∧ isPageMove m = false ∧ streamOf s h = some st ∧ itinOf s st.itin = some it ∧ ready s = true ∧ m.issued.isSome = true ∧ stillOut s id = false ∧ (∀ t, lateAfter s m = some t → reached s (t + 1) = false) ∧ badSource s m = false ∧ s.mem.damagedItems.contains (it.handle, m.item) = false ∧ tileIntact (moveData s m data) = true ∧ isNext s m = true)
    ∧ (∃ id : Nat, ∃ s : State, ∃ m : Move, s.mem.moves.find? (·.id == id) = some m ∧ isNext s m = false)
    ∧ (∃ id : Nat, ∃ s : State, ∃ m : Move, ∃ c : MailCmd, ∃ r : Region, Mem.wf s.mem ∧ s.mem.moves.find? (·.id == id) = some m ∧ m.purpose = .command c ∧ gid m.dst = s.fabric.id ∧ ready s = true ∧ m.issued.isSome = true ∧ stillOut s id = false ∧ (∀ t, lateAfter s m = some t → reached s (t + 1) = false) ∧ badSource s m = false ∧ regionOf s (arg c 16 2) = some r ∧ arg c 32 8 ≤ m.item + m.len ∧ m.switch = false)
    ∧ (∃ id : Nat, ∃ h : Nat, ∃ s : State, ∃ m : Move, ∃ st : Stream, ∃ it : Itin, s.mem.moves.find? (·.id == id) = some m ∧ m.purpose = .frame h ∧ streamOf s h = some st ∧ itinOf s st.itin = some it ∧ ready s = true ∧ m.issued = none ∧ m.srcTier ≤ 2 ∧ (s.mem.moves.find? fun x => x.purpose == m.purpose && x.dstTier == m.dstTier && canIssue s it x).map (·.id) = some id ∧ stagedIn s h m.dstTier + m.len ≤ stagingOf it m.dstTier)
    ∧ (∃ id : Nat, ∃ h : Nat, ∃ s : State, ∃ m : Move, ∃ st : Stream, ∃ fr : Frame, ∃ t0 : Tick, s.mem.moves.find? (·.id == id) = some m ∧ m.purpose = .frame h ∧ isPageMove m = false ∧ streamOf s h = some st ∧ st.frame = some fr ∧ fr.fault = none ∧ ready s = true ∧ lateAfter s m = some t0 ∧ reached s (t0 + 1) = true) :=
  ⟨⟨0, 1, tile 1 5 1 8, (let s := working {} frameWork; { s with mem := { s.mem with moves := [move (some 0) t4Base 96] } }), move (some 0) t4Base 96, { stream with st := .running, started := true, frame := some frameWork }, itinWork, by decide +kernel⟩,
   ⟨1, (let s := working {} frameWork; { s with mem := { s.mem with moves := [move (some 0) t4Base 96, { move (some 0) t4Base 96 with id := 1 }] } }), { move (some 0) t4Base 96 with id := 1 }, by decide +kernel⟩,
   ⟨0, (modMem die fun m => { m with moves := [⟨0, .command (mail 0x14 (put 16 2 1 + put 32 8 64)), 0, 0, 4, t4Base, 1, 0x10000, 64, false, 0, false, some 0, 5, false, none⟩], regions := [region 1 0x10000] }), ⟨0, .command (mail 0x14 (put 16 2 1 + put 32 8 64)), 0, 0, 4, t4Base, 1, 0x10000, 64, false, 0, false, some 0, 5, false, none⟩, mail 0x14 (put 16 2 1 + put 32 8 64), region 1 0x10000, by and_intros <;> decide +kernel⟩,
   ⟨0, 1, (let s := working {} frameWork; { s with mem := { s.mem with moves := [⟨0, .frame 1, 0, 0, 2, t2Base, 1, 0x20000, 64, false, 0, false, none, 5, false, none⟩] } }), ⟨0, .frame 1, 0, 0, 2, t2Base, 1, 0x20000, 64, false, 0, false, none, 5, false, none⟩, { stream with st := .running, started := true, frame := some frameWork }, itinWork, by decide +kernel⟩,
   ⟨0, 1, atTick 6 ((let s := working {} frameWork; { s with mem := { s.mem with moves := [move (some 0) t4Base 96] } })), move (some 0) t4Base 96, { stream with st := .running, started := true, frame := some frameWork }, frameWork, 5, by decide +kernel⟩⟩

theorem wit_RateWindowsAndWavefronts :
    (∃ e : EngineId, ∃ s : State, reports s e = true ∧ passed s ((s.engines.get e).rateWinAt) 1024 = true)
    ∧ (∃ e : EngineId, ∃ s : State, passed s ((s.engines.get e).rateWinAt) 1024 = false)
    ∧ (∃ e : EngineId, ∃ s : State, reports s e = true ∧ 24 ≤ (s.engines.get e).lowWindows ∧ s.power.trimRun = none)
    ∧ (∃ e : EngineId, ∃ s : State, hasEngine s.fuses.variant e.1 = true ∧ (s.engines.get e).creditAt ≠ some (now s))
    ∧ (∃ e : EngineId, ∃ s : State, (s.engines.get e).creditAt = some (now s))
    ∧ (∃ e : EngineId, ∃ s : State, mayIssue s e (s.engines.get e).tokens = false)
    ∧ (∃ e : EngineId, ∃ s : State, mayIssue s e (s.engines.get e).tokens = true ∧ (s.engines.get e).field = none ∧ (nextSeg s e .field = none ∨ s.power.change.isSome = true))
    ∧ (∃ e : EngineId, ∃ s : State, ∃ f : FieldRun, ∃ it : Itin, ∃ fr : Frame, ∃ b : LayerBody, ∃ w : List Byte, ∃ blk : Block, ∃ d : StepData, mayIssue s e (s.engines.get e).tokens = true ∧ (s.engines.get e).field = some f ∧ f.swapWanted = false ∧ f.tile < f.seg.t0 + f.seg.tn ∧ cursorData s f f.tile = some (it, fr, b, w, blk, d) ∧ (advance d f).2 = false)
    ∧ (∃ e : EngineId, ∃ s : State, ∃ a : AttnRun, (s.engines.get e).attn = some a ∧ mayIssue s e (s.engines.get e).attnTokens = true ∧ a.steps < a.seg.cost) :=
  ⟨⟨0, atTick 1024 die, by decide +kernel⟩,
   ⟨0, atTick 1023 die, by decide +kernel⟩,
   ⟨0, { die with engines := Vector.replicate 7 { lowWindows := 24 } }, by decide +kernel⟩,
   ⟨0, die, by decide +kernel⟩,
   ⟨0, { die with engines := Vector.replicate 7 { creditAt := some 0 } }, by decide +kernel⟩,
   ⟨0, { die with engines := Vector.replicate 7 { limitNow := 500, tokens := 1023 } }, by decide +kernel⟩,
   ⟨0, die, by decide +kernel⟩,
   ⟨0, working { field := some (onField 0), acc := [[0]], check := [[0, 0, 0, 0]] } frameWork, onField 0, itinWork, frameWork, layer.body, tile 0 5 1 8, ⟨.int8, 1, 8, [List.replicate 8 1], [0x3F800000], [0], [], [], 0⟩, stepData itinWork.img [] layer.body (tile 0 5 1 8) ⟨.int8, 1, 8, [List.replicate 8 1], [0x3F800000], [0], [], [], 0⟩, by and_intros <;> first | decide +kernel | (with_unfolding_all rfl)⟩,
   ⟨0, { die with engines := Vector.replicate 7 { attn := some ⟨1, seg, 7, []⟩ } }, ⟨1, seg, 7, []⟩, by decide +kernel⟩⟩

theorem wit_CheckColumnsDetect :
    (∃ d : StepData, ∃ pass : Nat, ∃ run : Nat, ∃ j : Nat, ∃ i : Nat, ∃ acc : List (List Int), ∃ chk : List (List Int), (d.k = 1 ∨ d.k = 2) ∧ i < d.wbits ∧ acc.length = chk.length ∧ (∀ row ∈ acc, row.length = min (perRun d) (d.ws.length - run * perRun d)) ∧ (∀ row ∈ chk, row.length = 4) ∧ bankOk d.k acc chk = true ∧ (∀ (r c : Nat) (row : List Int) (a x : Int), acc[r]? = some row → row[c]? = some a → x = a + peAdds (latched d pass (r / d.acts.length) (r % d.acts.length) j) (weightBit d (r / d.acts.length) (run * perRun d + c) j i) i (d.wbits - 1) → -(if d.k = 1 then 2 ^ 31 else 2 ^ 56 : Int) ≤ x ∧ x < (if d.k = 1 then 2 ^ 31 else 2 ^ 56 : Int)))
    ∧ (∃ k : Nat, ∃ cols : Nat, ∃ acc : List (List Int), ∃ chk : List (List Int), ∃ u : Upset, (k = 1 ∨ k = 2) ∧ bankOk k acc chk = true ∧ acc.length = chk.length ∧ (∀ row ∈ acc, row.length ≤ cols) ∧ cols ≤ 512 / k ∧ u.row < 512 ∧ u.col < cols ∧ u.delta ≠ 0) :=
  ⟨⟨⟨[⟨0, [1]⟩], [⟨0, [1]⟩], 1, 1, 8, 1, 1⟩, 0, 0, 0, 0, [[0]], [[0, 0, 0, 0]], by decide +kernel, by decide +kernel, by decide +kernel, by decide +kernel, by decide +kernel, by decide +kernel, by
     intro r c row a x h1 h2 hx
     rcases r with _ | r
     · obtain rfl := Option.some.inj h1
       rcases c with _ | c
       · obtain rfl := Option.some.inj h2
         subst hx
         decide +kernel
       · simp at h2
     · simp at h1⟩,
   ⟨1, 1, [[0]], [[0, 0, 0, 0]], ⟨0, 0, 1⟩, by and_intros <;> first | exact of_all _ (by decide +kernel) | decide +kernel⟩⟩

theorem wit_DrainsAndCommits :
    (∃ e : EngineId, ∃ us : List Upset, ∃ s : State, ∃ dr : Drain, ∃ f : FieldRun, ∃ it : Itin, ∃ fr : Frame, ∃ b : LayerBody, ∃ w : List Byte, ∃ blk : Block, ∃ d : StepData, (s.engines.get e).drain = some dr ∧ (s.engines.get e).field = some f ∧ cursorData s f dr.tile = some (it, fr, b, w, blk, d) ∧ bankOk d.k (upset (perRun d) (s.engines.get e).shadow us) (s.engines.get e).shadowCheck = false ∧ (s.engines.get e).life = .inService ∧ hasEngine s.fuses.variant e.1 = true ∧ (s.engines.get 6).life = .laybyFree ∧ e ≠ 6)
    ∧ (∃ e : EngineId, ∃ us : List Upset, ∃ s : State, ∃ dr : Drain, ∃ f : FieldRun, ∃ it : Itin, ∃ fr : Frame, ∃ b : LayerBody, ∃ w : List Byte, ∃ blk : Block, ∃ d : StepData, (s.engines.get e).drain = some dr ∧ (s.engines.get e).field = some f ∧ cursorData s f dr.tile = some (it, fr, b, w, blk, d) ∧ bankOk d.k (upset (perRun d) (s.engines.get e).shadow us) (s.engines.get e).shadowCheck = true ∧ d.passes = 1 ∧ f.swapWanted = false)
    ∧ (∃ e : EngineId, ∃ s : State, ∃ f : FieldRun, ∃ st : Stream, ∃ it : Itin, ∃ fr : Frame, (s.engines.get e).field = some f ∧ (s.engines.get e).drain = none ∧ f.swapWanted = false ∧ f.seg.t0 + f.seg.tn ≤ f.tile ∧ streamOf s f.stream = some st ∧ itinOf s st.itin = some it ∧ st.frame = some fr ∧ isAttn it fr f.seg = false ∧ it.img.kvTier < 2)
    ∧ (∃ e : EngineId, ∃ s : State, ∃ f : FieldRun, (s.engines.get e).field = some f ∧ (s.engines.get e).drain = none ∧ f.swapWanted = false ∧ f.seg.t0 + f.seg.tn ≤ f.tile ∧ (s.engines.get e).life = .inService ∧ hasEngine s.fuses.variant e.1 = true ∧ (s.engines.get 6).life = .laybyFree ∧ e ≠ 6) :=
  ⟨⟨0, [⟨0, 0, 1⟩], working { drain := some ⟨0, 0, 0, 0⟩, field := some (onField 0), shadow := [[0]], shadowCheck := [[0, 0, 0, 0]] } frameWork, ⟨0, 0, 0, 0⟩, onField 0, itinWork, frameWork, layer.body, tile 0 5 1 8, ⟨.int8, 1, 8, [List.replicate 8 1], [0x3F800000], [0], [], [], 0⟩, stepData itinWork.img [] layer.body (tile 0 5 1 8) ⟨.int8, 1, 8, [List.replicate 8 1], [0x3F800000], [0], [], [], 0⟩, by decide +kernel, by decide +kernel, by with_unfolding_all rfl, by decide +kernel⟩,
   ⟨0, [], working { drain := some ⟨0, 0, 0, 0⟩, field := some (onField 0), shadow := [[0]], shadowCheck := [[0, 0, 0, 0]] } frameWork, ⟨0, 0, 0, 0⟩, onField 0, itinWork, frameWork, layer.body, tile 0 5 1 8, ⟨.int8, 1, 8, [List.replicate 8 1], [0x3F800000], [0], [], [], 0⟩, stepData itinWork.img [] layer.body (tile 0 5 1 8) ⟨.int8, 1, 8, [List.replicate 8 1], [0x3F800000], [0], [], [], 0⟩, by decide +kernel, by decide +kernel, by with_unfolding_all rfl, by decide +kernel⟩,
   ⟨0, working { field := some (onField 1) } frameWork, onField 1, { stream with st := .running, started := true, frame := some frameWork }, itinWork, frameWork, by decide +kernel⟩,
   ⟨0, working { field := some (onField 1) } frameWork, onField 1, by decide +kernel⟩⟩

theorem wit_SegmentsAndFramesRun :
    (∃ e : EngineId, ∃ s : State, ∃ st : Stream, ∃ sg : Seg, ∃ it : Itin, ∃ fr : Frame, inService s e = true ∧ resFree (s.engines.get e) .field = true ∧ s.power.change = none ∧ nextSeg s e .field = some (st, sg) ∧ sg.res = .field ∧ streamOf s st.handle = some st ∧ itinOf s st.itin = some it ∧ st.frame = some fr ∧ fr.started.contains sg.layer = true ∧ fr.fault = none ∧ movesDone s st it fr sg = true ∧ isAttn it fr sg = false ∧ damagedItem s it fr sg = none)
    ∧ (∃ s : State, ∃ c : OpChange, s.power.change = some c ∧ (c.phase = .approach ∨ c.phase = .stop))
    ∧ (∃ s : State, (s.engines.get 6).life = .laybyFree ∧ (s.engines.get 6).selfTest = none ∧ ready s = true ∧ (s.fw.laybyTested = false ∨ passed s ((s.engines.get 6).testAt) 16777216 = true))
    ∧ (∃ s : State, (s.engines.get 6).life = .laybyFree ∧ (s.engines.get 6).selfTest = some true ∧ s.fw.laybyTested = true)
    ∧ (∃ s : State, (s.engines.get 6).life = .laybyFree ∧ (s.engines.get 6).selfTest = some true)
    ∧ (∃ h : Nat, ∃ s : State, ∃ st : Stream, ∃ it : Itin, ∃ f : Feed, ∃ fs : List Feed, streamOf s h = some st ∧ itinOf s st.itin = some it ∧ st.nextRelease = some (now s) ∧ st.feeds = f :: fs ∧ ready s = true ∧ st.frame = none ∧ st.st ≠ .lost ∧ st.st ≠ .resuming ∧ postponed s st = false ∧ f.backward = false ∧ st.catchup = false ∧ st.active = [] ∧ servingEngines s ≠ [])
    ∧ (∃ h : Nat, ∃ s : State, ∃ st : Stream, ∃ r : Tick, streamOf s h = some st ∧ st.nextRelease = some r ∧ reached s r = false)
    ∧ (∃ h : Nat, ∃ s : State, ∃ st : Stream, streamOf s h = some st ∧ st.started = true ∧ st.period ≠ 0 ∧ st.feeds = [] ∧ st.st = .running ∧ bindOf s h true = none ∧ reached s (nextSlot s st st.prevSlot 0 + 1) = true)
    ∧ (∃ h : Nat, ∃ s : State, ∃ st : Stream, ∃ it : Itin, ∃ fr : Frame, ∃ m : MailCmd, streamOf s h = some st ∧ itinOf s st.itin = some it ∧ st.frame = some fr ∧ fr.feed.cmd = some m ∧ ready s = true ∧ frameOver fr = true ∧ fr.quiet = false ∧ st.feeds = [] ∧ st.snapping = none ∧ fr.snapEvery = 0 ∧ fr.writes = [] ∧ bindOf s h false = none ∧ st.catchup = false ∧ fr.catchH = none ∧ st.st = .running ∧ st.period ≠ 0) :=
  ⟨⟨0, working {} frameWork, { stream with st := .running, started := true, frame := some frameWork }, seg, itinWork, frameWork, by decide +kernel⟩,
   ⟨{ die with power := { die.power with change := some ⟨.stop, 0, 1, 0, false⟩ } }, ⟨.stop, 0, 1, 0, false⟩, by decide +kernel⟩,
   ⟨die, by decide +kernel⟩,
   ⟨{ die with engines := Vector.replicate 7 { life := .laybyFree, selfTest := some true }, fw := { die.fw with laybyTested := true } }, by decide +kernel⟩,
   ⟨{ die with engines := Vector.replicate 7 { life := .laybyFree, selfTest := some true }, fw := { die.fw with laybyTested := true } }, by decide +kernel⟩,
   ⟨1, opened ({ stream with st := .running, started := true, nextRelease := some 0, feeds := [⟨none, 0, 0, [], [], 0, false, false⟩] }), { stream with st := .running, started := true, nextRelease := some 0, feeds := [⟨none, 0, 0, [], [], 0, false, false⟩] }, itin, ⟨none, 0, 0, [], [], 0, false, false⟩, [], by decide +kernel⟩,
   ⟨1, opened { stream with nextRelease := some 1 }, { stream with nextRelease := some 1 }, 1, by decide +kernel⟩,
   ⟨1, atTick 1 (opened ({ stream with st := .running, started := true })), { stream with st := .running, started := true }, by decide +kernel⟩,
   ⟨1, opened ({ stream with st := .running, started := true, frame := some { frame with feed := ⟨some (mail 0x24 0), 0, 0, [], [], 0, false, false⟩ } }), { stream with st := .running, started := true, frame := some { frame with feed := ⟨some (mail 0x24 0), 0, 0, [], [], 0, false, false⟩ } }, itin, { frame with feed := ⟨some (mail 0x24 0), 0, 0, [], [], 0, false, false⟩ }, mail 0x24 0, by decide +kernel⟩⟩

theorem wit_ResumesAndAudioPorts :
    (∃ h : Nat, ∃ s : State, ∃ st : Stream, ∃ it : Itin, ∃ r : Region, ∃ x : Snapshot, streamOf s h = some st ∧ itinOf s st.itin = some it ∧ st.st = .resuming ∧ regionOf s st.snapRegion = some r ∧ regionFault s r = none ∧ readStatus s (regionAddr s r) r.bytes .ok = none ∧ newestSnap s r.tier (regionAddr s r) = some x ∧ audioBound s h = false ∧ st.feeds = [] ∧ st.drainCmd = none)
    ∧ (∃ h : Nat, ∃ s : State, ∃ st : Stream, ∃ it : Itin, ∃ r : Region, streamOf s h = some st ∧ itinOf s st.itin = some it ∧ st.st = .resuming ∧ regionOf s st.snapRegion = some r ∧ regionFault s r = none ∧ readStatus s (regionAddr s r) r.bytes .bad ≠ none)
    ∧ (∃ p : ApId, ∃ h : Nat, ∃ stamp : Nat, ∃ s : State, ∃ a : AudioPort, ∃ c : ApCfg, ∃ b : Bind, ∃ st : Stream, ∃ it : Itin, (s.audio.get p).cfg = some c ∧ (s.audio.get p).binds.find? (fun b => b.stream == h && b.dirIn) = some b ∧ streamOf s h = some st ∧ itinOf s st.itin = some it ∧ ready s = true ∧ st.st = .running ∧ b.j0.isSome = true ∧ a = stamped (s.audio.get p) (b.j0.getD 0 + ((b.nextIn + 1) * b.block : Nat)) stamp ∧ reached s (blockEnd a b b.nextIn) = true ∧ st.frame.isSome = true)
    ∧ (∃ p : ApId, ∃ h : Nat, ∃ stamp : Nat, ∃ s : State, ∃ a : AudioPort, ∃ c : ApCfg, ∃ b : Bind, ∃ st : Stream, ∃ it : Itin, (s.audio.get p).cfg = some c ∧ (s.audio.get p).binds.find? (fun b => b.stream == h && b.dirOut) = some b ∧ streamOf s h = some st ∧ itinOf s st.itin = some it ∧ ready s = true ∧ b.j0.isSome = true ∧ a = stamped (s.audio.get p) (b.j0.getD 0 + ((b.nextOut + 1) * b.block + b.playSamples : Nat)) stamp ∧ reached s (frameStart a (b.j0.getD 0 + ((b.nextOut + 1) * b.block + b.playSamples : Nat))).toNat = true ∧ (c.slave = false ∨ a.clockValid = true))
    ∧ (∃ c : ApCfg, ∃ slots : List Nat, ∃ k : Nat, ∃ n : Nat, ∃ i : Nat, apOk c = true ∧ k < c.slots ∧ slots.findIdx? (· == k) = some n ∧ i < c.word)
    ∧ (∃ p : ApId, ∃ h : Nat, ∃ s : State, ∃ b : Bind, (s.audio.get p).binds.find? (fun b => b.stream == h && b.dirOut) = some b ∧ ready s = true ∧ b.fillRun ≠ 0 ∧ passed s b.fillPost 24576 = true)
    ∧ (∃ p : ApId, ∃ period : Nat, ∃ s : State, ∃ c : ApCfg, (s.audio.get p).cfg = some c ∧ c.slave = true ∧ (s.audio.get p).clockValid = false ∧ periodOk c period = true)
    ∧ (∃ p : ApId, ∃ period : Nat, ∃ s : State, ∃ c : ApCfg, (s.audio.get p).cfg = some c ∧ c.slave = true ∧ (s.audio.get p).clockValid = false ∧ periodOk c period = false)
    ∧ (∃ p : ApId, ∃ s : State, ∃ c : ApCfg, (s.audio.get p).cfg = some c ∧ c.slave = true ∧ (s.audio.get p).clockValid = true) :=
  ⟨⟨1, (let s := withRegion (opened { stream with st := .resuming, snapRegion := 1 }); { s with snaps := [snap 128] }), { stream with st := .resuming, snapRegion := 1 }, itin, region 2 t2Base, snap 128, by decide +kernel⟩,
   ⟨1, (let s := opened ({ stream with st := .resuming, snapRegion := 1 }); { s with mem := { s.mem with regions := [region 1 0x10000] } }), { stream with st := .resuming, snapRegion := 1 }, itin, region 1 0x10000, by decide +kernel⟩,
   ⟨0, 1, 0, atTick 4096 { audioDie [] with streams := [{ stream with period := 4096, st := .running, started := true, frame := some frame }], audio := Vector.replicate 2 { cfg := some ⟨false, false, 1, 16, 16, 32, 2, true, false, false, false, 0, 0⟩, clockValid := true, binds := [{ bindIn with j0 := some 0 }] } }, ({ cfg := some ⟨false, false, 1, 16, 16, 32, 2, true, false, false, false, 0, 0⟩, clockValid := true, binds := [{ bindIn with j0 := some 0 }] } : AudioPort), ⟨false, false, 1, 16, 16, 32, 2, true, false, false, false, 0, 0⟩, { bindIn with j0 := some 0 }, { stream with period := 4096, st := .running, started := true, frame := some frame }, itinPort, by decide +kernel⟩,
   ⟨0, 1, 0, atTick 8192 { audioDie [] with streams := [{ stream with period := 4096, st := .running, started := true, frame := some frame }], audio := Vector.replicate 2 { cfg := some ⟨false, false, 1, 16, 16, 32, 2, true, false, false, false, 0, 0⟩, clockValid := true, binds := [{ bindIn with dirIn := false, dirOut := true, outMask := 1, playSamples := 8, j0 := some 0 }] } }, ({ cfg := some ⟨false, false, 1, 16, 16, 32, 2, true, false, false, false, 0, 0⟩, clockValid := true, binds := [{ bindIn with dirIn := false, dirOut := true, outMask := 1, playSamples := 8, j0 := some 0 }] } : AudioPort), ⟨false, false, 1, 16, 16, 32, 2, true, false, false, false, 0, 0⟩, { bindIn with dirIn := false, dirOut := true, outMask := 1, playSamples := 8, j0 := some 0 }, { stream with period := 4096, st := .running, started := true, frame := some frame }, itinPort, by decide +kernel⟩,
   ⟨⟨false, false, 1, 16, 16, 32, 2, true, false, false, false, 0, 0⟩, [0, 1], 1, 1, 15, by decide +kernel⟩,
   ⟨0, 1, atTick 24576 ({ audioDie [] with streams := [{ stream with period := 4096, st := .running, started := true, frame := some frame }], audio := Vector.replicate 2 { cfg := some ⟨false, false, 1, 16, 16, 32, 2, true, false, false, false, 0, 0⟩, clockValid := true, binds := [{ bindIn with dirIn := false, dirOut := true, outMask := 1, playSamples := 8, j0 := some 0, fillRun := 1 }] } } : State), { bindIn with dirIn := false, dirOut := true, outMask := 1, playSamples := 8, j0 := some 0, fillRun := 1 }, by decide +kernel⟩,
   ⟨0, 32768, ({ audioDie [] with streams := [{ stream with period := 4096, st := .running, started := true, frame := some frame }], audio := Vector.replicate 2 { cfg := some ⟨false, true, 1, 16, 16, 32, 2, true, false, false, false, 0, 0⟩, clockValid := false, binds := [] } } : State), ⟨false, true, 1, 16, 16, 32, 2, true, false, false, false, 0, 0⟩, by decide +kernel⟩,
   ⟨0, 1, ({ audioDie [] with streams := [{ stream with period := 4096, st := .running, started := true, frame := some frame }], audio := Vector.replicate 2 { cfg := some ⟨false, true, 1, 16, 16, 32, 2, true, false, false, false, 0, 0⟩, clockValid := false, binds := [] } } : State), ⟨false, true, 1, 16, 16, 32, 2, true, false, false, false, 0, 0⟩, by decide +kernel⟩,
   ⟨0, ({ audioDie [] with streams := [{ stream with period := 4096, st := .running, started := true, frame := some frame }], audio := Vector.replicate 2 { cfg := some ⟨false, true, 1, 16, 16, 32, 2, true, false, false, false, 0, 0⟩, clockValid := true, binds := [] } } : State), ⟨false, true, 1, 16, 16, 32, 2, true, false, false, false, 0, 0⟩, by decide +kernel⟩⟩

theorem wit_OperatingPointChanges :
    (∃ target : Fin 5, ∃ cause : OpCause, ∃ s : State, ready s = true ∧ s.power.change = none ∧ cause ≠ .trim ∧ minPoint (minPoint target (wantedPoint s)) (highestAllowed s) ≠ s.power.opForce)
    ∧ (∃ target : Fin 5, ∃ cause : OpCause, ∃ s : State, ready s = true ∧ s.power.change = none ∧ cause ≠ .trim ∧ minPoint (minPoint target (wantedPoint s)) (highestAllowed s) = s.power.opForce)
    ∧ (∃ cause : OpCause, ∃ s : State, ∃ c : OpChange, ready s = true ∧ s.power.change = some c ∧ c.phase ≠ .deferred ∧ cause ≠ .trim)
    ∧ (∃ s : State, ∃ c : OpChange, s.power.change = some c ∧ c.phase = .deferred ∧ c.target.1 ≤ (highestAllowed s).1 ∧ c.target ≠ s.power.opForce ∧ rampingDown s = false)
    ∧ (∃ s : State, ∃ c : OpChange, s.power.change = some c ∧ c.phase = .approach ∧ (∀ e, inService s e = true → atBoundary (s.engines.get e) = true))
    ∧ (∃ s : State, ∃ c : OpChange, s.power.change = some c ∧ c.phase = .stop ∧ s.power.latched = none ∧ passed s c.since 58 = true ∧ passed s c.since 492 = false)
    ∧ (∃ s : State, ∃ c : OpChange, s.power.change = some c ∧ c.phase = .stop ∧ s.power.latched = none ∧ passed s c.since 491 = true)
    ∧ (∃ e : EngineId, ∃ s : State, ∃ c : OpChange, s.power.change = some c ∧ c.phase = .approach ∧ inService s e = true ∧ atBoundary (s.engines.get e) = false ∧ 8192 ≤ (s.engines.get e).unheld ∧ (s.engines.get 6).life ≠ .laybyFree) :=
  ⟨⟨3, .steward, { die with power := { die.power with opBase := 3, opForce := 2 } }, by decide +kernel⟩,
   ⟨0, .host, die, by decide +kernel⟩,
   ⟨.host, { die with power := { die.power with change := some ⟨.stop, 0, 1, 0, false⟩ } }, ⟨.stop, 0, 1, 0, false⟩, by decide +kernel⟩,
   ⟨{ die with power := { die.power with change := some ⟨.deferred, 0, 1, 0, false⟩ } }, ⟨.deferred, 0, 1, 0, false⟩, by decide +kernel⟩,
   ⟨{ die with power := { die.power with change := some ⟨.approach, 0, 1, 0, false⟩ } }, ⟨.approach, 0, 1, 0, false⟩, by decide +kernel⟩,
   ⟨atTick 491 { die with power := { die.power with change := some ⟨.stop, 0, 1, 0, false⟩ } }, ⟨.stop, 0, 1, 0, false⟩, by decide +kernel⟩,
   ⟨atTick 491 { die with power := { die.power with change := some ⟨.stop, 0, 1, 0, false⟩ } }, ⟨.stop, 0, 1, 0, false⟩, by decide +kernel⟩,
   ⟨0, { ({ die with power := { die.power with change := some ⟨.approach, 0, 1, 0, false⟩ } }) with engines := Vector.ofFn fun k : Fin 7 => if k = 6 then { life := .retired } else { drain := some ⟨0, 0, 0, 0⟩, unheld := 8192 } }, ⟨.approach, 0, 1, 0, false⟩, by decide +kernel⟩⟩

theorem wit_GovernorTimersAct :
    (∃ s : State, ready s = true ∧ passed s s.power.windowAt 246 = true)
    ∧ (∃ s : State, ready s = true ∧ passed s s.power.calAt 2457600 = true ∧ (s.power.readings.get 0).stopped = false ∧ (s.power.calPairs.filter fun x => !x.2.2).length < 4)
    ∧ (∃ s : State, ready s = true ∧ s.power.guard = false ∧ (s.power.readings.get 0).stopped = true ∧ passed s s.power.calOk 12288000 = true)
    ∧ (∃ r : Fin 6, ∃ s : State, ∃ b : Tick, ready s = true ∧ (s.power.episodes.get r).openAt = some b ∧ (s.power.episodes.get r).active = false ∧ passed s ((s.power.episodes.get r).lastActive) 2048 = true)
    ∧ (∃ s : State, ready s = true ∧ passed s s.power.throttleAt 24576 = true)
    ∧ (∃ s : State, ∃ n : Fin 5, ∃ b : Tick, ready s = true ∧ s.power.change = none ∧ s.power.opForce.1 < n.1 ∧ n.1 ≤ (wantedPoint s).1 ∧ n.1 ≤ (highestAllowed s).1 ∧ rampingDown s = false ∧ s.power.allowedAt.get n = some b ∧ passed s b 24576000 = true ∧ (∀ k, n.1 < k.1 → k.1 ≤ (wantedPoint s).1 → k.1 ≤ (highestAllowed s).1 → ∀ x, s.power.allowedAt.get k = some x → passed s x 24576000 = false))
    ∧ (∃ s : State, ready s = true ∧ passed s s.power.chargeAt 2457600 = true)
    ∧ (∃ p : PortId, ∃ h : Nat, ∃ s : State, ∃ st : Stream, (s.fabric.ports.get p).st = .active ∧ streamOf s h = some st ∧ st.home = s.fabric.id) :=
  ⟨⟨atTick 246 die, by decide +kernel⟩,
   ⟨atTick 2457600 die, by decide +kernel⟩,
   ⟨atTick 12288000 ({ die with power := { die.power with readings := Vector.replicate 6 { stopped := true } } }), by decide +kernel⟩,
   ⟨2, atTick 2048 ({ die with power := { die.power with episodes := Vector.replicate 6 { openAt := some 0 } } }), 0, by decide +kernel⟩,
   ⟨atTick 24576 ({ die with power := { die.power with episodes := Vector.replicate 6 { heldBegin := some 0, heldEnd := some 0 } } }), by decide +kernel⟩,
   ⟨atTick 24576000 ({ die with power := { die.power with opBase := 2, opForce := 1, allowedAt := Vector.replicate 5 (some 0) } }), 2, 0, by and_intros <;> decide +kernel⟩,
   ⟨atTick 2457600 die, by decide +kernel⟩,
   ⟨0, 1, { ({ die with fabric := { die.fabric with ports := Vector.replicate 8 { st := .active, peer := 0x1000 } } }) with streams := [stream] }, stream, by decide +kernel⟩⟩

theorem wit_DroopThermalAndAgeing :
    (∃ e : EngineId, ∃ q : Fin 4, ∃ mv : Nat, ∃ s : State, hasEngine s.fuses.variant e.1 = true ∧ s.power.masked = false ∧ (s.engines.get e).detMask.get q = false ∧ (s.engines.get e).droopHold = none ∧ 40 < refSag s mv)
    ∧ (∃ e : EngineId, ∃ q : Fin 4, ∃ mv : Nat, ∃ s : State, (s.power.masked = true ∨ (s.engines.get e).detMask.get q = true ∨ refSag s mv ≤ 40))
    ∧ (∃ e : EngineId, ∃ sags : Vector Nat 4, ∃ s : State, (∀ q, (s.engines.get e).detMask.get q = true ∨ refSag s (sags.get q) ≤ 20))
    ∧ (∃ e : EngineId, ∃ mv : Nat, ∃ s : State, ∃ b : Tick, (s.engines.get e).droopHold = some b ∧ (s.engines.get e).droopTold = false ∧ passed s b 24576 = true ∧ mv ≤ 20)
    ∧ (∃ e : EngineId, ∃ mv : Nat, ∃ s : State, ∃ b : Tick, (s.engines.get e).droopHold = some b ∧ (s.engines.get e).droopTold = false ∧ passed s b 24576 = true ∧ 20 < mv ∧ s.power.opForce ≠ 0 ∧ s.power.droopLimit = none)
    ∧ (∃ n : SensorId, ∃ r : Int, ∃ s : State, ready s = true ∧ sensorPresent s.fuses.variant n.1 = true ∧ -640 ≤ r ∧ r ≤ 2400 ∧ (s.power.sensors.get n).faulty = false)
    ∧ (∃ n : SensorId, ∃ s : State, ready s = true ∧ sensorPresent s.fuses.variant n.1 = true ∧ (s.power.sensors.get n).missed = 3 ∧ (s.power.sensors.get n).faulty = false)
    ∧ (∃ s : State, ∃ b : Tick, ready s = true ∧ s.power.thermLowSince = some b ∧ passed s b 24576000 = true)
    ∧ (∃ s : State, ready s = true ∧ s.power.thermalDrop ≠ 0 ∧ (∀ n, sensorPresent s.fuses.variant n.1 = true → ∃ b, (s.power.sensors.get n).below92 = some b ∧ passed s b 24576000 = true))
    ∧ (∃ n : SensorId, ∃ r : Int, ∃ s : State, RecordOk s ∧ sensorPresent s.fuses.variant n.1 = true ∧ 1920 ≤ r ∧ s.seq.internalReset = false ∧ s.seq.state = .s6)
    ∧ (∃ counts : List Nat, ∃ s : State, ready s = true ∧ s.power.change = none ∧ s.power.trimRun = none ∧ s.power.ageing = true ∧ counts ≠ [] ∧ (∀ c ∈ counts, s.fuses.canaryTarget.get s.power.opForce ≤ c)) :=
  ⟨⟨0, 0, 41, die, by decide +kernel⟩,
   ⟨0, 0, 40, die, by decide +kernel⟩,
   ⟨0, Vector.replicate 4 20, die, by decide +kernel⟩,
   ⟨0, 20, atTick 24576 { die with engines := Vector.replicate 7 { droopHold := some 0 } }, 0, by decide +kernel⟩,
   ⟨0, 21, atTick 24576 { ({ die with power := { die.power with opForce := 1 } }) with engines := Vector.replicate 7 { droopHold := some 0 } }, 0, by decide +kernel⟩,
   ⟨0, 1520, die, by decide +kernel⟩,
   ⟨0, { die with power := { die.power with sensors := Vector.replicate 16 { missed := 3 } } }, by decide +kernel⟩,
   ⟨atTick 24576000 ({ die with power := { die.power with thermLowSince := some 0 } }), 0, by decide +kernel⟩,
   ⟨atTick 24576000 ({ die with power := { die.power with thermalDrop := 1, sensors := Vector.replicate 16 { below92 := some 0 } } }), by decide +kernel, by decide +kernel, by intro n _; exact ⟨0, by revert n; decide +kernel, by decide +kernel⟩⟩,
   ⟨0, 1920, die, by decide +kernel⟩,
   ⟨[0], { die with power := { die.power with ageing := true } }, by and_intros <;> first | exact of_all _ (by decide +kernel) | decide +kernel⟩⟩

theorem wit_SequencerAscendsAndDescends :
    (∃ src : ReqSrc, ∃ s : State, (src = .auto → s.seq.pwrAuto = true) ∧ s.seq.aonRst = false ∧ s.seq.state = .s1 ∧ s.seq.step = none ∧ s.island.ready = true ∧ (∀ x, s.seq.s1At = some x → passed s x 245760 = true) ∧ (s.seq.shut = true ∨ s.island.leakLatch = true))
    ∧ (∃ src : ReqSrc, ∃ s : State, (src = .auto → s.seq.pwrAuto = true) ∧ s.seq.aonRst = false ∧ s.seq.state = .s1 ∧ s.seq.step = none ∧ s.island.ready = true ∧ (∀ x, s.seq.s1At = some x → passed s x 245760 = true) ∧ s.seq.shut = false ∧ s.island.leakLatch = false ∧ s.island.trayEn = false)
    ∧ (∃ src : ReqSrc, ∃ s : State, (src = .auto → s.seq.pwrAuto = true) ∧ s.seq.aonRst = false ∧ s.seq.state = .s1 ∧ s.seq.step = none ∧ s.island.ready = true ∧ (∀ x, s.seq.s1At = some x → passed s x 245760 = true) ∧ s.seq.shut = false ∧ s.island.leakLatch = false ∧ s.island.admitted = true ∧ s.seq.request = some true)
    ∧ (∃ s : State, ∃ n : Nat, ∃ b : Tick, s.seq.step = some ⟨true, n, b⟩ ∧ n ∈ [1, 3, 5, 6] ∧ passed s b 2458 = true ∧ passed s b 245761 = false ∧ s.seq.request ≠ some false ∧ s.seq.sysRst = false)
    ∧ (∃ s : State, ∃ n : Nat, ∃ b : Tick, s.seq.step = some ⟨true, n, b⟩ ∧ (n = 2 ∨ n = 4) ∧ passed s b 2458 = true ∧ s.seq.request ≠ some false)
    ∧ (∃ s : State, ∃ b : Tick, s.seq.step = some ⟨true, 7, b⟩ ∧ passed s b 24576 = true ∧ s.seq.sysRst = false ∧ s.seq.request ≠ some false)
    ∧ (∃ src : ReqSrc, ∃ s : State, src ≠ .auto ∧ s.seq.aonRst = false ∧ s.seq.state = .s6 ∧ s.seq.step = none)
    ∧ (∃ s : State, ∃ b : Tick, s.seq.step = some ⟨false, 1, b⟩ ∧ s.seq.vddqm.en = true)
    ∧ (∃ s : State, ∃ b : Tick, s.seq.step = some ⟨false, 6, b⟩ ∧ passed s b 245761 = false)
    ∧ (∃ s : State, ∃ n : Nat, ∃ b : Tick, s.seq.step = some ⟨false, n, b⟩ ∧ n ∈ [3, 4, 5] ∧ passed s b 245761 = false ∧ s.seq.vmem.en = true)
    ∧ (∃ s : State, ∃ n : Nat, ∃ b : Tick, RecordOk s ∧ s.seq.step = some ⟨true, n, b⟩ ∧ n ∈ [1, 3, 5, 6] ∧ passed s b 245761 = true ∧ s.seq.request ≠ some false ∧ s.seq.cold = false)
    ∧ (∃ s : State, ∃ st : SeqStep, s.seq.step = some st ∧ passed s st.since 245761 = false)
    ∧ (∃ d : Domain, ∃ s : State, ∃ r : Rail, RecordOk s ∧ railOf s.seq d = some r ∧ r.en = true ∧ r.good = true) :=
  ⟨⟨.pin, { die with seq := { die.seq with state := .s1, shut := true } }, by and_intros <;> decide +kernel⟩,
   ⟨.pin, { die with seq := { die.seq with state := .s1 } }, by and_intros <;> decide +kernel⟩,
   ⟨.pin, { ({ die with seq := { die.seq with state := .s1, request := some true } }) with island := { die.island with admitted := true } }, by and_intros <;> decide +kernel⟩,
   ⟨atTick 245760 ({ die with seq := { die.seq with step := some ⟨true, 6, 0⟩ } }), 6, 0, by decide +kernel⟩,
   ⟨atTick 2458 ({ die with seq := { die.seq with step := some ⟨true, 2, 0⟩ } }), 2, 0, by decide +kernel⟩,
   ⟨atTick 24576 ({ die with seq := { die.seq with step := some ⟨true, 7, 0⟩ } }), 0, by decide +kernel⟩,
   ⟨.cold, die, by decide +kernel⟩,
   ⟨atTick 491520 ({ die with seq := { die.seq with step := some ⟨false, 1, 0⟩ } }), 0, by decide +kernel⟩,
   ⟨atTick 245760 ({ die with seq := { die.seq with step := some ⟨false, 6, 0⟩, cold := true } }), 0, by decide +kernel⟩,
   ⟨atTick 245760 { die with seq := { die.seq with step := some ⟨false, 3, 0⟩ } }, 3, 0, by decide +kernel⟩,
   ⟨atTick 245761 ({ die with seq := { die.seq with step := some ⟨true, 3, 0⟩ } }), 3, 0, by decide +kernel⟩,
   ⟨atTick 245760 ({ die with seq := { die.seq with step := some ⟨false, 4, 0⟩ } }), ⟨false, 4, 0⟩, by decide +kernel⟩,
   ⟨.vlog, die, ⟨true, true⟩, by decide +kernel⟩⟩

theorem wit_ResetPinsAct :
    (∃ s : State, s.seq.aonRst = true)
    ∧ (∃ s : State, (s.seq.state = .s5 ∨ s.seq.state = .s6) ∧ s.seq.request ≠ some false ∧ goingDown s = false)
    ∧ (∃ s : State, s.seq.state = .s4 ∧ s.seq.step = none) :=
  ⟨⟨({} : State), by decide +kernel⟩,
   ⟨die, by decide +kernel⟩,
   ⟨{ die with seq := { die.seq with state := .s4 } }, by decide +kernel⟩⟩

theorem wit_PowerDeliveryGuarded :
    (∃ d : Domain, ∃ s : State, (∀ r, railOf s.seq d = some r → r.en = true) ∧ s.seq.aonRst = false ∧ s.island.up = true)
    ∧ (∃ d : Domain, ∃ ma : Nat, ∃ uv : Nat, ∃ base : Nat, ∃ temp : Int, ∃ s : State, (∀ r, railOf s.seq d = some r → r.en = true) ∧ s.seq.aonRst = false ∧ s.island.up = true ∧ d ≠ .vddqmx ∧ (s.power.readings.get (domIdx d)).stopped = false ∧ peakMa s.fuses.variant d ≤ 10 * ma ∧ ma ≠ 0 ∧ (s.seq.pdn.get (domIdx d)).baseline = some base ∧ 10 * resAtBase (uv * 1000 / ma) temp (s.seq.pdn.get (domIdx d)).baseTemp = 13 * base)
    ∧ (∃ d : Domain, ∃ ma : Nat, ∃ uv : Nat, ∃ base : Nat, ∃ temp : Int, ∃ s : State, (∀ r, railOf s.seq d = some r → r.en = true) ∧ s.seq.aonRst = false ∧ s.island.up = true ∧ d ≠ .vddqmx ∧ (s.power.readings.get (domIdx d)).stopped = false ∧ peakMa s.fuses.variant d ≤ 10 * ma ∧ ma ≠ 0 ∧ (s.seq.pdn.get (domIdx d)).baseline = some base ∧ 10 * resAtBase (uv * 1000 / ma) temp (s.seq.pdn.get (domIdx d)).baseTemp = 16 * base)
    ∧ (∃ d : Domain, ∃ s : State, ∃ r : Rail, railOf s.seq d = some r ∧ r.en = true ∧ s.seq.aonRst = false ∧ s.island.up = true)
    ∧ (∃ d : Domain, ∃ s : State, ∃ m : Nat × Int, (s.seq.pdn.get (domIdx d)).baseline = none ∧ (s.seq.pdn.get (domIdx d)).learnFrom + 44236800000 ≤ s6Time s ∧ medianSample (s.seq.pdn.get (domIdx d)).samples = some m)
    ∧ (∃ d : Domain, ∃ s : State, ∃ b : Nat, ∃ base : Nat, (s.seq.pdn.get (domIdx d)).over30Since = some b ∧ 24576000 ≤ sampledFor s (s.seq.pdn.get (domIdx d)) b ∧ (s.seq.pdn.get (domIdx d)).baseline = some base ∧ (s.seq.pdn.get (domIdx d)).alarm = false ∧ s.seq.shut = false)
    ∧ (∃ d : Domain, ∃ s : State, ∃ base : Nat, s.seq.shut = false ∧ (s.seq.pdn.get (domIdx d)).baseline = some base ∧ 3 ≤ (s.seq.pdn.get (domIdx d)).over60 ∧ s.seq.aonRst = false ∧ s.seq.state = .s6 ∧ s.seq.step = none)
    ∧ (∃ d : Domain, ∃ s : State, ∃ b : Tick, (s.seq.pdn.get (domIdx d)).under20Since = some b ∧ 1474560000 ≤ sampledFor s (s.seq.pdn.get (domIdx d)) b ∧ (s.seq.pdn.get (domIdx d)).alarm = true) :=
  ⟨⟨.vlog, die, by decide +kernel⟩,
   ⟨.vlog, 20000, 260, 10, 0, ({ die with seq := { die.seq with pdn := Vector.replicate 6 { baseline := some 10 } } }), by intro r h; simp [railOf, die] at h; rw [← h], by decide +kernel⟩,
   ⟨.vlog, 20000, 320, 10, 0, ({ die with seq := { die.seq with pdn := Vector.replicate 6 { baseline := some 10 } } }), by intro r h; simp [railOf, die] at h; rw [← h], by decide +kernel⟩,
   ⟨.vlog, die, ⟨true, true⟩, by decide +kernel⟩,
   ⟨.vlog, { ({ die with seq := { die.seq with pdn := Vector.replicate 6 { samples := [(5, 0)] } } }) with seq := { ({ die with seq := { die.seq with pdn := Vector.replicate 6 { samples := [(5, 0)] } } }).seq with s6Ticks := 44236800000 } }, (5, 0), by decide +kernel⟩,
   ⟨.vlog, atTick 24576000 ({ die with seq := { die.seq with pdn := Vector.replicate 6 { over30Since := some 0, baseline := some 10, lastAt := 24576000 } } }), 0, 10, by decide +kernel⟩,
   ⟨.vlog, ({ die with seq := { die.seq with pdn := Vector.replicate 6 { over60 := 3, baseline := some 10 } } }), 10, by decide +kernel⟩,
   ⟨.vlog, atTick 1474560000 ({ die with seq := { die.seq with pdn := Vector.replicate 6 { under20Since := some 0, alarm := true, lastAt := 1474560000 } } }), 0, by decide +kernel⟩⟩

theorem wit_StatLinesAndElection :
    (∃ s : State, islandRuns s = true ∧ now s % 1228800 = 0)
    ∧ (∃ s : State, islandRuns s = true ∧ passed s s.island.statKick 4915200 = true)
    ∧ (∃ s : State, inTray s = true)
    ∧ (∃ s : State, inTray s = true ∧ s.island.elected = false ∧ s.island.beatSeen = false ∧ passed s s.island.startAt 24576000 = true)
    ∧ (∃ s : State, inTray s = true ∧ s.island.role = .standby ∧ passed s s.island.lastBeat 12288000 = true)
    ∧ (∃ s : State, ∃ d : SlotId, inTray s = true ∧ s.island.role = .primary ∧ s.island.standby = none ∧ ((eligible s).filter (· != s.island.slot)).head? = some d)
    ∧ (∃ h : TrayHead, ∃ s : State, inTray s = true ∧ h.pecOk = true) :=
  ⟨⟨die, by decide +kernel⟩,
   ⟨atTick 4915200 die, by decide +kernel⟩,
   ⟨(tray id), by decide +kernel⟩,
   ⟨atTick 24576000 (tray fun i => { i with elected := false }), by decide +kernel⟩,
   ⟨atTick 12288000 (tray fun i => { i with role := .standby }), by decide +kernel⟩,
   ⟨(tray fun i => { i with role := .primary, statIn := Vector.replicate 16 { cls := .healthy } }), 0, by decide +kernel⟩,
   ⟨head, (tray id), by decide +kernel⟩⟩

theorem wit_BeatsStatesAndCaps :
    (∃ s : State, inTray s = true ∧ s.island.role = .primary ∧ passed s s.island.beatAt 2457600 = true)
    ∧ (∃ h : TrayHead, ∃ s : State, inTray s = true ∧ h.pecOk = true ∧ (s.island.role = .primary → h.src.1 ≤ s.island.slot.1))
    ∧ (∃ s : State, inTray s = true ∧ s.island.role ≠ .primary ∧ passed s s.island.stateAt 2457600 = true)
    ∧ (∃ h : TrayHead, ∃ s : State, inTray s = true ∧ h.pecOk = true ∧ s.island.role = .primary ∧ s.island.pushes.get h.src = none)
    ∧ (∃ h : TrayHead, ∃ s : State, inTray s = true ∧ h.pecOk = true)
    ∧ (∃ h : TrayHead, ∃ g : Nat, ∃ s : State, ∃ p : CapPush, inTray s = true ∧ h.pecOk = true ∧ s.island.role = .primary ∧ s.island.pushes.get h.src = some p ∧ p.gen = g)
    ∧ (∃ n : SlotId, ∃ s : State, ∃ p : CapPush, ∃ b : Tick, inTray s = true ∧ s.island.role = .primary ∧ s.island.pushes.get n = some p ∧ p.sentAt = some b ∧ passed s b 245760 = true ∧ n ≠ s.island.slot ∧ p.tries < 4)
    ∧ (∃ n : SlotId, ∃ s : State, ∃ p : CapPush, ∃ b : Tick, inTray s = true ∧ s.island.role = .primary ∧ s.island.pushes.get n = some p ∧ p.sentAt = some b ∧ passed s b 245760 = true ∧ n ≠ s.island.slot ∧ 4 ≤ p.tries)
    ∧ (∃ s : State, inTray s = true ∧ s.island.role = .primary ∧ s.island.demand = true ∧ passed s s.island.capAt 2457600 = true)
    ∧ (∃ h : TrayHead, ∃ s : State, inTray s = true ∧ h.pecOk = false) :=
  ⟨⟨atTick 2457600 (tray fun i => { i with role := .primary }), by decide +kernel⟩,
   ⟨head, (tray fun i => { i with role := .primary }), by decide +kernel⟩,
   ⟨atTick 2457600 (tray id), by decide +kernel⟩,
   ⟨head, (tray fun i => { i with role := .primary }), by decide +kernel⟩,
   ⟨head, (tray id), by decide +kernel⟩,
   ⟨head, 1, (tray fun i => { i with role := .primary, pushes := Vector.replicate 16 (some ⟨20000, 15000, 1, 1, some 0, false⟩) }), ⟨20000, 15000, 1, 1, some 0, false⟩, by decide +kernel⟩,
   ⟨2, atTick 245760 (tray fun i => { i with role := .primary, pushes := Vector.replicate 16 (some ⟨20000, 15000, 1, 1, some 0, false⟩) }), ⟨20000, 15000, 1, 1, some 0, false⟩, 0, by decide +kernel⟩,
   ⟨2, atTick 245760 (tray fun i => { i with role := .primary, pushes := Vector.replicate 16 (some ⟨20000, 15000, 1, 4, some 0, false⟩) }), ⟨20000, 15000, 1, 4, some 0, false⟩, 0, by decide +kernel⟩,
   ⟨atTick 2457600 (tray fun i => { i with role := .primary, demand := true }), by decide +kernel⟩,
   ⟨{ head with pecOk := false }, (tray id), by decide +kernel⟩⟩

theorem wit_RolesSwapAndTrayPower :
    (∃ h : TrayHead, ∃ s : State, inTray s = true ∧ h.pecOk = true ∧ s.island.roleReq = none ∧ s.island.role ≠ .none ∧ s.island.swapAt = none)
    ∧ (∃ h : TrayHead, ∃ s : State, ∃ b, inTray s = true ∧ h.pecOk = true ∧ s.island.roleReq = some b)
    ∧ (∃ h : TrayHead, ∃ s : State, ∃ b, inTray s = true ∧ h.pecOk = true ∧ s.island.roleReq = some b)
    ∧ (∃ s : State, ∃ b : Tick, inTray s = true ∧ s.island.swapAt = some b ∧ reached s b = true ∧ s.island.role ≠ .none)
    ∧ (∃ s : State, ∃ b : Tick, s.island.roleReq = some b ∧ passed s b 2457600 = true)
    ∧ (∃ s : State, ∃ p : SlotId, inTray s = true ∧ s.island.noReqUntil ≠ 0 ∧ reached s s.island.noReqUntil = true ∧ s.island.role = .standby ∧ s.island.roleReq = none ∧ s.island.swapAt = none ∧ s.island.primary = some p ∧ s.island.slot.1 < p.1)
    ∧ (∃ h : TrayHead, ∃ s : State, inTray s = true ∧ h.pecOk = true ∧ s.seq.step = none ∧ s.seq.state = .s6)
    ∧ (∃ h : TrayHead, ∃ s : State, inTray s = true ∧ h.pecOk = true ∧ s.seq.step = none ∧ s.seq.state = .s1 ∧ s.seq.shut = false ∧ s.island.leakLatch = false ∧ s.island.capAfterRequest = true)
    ∧ (∃ h : TrayHead, ∃ res : Nat, ∃ s : State, inTray s = true ∧ h.pecOk = true ∧ s.island.role = .primary ∧ hasEth s.fuses.variant = true ∧ res < 256)
    ∧ (∃ h : TrayHead, ∃ s : State, inTray s = true ∧ h.pecOk = true ∧ s.island.role ≠ .primary)
    ∧ (∃ h : TrayHead, ∃ s : State, ∃ d : Nat, ∃ echo : Nat, inTray s = true ∧ h.pecOk = true ∧ s.island.role ≠ .primary ∧ d ≤ 1000 ∧ echo ≠ 0 ∧ echo < 2 ^ 64)
    ∧ (∃ s : State, ∃ n : SlotId, inTray s = true ∧ s.island.role = .primary ∧ reached s s.island.nextPower = true ∧ (fins 16).find? (wantsPower s) = some n)
    ∧ (∃ s : State, inTray s = true ∧ s.island.role ≠ .primary ∧ s.island.shutdownAt = none ∧ s.island.shutDone = false ∧ passed s s.island.lastBeat 737280000 = true)
    ∧ (∃ s : State, ∃ b : Tick, inTray s = true ∧ s.island.shutdownAt = some b ∧ reached s b = true ∧ s.island.trayDown = none ∧ s.seq.state = .s6 ∧ s.seq.step = none)
    ∧ (∃ s : State, ∃ b : Tick, ∃ d : SlotId, inTray s = true ∧ s.island.role = .primary ∧ s.island.shutdownAt = none ∧ s.island.trayDown = some b ∧ s.island.trayDownNext = d.1 ∧ passed s b (d.1 * 2457600) = true ∧ d ≠ s.island.slot) :=
  ⟨⟨head, (tray fun i => { i with role := .primary }), by decide +kernel⟩,
   ⟨head, (tray fun i => { i with role := .standby, roleReq := some 0 }), 0, by decide +kernel⟩,
   ⟨head, (tray fun i => { i with role := .standby, roleReq := some 0 }), 0, by decide +kernel⟩,
   ⟨(tray fun i => { i with role := .primary, swapAt := some 0 }), 0, by decide +kernel⟩,
   ⟨atTick 2457600 (tray fun i => { i with role := .standby, roleReq := some 0 }), 0, by decide +kernel⟩,
   ⟨atTick 5 (tray fun i => { i with role := .standby, noReqUntil := 5, primary := some 4 }), 4, by decide +kernel⟩,
   ⟨head, (tray id), by decide +kernel⟩,
   ⟨head, (let s := tray fun i => { i with capAfterRequest := true }; { s with seq := { s.seq with state := .s1 } }), by decide +kernel⟩,
   ⟨head, 0, (tray fun i => { i with role := .primary }), by decide +kernel⟩,
   ⟨head, (tray fun i => { i with role := .standby }), by decide +kernel⟩,
   ⟨head, (tray fun i => { i with role := .standby }), 900, 7, by decide +kernel⟩,
   ⟨atTick 5 (let s := tray fun i => { i with role := .primary, statIn := Vector.replicate 16 { cls := .healthy } }; { s with seq := { s.seq with state := .s1 } }), 3, by decide +kernel⟩,
   ⟨atTick 737280000 (tray id), by decide +kernel⟩,
   ⟨atTick 5 (tray fun i => { i with shutdownAt := some 5 }), 5, by decide +kernel⟩,
   ⟨atTick 2457600 (tray fun i => { i with role := .primary, trayDown := some 0, trayDownNext := 1 }), 0, 1, by decide +kernel⟩⟩

theorem wit_CoolingGuarded :
    (∃ s : State, s.island.coolArmed = true ∧ s.island.coolMax = false ∧ passed s s.island.coolKick 49152000 = true)
    ∧ (∃ s : State, s.island.coolArmed = true ∧ s.island.coolMax = true ∧ passed s s.island.coolKick 98304000 = true)
    ∧ (∃ s : State, islandRuns s = true)
    ∧ (∃ n : Fin 4, ∃ s : State, ∃ b : Tick, inTray s = true ∧ s.island.role = .primary ∧ s.island.limitsOk = true ∧ (s.island.coolant.get n).warned = false ∧ (s.island.coolant.get n).warnSince = some b ∧ passed s b 24576000 = true)
    ∧ (∃ n : Fin 4, ∃ s : State, ∃ b : Tick, inTray s = true ∧ s.island.role = .primary ∧ s.island.limitsOk = true ∧ (s.island.coolant.get n).critical = false ∧ (s.island.coolant.get n).critSince = some b ∧ passed s b 24576000 = true)
    ∧ (∃ n : Fin 4, ∃ s : State, ∃ b : Tick, inTray s = true ∧ s.island.role = .primary ∧ s.island.limitsOk = true ∧ (s.island.coolant.get n).critical = true ∧ (s.island.coolant.get n).critSince = some b ∧ passed s b 1474560000 = true ∧ s.island.trayDown = none)
    ∧ (∃ n : Fin 4, ∃ s : State, ∃ b : Tick, inTray s = true ∧ s.island.role = .primary ∧ s.island.limitsOk = true ∧ (s.island.coolant.get n).warned = true ∧ (s.island.coolant.get n).okSince = some b ∧ passed s b 245760000 = true ∧ (∀ k, k ≠ n → (s.island.coolant.get k).critical = false)) :=
  ⟨⟨atTick 49152000 ({ die with island := { die.island with coolArmed := true } }), by decide +kernel⟩,
   ⟨atTick 98304000 ({ die with island := { die.island with coolArmed := true, coolMax := true } }), by decide +kernel⟩,
   ⟨die, by decide +kernel⟩,
   ⟨0, atTick 24576000 (tray fun i => { i with role := .primary, limitsOk := true, coolant := Vector.replicate 4 { warnSince := some 0 } }), 0, by decide +kernel⟩,
   ⟨3, atTick 24576000 (tray fun i => { i with role := .primary, limitsOk := true, coolant := Vector.replicate 4 { critSince := some 0 } }), 0, by decide +kernel⟩,
   ⟨0, atTick 1474560000 (tray fun i => { i with role := .primary, limitsOk := true, coolant := Vector.replicate 4 { critical := true, critSince := some 0 } }), 0, by decide +kernel⟩,
   ⟨0, atTick 245760000 (tray fun i => { i with role := .primary, limitsOk := true, coolant := Vector.replicate 4 { warned := true, okSince := some 0 } }), 0, by decide +kernel⟩⟩

theorem wit_LeaksCablesAndLamps :
    (∃ b : Bool, ∃ s : State, (s.island.leak.get (leakIdx b)).enabled = true ∧ s.seq.aonRst = false ∧ s.seq.step = none)
    ∧ (∃ b : Bool, ∃ s : State, (s.island.leak.get (leakIdx b)).enabled = false)
    ∧ (∃ s : State, s.island.leakLatch = true ∧ s.island.kill = true)
    ∧ (∃ b : Bool, ∃ s : State, (s.island.leak.get (leakIdx b)).enabled = true ∧ (s.island.leak.get (leakIdx b)).isOpen = false ∧ islandRuns s = true)
    ∧ (∃ p : PortId, ∃ s : State, ∃ r : BitVec 256, s.island.up = true ∧ hasPort s.fuses.variant p.1 = true ∧ (s.island.cable.get p).present = false ∧ fld r 28 4 = (crc32c (leBytes 28 r.toNat)).toNat ∧ fld r 0 2 = 0x4357 ∧ fld r 2 1 = 1 ∧ fld r 3 1 ≤ 1 ∧ fld r 4 1 = 5 ∧ 32 ≤ fld r 5 1 ∧ fld r 6 2 ≤ 500)
    ∧ (∃ p : PortId, ∃ s : State, s.island.up = true ∧ hasPort s.fuses.variant p.1 = true ∧ (s.island.cable.get p).present = false)
    ∧ (∃ p : PortId, ∃ s : State, s.island.up = true ∧ (s.island.cable.get p).present = true)
    ∧ (∃ n : LampId, ∃ s : State, islandRuns s = true ∧ now s % 122880 = 0 ∧ passed s ((s.island.lamps.get n).checkAt) 24576000 = false ∧ (s.island.lamps.get n).owed = 0 ∧ (s.island.lamps.get n).next = none)
    ∧ (∃ n : LampId, ∃ ua : Nat, ∃ s : State, islandRuns s = true ∧ (s.island.lamps.get n).testDue = true ∧ lampDuty s n ≠ 0 ∧ (s.island.lamps.get n).driveUa ≤ 2 * ua)
    ∧ (∃ n : LampId, ∃ ua : Nat, ∃ s : State, islandRuns s = true ∧ (s.island.lamps.get n).testDue = true ∧ lampDuty s n ≠ 0 ∧ 2 * ua < (s.island.lamps.get n).driveUa) :=
  ⟨⟨true, die, by decide +kernel⟩,
   ⟨false, ({ die with island := { die.island with leak := Vector.replicate 2 { enabled := false } } }), by decide +kernel⟩,
   ⟨({ die with island := { die.island with leakLatch := true, kill := true, coolArmed := true, coolMax := true } }), by decide +kernel⟩,
   ⟨true, die, by decide +kernel⟩,
   ⟨7, die, cable, by decide +kernel⟩,
   ⟨0, die, by decide +kernel⟩,
   ⟨0, ({ die with island := { die.island with cable := Vector.replicate 8 ⟨true, true⟩ } }), by decide +kernel⟩,
   ⟨3, die, by decide +kernel⟩,
   ⟨1, 1000, ({ die with island := { die.island with lamps := Vector.replicate 4 { testDue := true, duty := 10 } } }), by decide +kernel⟩,
   ⟨1, 999, ({ die with island := { die.island with lamps := Vector.replicate 4 { testDue := true, duty := 10 } } }), by decide +kernel⟩⟩

theorem wit_SmbusTransactionsAnswer :
    (∃ b : Smb, ∃ s : State, s.seq.aonRst = false ∧ s.island.up = true ∧ b.pecOk = false)
    ∧ (∃ b : Smb, ∃ s : State, SmbTaken s b)
    ∧ (∃ b : Smb, ∃ s : State, SmbTaken s b ∧ (∀ n ∈ s.island.notices, n.smbRead = true))
    ∧ (∃ b : Smb, ∃ s : State, ∃ n, ∃ r, SmbTaken s b ∧ s.island.notices = n :: r ∧ n.smbRead = false)
    ∧ (∃ b : Smb, ∃ s : State, SmbTaken s b ∧ b.data = [0] ∧ s.seq.state = .s6 ∧ s.seq.step = none)
    ∧ (∃ b : Smb, ∃ s : State, SmbTaken s b ∧ b.data.length = 4 ∧ s.island.trayEn = false ∧ 15000 ≤ leNat b.data ∧ leNat b.data ≤ 130000)
    ∧ (∃ b : Smb, ∃ s : State, ∃ a, ∃ r, SmbTaken s b ∧ b.data = a :: r)
    ∧ (∃ b : Smb, ∃ s : State, ∃ r, ∃ k, SmbTaken s b ∧ b.data = 3 :: r ∧ s.island.arm = some (3, k) ∧ passed s k 24576001 = false ∧ s.seq.state = .s1)
    ∧ (∃ b : Smb, ∃ s : State, ∃ r, ∃ k, SmbTaken s b ∧ b.data = 3 :: r ∧ s.island.arm = some (3, k) ∧ passed s k 24576001 = true)
    ∧ (∃ b : Smb, ∃ s : State, SmbTaken s b ∧ (∀ a r x k, b.data = a :: r → s.island.arm = some (x, k) → a.toNat ≠ x ∨ passed s k 24576001 = true))
    ∧ (∃ b : Smb, ∃ s : State, SmbTaken s b ∧ s.island.trayEn = true ∧ hasEth s.fuses.variant = true)
    ∧ (∃ b : Smb, ∃ s : State, ∃ n : LampId, ∃ d, SmbTaken s b ∧ b.data = BitVec.ofNat 8 n.1 :: leBytes 2 d ∧ d ≤ 1000) :=
  ⟨⟨⟨false, []⟩, die, by decide +kernel⟩,
   ⟨⟨true, []⟩, die, by decide +kernel⟩,
   ⟨⟨true, []⟩, die, by and_intros <;> first | exact of_all _ (by decide +kernel) | decide +kernel⟩,
   ⟨⟨true, []⟩, ({ die with island := { die.island with notices := [⟨1, 0, 0, false, false⟩] } }), ⟨1, 0, 0, false, false⟩, [], by decide +kernel⟩,
   ⟨⟨true, [0]⟩, die, by decide +kernel⟩,
   ⟨⟨true, [0x98, 0x3A, 0, 0]⟩, die, by decide +kernel⟩,
   ⟨⟨true, [3]⟩, die, 3, [], by decide +kernel⟩,
   ⟨⟨true, [3]⟩, atTick 24576000 (let s := ({ die with island := { die.island with arm := some (3, 0) } }); { s with seq := { s.seq with state := .s1 } }), [], 0, by decide +kernel⟩,
   ⟨⟨true, [3]⟩, atTick 24576001 ({ die with island := { die.island with arm := some (3, 0) } }), [], 0, by decide +kernel⟩,
   ⟨⟨true, [3]⟩, atTick 24576001 ({ die with island := { die.island with arm := some (3, 0) } }), by decide +kernel, by rintro a r x k - h; cases h; exact .inr (by decide +kernel)⟩,
   ⟨⟨true, []⟩, ({ die with island := { die.island with trayEn := true } }), by decide +kernel⟩,
   ⟨⟨true, [1, 0xE8, 3]⟩, die, 1, 1000, by decide +kernel⟩⟩

theorem wit_WairiqRequestsAreGuarded :
    (∃ w : Wairiq, ∃ s : State, islandRuns s = true ∧ hasEth s.fuses.variant = true ∧ wqType w = 0x04 ∧ wqFrameOk w = false)
    ∧ (∃ w : Wairiq, ∃ s : State, islandRuns s = true ∧ hasEth s.fuses.variant = true ∧ wqType w = 0x04 ∧ wqFrameOk w = true ∧ wqTagOk s w = false)
    ∧ (∃ w : Wairiq, ∃ s : State, islandRuns s = true ∧ hasEth s.fuses.variant = true ∧ wqType w = 0x04 ∧ wqFrameOk w = true ∧ wqTagOk s w = true ∧ wqSeqOf w ≤ s.island.seqMark)
    ∧ (∃ w : Wairiq, ∃ s : State, WairiqTaken s w 0x04 ∧ s.island.trayEn = true ∧ s.island.role ≠ .primary)
    ∧ (∃ w : Wairiq, ∃ s : State, ∃ n : SlotId, WairiqTaken s w 0x04 ∧ s.island.trayEn = true ∧ s.island.role = .primary ∧ wqSlot w = n.1 ∧ n ≠ s.island.slot) :=
  ⟨⟨{ wq 4 0 [8] with body := [8, 9] }, die, by decide +kernel⟩,
   ⟨wq 4 0 [8], die, by decide +kernel⟩,
   ⟨wq 4 0 [8], (keyed fun i => { i with seqMark := 5 }), by and_intros <;> decide +kernel⟩,
   ⟨wq 4 0 [8], (keyed fun i => { i with trayEn := true, slot := 3 }), wq_taken _ _ _ _ rfl (by decide +kernel), by decide +kernel⟩,
   ⟨wq 4 2 [8], (keyed fun i => { i with trayEn := true, slot := 3, role := .primary }), 2, wq_taken _ _ _ _ rfl (by decide +kernel), by decide +kernel⟩⟩

theorem wit_WairiqSetsValues :
    (∃ w : Wairiq, ∃ s : State, islandRuns s = true ∧ hasEth s.fuses.variant = true ∧ wqType w = 0x01 ∧ wqFrameOk w = true ∧ wqTagOk s w = true)
    ∧ (∃ w : Wairiq, ∃ s : State, WairiqTaken s w 0x02 ∧ CarriesOut s w)
    ∧ (∃ w : Wairiq, ∃ s : State, ∃ c : Nat, WairiqTaken s w 0x03 ∧ CarriesOut s w ∧ w.body.length = 3 ∧ c = bfld w.body 0 2 ∧ capRangeOk s c = false ∧ bfld w.body 2 1 ≤ 1)
    ∧ (∃ w : Wairiq, ∃ s : State, ∃ c : Nat, WairiqTaken s w 0x03 ∧ CarriesOut s w ∧ w.body.length = 3 ∧ c = bfld w.body 0 2 ∧ capRangeOk s c = true ∧ bfld w.body 2 1 ≤ 1)
    ∧ (∃ w : Wairiq, ∃ s : State, ∃ c : Byte, WairiqTaken s w 0x04 ∧ CarriesOut s w ∧ w.body = [c] ∧ 1 ≤ c.toNat ∧ c.toNat ≤ 64)
    ∧ (∃ w : Wairiq, ∃ s : State, ∃ c : Byte, WairiqTaken s w 0x04 ∧ CarriesOut s w ∧ w.body = [c] ∧ (c.toNat = 0 ∨ 64 < c.toNat))
    ∧ (∃ w : Wairiq, ∃ s : State, ∃ a : Byte, ∃ b : Byte, ∃ c : Byte, WairiqTaken s w 0x05 ∧ CarriesOut s w ∧ w.body = [a, b, c] ∧ (∀ k, (s.island.coolant.get k).critical = false) ∧ a.toNat ≤ 20 ∧ b.toNat ≤ 20 ∧ c.toNat ≤ 20)
    ∧ (∃ w : Wairiq, ∃ s : State, WairiqTaken s w 0x06 ∧ s.island.trayEn = false ∧ w.body = [1, 0, 0] ∧ s.seq.state = .s6 ∧ s.seq.step = none)
    ∧ (∃ w : Wairiq, ∃ s : State, ∃ n : LampId, ∃ d : Nat, WairiqTaken s w 0x07 ∧ s.island.trayEn = false ∧ d ≤ 1000 ∧ w.body = [0, BitVec.ofNat 8 n.1] ++ leBytes 2 d)
    ∧ (∃ w : Wairiq, ∃ s : State, WairiqTaken s w 0x0A ∧ s.island.trayEn = false ∧ w.body.length = 5 ∧ bfld w.body 0 1 ≤ 15)
    ∧ (∃ w : Wairiq, ∃ s : State, ∃ n : Fin 2, ∃ thr : Nat, ∃ us : Nat, WairiqTaken s w 0x0B ∧ CarriesOut s w ∧ 30 ≤ thr ∧ thr ≤ 150 ∧ 1 ≤ us ∧ us ≤ 1000 ∧ w.body = [0, BitVec.ofNat 8 n.1, 1, BitVec.ofNat 8 thr] ++ leBytes 2 us) :=
  ⟨⟨wq 1 0 [], (keyed id), by and_intros <;> decide +kernel⟩,
   ⟨wq 2 0 [], (keyed id), wq_taken _ _ _ _ rfl (by decide +kernel), by decide +kernel⟩,
   ⟨wq 3 0 [0xEF, 0, 1], (keyed id), 239, wq_taken _ _ _ _ rfl (by decide +kernel), by decide +kernel⟩,
   ⟨wq 3 0 [0xF0, 0, 1], (keyed id), 240, wq_taken _ _ _ _ rfl (by decide +kernel), by decide +kernel⟩,
   ⟨wq 4 0 [64], (keyed id), 64, wq_taken _ _ _ _ rfl (by decide +kernel), by decide +kernel⟩,
   ⟨wq 4 0 [65], (keyed id), 65, wq_taken _ _ _ _ rfl (by decide +kernel), by decide +kernel⟩,
   ⟨wq 5 0 [20, 0, 1], (keyed id), 20, 0, 1, wq_taken _ _ _ _ rfl (by decide +kernel), by decide +kernel⟩,
   ⟨wq 6 0 [1, 0, 0], (keyed id), wq_taken _ _ _ _ rfl (by decide +kernel), by decide +kernel⟩,
   ⟨wq 7 0 [0, 1, 0xE8, 3], (keyed id), 1, 1000, wq_taken _ _ _ _ rfl (by decide +kernel), by decide +kernel⟩,
   ⟨wq 10 0 [1, 0, 0, 0, 0], (keyed id), wq_taken _ _ _ _ rfl (by decide +kernel), by decide +kernel⟩,
   ⟨wq 11 0 [0, 1, 1, 30, 0xE8, 3], (keyed id), 1, 30, 1000, wq_taken _ _ _ _ rfl (by decide +kernel), by decide +kernel⟩⟩

theorem wit_WairiqServicesAct :
    (∃ w : Wairiq, ∃ s : State, ∃ d : SlotId, WairiqTaken s w 0x08 ∧ bfld w.body 0 1 = 1 ∧ s.island.trayEn = true ∧ wqSlot w = s.island.slot.1 ∧ s.island.role = .primary ∧ s.island.standby = some d ∧ s.island.roleReq = none ∧ s.island.swapAt = none ∧ reached s s.island.noReqUntil = true)
    ∧ (∃ w : Wairiq, ∃ s : State, WairiqTaken s w 0x08 ∧ bfld w.body 0 1 = 2 ∧ s.island.trayEn = false)
    ∧ (∃ w : Wairiq, ∃ s : State, WairiqTaken s w 0x08 ∧ bfld w.body 0 1 = 3 ∧ CarriesOut s w ∧ (s.island.trayEn = true → wqSlot w ≠ 0xFF) ∧ shownState s = .s1)
    ∧ (∃ w : Wairiq, ∃ s : State, WairiqTaken s w 0x08 ∧ bfld w.body 0 1 = 3 ∧ CarriesOut s w ∧ (s.island.trayEn = true → wqSlot w ≠ 0xFF) ∧ shownState s ≠ .s1)
    ∧ (∃ w : Wairiq, ∃ s : State, ∃ d : Fin 6, WairiqTaken s w 0x08 ∧ bfld w.body 0 1 = 4 ∧ CarriesOut s w ∧ bfld w.body 1 1 = d.1 ∧ d.1 < 5)
    ∧ (∃ w : Wairiq, ∃ s : State, ∃ img : FwImage, WairiqTaken s w 0x08 ∧ bfld w.body 0 1 = 5 ∧ CarriesOut s w ∧ s.island.ready = true ∧ s.seq.state = .s1 ∧ s.fw.slotWrite = none ∧ slotImage s 0 2 = some img)
    ∧ (∃ w : Wairiq, ∃ s : State, WairiqTaken s w 0x0C ∧ CarriesOut s w ∧ w.body.length = 48 ∧ s.island.key = none)
    ∧ (∃ w : Wairiq, ∃ s : State, ∃ k, WairiqTaken s w 0x0C ∧ CarriesOut s w ∧ w.body.length = 48 ∧ s.island.key = some k ∧ s.island.keyOpen = false) :=
  ⟨⟨wq 8 3 [1], (keyed fun i => { i with trayEn := true, slot := 3, role := .primary, standby := some 2 }), 2, wq_taken _ _ _ _ rfl (by decide +kernel), by decide +kernel⟩,
   ⟨wq 8 0 [2], (keyed id), wq_taken _ _ _ _ rfl (by decide +kernel), by decide +kernel⟩,
   ⟨wq 8 0 [3], (let s := keyed id; { s with seq := { s.seq with state := .s1 } }), wq_taken _ _ _ _ rfl (by decide +kernel), by decide +kernel⟩,
   ⟨wq 8 0 [3], (keyed id), wq_taken _ _ _ _ rfl (by decide +kernel), by decide +kernel⟩,
   ⟨wq 8 0 [4, 2], (keyed id), 2, wq_taken _ _ _ _ rfl (by decide +kernel), by decide +kernel⟩,
   ⟨wq 8 0 [5], (let s := keyed id; { s with seq := { s.seq with state := .s1 }, flash := { s.flash with die := #v[none, none, some ⟨[], []⟩] } }), ⟨[], []⟩, wq_taken _ _ _ _ rfl (by decide +kernel), by decide +kernel⟩,
   ⟨wq 12 0 (List.replicate 48 1), die, by decide +kernel⟩,
   ⟨wq 12 0 (List.replicate 48 1), (keyed id), 0, wq_taken _ _ _ _ rfl (by decide +kernel), by decide +kernel⟩⟩

theorem wit_DamageIsHandled :
    (∃ x : PatrolHit, ∃ s : State, ready s = true ∧ patrolHere s x = true ∧ x.uncorrectable = false ∧ (∀ e ∈ s.mem.rowErrors, ¬(e.tier = x.tier ∧ e.unit = x.unit ∧ e.bank = x.bank ∧ e.row = x.row)))
    ∧ (∃ x : PatrolHit, ∃ s : State, RecordOk s ∧ ready s = true ∧ patrolHere s x = true ∧ x.uncorrectable = true ∧ x.tier = 1)
    ∧ (∃ x : PatrolHit, ∃ e : EngineId, ∃ s : State, ready s = true ∧ patrolHere s x = true ∧ x.uncorrectable = true ∧ x.tier = 0 ∧ x.unit = e.1 ∧ (s.engines.get 6).life ≠ .laybyFree)
    ∧ (∃ s : State, ready s = true)
    ∧ (∃ n : McId, ∃ s : State, ready s = true ∧ (s.mem.channels.get n).st = .inService)
    ∧ (∃ n : McId, ∃ s : State, ready s = true ∧ (s.mem.channels.get n).st = .inService ∧ (s.mem.channels.get n).badReads.length < 16)
    ∧ (∃ n : McId, ∃ gib : Nat, ∃ mts : Nat, ∃ ranks : Nat, ∃ x16 : Bool, ∃ pass : Bool, ∃ replaced : Bool, ∃ s : State, ready s = true ∧ n.1 < mcCount s.fuses.variant ∧ (s.mem.channels.get n).st = .untrained ∧ table56 s ⟨gib, mts, ranks, x16⟩ = true ∧ pass = true ∧ (replaced = true ∨ (channelEntry s n 0 = false ∧ channelEntry s n 1 = false)))
    ∧ (∃ n : McId, ∃ gib : Nat, ∃ mts : Nat, ∃ ranks : Nat, ∃ x16 : Bool, ∃ pass : Bool, ∃ replaced : Bool, ∃ s : State, ready s = true ∧ n.1 < mcCount s.fuses.variant ∧ (s.mem.channels.get n).st = .untrained ∧ (table56 s ⟨gib, mts, ranks, x16⟩ = false ∨ pass = false) ∧ replaced = false ∧ channelEntry s n 0 = false ∧ channelEntry s n 1 = false ∧ channelEntry s n 2 = false ∧ s.island.standing.length < 256)
    ∧ (∃ n : McId, ∃ replaced : Bool, ∃ s : State, ready s = true ∧ n.1 < mcCount s.fuses.variant ∧ (s.mem.channels.get n).st = .untrained ∧ (channelEntry s n 0 = true ∨ channelEntry s n 1 = true) ∧ replaced = false)
    ∧ (∃ n : McId, ∃ s : State, ready s = true ∧ (s.mem.channels.get n).st = .inService ∧ passed s (s.mem.channels.get n).ecsAt 2123366400000 = true)
    ∧ (∃ s : State, ∃ b : Nat, s.mem.wf ∧ ready s = true ∧ s.mem.fwArea = none ∧ 0 < chanAllocatable s 0 ∧ 2048 ≤ freeChan s 0 ∧ placeOn s 2 0 2048 = some b) :=
  ⟨⟨⟨1, 0, 0, 0, 0, 3, 0, false, false⟩, die, by and_intros <;> first | exact of_all _ (by decide +kernel) | decide +kernel⟩,
   ⟨⟨1, 0, 0, 0, 0, 3, 64, true, false⟩, die, by decide +kernel⟩,
   ⟨⟨0, 0, 0, 0, 0, 3, t0Base, true, false⟩, 0, { die with engines := Vector.replicate 7 {} }, by decide +kernel⟩,
   ⟨atTick 245760001 die, by decide +kernel⟩,
   ⟨1, die, by decide +kernel⟩,
   ⟨1, die, by decide +kernel⟩,
   ⟨1, 8, 6400, 1, true, true, false, { die with mem := { die.mem with channels := Vector.replicate 4 {} } }, by decide +kernel⟩,
   ⟨1, 8, 6400, 1, true, false, false, { die with mem := { die.mem with channels := Vector.replicate 4 {} } }, by decide +kernel⟩,
   ⟨1, false, { die with mem := { die.mem with channels := Vector.replicate 4 {} }, island := { die.island with standing := [⟨0, 0, 0x0705, 1, 2, 1⟩] } }, by decide +kernel⟩,
   ⟨1, atTick 2123366400000 die, by decide +kernel⟩,
   ⟨{ die with mem := { die.mem with fwArea := none } }, t2Base, by decide +kernel⟩⟩

theorem wit_ImagesTriedAndReflashed :
    (∃ s : State, ∃ r : Tick, ready s = true ∧ s.fw.readyAt = some r ∧ passed s r 1474560000 = true ∧ (s.flash.select.get 0).trial = true ∧ s.fw.image = (s.flash.select.get 0).next.1)
    ∧ (∃ s : State, RecordOk s ∧ s.fuses.ok = true ∧ s.fw.fault ≠ 3 ∧ s.seq.state = .s5 ∧ ready s = false ∧ passed s s.fw.s5At 12288000 = true ∧ (s.flash.select.get 0).trial = true ∧ slotFailed s 0 (s.flash.select.get 0).next = false)
    ∧ (∃ s : State, RecordOk s ∧ s.fuses.ok = true ∧ s.fw.fault ≠ 3 ∧ s.fw.state = .halted ∧ (s.flash.select.get 0).trial = true ∧ s.fw.image = (s.flash.select.get 0).next.1 ∧ slotFailed s 0 (s.flash.select.get 0).next = false)
    ∧ (∃ s : State, RecordOk s ∧ s.island.up = true ∧ (s.flash.select.get 1).trial = true ∧ s.flash.islandRunning = (s.flash.select.get 1).next.1 ∧ slotFailed s 1 (s.flash.select.get 1).next = false ∧ passed s s.island.statKick 245760000 = true)
    ∧ (∃ d : Fin 2, ∃ s : State, ready s = true ∧ s.fw.slotWrite = none ∧ s.flash.verdict.get (slotNo d) = .fail ∧ s.fw.image ≠ 2)
    ∧ (∃ s : State, ∃ tg : Fin 2, ∃ d : Fin 2, ∃ img : FwImage, ∃ m : MailCmd, s.fw.slotWrite = some ⟨tg, [d], img, some m, false⟩)
    ∧ (∃ tg : Fin 2, ∃ s : State, islandRuns s = true ∧ passed s (s.island.goldenAt.get tg) 2123366400000 = true) :=
  ⟨⟨atTick 1474560000 (let s := die; { s with flash := { s.flash with select := Vector.replicate 2 ⟨1, true⟩ }, fw := { s.fw with image := 1 } }), 0, by decide +kernel⟩,
   ⟨atTick 12288000 { die with fw := { die.fw with state := .loading }, seq := { die.seq with state := .s5 }, flash := { die.flash with select := Vector.replicate 2 ⟨1, true⟩ } }, by decide +kernel⟩,
   ⟨(let s := die; { s with flash := { s.flash with select := Vector.replicate 2 ⟨1, true⟩ }, fw := { s.fw with state := .halted, image := 1 } }), by decide +kernel⟩,
   ⟨atTick 245760000 (let s := die; { s with flash := { s.flash with select := Vector.replicate 2 ⟨1, true⟩, islandRunning := 1 } }), by decide +kernel⟩,
   ⟨1, (let s := die; { s with flash := { s.flash with verdict := Vector.replicate 3 .fail } }), by decide +kernel⟩,
   ⟨(let s := die; { s with fw := { s.fw with slotWrite := some ⟨0, [1], ⟨[], []⟩, some (mail 0x51 0), false⟩ } }), 0, 1, ⟨[], []⟩, mail 0x51 0, by decide +kernel⟩,
   ⟨1, atTick 2123366400000 die, by decide +kernel⟩⟩

theorem wit_StartUpReachesReady :
    (∃ s : State, s.seq.aonRst = false ∧ s.island.up = false)
    ∧ (∃ s : State, islandRuns s = true ∧ s.island.ready = false)
    ∧ (∃ s : State, s.seq.state = .s5 ∧ s.fw.state = .bootstrap ∧ s.fw.stage = stageFuses ∧ s.fuses.ok = true)
    ∧ (∃ s : State, s.seq.state = .s5 ∧ s.fw.state = .bootstrap ∧ s.fw.stage = stageFuses ∧ s.fuses.ok = false)
    ∧ (∃ s : State, ∃ i : Fin 3, ∃ rest : List (Fin 3), s.fw.state = .loading ∧ s.fw.stage = stageLoad ∧ candidates s = i :: rest)
    ∧ (∃ s : State, s.fw.state = .loading ∧ s.fw.stage = stageLoad ∧ candidates s = [])
    ∧ (∃ s : State, s.fw.state = .loading ∧ s.fw.stage = stageInit ∧ s.power.bootTrimmed = true ∧ s.seq.request ≠ some false)
    ∧ (∃ s : State, ready s = true ∧ (∀ n : Fin 4, n.1 < mcCount s.fuses.variant → (s.mem.channels.get n).st ≠ .untrained) ∧ ((s.engines.get 6).life = .laybyFree → s.fw.laybyTested = true) ∧ s.fw.censusClosed = true ∧ s.fw.rejoined = false ∧ s.fw.routeInstalled = true ∧ (s.time.state = .aligned ∨ s.time.state = .standalone)) :=
  ⟨⟨(let s := die; { s with island := {} }), by decide +kernel⟩,
   ⟨(let s := die; { s with island := { s.island with ready := false } }), by decide +kernel⟩,
   ⟨(let s := die; { s with seq := { s.seq with state := .s5 }, fw := { s.fw with state := .bootstrap, stage := stageFuses } }), by decide +kernel⟩,
   ⟨(let s := die; { s with seq := { s.seq with state := .s5 }, fw := { s.fw with state := .bootstrap, stage := stageFuses }, fuses := { s.fuses with ok := false } }), by decide +kernel⟩,
   ⟨(let s := die; { s with fw := { s.fw with state := .loading, stage := stageLoad } }), 0, [1, 2], by decide +kernel⟩,
   ⟨(let s := die; { s with fw := { s.fw with state := .loading, stage := stageLoad }, flash := { s.flash with verdict := Vector.replicate 3 .fail } }), by decide +kernel⟩,
   ⟨(let s := die; { s with seq := { s.seq with state := .s5 }, fw := { s.fw with state := .loading, stage := stageInit }, power := { s.power with bootTrimmed := true } }), by decide +kernel⟩,
   ⟨(let s := die; { s with fw := { s.fw with laybyTested := true }, time := { s.time with state := .aligned } }), by decide +kernel⟩⟩

theorem wit_CensusClosesAndRejoins :
    (∃ p : PortId, ∃ d : FabId, ∃ s : State, ready s = true ∧ (s.fabric.ports.get p).st = .active ∧ d ≠ s.fabric.id ∧ s.fw.censusClosed = false ∧ d ∉ s.fabric.census)
    ∧ (∃ s : State, ∃ r : Tick, ready s = true ∧ s.fw.censusClosed = false ∧ (∀ p, hasPort s.fuses.variant p.1 = true → portSettled s p = true) ∧ passed s s.fabric.censusAt 2457600 = true ∧ s.fw.readyAt = some r ∧ passed s r 2457600 = true ∧ s.mem.lent = [] ∧ s.mem.moves = [] ∧ s.fabric.outstanding = [])
    ∧ (∃ p : PortId, ∃ n : Vector Nat 4, ∃ wr : Vector Bool 4, ∃ s : State, ready s = true ∧ (s.fabric.ports.get p).st = .active ∧ n = s.fabric.sizes ∧ wr = s.fabric.wraps ∧ s.fw.censusClosed = false ∧ s.mem.lent = [] ∧ s.mem.moves = [] ∧ s.fabric.outstanding = []) :=
  ⟨⟨0, 0x2000, (let s := ringDie link; { s with fw := { s.fw with censusClosed := false } , fabric := { s.fabric with census := [0] } }), by decide +kernel⟩,
   ⟨atTick 2457600 (let s := ringDie link; { s with fw := { s.fw with censusClosed := false } , fabric := { s.fabric with census := [0] } }), 0, by decide +kernel⟩,
   ⟨0, #v[4, 1, 1, 1], #v[true, false, false, false], (let s := ringDie link; { s with fw := { s.fw with censusClosed := false } , fabric := { s.fabric with census := [0] } }), by decide +kernel⟩⟩

theorem wit_MemoryReadsBackWrites :
    (∃ m : List Host.Cell, cellsOk m = true)
    ∧ (∃ m : List Host.Cell, ∃ a : Nat, ∃ x, cellsOk m = true ∧ x ≠ a)
    ∧ (∃ m : List Host.Cell, cellsOk m = true)
    ∧ (∃ m : List Host.Cell, ∃ a : Nat, ∃ l : List Byte, ∃ x, cellsOk m = true ∧ (x < a ∨ a + l.length ≤ x))
    ∧ (∃ m : List Host.Cell, cellsOk m = true) :=
  ⟨⟨[(5, 1)], by decide +kernel⟩,
   ⟨[(5, 1)], 5, 6, by decide +kernel⟩,
   ⟨[(5, 1)], by decide +kernel⟩,
   ⟨[(5, 1)], 4, [0, 7], 6, by decide +kernel⟩,
   ⟨[(5, 1)], by decide +kernel⟩⟩

theorem wit_StepTakesOneCommand :
    (∃ s : State, ∃ t : State, ∃ c : Instr, ∃ rest : List Instr, s.pending = c :: rest ∧ step s = .next t) :=
  ⟨{ die with pending := [.mscTick] }, stepped { die with pending := [.mscTick] }, .mscTick, [], by decide +kernel, rfl⟩

theorem wit_MemoryFormKept :
    (∃ s : State, ∃ t : State, s.mem.wf ∧ step s = .next t) :=
  ⟨{ ({ die with mem := { die.mem with cells := [(5, 1)] } }) with pending := [.mscTick] }, stepped { ({ die with mem := { die.mem with cells := [(5, 1)] } }) with pending := [.mscTick] }, by decide +kernel, rfl⟩

theorem wit_HostAndRecordKept :
    (∃ s : State, ∃ t : State, HostOk s ∧ RecordOk s ∧ step s = .next t) :=
  ⟨{ die with pending := [.mscTick] }, stepped { die with pending := [.mscTick] }, by decide +kernel, by decide +kernel, rfl⟩

end

end Sys2Proof.Tests
end

section
/-! PROOFS. The host interface's registers: what an aligned and a misaligned access of BAR0 reaches, which messages an unmasked cause or
vector sends, and the statement O5 assembled from them. -/

namespace Sys2Proof.Proofs

open Sys2Proof Sys2Proof.Machine Sys2Proof.Safety Sys2Proof.Laws

/-! ## One bit of a word -/

/-- The bits of a word with the single bit `k` set. -/
theorem getLsbD_one_shiftLeft {k i : Nat} (hk : k < 32) : (1#32 <<< k).getLsbD i = decide (i = k) := by
  rw [← BitVec.twoPow_eq, BitVec.getLsbD_twoPow]
  simp [hk, eq_comm]

/-- A list without repetition, filtered by a test that one of its elements alone passes. -/
theorem filter_eq_singleton {α : Type} [DecidableEq α] {l : List α} {a : α} {p : α → Bool} (hl : l.Nodup) (ha : a ∈ l)
    (hp : ∀ b ∈ l, p b = decide (b = a)) : l.filter p = [a] :=
  calc l.filter p = l.filter (· == a) := List.filter_congr hp
    _ = [a] := by rw [List.filter_beq, List.count_eq_one_of_mem hl ha, List.replicate_one]

/-! ## Messages (R555 to R559) -/

/-- With neither the vector nor the function masked, the message leaves the die. -/
theorem sendMsix_of_unmasked {s : State} (i : Fin 32) (hfn : s.host.fnMask = false) (hvec : (s.host.msix.get i).mask = false) :
    sendMsix s i.1 = emit s (.msix i.1) := by
  have hi : (⟨i.1 % 32, Nat.mod_lt _ (by decide)⟩ : Fin 32) = i := Fin.ext (Nat.mod_eq_of_lt i.2)
  simp [sendMsix, emit, hi, hfn, hvec]

/-- A write of IRQ_MASK that frees the single set cause `b` stores the mask and sends that cause's message. -/
theorem writeMask_of_frees_one {s : State} {v : W32} {b : Nat} (hb : b < 32)
    (hfreed : s.host.irqMask &&& ~~~(v &&& 0xFFFF003F) &&& s.host.irqCause = 1#32 <<< b) :
    writeMask s v = sendMsix { s with host := { s.host with irqMask := v &&& 0xFFFF003F } } (causeVector s b) := by
  have hone : ((List.range 32).filter fun i => (1#32 <<< b).getLsbD i) = [b] :=
    filter_eq_singleton List.nodup_range (List.mem_range.2 hb) fun _ _ => getLsbD_one_shiftLeft hb
  simp only [writeMask, hfreed, hone]
  rfl

/-- With the single pending bit `k` and its vector unmasked, the pending message is sent and no bit stays pending. -/
theorem sendPending_of_one {s : State} (k : Fin 32) (hfn : s.host.fnMask = false) (hvec : (s.host.msix.get k).mask = false)
    (hpba : s.host.pba = 1#32 <<< k.1) : sendPending s = emit { s with host := { s.host with pba := 0 } } (.msix k.1) := by
  have hone : ((fins 32).filter fun i => s.host.pba.getLsbD i.1 && !(s.host.msix.get i).mask) = [k] := by
    refine filter_eq_singleton (List.nodup_finRange 32) (mem_fins k) fun i _ => ?_
    rw [hpba, getLsbD_one_shiftLeft k.2]
    by_cases hik : i = k
    · simp [hik, hvec]
    · simp [hik, Fin.val_inj]
  have hcleared : s.host.pba &&& ~~~(1#32 <<< k.1) = 0 := by rw [hpba]; exact BitVec.and_not_self _
  rw [sendPending, if_neg (by simp [hfn])]
  simp only [hone, List.foldl_cons, List.foldl_nil, hcleared]
  exact sendMsix_of_unmasked (s := { s with host := { s.host with pba := 0 } }) k hfn hvec

/-- IRQ_DELAY_EXPIRY that is due raises the channel's cause and starts its count again. -/
theorem exec_irqDelayExpiry_of_due {s : State} {ch : ChanId} {t0 : Tick} (hfirst : (s.host.channels.get ch).firstAt = some t0)
    (hdelay : 0 < (s.host.channels.get ch).delay) (hdue : passed s t0 (s.host.channels.get ch).delay = true) :
    exec (.irqDelayExpiry ch) s = .next (raiseIrq (modChan s ch fun c => { c with counted := 0, firstAt := none }) (causeCmp ch.1)) := by
  change execIrqDelayExpiry ch s = _
  simp [execIrqDelayExpiry, hfirst, hdue, hdelay.ne']

/-! ## Accesses of BAR0 (R58 to R61, R520, R521) -/

/-- The size and alignment test of R520 fails where the size is neither 4 nor 8 or the offset is no multiple of it. -/
theorem aligned_eq_false {off size : Nat} (h : (size ≠ 4 ∧ size ≠ 8) ∨ off % size ≠ 0) :
    ((size == 4 || size == 8) && off % size == 0) = false := by
  rcases h with ⟨h4, h8⟩ | hoff
  · simp [h4, h8]
  · simp [hoff]

theorem writeBar_of_misaligned {off size : Nat} (h : (size ≠ 4 ∧ size ≠ 8) ∨ off % size ≠ 0) (s : State) (v : W64) :
    writeBar s off size v = s := by
  simp [writeBar, aligned_eq_false h]

theorem barRead_of_misaligned {off size : Nat} (h : (size ≠ 4 ∧ size ≠ 8) ∨ off % size ≠ 0) (s : State) :
    barRead s off size = 0xFFFFFFFF := by
  simp [barRead, aligned_eq_false h]

/-- No register from 0x3000 up to the MSI-X table is writable: MSC_LO and MSC_HI lie there. -/
theorem writeBar_of_clock {off : Nat} (hlo : 0x3000 ≤ off) (hhi : off < 0x4000) (s : State) (size : Nat) (v : W64) :
    writeBar s off size v = s := by
  unfold writeBar
  split
  · rfl
  · rw [if_neg (by omega), if_neg (by omega), if_neg (by omega), if_neg (by simp; omega), if_neg (by simp; omega), if_neg (by omega)]

/-- An aligned write inside a channel block reaches that channel's register. -/
theorem writeBar_of_chanBlock {o size : Nat} (ho : o < 64) (hsize : size = 4 ∨ size = 8) (hal : o % size = 0) (ch : ChanId) (s : State)
    (v : W64) : writeBar s (0x1000 + 64 * ch.1 + o) size v = writeChanReg s ch o size v := by
  have hch : ch.1 < 16 := ch.2
  have hoff : (0x1000 + 64 * ch.1 + o) % size = 0 := by rcases hsize with rfl | rfl <;> omega
  have hok : ((size == 4 || size == 8) && (0x1000 + 64 * ch.1 + o) % size == 0) = true := by simpa [hoff] using hsize
  have hidx : (⟨(0x1000 + 64 * ch.1 + o - 0x1000) / 64 % 16, Nat.mod_lt _ (by decide)⟩ : ChanId) = ch := Fin.ext (by simp; omega)
  have hreg : (0x1000 + 64 * ch.1 + o - 0x1000) % 64 = o := by omega
  rw [writeBar, hok, if_neg (by decide), if_neg (by omega), if_neg (by omega), if_pos (by omega), hidx, hreg]

/-- A 64-bit write of CMD_BASE of a DISABLED channel stores it (R534). -/
theorem writeChanReg_cmdBase {s : State} {ch : ChanId} (hst : (s.host.channels.get ch).st = .disabled) (v : W64) :
    writeChanReg s ch 0 8 v = modChan s ch fun c => { c with cmdBase := v } := by
  simp [writeChanReg, setReg, hst]

/-- MSC_HI read as 32 bits returns the capture, whatever the MSC is now (R60). -/
theorem barRead_mscHi (s : State) : barRead s 0x3004 4 = s.time.hiSnap.toNat := rfl

/-- A 64-bit read of MSC_LO and MSC_HI takes the whole MSC at one instant (R61). -/
theorem barRead_msc (s : State) : barRead s 0x3000 8 = s.time.msc % 2 ^ 64 := by
  change s.time.msc % 2 ^ 64 % 2 ^ 64 = _
  exact Nat.mod_mod _ _

/-! ## The commands while the link is up -/

section
variable {s : State} (hlink : s.host.linkUp = true)
include hlink

theorem exec_irqCauseWrite_of_linkUp (v : W32) : exec (.irqCauseWrite v) s = .next (writeCause s v) :=
  congrArg Host.Outcome.next (if_pos hlink)

theorem exec_irqMaskWrite_of_linkUp (v : W32) : exec (.irqMaskWrite v) s = .next (writeMask s v) :=
  congrArg Host.Outcome.next (if_pos hlink)

theorem exec_registerWrite_of_linkUp (off size : Nat) (v : W64) : exec (.registerWrite off size v) s = .next (writeBar s off size v) :=
  congrArg Host.Outcome.next (if_pos hlink)

theorem exec_msixVectorUnmask_of_linkUp (i : Fin 32) : exec (.msixVectorUnmask (some i)) s
    = .next (sendPending { s with host := { s.host with msix := vmod s.host.msix i fun e => { e with mask := false } } }) := by
  change execMsixVectorUnmask (some i) s = _
  simp [execMsixVectorUnmask, hlink]

theorem exec_mscLoRead_of_linkUp : exec .mscLoRead s
    = .next (emit { s with time := { s.time with hiSnap := BitVec.ofNat 32 (s.time.msc >>> 32) } }
        (.regRead (BitVec.ofNat 64 (s.time.msc % 2 ^ 32)))) := by
  change execMscLoRead s = _
  simp [execMscLoRead, hlink]

/-- IRQ_MASK_WRITE of 0 where cause 2 alone is set and masked: its message leaves by vector 0. -/
theorem exec_irqMaskWrite_frees_event (hmask : s.host.irqMask = 4) (hcause : s.host.irqCause = 4) (hfn : s.host.fnMask = false)
    (hvec : (s.host.msix.get 0).mask = false) :
    exec (.irqMaskWrite 0) s = .next { s with host := { s.host with irqMask := 0 }, out := s.out ++ [.msix 0] } := by
  have hfreed : s.host.irqMask &&& ~~~((0 : W32) &&& 0xFFFF003F) &&& s.host.irqCause = 1#32 <<< causeEvent := by
    rw [hmask, hcause]; decide
  rw [exec_irqMaskWrite_of_linkUp hlink, writeMask_of_frees_one (by decide) hfreed]
  exact congrArg Host.Outcome.next (sendMsix_of_unmasked (s := { s with host := { s.host with irqMask := 0 } }) 0 hfn hvec)

/-- MSIX_VECTOR_UNMASK of the one vector with a pending message sends it and clears its pending bit. -/
theorem exec_msixVectorUnmask_sends_pending (i : Fin 32) (hfn : s.host.fnMask = false) (hpba : s.host.pba = 1#32 <<< i.1) :
    exec (.msixVectorUnmask (some i)) s = .next (emit { s with host := { s.host with
      msix := vmod s.host.msix i fun e => { e with mask := false }, pba := 0 } } (.msix i.1)) := by
  rw [exec_msixVectorUnmask_of_linkUp hlink]
  exact congrArg Host.Outcome.next (sendPending_of_one i hfn (by simp) hpba)

/-- MSC_LO_READ answers the low half of the MSC and captures the high half (R59, R60). -/
theorem exec_mscLoRead_captures : ∃ t, exec .mscLoRead s = .next t
    ∧ t = { s with time := { s.time with hiSnap := t.time.hiSnap }, out := t.out }
    ∧ t.out = s.out ++ [.regRead (BitVec.ofNat 64 (s.time.msc % 2 ^ 32))] ∧ barRead t 0x3004 4 = s.time.msc / 2 ^ 32 % 2 ^ 32 := by
  refine ⟨_, exec_mscLoRead_of_linkUp hlink, rfl, rfl, ?_⟩
  rw [barRead_mscHi, emit_time, BitVec.toNat_ofNat, Nat.shiftRight_eq_div_pow]

end

/-- Settles O5: each clause is the law of its command, at the registers and the vectors the statement names. -/
theorem interruptRegistersAct : Obligations.InterruptRegistersAct := by
  refine ⟨fun v s hlink => exec_irqCauseWrite_of_linkUp hlink v, fun s hlink => exec_irqMaskWrite_frees_event hlink, ?unmask,
    fun ch s t0 => exec_irqDelayExpiry_of_due, fun s => exec_mscLoRead_captures, barRead_msc, ?misaligned, ?cmdBase, ?clock⟩
  case unmask =>
    intro s hlink hfn _ hpba
    exact ⟨_, exec_msixVectorUnmask_sends_pending hlink 3 hfn hpba, rfl, rfl, rfl, by simp⟩
  case misaligned =>
    intro off size v s hlink hbad
    rw [exec_registerWrite_of_linkUp hlink, writeBar_of_misaligned hbad, barRead_of_misaligned hbad]
    exact ⟨rfl, rfl⟩
  case cmdBase =>
    intro ch v s hlink hst
    have hblock := writeBar_of_chanBlock (o := 0) (size := 8) (by decide) (.inr rfl) rfl ch s v
    rw [exec_registerWrite_of_linkUp hlink]
    exact congrArg Host.Outcome.next (hblock.trans (writeChanReg_cmdBase hst v))
  case clock =>
    intro v s hlink
    have hignored (off size : Nat) (hlo : 0x3000 ≤ off) (hhi : off < 0x4000) : exec (.registerWrite off size v) s = .next s := by
      rw [exec_registerWrite_of_linkUp hlink, writeBar_of_clock hlo hhi]
    exact ⟨hignored _ _ (by decide) (by decide), hignored _ _ (by decide) (by decide), hignored _ _ (by decide) (by decide)⟩

end Sys2Proof.Proofs
end

section
/-! PROOFS. The sequencer: what an internal reset leaves, which step of the descent or the ascent begins next and what it keeps, and the
statement O40 assembled from them. -/

namespace Sys2Proof.Proofs

open Sys2Proof Sys2Proof.Machine Sys2Proof.Safety Sys2Proof.Laws

/-! ## What an internal reset leaves (Table 11-8 step 2, R884) -/

/-- A cut slot write shows in the flash and in the firmware's record of it, and nowhere else. -/
theorem cutSlotWrite_only (s : State) : cutSlotWrite s = { s with flash := (cutSlotWrite s).flash, fw := (cutSlotWrite s).fw } := by
  unfold cutSlotWrite
  split <;> rfl

@[simp] theorem cutSlotWrite_seq (s : State) : (cutSlotWrite s).seq = s.seq := (congrArg State.seq (cutSlotWrite_only s)).trans rfl
@[simp] theorem cutSlotWrite_mem (s : State) : (cutSlotWrite s).mem = s.mem := (congrArg State.mem (cutSlotWrite_only s)).trans rfl
@[simp] theorem cutSlotWrite_island (s : State) : (cutSlotWrite s).island = s.island := (congrArg State.island (cutSlotWrite_only s)).trans rfl
@[simp] theorem cutSlotWrite_time (s : State) : (cutSlotWrite s).time = s.time := (congrArg State.time (cutSlotWrite_only s)).trans rfl

/-- The time in S6 is counted up to the reset that ends it. -/
def s6Counted (s : State) : State :=
  if s.seq.state == .s6 then { s with seq := { s.seq with s6Ticks := s.seq.s6Ticks + elapsed s (s.fw.readyAt.getD (now s)) } } else s

theorem s6Counted_only (s : State) : ∃ n, s6Counted s = { s with seq := { s.seq with s6Ticks := n } } := by
  unfold s6Counted
  split <;> exact ⟨_, rfl⟩

/-- Of the sequencer, internal reset changes its own line, the state, the step under way and the time counted in S6. -/
theorem assertReset_seq (s : State) :
    ∃ n, (assertReset s).seq = { s.seq with s6Ticks := n, internalReset := true, state := .s4, step := none } := by
  obtain ⟨n, hn⟩ := s6Counted_only s
  have hseq : (assertReset s).seq = { (cutSlotWrite (s6Counted s)).seq with internalReset := true, state := .s4, step := none } := rfl
  rw [cutSlotWrite_seq, hn] at hseq
  exact ⟨n, hseq⟩

@[simp] theorem assertReset_island (s : State) : (assertReset s).island = s.island := by
  obtain ⟨n, hn⟩ := s6Counted_only s
  have hisland : (assertReset s).island = (cutSlotWrite (s6Counted s)).island := rfl
  rw [hisland, cutSlotWrite_island, hn]

@[simp] theorem assertReset_cells (s : State) : (assertReset s).mem.cells = s.mem.cells := by
  obtain ⟨n, hn⟩ := s6Counted_only s
  have hcells : (assertReset s).mem.cells = (cutSlotWrite (s6Counted s)).mem.cells := rfl
  rw [hcells, cutSlotWrite_mem, hn]

@[simp] theorem assertReset_now (s : State) : now (assertReset s) = now s := by
  obtain ⟨n, hn⟩ := s6Counted_only s
  have hnow : now (assertReset s) = (cutSlotWrite (s6Counted s)).time.msc := rfl
  rw [hnow, cutSlotWrite_time, hn]
  rfl

@[simp] theorem assertReset_streams (s : State) : (assertReset s).streams = [] := rfl
@[simp] theorem assertReset_fwState (s : State) : (assertReset s).fw.state = .bootstrap := rfl

/-! ## The descent (Table 11-8, R676, R677) -/

/-- The rails of step `k` of the descent are switched off. -/
def railsOff (k : Nat) (q : Seqr) : Seqr :=
  match k with
  | 3 => { q with vddqm := { q.vddqm with en := false } }
  | 4 => { q with vlnk := { q.vlnk with en := false }, vddqmx := { q.vddqmx with en := false } }
  | 5 => { q with vlog := { q.vlog with en := false } }
  | 6 => { q with vmem := { q.vmem with en := false } }
  | _ => q

/-- Step `k` of the descent begins. -/
def downStep (s : State) (k : Nat) : State := modSeq s fun q => { railsOff k q with step := some ⟨false, k, now s⟩ }

/-- From any step on, a descent begins a step or, with every rail off, reaches S1. -/
theorem descendFrom_cases (s : State) (n : Nat) : descendFrom s n = reachS1 s ∨ ∃ k, descendFrom s n = downStep s k := by
  unfold descendFrom
  simp only
  split
  · exact .inr ⟨3, rfl⟩
  · split
    · exact .inr ⟨4, rfl⟩
    · split
      · exact .inr ⟨5, rfl⟩
      · split
        · exact .inr ⟨6, rfl⟩
        · exact .inl rfl

@[simp] theorem downStep_mem (s : State) (k : Nat) : (downStep s k).mem = s.mem := rfl

/-- With VDDQ_M on, a descent from step 3 begins that step. -/
theorem descendFrom_of_vddqm {s : State} (h : s.seq.vddqm.en = true) : descendFrom s 3 = downStep s 3 := by
  simp [descendFrom, h, downStep, railsOff]

/-- Nothing follows step 6 of the descent but S1. -/
theorem descendFrom_last (s : State) : descendFrom s 7 = reachS1 s := by
  simp [descendFrom]

/-- The step that follows a step whose rail has gone off: the first later one whose rail is on, VMEM's being the last. -/
theorem descendFrom_downDone {s : State} {n : Nat} (hn : n ∈ [3, 4, 5]) (hmem : s.seq.vmem.en = true) :
    descendFrom (modSeq s fun q => downDone q n) (n + 1) = downStep (modSeq s fun q => downDone q n)
      (if n = 3 ∧ (s.seq.vlnk.en = true ∨ s.seq.vddqmx.en = true) then 4 else if n ≤ 4 ∧ s.seq.vlog.en = true then 5 else 6) := by
  simp only [List.mem_cons, List.not_mem_nil, or_false] at hn
  rcases hn with rfl | rfl | rfl
  · by_cases hlnk : s.seq.vlnk.en = true ∨ s.seq.vddqmx.en = true
    · simp [descendFrom, modSeq, downDone, downStep, railsOff, hlnk]
    · by_cases hlog : s.seq.vlog.en = true <;> simp [descendFrom, modSeq, downDone, downStep, railsOff, hlnk, hlog, hmem]
  · by_cases hlog : s.seq.vlog.en = true <;> simp [descendFrom, modSeq, downDone, downStep, railsOff, hlog, hmem]
  · simp [descendFrom, modSeq, downDone, downStep, railsOff, hmem]

theorem railsOff_keeps (k : Nat) (q : Seqr) : (railsOff k q).internalReset = q.internalReset ∧ (railsOff k q).faulted = q.faulted
    ∧ (railsOff k q).retried = q.retried ∧ (railsOff k q).request = q.request
    ∧ ∀ d, (railOf (railsOff k q) d).map Rail.good = (railOf q d).map Rail.good := by
  unfold railsOff
  split <;> exact ⟨rfl, rfl, rfl, rfl, fun d => by cases d <;> rfl⟩

/-- What every descent keeps: the fault record, the fault flags, the reset line, every power-good, and the request unless COLD asks for
the next ascent. -/
theorem descendFrom_keeps (s : State) (n : Nat) : (descendFrom s n).island.history = s.island.history
    ∧ (descendFrom s n).seq.internalReset = s.seq.internalReset ∧ (descendFrom s n).seq.faulted = s.seq.faulted
    ∧ (descendFrom s n).seq.retried = s.seq.retried ∧ (s.seq.cold = false → (descendFrom s n).seq.request = s.seq.request)
    ∧ ∀ d, (railOf (descendFrom s n).seq d).map Rail.good = (railOf s.seq d).map Rail.good := by
  rcases descendFrom_cases s n with h | ⟨k, h⟩ <;> rw [h]
  · exact ⟨rfl, rfl, rfl, rfl, fun hcold => by simp [reachS1, modSeq, loseMemory, hcold], fun d => by cases d <;> rfl⟩
  · obtain ⟨hreset, hfault, hretried, hrequest, hgood⟩ := railsOff_keeps k s.seq
    exact ⟨rfl, hreset, hfault, hretried, fun _ => hrequest, fun d => by rw [← hgood d]; cases d <;> rfl⟩

/-- The descent after quiescence, VDDQ_M being on: internal reset is asserted and VDDQ_M goes first. -/
theorem descendReset_of_vddqm {s : State} (h : s.seq.vddqm.en = true) : descendReset s = downStep (assertReset s) 3 :=
  descendFrom_of_vddqm (by obtain ⟨n, hseq⟩ := assertReset_seq s; rw [hseq]; exact h)

/-- A descent by internal reset keeps the history and every power-good. -/
theorem descendReset_keeps (s : State) : (descendReset s).island.history = s.island.history
    ∧ (descendReset s).seq.internalReset = true
    ∧ ∀ d, (railOf (descendReset s).seq d).map Rail.good = (railOf s.seq d).map Rail.good := by
  obtain ⟨n, hseq⟩ := assertReset_seq s
  obtain ⟨hhistory, hreset, -, -, -, hgood⟩ := descendFrom_keeps (assertReset s) 3
  rw [assertReset_island] at hhistory
  rw [hseq] at hreset hgood
  exact ⟨hhistory, hreset, fun d => (hgood d).trans (by cases d <;> rfl)⟩

/-! ## A descent in hardware (R687) -/

/-- A descent in hardware keeps the history and every power-good, and from S5 or S6 it asserts internal reset. -/
theorem hardDescent_keeps (s : State) : (hardDescent s).island.history = s.island.history
    ∧ (∀ d, (railOf (hardDescent s).seq d).map Rail.good = (railOf s.seq d).map Rail.good)
    ∧ ((s.seq.state = .s5 ∨ s.seq.state = .s6) → (hardDescent s).seq.internalReset = true) := by
  unfold hardDescent
  simp only
  split
  · obtain ⟨hhistory, hreset, hgood⟩ := descendReset_keeps (modSeq s _)
    exact ⟨hhistory, fun d => (hgood d).trans (by cases d <;> rfl), fun _ => hreset⟩
  · rename_i hstate
    obtain ⟨hhistory, -, -, -, -, hgood⟩ := descendFrom_keeps (cutSlotWrite (modSeq s _)) 3
    rw [cutSlotWrite_island] at hhistory
    rw [cutSlotWrite_seq] at hgood
    exact ⟨hhistory, fun d => (hgood d).trans (by cases d <;> rfl), fun h => absurd h (by simpa [modSeq] using hstate)⟩

/-- A rail's power-good falls, and no other. -/
theorem railOf_railBad {q : Seqr} {d : Domain} {r : Rail} (h : railOf q d = some r) :
    (railOf (railBad q d) d).map Rail.good = some false := by
  cases d with
  | vaon => cases h
  | vlog | vmem | vlnk | vddqm | vddqmx => rfl

@[simp] theorem railBad_state (q : Seqr) (d : Domain) : (railBad q d).state = q.state := by cases d <;> rfl

/-- The record of a sequence fault stands in the history. -/
theorem recordSeqFault_mem {s : State} (h : RecordOk s) (dom : Nat) : ∃ x ∈ (recordSeqFault s dom).island.history, x.code = 0x0708 :=
  ⟨_, faultHistory_mem h .., rfl⟩

/-! ## The ascent (Table 11-7, R675, R678) -/

@[simp] theorem ascend_step (s : State) (n : Nat) : (ascend s n).seq.step = some ⟨true, n, now s⟩ := by
  unfold ascend
  split_ifs <;> rfl

@[simp] theorem ascend_state (s : State) (n : Nat) : (ascend s n).seq.state = s.seq.state := by
  unfold ascend
  split_ifs <;> rfl

@[simp] theorem ascend_mem (s : State) (n : Nat) : (ascend s n).mem = s.mem := by
  unfold ascend
  split_ifs <;> rfl

@[simp] theorem ascend_island (s : State) (n : Nat) : (ascend s n).island = s.island := by
  unfold ascend
  split_ifs <;> rfl

/-- The ascent's first step takes the request with it and raises VMEM's enable. -/
def ascentBegun (s : State) : State :=
  modSeq s fun q => { q with request := none, vmem := { q.vmem with en := true }, step := some ⟨true, 1, now s⟩ }

/-- An on request whose moment has come, outside a tray or of an admitted die, starts the ascent. -/
theorem tryAscend_of_allowed {s : State} (hstate : s.seq.state = .s1) (hstep : s.seq.step = none) (hreq : s.seq.request = some true)
    (hready : s.island.ready = true) (hshut : s.seq.shut = false) (hleak : s.island.leakLatch = false)
    (hplace : s.island.trayEn = false ∨ s.island.admitted = true) (hhold : ∀ x, s.seq.s1At = some x → passed s x 245760 = true) :
    tryAscend s = ascentBegun s := by
  have hadmit : admitAlone s = s := by rcases hplace with h | h <;> simp [admitAlone, h]
  have hover : holdOver s = true := by
    unfold holdOver
    split
    · exact hhold _ ‹_›
    · rfl
  have hmay : mayAscend s = holdOver s := by
    rcases hplace with h | h <;> simp [mayAscend, hstate, hstep, hreq, hready, hshut, hleak, h] <;> rfl
  simp only [tryAscend, hadmit, hmay, hover]
  rfl

/-- With no off request latched, and SYS_RST_N high at the last rail, a finished step of the ascent is followed by the next. -/
theorem afterUp_of_on {s : State} {n : Nat} (hreq : s.seq.request ≠ some false) (hsys : n ≠ 6 ∨ s.seq.sysRst = false) :
    afterUp s n = ascend s (n + 1) := by
  rcases hsys with h | h <;> simp [afterUp, hreq, h]

/-- The end of a rail step of the ascent leaves the request and the reset pin as they were. -/
theorem upDone_keeps (q : Seqr) (n : Nat) : (upDone q n).request = q.request ∧ (upDone q n).sysRst = q.sysRst := by
  unfold upDone
  split_ifs <;> exact ⟨rfl, rfl⟩

theorem upDone_state {n : Nat} (hn : n ∈ [1, 3, 5, 6]) (q : Seqr) :
    (upDone q n).state = (if n = 1 then .s2 else if n = 3 then .s3 else if n = 6 then .s4 else q.state) := by
  simp only [List.mem_cons, List.not_mem_nil, or_false] at hn
  rcases hn with rfl | rfl | rfl | rfl <;> rfl

theorem railStep_eq_true {n : Nat} (hn : n ∈ [1, 3, 5, 6]) : railStep n = true := by
  simpa [railStep, or_assoc] using hn

/-! ## The requests and the ends of steps -/

/-- Under the shut or the leak latch an on request is logged and changes nothing of the sequencer. -/
theorem requestOn_of_latched {s : State} (haon : s.seq.aonRst = false) (h : s.seq.shut = true ∨ s.island.leakLatch = true) :
    requestOn s = logUncoded s 0xFF := by
  simp [requestOn, haon, h]

/-- An on request in S1 is noted with its tick, as the first of its ascent. -/
def onNoted (s : State) : State := modSeq s fun q => { q with request := some true, requestAt := now s, retried := false }

/-- An on request in S1, nothing latched and no step running, is noted and begins the ascent where that may begin. -/
theorem requestOn_of_s1 {s : State} (haon : s.seq.aonRst = false) (hshut : s.seq.shut = false) (hleak : s.island.leakLatch = false)
    (hstate : s.seq.state = .s1) (hstep : s.seq.step = none) : requestOn s = tryAscend (onNoted s) := by
  simp [requestOn, onNoted, goingUp, haon, hshut, hleak, hstate, hstep]

theorem exec_powerOnRequest_of_enabled {src : ReqSrc} {s : State} (h : src = .auto → s.seq.pwrAuto = true) :
    exec (.powerOnRequest src) s = .next (requestOn s) := by
  refine congrArg Host.Outcome.next (if_neg ?_)
  simpa using h

theorem exec_ascentHoldoffExpiry_of_unlatched {s : State} (hshut : s.seq.shut = false) (hleak : s.island.leakLatch = false) :
    exec .ascentHoldoffExpiry s = .next (tryAscend s) :=
  congrArg Host.Outcome.next (if_neg (by simp [hshut, hleak]))

/-- An off request in S6, no step running, starts the quiescence. -/
theorem requestOff_of_s6 {s : State} (haon : s.seq.aonRst = false) (hstate : s.seq.state = .s6) (hstep : s.seq.step = none) :
    requestOff s = modSeq s fun q => { q with request := none, requestAt := now s, step := some ⟨false, 1, now s⟩ } := by
  simp [requestOff, beginDescent, goingDown, modSeq, haon, hstate, hstep, now]

/-- COLD is noted with its off request (R678). -/
def offNoted (src : ReqSrc) (s : State) : State := modSeq s fun q => { q with cold := q.cold || src == .cold }

theorem offNoted_of_ne_cold {src : ReqSrc} (h : src ≠ .cold) (s : State) : offNoted src s = s := by
  have hbeq : (src == .cold) = false := by simpa using h
  simp [offNoted, modSeq, hbeq]

theorem exec_powerOffRequest_of_source {src : ReqSrc} (h : src ≠ .auto) (s : State) :
    exec (.powerOffRequest src) s = .next (requestOff (offNoted src s)) := by
  change execPowerOffRequest src s = _
  by_cases hcold : src = .cold
  · simp [execPowerOffRequest, offNoted, hcold]
  · simp [execPowerOffRequest, offNoted_of_ne_cold hcold, h, hcold]

/-- A power-good within its bounds ends a rail step of the ascent (R674, R680). -/
theorem exec_railStepDone_up {s : State} {n : Nat} {b : Tick} (hstep : s.seq.step = some ⟨true, n, b⟩) (hn : n ∈ [1, 3, 5, 6])
    (hmin : passed s b 2458 = true) (hmax : passed s b 245761 = false) :
    exec .railStepDone s = .next (afterUp (modSeq s fun q => upDone q n) n) := by
  change execRailStepDone s = _
  simp [execRailStepDone, hstep, hmin, hmax, railStep_eq_true hn]

/-- A rail that goes off within its bound ends a step of the descent (R680). -/
theorem exec_railStepDone_down {s : State} {n : Nat} {b : Tick} (hstep : s.seq.step = some ⟨false, n, b⟩) (hn : 3 ≤ n)
    (hmax : passed s b 245761 = false) : exec .railStepDone s = .next (descendFrom (modSeq s fun q => downDone q n) (n + 1)) := by
  change execRailStepDone s = _
  simp [execRailStepDone, hstep, hmax, hn]

theorem exec_sequencerHoldExpiry_of_fixed {s : State} {n : Nat} {b : Tick} (hstep : s.seq.step = some ⟨true, n, b⟩) (hn : n = 2 ∨ n = 4)
    (hdue : passed s b 2458 = true) : exec .sequencerHoldExpiry s = .next (afterUp s n) := by
  change execSequencerHoldExpiry s = _
  rcases hn with rfl | rfl <;> simp [execSequencerHoldExpiry, hstep, hdue]

theorem exec_sequencerHoldExpiry_of_release {s : State} {b : Tick} (hstep : s.seq.step = some ⟨true, 7, b⟩) (hdue : passed s b 24576 = true)
    (hsys : s.seq.sysRst = false) (hreq : s.seq.request ≠ some false) : exec .sequencerHoldExpiry s = .next (enterS5 s) := by
  change execSequencerHoldExpiry s = _
  simp [execSequencerHoldExpiry, hstep, hdue, hsys, hreq]

theorem exec_firmwareQuiesced_of_ready {s : State} {b : Tick} (hstep : s.seq.step = some ⟨false, 1, b⟩) (hready : ready s = true) :
    exec .firmwareQuiesced s = .next (descendReset s) := by
  change execFirmwareQuiesced s = _
  simp [execFirmwareQuiesced, hstep, hready]

theorem exec_quiesceTimeout_of_due {s : State} {b : Tick} (hstep : s.seq.step = some ⟨false, 1, b⟩) (hdue : passed s b 491520 = true) :
    exec .quiesceTimeout s = .next (descendReset s) := by
  change execQuiesceTimeout s = _
  simp [execQuiesceTimeout, hstep, hdue]

/-- Up to tick 245,760 of a step nothing has timed out (R680). -/
theorem exec_railStepTimeout_of_early {s : State} {st : SeqStep} (hstep : s.seq.step = some st) (hearly : passed s st.since 245761 = false) :
    exec .railStepTimeout s = .next s := by
  change execRailStepTimeout s = _
  simp [execRailStepTimeout, hstep, hearly]

/-- The sequencer as a sequence fault of the ascent leaves it: one more ascent is requested unless one has been made (R685). -/
def seqFaulted (s : State) : State := modSeq s fun q => { q with
  faulted := true, retried := true, request := if s.seq.retried then none else some true
  requestAt := if s.seq.retried then q.requestAt else now s }

/-- A rail step of the ascent that takes longer is a sequence fault: recorded, and the die descends. -/
theorem exec_railStepTimeout_of_late {s : State} {n : Nat} {b : Tick} (hstep : s.seq.step = some ⟨true, n, b⟩) (hn : n ∈ [1, 3, 5, 6])
    (hlate : passed s b 245761 = true) (hreq : s.seq.request ≠ some false) :
    exec .railStepTimeout s = .next (descendFrom (seqFaulted (recordSeqFault s (stepDomain true n))) 3) := by
  change execRailStepTimeout s = _
  cases hretried : s.seq.retried <;>
    simp [execRailStepTimeout, seqFaulted, recordSeqFault, faultHistory, modSeq, now, hstep, hlate, hreq, railStep_eq_true hn, hretried]

/-- A good rail that is lost is recorded, and the die descends in hardware (R687). -/
theorem exec_railLoss_of_good {d : Domain} {s : State} {r : Rail} (hrail : railOf s.seq d = some r) (hen : r.en = true) (hgood : r.good = true) :
    exec (.railLoss d) s = .next (hardDescent (recordSeqFault (modSeq s fun q => railBad q d) (domCode d))) := by
  change execRailLoss d s = _
  simp [execRailLoss, hrail, hen, hgood]

/-- Settles O40: each clause runs its command by the law above and reads the fields the step that begins leaves. -/
theorem sequencerAscendsAndDescends : Obligations.SequencerAscendsAndDescends := by
  refine ⟨?on, ?railUp, ?hold, ?release, ?off, ?quiesced, ?lastRail, ?railDown, ?late, fun s st => exec_railStepTimeout_of_early, ?loss⟩
  case on =>
    intro src s hsrc haon hstate hstep hready hhold
    rw [exec_powerOnRequest_of_enabled hsrc]
    refine ⟨fun hlatched => ?_, fun hshut hleak htray => ?_, fun hshut hleak hadm hreq => ?_⟩
    · rw [requestOn_of_latched haon hlatched]
      exact ⟨_, rfl, rfl, List.length_append, rfl⟩
    · rw [requestOn_of_s1 haon hshut hleak hstate hstep,
        tryAscend_of_allowed (s := onNoted s) hstate hstep rfl hready hshut hleak (.inl htray) hhold]
      exact ⟨_, rfl, rfl, rfl, rfl, rfl⟩
    · rw [exec_ascentHoldoffExpiry_of_unlatched hshut hleak,
        tryAscend_of_allowed hstate hstep hreq hready hshut hleak (.inr hadm) hhold]
      exact ⟨_, rfl, rfl, rfl, rfl, rfl⟩
  case railUp =>
    intro s n b hstep hn hmin hmax hreq hsys
    obtain ⟨hkeptReq, hkeptSys⟩ := upDone_keeps s.seq n
    have hnext : afterUp (modSeq s fun q => upDone q n) n = ascend (modSeq s fun q => upDone q n) (n + 1) :=
      afterUp_of_on (by simpa [modSeq, hkeptReq] using hreq) (.inr (hkeptSys.trans hsys))
    rw [exec_railStepDone_up hstep hn hmin hmax, hnext]
    exact ⟨_, rfl, ascend_step _ _, (ascend_state _ _).trans (upDone_state hn s.seq), ascend_mem _ _, ascend_island _ _⟩
  case hold =>
    intro s n b hstep hn hdue hreq
    rw [exec_sequencerHoldExpiry_of_fixed hstep hn hdue, afterUp_of_on hreq (.inl (by omega))]
    refine ⟨_, rfl, ascend_step _ _, ascend_mem _ _, ?_, ?_⟩
    · rintro rfl
      exact ⟨rfl, rfl⟩
    · rintro rfl
      exact ⟨rfl, rfl⟩
  case release =>
    intro s b hstep hdue hsys hreq
    exact ⟨_, exec_sequencerHoldExpiry_of_release hstep hdue hsys hreq, rfl, rfl, rfl, rfl, rfl, rfl⟩
  case off =>
    intro src s hsrc haon hstate hstep
    rw [exec_powerOffRequest_of_source hsrc, requestOff_of_s6 (s := offNoted src s) haon hstate hstep]
    exact ⟨_, rfl, rfl, rfl, rfl, hstate, rfl⟩
  case quiesced =>
    intro s b hstep hvddqm
    have hrun := descendReset_of_vddqm hvddqm
    obtain ⟨n, hseq⟩ := assertReset_seq s
    refine ⟨downStep (assertReset s) 3, fun hready => hrun ▸ exec_firmwareQuiesced_of_ready hstep hready,
      fun hdue => hrun ▸ exec_quiesceTimeout_of_due hstep hdue, ?_, ?_, ?_, rfl, assertReset_fwState s, assertReset_streams s, ?_⟩
    · exact congrArg Seqr.internalReset hseq
    · exact congrArg Seqr.state hseq
    · exact congrArg (fun t => some (⟨false, 3, t⟩ : SeqStep)) (assertReset_now s)
    · intro a
      rw [downStep_mem, assertReset_cells]
  case lastRail =>
    intro s b hstep hmax
    rw [exec_railStepDone_down hstep (by decide) hmax, descendFrom_last]
    exact ⟨_, rfl, rfl, rfl, rfl, rfl, rfl, rfl⟩
  case railDown =>
    intro s n b hstep hn hmax hmem
    have h3 : 3 ≤ n := by simp only [List.mem_cons, List.not_mem_nil, or_false] at hn; omega
    rw [exec_railStepDone_down hstep h3 hmax, descendFrom_downDone hn hmem]
    exact ⟨_, rfl, rfl, rfl⟩
  case late =>
    intro s n b hrec hstep hn hlate hreq hcold
    rw [exec_railStepTimeout_of_late hstep hn hlate hreq]
    obtain ⟨hhistory, -, hfaulted, hretried, hrequest, -⟩ := descendFrom_keeps (seqFaulted (recordSeqFault s (stepDomain true n))) 3
    exact ⟨_, rfl, hfaulted, hretried, hrequest hcold, hhistory ▸ recordSeqFault_mem hrec _⟩
  case loss =>
    intro d s r hrec hrail hen hgood
    rw [exec_railLoss_of_good hrail hen hgood]
    obtain ⟨hhistory, hkept, hreset⟩ := hardDescent_keeps (recordSeqFault (modSeq s fun q => railBad q d) (domCode d))
    obtain ⟨r', hr', hlow⟩ := Option.map_eq_some_iff.1 ((hkept d).trans (railOf_railBad hrail))
    rw [← railBad_state s.seq d]
    refine ⟨_, r', rfl, hr', hlow, hreset, ?_⟩
    rw [hhistory]
    exact recordSeqFault_mem (s := modSeq s fun q => railBad q d) hrec (domCode d)

end Sys2Proof.Proofs
end

section
/-! PROOFS. The PMBus readings and the connection resistance: what a reading keeps, what a sample leaves of its counts, what bringing the
governor into line with a limit leaves alone, and the statement O42 assembled from them. -/

namespace Sys2Proof.Proofs

open Sys2Proof Sys2Proof.Machine Sys2Proof.Safety Sys2Proof.Laws

/-! ## The governor's own part of the state (R45, R703) -/

/-- Only the governor and the streams may differ. -/
def OnlyGovernor (s t : State) : Prop := t = { s with power := t.power, streams := t.streams }

theorem OnlyGovernor.refl (s : State) : OnlyGovernor s s := rfl

theorem OnlyGovernor.trans {s t u : State} (hst : OnlyGovernor s t) (htu : OnlyGovernor t u) : OnlyGovernor s u := by
  unfold OnlyGovernor at *
  rw [htu, hst]

theorem OnlyGovernor.ite {s t u : State} {p : Prop} [Decidable p] (ht : OnlyGovernor s t) (hu : OnlyGovernor s u) :
    OnlyGovernor s (if p then t else u) := by
  split
  · exact ht
  · exact hu

theorem OnlyGovernor.seq {s t : State} (h : OnlyGovernor s t) : t.seq = s.seq := by rw [h]
theorem OnlyGovernor.host {s t : State} (h : OnlyGovernor s t) : t.host = s.host := by rw [h]
theorem OnlyGovernor.mem {s t : State} (h : OnlyGovernor s t) : t.mem = s.mem := by rw [h]

theorem requestOp_onlyGovernor (s : State) (target : Fin 5) (cause : OpCause) : OnlyGovernor s (requestOp s target cause) := by
  unfold requestOp
  simp only
  split
  · split_ifs <;> rfl
  · split_ifs <;> rfl

theorem activateBy_onlyGovernor (s : State) (h : Nat) (order : List Measure) : OnlyGovernor s (activateBy s h order).1 := by
  unfold activateBy
  split
  · rfl
  · split
    · rfl
    · simp only
      split
      · exact .trans (t := modStream s h _) rfl (requestOp_onlyGovernor ..)
      · rfl

theorem activateNext_onlyGovernor (s : State) (h : Nat) : OnlyGovernor s (activateNext s h).1 := activateBy_onlyGovernor ..

theorem foldl_activateNext_onlyGovernor (l : List Machine.Stream) (s : State) :
    OnlyGovernor s (l.foldl (fun t st => (activateNext t st.handle).1) s) := by
  induction l generalizing s with
  | nil => exact .refl s
  | cons st l ih => exact (activateNext_onlyGovernor s st.handle).trans (ih _)

theorem noteTarget_onlyGovernor (s : State) : OnlyGovernor s (noteTarget s) := by
  unfold noteTarget
  split <;> rfl

/-- Bringing the point in force into line with the limits touches the governor and the streams' measures only. -/
theorem limitCheck_onlyGovernor (s : State) : OnlyGovernor s (limitCheck s) := by
  have hallowed (v : Vector (Option Tick) 5) :
      OnlyGovernor s { noteTarget s with power := { (noteTarget s).power with allowedAt := v } } := (noteTarget_onlyGovernor s).trans rfl
  have hlost (lost4 : Bool) (v : Vector (Option Tick) 5) (l : List Machine.Stream) :
      OnlyGovernor s (if lost4 then l.foldl (fun t st => (activateNext t st.handle).1)
        { noteTarget s with power := { (noteTarget s).power with allowedAt := v } }
        else { noteTarget s with power := { (noteTarget s).power with allowedAt := v } }) :=
    .ite ((hallowed v).trans (foldl_activateNext_onlyGovernor l _)) (hallowed v)
  exact .ite ((hlost ..).trans (requestOp_onlyGovernor ..)) (hlost ..)

@[simp] theorem limitCheck_seq (s : State) : (limitCheck s).seq = s.seq := (limitCheck_onlyGovernor s).seq
@[simp] theorem limitCheck_host (s : State) : (limitCheck s).host = s.host := (limitCheck_onlyGovernor s).host
@[simp] theorem limitCheck_mem (s : State) : (limitCheck s).mem = s.mem := (limitCheck_onlyGovernor s).mem

/-! ## Alarm targets (R663, R703) -/

/-- The cap target is at most the target of any domain in alarm. -/
theorem capTarget_le_alarm {s : State} {i : Fin 6} {a : Nat} (halarm : (s.seq.pdn.get i).alarm = true)
    (htarget : (s.seq.pdn.get i).alarmTarget = some a) : capTarget s ≤ a := by
  have hmem : a ∈ s.seq.pdn.toList.filterMap fun d => if d.alarm then d.alarmTarget else none :=
    List.mem_filterMap.2 ⟨s.seq.pdn.get i, by simp [Vector.get_eq_getElem], by simp [halarm, htarget]⟩
  have hlow : ∃ m, alarmTarget s = some m ∧ m ≤ a := by
    unfold alarmTarget
    revert hmem
    cases s.seq.pdn.toList.filterMap fun d => if d.alarm then d.alarmTarget else none with
    | nil => simp
    | cons b l => exact fun h => ⟨_, rfl, (List.min?_eq_some_iff.1 (List.min?_cons' (x := b) (xs := l))).2 a h⟩
  obtain ⟨m, hm, hle⟩ := hlow
  rw [capTarget, hm]
  exact (min_le_left m _).trans hle

/-! ## PMBus readings (R658, R671) -/

/-- The readings, the memory and the firmware are as before. -/
def KeepsReadings (s t : State) : Prop := t.power.readings = s.power.readings ∧ t.mem = s.mem ∧ t.fw = s.fw

theorem readGood_get_same (s : State) (d : Domain) (f : Reading → Reading) : (readGood s d f).power.readings.get (domIdx d)
    = { f (s.power.readings.get (domIdx d)) with
        fails := 0, goods := (s.power.readings.get (domIdx d)).goods + 1
        stopped := (s.power.readings.get (domIdx d)).stopped && decide ((s.power.readings.get (domIdx d)).goods + 1 < 10) } :=
  vget_vmod_same ..

theorem readGood_get_other (s : State) (d : Domain) (f : Reading → Reading) {e : Fin 6} (h : e ≠ domIdx d) :
    (readGood s d f).power.readings.get e = s.power.readings.get e :=
  vget_vmod_other _ _ h

/-- A failed read is counted, the third in a row stopping the checks; nothing else of the reading moves but the run of good ones (R671). -/
theorem readFailed_get_same (s : State) (d : Domain) : (readFailed s d).power.readings.get (domIdx d)
    = { s.power.readings.get (domIdx d) with
        fails := (s.power.readings.get (domIdx d)).fails + 1, goods := 0
        stopped := (s.power.readings.get (domIdx d)).stopped || decide (3 ≤ (s.power.readings.get (domIdx d)).fails + 1) } := by
  unfold readFailed
  simp only
  split <;> exact vget_vmod_same ..

@[simp] theorem readFailed_seq (s : State) (d : Domain) : (readFailed s d).seq = s.seq := by
  unfold readFailed
  simp only
  split <;> rfl

/-- A good READ_IOUT: the reading kept, and a pair for the calibration of VLOG while the firmware runs (R697). -/
def ioutKept (d : Domain) (ma : Nat) (s : State) : State :=
  let s1 := readGood s d fun r => { r with ioutMa := ma }
  if d == .vlog && ready s1 then calPair s1 (ma * (s1.power.readings.get 0).voutMv / 1000) else s1

theorem ioutKept_keeps (d : Domain) (ma : Nat) (s : State) :
    KeepsReadings (readGood s d fun r => { r with ioutMa := ma }) (ioutKept d ma s) := by
  unfold ioutKept
  simp only
  split <;> exact ⟨rfl, rfl, rfl⟩

@[simp] theorem ioutKept_seq (d : Domain) (ma : Nat) (s : State) : (ioutKept d ma s).seq = s.seq := by
  unfold ioutKept
  simp only
  split <;> rfl

/-- Monitor balls that are not connected: the domain is no longer monitored, which is logged once (R672). -/
def ballsMissing (d : Domain) (s : State) : State :=
  let s1 := { s with seq := { s.seq with pdn := vmod s.seq.pdn (domIdx d) fun p => { p with monitored := false } } }
  if (s.seq.pdn.get (domIdx d)).monitored then logUncoded s1 (domCode d) else s1

/-- A good READ_IOUT with the drop over the same time: a usable sample is taken (R659). -/
def ioutTaken (d : Domain) (ma uv : Nat) (temp : Int) (con : Bool) (s : State) : State :=
  if d == .vddqmx then ioutKept d ma s
  else if !con then ballsMissing d (ioutKept d ma s)
  else if ((ioutKept d ma s).power.readings.get (domIdx d)).stopped || decide (10 * ma < peakMa s.fuses.variant d) || ma == 0 then ioutKept d ma s
  else takeSample (ioutKept d ma s) d (uv * 1000 / ma) temp

theorem ioutTaken_keeps (d : Domain) (ma uv : Nat) (temp : Int) (con : Bool) (s : State) :
    KeepsReadings (ioutKept d ma s) (ioutTaken d ma uv temp con s) := by
  unfold ioutTaken ballsMissing
  simp only
  split_ifs <;> exact ⟨rfl, rfl, rfl⟩

section
variable {d : Domain} {s : State} (haon : s.seq.aonRst = false) (hup : s.island.up = true)
include haon hup

/-- READ_IOUT of a domain whose rail is on. -/
theorem exec_pmbusIoutRead_of_on (hon : ∀ r, railOf s.seq d = some r → r.en = true) (ma uv : Nat) (temp : Int) (con ok : Bool) :
    exec (.pmbusIoutRead d ma uv temp con ok) s = .next (if ok then ioutTaken d ma uv temp con s else readFailed s d) := by
  refine congrArg Host.Outcome.next ((if_neg ?taken).trans ?answer)
  case taken =>
    cases hrail : railOf s.seq d with
    | none => simp [haon, hup]
    | some r => simp [hon r hrail, haon, hup]
  case answer => cases ok <;> rfl

theorem exec_pmbusStatusRead_of_on {r : Rail} (hrail : railOf s.seq d = some r) (hen : r.en = true) (mv : Nat) (temp : Int) (w : BitVec 16) :
    exec (.pmbusStatusRead d mv temp w true) s = .next (readGood s d fun r => { r with voutMv := mv, temp := temp, status := w }) := by
  change execPmbusStatusRead d mv temp w true s = _
  simp [execPmbusStatusRead, hrail, hen, haon, hup]

theorem exec_pmbusAlert_of_on {r : Rail} (hrail : railOf s.seq d = some r) (hen : r.en = true) (w : BitVec 16) :
    exec (.pmbusAlert d w) s
      = .next { s with power := { s.power with readings := vmod s.power.readings (domIdx d) fun r => { r with status := w } } } := by
  change execPmbusAlert d w s = _
  simp [execPmbusAlert, hrail, hen, haon, hup]

end

/-! ## Connection resistance (R659 to R670) -/

/-- A usable sample is taken where the balls are connected, the checks run and the current is a tenth of the peak or more. -/
theorem ioutTaken_of_usable {d : Domain} {ma : Nat} {s : State} (hd : d ≠ .vddqmx) (hrun : (s.power.readings.get (domIdx d)).stopped = false)
    (hpeak : peakMa s.fuses.variant d ≤ 10 * ma) (hma : ma ≠ 0) (uv : Nat) (temp : Int) :
    ioutTaken d ma uv temp true s = takeSample (ioutKept d ma s) d (uv * 1000 / ma) temp := by
  obtain ⟨hreadings, -⟩ := ioutKept_keeps d ma s
  have hstopped : ((ioutKept d ma s).power.readings.get (domIdx d)).stopped = false := by
    rw [hreadings, readGood_get_same, hrun, Bool.false_and]
  simp [ioutTaken, hd, hstopped, Nat.not_lt.2 hpeak, hma]

/-- A sample at most 30 % above baseline ends the count toward the alarm (R667). -/
theorem takeSample_over30Since {s : State} {d : Domain} {base : Nat} (hbase : (s.seq.pdn.get (domIdx d)).baseline = some base) {raw : Nat} {t : Int}
    (h : 10 * resAtBase raw t (s.seq.pdn.get (domIdx d)).baseTemp ≤ 13 * base) :
    ((takeSample s d raw t).seq.pdn.get (domIdx d)).over30Since = none := by
  simp [takeSample, hbase, Nat.not_lt.2 h]

/-- A sample at most 60 % above baseline ends the count toward the shut (R667). -/
theorem takeSample_over60 {s : State} {d : Domain} {base : Nat} (hbase : (s.seq.pdn.get (domIdx d)).baseline = some base) {raw : Nat} {t : Int}
    (h : 10 * resAtBase raw t (s.seq.pdn.get (domIdx d)).baseTemp ≤ 16 * base) :
    ((takeSample s d raw t).seq.pdn.get (domIdx d)).over60 = 0 := by
  simp [takeSample, hbase, Nat.not_lt.2 h]

/-- The baseline of a domain is learned. -/
def baselineSet (d : Domain) (m : Nat × Int) (s : State) : State :=
  { s with seq := { s.seq with pdn := vmod s.seq.pdn (domIdx d) fun p => { p with baseline := some m.1, baseTemp := m.2, samples := [] } } }

theorem exec_baselineLearned_of_due {d : Domain} {s : State} {m : Nat × Int} (hbase : (s.seq.pdn.get (domIdx d)).baseline = none)
    (hdue : (s.seq.pdn.get (domIdx d)).learnFrom + 44236800000 ≤ s6Time s) (hmedian : medianSample (s.seq.pdn.get (domIdx d)).samples = some m) :
    exec (.baselineLearned d) s = .next (baselineSet d m s) := by
  change execBaselineLearned d s = _
  simp [execBaselineLearned, hbase, Nat.not_lt.2 hdue, hmedian, baselineSet]

@[simp] theorem pdnRecord_seq (s : State) (d : Domain) (a : Nat) : (pdnRecord s d a).seq = s.seq :=
  (congrArg State.seq (faultStanding_only ..)).trans rfl
@[simp] theorem pdnRecord_host (s : State) (d : Domain) (a : Nat) : (pdnRecord s d a).host = s.host :=
  (congrArg State.host (faultStanding_only ..)).trans rfl
@[simp] theorem pdnRecord_mem (s : State) (d : Domain) (a : Nat) : (pdnRecord s d a).mem = s.mem :=
  (congrArg State.mem (faultStanding_only ..)).trans rfl
@[simp] theorem pdnRecord_time (s : State) (d : Domain) (a : Nat) : (pdnRecord s d a).time = s.time :=
  (congrArg State.time (faultStanding_only ..)).trans rfl

@[simp] theorem pdnEvent_seq (s : State) (d : Domain) (a : Nat) : (pdnEvent s d a).seq = s.seq := rfl
@[simp] theorem pdnEvent_mem (s : State) (d : Domain) (a : Nat) : (pdnEvent s d a).mem = s.mem := rfl
@[simp] theorem pdnEvent_time (s : State) (d : Domain) (a : Nat) : (pdnEvent s d a).time = s.time := rfl
@[simp] theorem pdnEvent_outbox_length (s : State) (d : Domain) (a : Nat) :
    (pdnEvent s d a).host.outbox.length = s.host.outbox.length + 1 := postEvent_outbox_length ..

/-- A domain in alarm, with half the cap in force as its target (R663). -/
def alarmRaised (d : Domain) (s : State) : State :=
  { s with seq := { s.seq with pdn := vmod s.seq.pdn (domIdx d) fun p =>
      { p with alarm := true, alarmTarget := some (capInForce s / 2), under20Since := none } } }

/-- A domain whose alarm is cleared (R665). -/
def alarmCleared (d : Domain) (s : State) : State :=
  { s with seq := { s.seq with pdn := vmod s.seq.pdn (domIdx d) fun p => { p with alarm := false, alarmTarget := none, over30Since := none } } }

theorem exec_pdnAlarmRaise_of_due {d : Domain} {s : State} {b : Tick} (hover : (s.seq.pdn.get (domIdx d)).over30Since = some b)
    (hdue : 24576000 ≤ sampledFor s (s.seq.pdn.get (domIdx d)) b) {base : Nat} (hbase : (s.seq.pdn.get (domIdx d)).baseline = some base)
    (halarm : (s.seq.pdn.get (domIdx d)).alarm = false) (hshut : s.seq.shut = false) :
    exec (.pdnAlarmRaise d) s = .next (limitCheck (pdnEvent (pdnRecord (alarmRaised d s) d 0) d 0)) := by
  change execPdnAlarmRaise d s = _
  simp [execPdnAlarmRaise, hover, Nat.not_lt.2 hdue, hbase, halarm, hshut, alarmRaised]

theorem exec_pdnAlarmClear_of_due {d : Domain} {s : State} {b : Tick} (hunder : (s.seq.pdn.get (domIdx d)).under20Since = some b)
    (hdue : 1474560000 ≤ sampledFor s (s.seq.pdn.get (domIdx d)) b) (halarm : (s.seq.pdn.get (domIdx d)).alarm = true) :
    exec (.pdnAlarmClear d) s = .next (limitCheck (pdnEvent (alarmCleared d s) d 2)) := by
  change execPdnAlarmClear d s = _
  simp [execPdnAlarmClear, hunder, Nat.not_lt.2 hdue, halarm, alarmCleared]

/-- A domain's shut is recorded and posted, and the shut latch set (R664, R666). -/
def shutLatched (d : Domain) (s : State) : State := modSeq (pdnEvent (pdnRecord s d 1) d 1) fun q => { q with shut := true }

theorem shutLatched_seq (d : Domain) (s : State) : (shutLatched d s).seq = { s.seq with shut := true } := by
  simp [shutLatched, modSeq]

@[simp] theorem shutLatched_now (d : Domain) (s : State) : now (shutLatched d s) = now s := by
  simp [shutLatched, modSeq, now]

@[simp] theorem shutLatched_outbox_length (d : Domain) (s : State) : (shutLatched d s).host.outbox.length = s.host.outbox.length + 1 := by
  simp [shutLatched, modSeq]

/-- Three samples in a row above 160 % shut a die in S6: the latch is set after the record and the event, and the quiescence begins. -/
theorem exec_pdnShut_of_s6 {d : Domain} {s : State} (hshut : s.seq.shut = false) {base : Nat}
    (hbase : (s.seq.pdn.get (domIdx d)).baseline = some base) (hover : 3 ≤ (s.seq.pdn.get (domIdx d)).over60) (haon : s.seq.aonRst = false)
    (hstate : s.seq.state = .s6) (hstep : s.seq.step = none) :
    exec (.pdnShut d) s = .next (modSeq (shutLatched d s) fun q =>
      { q with request := none, requestAt := now s, step := some ⟨false, 1, now s⟩ }) := by
  have hseq := shutLatched_seq d s
  have hdown : goingDown (shutLatched d s) = false := by simp [goingDown, hseq, hstep]
  have hoff : requestOff (shutLatched d s) = _ :=
    requestOff_of_s6 (by rw [hseq]; exact haon) (by rw [hseq]; exact hstate) (by rw [hseq]; exact hstep)
  rw [shutLatched_now] at hoff
  have hlatched : ¬(s.seq.shut || (s.seq.pdn.get (domIdx d)).baseline.isNone || decide ((s.seq.pdn.get (domIdx d)).over60 < 3)) = true := by
    simp [hshut, hbase, hover]
  exact congrArg Host.Outcome.next ((if_neg hlatched).trans ((if_neg (Bool.eq_false_iff.1 hdown)).trans hoff))

/-- Settles O42: each clause runs its command by the law above and reads the domain it names. -/
theorem powerDeliveryGuarded : Obligations.PowerDeliveryGuarded := by
  refine ⟨?iout, ?bounds, ?status, ?learned, ?raise, ?shut, ?clear⟩
  case iout =>
    intro d ma uv temp con s hon haon hup
    constructor
    · rw [exec_pmbusIoutRead_of_on haon hup hon, if_pos rfl]
      obtain ⟨hreadings, hmem, hfw⟩ := ioutTaken_keeps d ma uv temp con s
      obtain ⟨hreadings', hmem', hfw'⟩ := ioutKept_keeps d ma s
      refine ⟨_, rfl, ?_, ?_, ?_, fun e he => ?_, hmem.trans hmem', hfw.trans hfw'⟩
      · rw [hreadings, hreadings', readGood_get_same]
      · rw [hreadings, hreadings', readGood_get_same]
      · rw [hreadings, hreadings', readGood_get_same]
      · rw [hreadings, hreadings', readGood_get_other s d _ he]
    · rw [exec_pmbusIoutRead_of_on haon hup hon, if_neg Bool.false_ne_true]
      refine ⟨_, rfl, ?_, ?_, ?_, readFailed_seq s d⟩
      · rw [readFailed_get_same]
      · simp [readFailed_get_same]
      · rw [readFailed_get_same]
  case bounds =>
    intro d ma uv base temp s hon haon hup hd hrun hpeak hma hbase
    rw [exec_pmbusIoutRead_of_on haon hup hon, if_pos rfl, ioutTaken_of_usable hd hrun hpeak hma]
    rw [← ioutKept_seq d ma s] at hbase ⊢
    exact ⟨fun h => ⟨_, rfl, takeSample_over30Since hbase h.le⟩, fun h => ⟨_, rfl, takeSample_over60 hbase h.le⟩⟩
  case status =>
    intro d mv temp w s r hrail hen haon hup
    rw [exec_pmbusStatusRead_of_on haon hup hrail hen, exec_pmbusAlert_of_on haon hup hrail hen]
    refine ⟨⟨_, rfl, ?_, ?_, ?_, ?_, rfl, rfl⟩, ⟨_, rfl, vget_vmod_same .., fun e he => vget_vmod_other _ _ he, rfl⟩⟩
    all_goals rw [readGood_get_same]
  case learned =>
    intro d s m hbase hdue hmedian
    exact ⟨_, exec_baselineLearned_of_due hbase hdue hmedian, vget_vmod_same .., fun e he => vget_vmod_other _ _ he, rfl⟩
  case raise =>
    intro d s b base hover hdue hbase halarm hshut
    have hpdn : (limitCheck (pdnEvent (pdnRecord (alarmRaised d s) d 0) d 0)).seq.pdn.get (domIdx d)
        = { s.seq.pdn.get (domIdx d) with alarm := true, alarmTarget := some (capInForce s / 2), under20Since := none } := by
      rw [limitCheck_seq, pdnEvent_seq, pdnRecord_seq]
      exact vget_vmod_same ..
    refine ⟨_, exec_pdnAlarmRaise_of_due hover hdue hbase halarm hshut, by rw [hpdn], by rw [hpdn],
      capTarget_le_alarm (i := domIdx d) (by rw [hpdn]) (by rw [hpdn]), ?_, ?_⟩
    · rw [limitCheck_host, pdnEvent_outbox_length, pdnRecord_host]
      rfl
    · rw [limitCheck_mem, pdnEvent_mem, pdnRecord_mem]
      rfl
  case shut =>
    intro d s base hshut hbase hover haon hstate hstep
    refine ⟨_, exec_pdnShut_of_s6 hshut hbase hover haon hstate hstep, ?_, rfl, shutLatched_outbox_length d s⟩
    exact congrArg Seqr.shut (shutLatched_seq d s)
  case clear =>
    intro d s b hunder hdue halarm
    have hpdn : (limitCheck (pdnEvent (alarmCleared d s) d 2)).seq.pdn.get (domIdx d)
        = { s.seq.pdn.get (domIdx d) with alarm := false, alarmTarget := none, over30Since := none } := by
      rw [limitCheck_seq, pdnEvent_seq]
      exact vget_vmod_same ..
    refine ⟨_, exec_pdnAlarmClear_of_due hunder hdue halarm, by rw [hpdn], by rw [hpdn], ?_, ?_⟩
    · rw [limitCheck_host, pdnEvent_outbox_length]
      rfl
    · rw [limitCheck_mem, pdnEvent_mem]
      rfl

end Sys2Proof.Proofs
end

section
/-! PROOFS. Droop holds, the thermal sensors with their levels, and the ageing trim: what bringing the governor into line keeps of the
limits' sources, what a reading leaves of its sensor, and the statement O39 assembled from them. -/

namespace Sys2Proof.Proofs

open Sys2Proof Sys2Proof.Machine Sys2Proof.Safety Sys2Proof.Laws

/-! ## Extremes of a list, and fields of a record's data -/

theorem le_maxOf {a d : Nat} {l : List Nat} (h : a ∈ l) : a ≤ maxOf d l :=
  (List.max?_eq_some_iff.1 (List.max?_cons' (x := d) (xs := l))).2 a (List.mem_cons_of_mem d h)

theorem minOf_mem {d : Nat} {l : List Nat} (h : l ≠ []) : minOf d l ∈ l := by
  cases l with
  | nil => exact absurd rfl h
  | cons a r => exact (List.min?_eq_some_iff.1 (List.min?_cons' (x := a) (xs := r))).1

theorem put_eq {len v : Nat} (off : Nat) (h : v < 2 ^ (8 * len)) : put off len v = v * 2 ^ (8 * off) := by
  rw [put, Nat.mod_eq_of_lt h, Nat.shiftLeft_eq]

/-- A reading that is not negative, in the 16 bits of a record. -/
theorem twos_of_nonneg {r : Int} (h : 0 ≤ r) : twos 16 r = r.toNat % 65536 := by
  change (r % 65536).toNat = _
  omega

/-! ## What the limits come from (R708, R720, R737) -/

/-- What besides the cap bounds the points: the sensors, a confirmed droop and the points given up at THROTTLE. -/
def limitSources (s : State) : Vector Sensor 16 × Option (Fin 5) × Nat := (s.power.sensors, s.power.droopLimit, s.power.thermalDrop)

theorem requestOp_limitSources (s : State) (target : Fin 5) (cause : OpCause) :
    limitSources (requestOp s target cause) = limitSources s := by
  unfold requestOp
  simp only
  split
  · split_ifs <;> rfl
  · split_ifs <;> rfl

theorem activateNext_limitSources (s : State) (h : Nat) : limitSources (activateNext s h).1 = limitSources s := by
  unfold activateNext activateBy
  split
  · rfl
  · split
    · rfl
    · simp only
      split
      · exact requestOp_limitSources ..
      · rfl

theorem noteTarget_limitSources (s : State) : limitSources (noteTarget s) = limitSources s := by
  unfold noteTarget
  split <;> rfl

/-- The points are brought into line with what bounds them, which itself stays. -/
theorem limitCheck_limitSources (s : State) : limitSources (limitCheck s) = limitSources s := by
  have hallowed (v : Vector (Option Tick) 5) :
      limitSources { noteTarget s with power := { (noteTarget s).power with allowedAt := v } } = limitSources s := noteTarget_limitSources s
  have hlost (v : Vector (Option Tick) 5) (l : List Machine.Stream) :
      limitSources (l.foldl (fun t st => (activateNext t st.handle).1)
        { noteTarget s with power := { (noteTarget s).power with allowedAt := v } }) = limitSources s :=
    List.foldlRecOn (motive := fun t => limitSources t = limitSources s) l _ (hallowed v)
      fun t ht st _ => (activateNext_limitSources t st.handle).trans ht
  unfold limitCheck
  simp only
  split_ifs <;> simp only [requestOp_limitSources, hlost, hallowed]

@[simp] theorem limitCheck_sensors (s : State) : (limitCheck s).power.sensors = s.power.sensors :=
  congrArg Prod.fst (limitCheck_limitSources s)
@[simp] theorem limitCheck_droopLimit (s : State) : (limitCheck s).power.droopLimit = s.power.droopLimit :=
  congrArg (·.2.1) (limitCheck_limitSources s)
@[simp] theorem limitCheck_thermalDrop (s : State) : (limitCheck s).power.thermalDrop = s.power.thermalDrop :=
  congrArg (·.2.2) (limitCheck_limitSources s)
@[simp] theorem limitCheck_engines (s : State) : (limitCheck s).engines = s.engines := by rw [limitCheck_onlyGovernor s]
@[simp] theorem limitCheck_fw (s : State) : (limitCheck s).fw = s.fw := by rw [limitCheck_onlyGovernor s]

/-! ## Droop (R715 to R720) -/

section
variable {e : EngineId} {q : Fin 4} {mv : Nat} {s : State}

/-- An engine's clock is held from now on. -/
def droopHeld (e : EngineId) (s : State) : State :=
  modEngine { s with power := { s.power with unshaped := true } } e fun en => { en with droopHold := some (now s), droopTold := false }

theorem exec_droopTrip_of_low (hpart : hasEngine s.fuses.variant e.1 = true) (hmasked : s.power.masked = false)
    (hdet : (s.engines.get e).detMask.get q = false) (hhold : (s.engines.get e).droopHold = none) (hlow : 40 < refSag s mv) :
    exec (.droopTrip e q mv) s = .next (droopHeld e s) := by
  refine congrArg Host.Outcome.next (if_neg ?_)
  simp [hpart, hmasked, hdet, hhold, Nat.not_le.2 hlow]

theorem exec_droopTrip_of_quiet (h : s.power.masked = true ∨ (s.engines.get e).detMask.get q = true ∨ refSag s mv ≤ 40) :
    exec (.droopTrip e q mv) s = .next s := by
  refine congrArg Host.Outcome.next (if_pos ?_)
  rcases h with h | h | h <;> simp [h]

/-- An engine's hold is over. -/
def droopReleased (e : EngineId) (s : State) : State := modEngine s e fun en => { en with droopHold := none }

/-- Where every detector not masked sees at most 20 mV, a hold ends, and without a hold nothing is to end. -/
theorem exec_droopRelease_of_quiet {sags : Vector Nat 4}
    (h : ∀ q, (s.engines.get e).detMask.get q = true ∨ refSag s (sags.get q) ≤ 20) :
    exec (.droopRelease e sags) s = .next (if (s.engines.get e).droopHold = none then s else droopReleased e s) := by
  have hall : ((fins 4).all fun q => (s.engines.get e).detMask.get q || decide (refSag s (sags.get q) ≤ 20)) = true :=
    List.all_eq_true.2 fun q _ => by simpa using h q
  change execDroopRelease e sags s = _
  cases hhold : (s.engines.get e).droopHold <;> simp [execDroopRelease, hall, hhold, droopReleased]

/-- A detector that disagrees with the sense is masked, its engine's hold ended, and that is logged. -/
def detectorMasked (e : EngineId) (q : Fin 4) (s : State) : State :=
  logDie (modEngine s e fun en => { en with detMask := vmod en.detMask q fun _ => true, droopHold := none }) 0x0602 e.1 1 (e.1 + 256 * q.1)

/-- A hold that the sense bears out is logged once. -/
def droopLogged (e : EngineId) (mv : Nat) (s : State) : State :=
  logDie (modEngine s e fun en => { en with droopTold := true }) 0x0601 e.1 1 (put 0 1 e.1 + put 1 2 mv)

/-- The point below one in force. -/
def pointBelow (n : Fin 5) : Fin 5 := ⟨(n.1 - 1) % 5, Nat.mod_lt _ (by decide)⟩

theorem pointBelow_succ {n : Fin 5} (h : n ≠ 0) : (pointBelow n).1 + 1 = n.1 := by
  have hpos : n.1 ≠ 0 := fun h0 => h (Fin.ext h0)
  simp only [pointBelow]
  omega

/-- A confirmed droop with no limit before it: the highest point is the one below. -/
def droopLimited (s : State) : State := { s with power := { s.power with droopLimit := some (pointBelow s.power.opForce) } }

variable {b : Tick} (hhold : (s.engines.get e).droopHold = some b) (htold : (s.engines.get e).droopTold = false)
  (hdue : passed s b 24576 = true)
include hhold htold hdue

theorem exec_droopHoldTimeout_of_disagree (hmv : mv ≤ 20) : exec (.droopHoldTimeout e q mv) s = .next (detectorMasked e q s) := by
  have hdata : put 0 1 e.1 + put 1 1 q.1 = e.1 + 256 * q.1 := by
    rw [put_eq 0 (by omega), put_eq 1 (by omega)]
    omega
  change execDroopHoldTimeout e q mv s = _
  simp [execDroopHoldTimeout, hhold, htold, hdue, hmv, hdata, detectorMasked]

theorem exec_droopHoldTimeout_of_agree (hmv : 20 < mv) (hop : s.power.opForce ≠ 0) (hlimit : s.power.droopLimit = none) :
    exec (.droopHoldTimeout e q mv) s = .next (limitCheck (droopLimited (droopLogged e mv s))) := by
  change execDroopHoldTimeout e q mv s = _
  simp [execDroopHoldTimeout, hhold, htold, hdue, Nat.not_le.2 hmv, hop, hlimit, droopLimited, droopLogged, pointBelow]

end

/-! ## Thermal sensors (R734 to R742) -/

/-- The level of a reading is at least every level whose entry value it reaches, so a reading exactly at an entry value enters the level
(R741). -/
theorem le_levelOf {s : State} {k : Nat} {r : Int} (hk : k ∈ [1, 2, 3]) (old : Nat) (h : thermalEntry s k ≤ r) : k ≤ levelOf s old r :=
  le_maxOf (List.mem_filter.2 ⟨hk, by simp [h]⟩)

/-- One sensor is changed. -/
def modSensor (s : State) (n : SensorId) (f : Sensor → Sensor) : State :=
  { s with power := { s.power with sensors := vmod s.power.sensors n f } }

/-- A sensor's reading with its level, and the tick since which it has stayed below 92 degrees. -/
def sensorRead (s : State) (r : Int) (x : Sensor) : Sensor :=
  { x with
    reading := r, level := levelOf s x.level r
    below92 := if r < 92 * 16 then (match x.below92 with | some t => some t | none => some (now s)) else none }

/-- A reading changes its sensor alone, and the event queue where the level changes. -/
theorem takeReading_only (s : State) (n : SensorId) (r : Int) :
    takeReading s n r = { modSensor s n (sensorRead s r) with host := (takeReading s n r).host } := by
  unfold takeReading
  simp only
  split <;> rfl

@[simp] theorem takeReading_sensors (s : State) (n : SensorId) (r : Int) :
    (takeReading s n r).power.sensors = vmod s.power.sensors n (sensorRead s r) := by rw [takeReading_only]; rfl
@[simp] theorem takeReading_fw (s : State) (n : SensorId) (r : Int) : (takeReading s n r).fw = s.fw := by rw [takeReading_only]; rfl

/-- A change of level is posted, and nothing else (R735). -/
theorem takeReading_outbox_length (s : State) (n : SensorId) (r : Int) : (takeReading s n r).host.outbox.length
    = s.host.outbox.length + (if levelOf s (s.power.sensors.get n).level r = (s.power.sensors.get n).level then 0 else 1) := by
  by_cases hlevel : levelOf s (s.power.sensors.get n).level r = (s.power.sensors.get n).level
  · simp only [takeReading, beq_iff_eq, if_pos hlevel]
    rfl
  · simp only [takeReading, beq_iff_eq, if_neg hlevel]
    exact postEvent_outbox_length ..

@[simp] theorem thermalControl_sensors (s : State) : (thermalControl s).power.sensors = s.power.sensors := rfl
@[simp] theorem thermalControl_host (s : State) : (thermalControl s).host = s.host := rfl
@[simp] theorem thermalControl_fw (s : State) : (thermalControl s).fw = s.fw := rfl

/-- A sensor is faulty after its fourth missed reading, which is logged (R742). -/
def sensorFaulted (s : State) (n : SensorId) : State :=
  logDie (modSensor s n fun x => { x with faulty := true, missed := 4 }) 0x0608 0xFF 1 n.1

section
variable {n : SensorId} {s : State} (hready : ready s = true) (hpart : sensorPresent s.fuses.variant n.1 = true)
  (hfaulty : (s.power.sensors.get n).faulty = false)
include hready hpart hfaulty

theorem exec_thermalSensorRead_of_inRange {r : Int} (hlo : -640 ≤ r) (hhi : r ≤ 2400) : exec (.thermalSensorRead n (some r)) s
    = .next (limitCheck (thermalControl (takeReading (modSensor s n fun x => { x with missed := 0 }) n r))) := by
  change execThermalSensorRead n (some r) s = _
  simp [execThermalSensorRead, hready, hpart, hfaulty, not_lt.2 hlo, not_lt.2 hhi, modSensor]

theorem exec_thermalSensorRead_of_fourthMiss (hmissed : (s.power.sensors.get n).missed = 3) : exec (.thermalSensorRead n none) s
    = .next (limitCheck (thermalControl (takeReading (sensorFaulted s n) n (substituteReading (sensorFaulted s n) n)))) := by
  have hdata : put 0 1 n.1 = n.1 := by
    rw [put_eq 0 (by omega)]
    omega
  change execThermalSensorRead n none s = _
  simp [execThermalSensorRead, hready, hpart, hfaulty, hmissed, hdata, sensorFaulted, modSensor]

end

/-! ## Points given up and taken back at THROTTLE (R737) -/

/-- One more point is given up. -/
def pointDropped (s : State) : State :=
  { s with power := { s.power with thermalDrop := min 4 (s.power.thermalDrop + 1), thermLowSince := some (now s) } }

theorem exec_thermalPointDrop_of_due {s : State} {b : Tick} (hready : ready s = true) (hlow : s.power.thermLowSince = some b)
    (hdue : passed s b 24576000 = true) : exec .thermalPointDrop s = .next (limitCheck (pointDropped s)) := by
  change execThermalPointDrop s = _
  simp [execThermalPointDrop, hready, hlow, hdue, pointDropped]

/-- One point is taken back, and every sensor's second below 92 degrees starts anew. -/
def pointReturned (s : State) : State :=
  { s with power := { s.power with
      thermalDrop := s.power.thermalDrop - 1, sensors := vmap (fun x => { x with below92 := x.below92.map fun _ => now s }) s.power.sensors } }

theorem exec_thermalPointReturn_of_cool {s : State} (hready : ready s = true) (hdrop : s.power.thermalDrop ≠ 0)
    (hcool : ∀ n, sensorPresent s.fuses.variant n.1 = true → ∃ b, (s.power.sensors.get n).below92 = some b ∧ passed s b 24576000 = true) :
    exec .thermalPointReturn s = .next (limitCheck (pointReturned s)) := by
  have hall : ((sensorsOf s).all fun n => forTicks s (s.power.sensors.get n).below92 24576000) = true := by
    refine List.all_eq_true.2 fun n hn => ?_
    obtain ⟨b, hb, hdue⟩ := hcool n (List.mem_filter.1 hn).2
    rw [hb]
    exact hdue
  have hgoes : (!ready s || s.power.thermalDrop == 0
      || !(sensorsOf s).all fun n => forTicks s (s.power.sensors.get n).below92 24576000) = false := by simp [hready, hdrop, hall]
  exact congrArg Host.Outcome.next (if_neg (Bool.eq_false_iff.1 hgoes))

/-! ## The thermal trip (R739) -/

/-- A descent begins with the firmware and the streams as they stand. -/
theorem descendFrom_fw_streams (s : State) (n : Nat) : (descendFrom s n).fw = s.fw ∧ (descendFrom s n).streams = s.streams := by
  rcases descendFrom_cases s n with h | ⟨k, h⟩ <;> rw [h]
  · exact ⟨rfl, rfl⟩
  · exact ⟨rfl, rfl⟩

/-- From S6 a descent in hardware leaves internal reset asserted, the firmware in BOOTSTRAP and no stream. -/
theorem hardDescent_resets_of_s6 {s : State} (h : s.seq.state = .s6) : (hardDescent s).seq.internalReset = true
    ∧ (hardDescent s).fw.state = .bootstrap ∧ (hardDescent s).streams = [] := by
  obtain ⟨-, -, hreset⟩ := hardDescent_keeps s
  obtain ⟨t, ht⟩ : ∃ t, hardDescent s = descendFrom (assertReset t) 3 := ⟨_, if_pos (by simp [modSeq, h])⟩
  obtain ⟨hfw, hstreams⟩ := descendFrom_fw_streams (assertReset t) 3
  exact ⟨hreset (.inr h), by rw [ht, hfw, assertReset_fwState], by rw [ht, hstreams, assertReset_streams]⟩

theorem exec_thermalTrip_of_hot {n : SensorId} {r : Int} {s : State} (hpart : sensorPresent s.fuses.variant n.1 = true) (hr : 1920 ≤ r)
    (hreset : s.seq.internalReset = false) :
    exec (.thermalTrip n r) s = .next (hardDescent (faultHistory s 0x070A 0xFF (n.1 + (r.toNat % 65536) * 65536))) := by
  have hdata : put 0 1 n.1 + put 2 2 (twos 16 r) = n.1 + (r.toNat % 65536) * 65536 := by
    rw [twos_of_nonneg (by omega), put_eq 0 (by omega), put_eq 2 (by omega)]
    omega
  change execThermalTrip n r s = _
  simp [execThermalTrip, hpart, hreset, not_lt.2 hr, hdata]

/-! ## The ageing trim (R745 to R749) -/

/-- An indicated run whose counts all meet the target is over with its first measurement: such a run lowers nothing. -/
theorem exec_ageingTrimRun_of_met {counts : List Nat} {s : State} (hready : ready s = true) (hchange : s.power.change = none)
    (hrun : s.power.trimRun = none) (hageing : s.power.ageing = true) (hcounts : counts ≠ [])
    (hmet : ∀ c ∈ counts, s.fuses.canaryTarget.get s.power.opForce ≤ c) :
    exec (.ageingTrimRun 2 counts) s = .next (endTrim s ⟨2, s.power.trimMv, false⟩) := by
  have hlowest : s.fuses.canaryTarget.get s.power.opForce ≤ minOf 0 counts := hmet _ (minOf_mem hcounts)
  change execAgeingTrimRun 2 counts s = _
  simp [execAgeingTrimRun, trimDue, hrun, hready, hageing, hchange, hcounts, Nat.not_lt.2 hlowest]

/-- Settles O39: each clause runs its command by the law above and reads the engine, the sensor or the point it names. -/
theorem droopThermalAndAgeing : Obligations.DroopThermalAndAgeing := by
  refine ⟨?trip, fun e q mv s => exec_droopTrip_of_quiet, ?release, ?timeout, ?reading, ?missed, ?drop, ?back, ?hot, ?ageing⟩
  case trip =>
    intro e q mv s hpart hmasked hdet hhold hlow
    exact ⟨_, exec_droopTrip_of_low hpart hmasked hdet hhold hlow, congrArg Engine.droopHold (vget_vmod_same ..), rfl,
      fun d hd => vget_vmod_other _ _ hd⟩
  case release =>
    intro e sags s hquiet
    rw [exec_droopRelease_of_quiet hquiet]
    by_cases hhold : (s.engines.get e).droopHold = none
    · rw [if_pos hhold]
      exact ⟨s, rfl, hhold, rfl, fun _ _ => rfl⟩
    · rw [if_neg hhold]
      exact ⟨_, rfl, congrArg Engine.droopHold (vget_vmod_same ..), rfl, fun d hd => vget_vmod_other _ _ hd⟩
  case timeout =>
    intro e q mv s b hhold htold hdue
    refine ⟨fun hmv => ?_, fun hmv hop hlimit => ?_⟩
    · have hengine : (detectorMasked e q s).engines.get e = { s.engines.get e with
          detMask := vmod (s.engines.get e).detMask q fun _ => true, droopHold := none } := vget_vmod_same ..
      exact ⟨_, exec_droopHoldTimeout_of_disagree hhold htold hdue hmv, by rw [hengine], by rw [hengine]; exact vget_vmod_same ..,
        fun d hd => vget_vmod_other _ _ hd, rfl, rfl⟩
    · have hengine : (limitCheck (droopLimited (droopLogged e mv s))).engines.get e = { s.engines.get e with droopTold := true } := by
        rw [limitCheck_engines]
        exact vget_vmod_same ..
      exact ⟨_, _, exec_droopHoldTimeout_of_agree hhold htold hdue hmv hop hlimit, by rw [hengine], by rw [hengine]; exact hhold,
        limitCheck_droopLimit _, pointBelow_succ hop⟩
  case reading =>
    intro n r s hready hpart hlo hhi hfaulty
    have hsensors : (limitCheck (thermalControl (takeReading (modSensor s n fun x => { x with missed := 0 }) n r))).power.sensors
        = vmod (vmod s.power.sensors n fun x => { x with missed := 0 }) n (sensorRead s r) := by
      rw [limitCheck_sensors, thermalControl_sensors, takeReading_sensors]
      rfl
    have hlevel : ((vmod (vmod s.power.sensors n fun x => { x with missed := 0 }) n (sensorRead s r)).get n).level
        = levelOf s (s.power.sensors.get n).level r := by simp [sensorRead]
    refine ⟨_, exec_thermalSensorRead_of_inRange hready hpart hfaulty hlo hhi, ?_⟩
    rw [hsensors, limitCheck_host, thermalControl_host, takeReading_outbox_length, hlevel]
    refine ⟨by simp [sensorRead], by simp [sensorRead], rfl, fun k hk hr => le_levelOf hk _ hr.ge, ?_, fun k hk => ?_⟩
    · simp only [modSensor, vget_vmod_same]
      rfl
    · rw [vget_vmod_other _ _ hk, vget_vmod_other _ _ hk]
  case missed =>
    intro n s hready hpart hmissed hfaulty
    refine ⟨_, exec_thermalSensorRead_of_fourthMiss hready hpart hfaulty hmissed, ?_, ?_⟩
    · simp [sensorFaulted, modSensor, sensorRead]
    · rw [limitCheck_fw, thermalControl_fw, takeReading_fw]
      rfl
  case drop =>
    intro s b hready hlow hdue
    exact ⟨_, exec_thermalPointDrop_of_due hready hlow hdue, limitCheck_thermalDrop _, limitCheck_sensors _, limitCheck_mem _⟩
  case back =>
    intro s hready hdrop hcool
    refine ⟨_, exec_thermalPointReturn_of_cool hready hdrop hcool, ?_, limitCheck_mem _⟩
    rw [limitCheck_thermalDrop]
    exact Nat.succ_pred hdrop
  case hot =>
    intro n r s hrec hpart hr hreset hstate
    rw [exec_thermalTrip_of_hot hpart hr hreset]
    obtain ⟨hasserted, hfw, hstreams⟩ := hardDescent_resets_of_s6 (s := faultHistory s 0x070A 0xFF (n.1 + (r.toNat % 65536) * 65536)) hstate
    obtain ⟨hhistory, -⟩ := hardDescent_keeps (faultHistory s 0x070A 0xFF (n.1 + (r.toNat % 65536) * 65536))
    exact ⟨_, rfl, hasserted, hfw, hstreams, _, hhistory ▸ faultHistory_mem hrec .., rfl, rfl⟩
  case ageing =>
    intro counts s hready hchange hrun hageing hcounts hmet
    exact ⟨_, exec_ageingTrimRun_of_met hready hchange hrun hageing hcounts hmet, rfl, rfl, rfl, rfl, postEvent_outbox_length ..⟩

end Sys2Proof.Proofs
end

section
/-! PROOFS. Leak inputs, cables and service lamps: what a notice leaves of the island, what a trip sets, what a lamp owes, and the statement
O47 assembled from them. -/

namespace Sys2Proof.Proofs

open Sys2Proof Sys2Proof.Machine Sys2Proof.Safety Sys2Proof.Laws

/-! ## What the island's notices keep (R791, R792, R814) -/

theorem onlyIsland_trans {s t u : State} (hst : OnlyIsland s t) (htu : OnlyIsland t u) : OnlyIsland s u := by
  rw [OnlyIsland, htu, hst]

/-- The island is as before but for its notices, its log and the sequence numbers of its messages. -/
def NoticesOnly (i j : Island) : Prop := j = { i with
  notices := j.notices, noticesLost := j.noticesLost, log := j.log, logSeq := j.logSeq, wqSeq := j.wqSeq, txSeq := j.txSeq }

theorem NoticesOnly.trans {i j k : Island} (hij : NoticesOnly i j) (hjk : NoticesOnly j k) : NoticesOnly i k := by
  unfold NoticesOnly at *
  rw [hjk, hij]

theorem logIsland_noticesOnly (s : State) (code unit sev data : Nat) : NoticesOnly s.island (logIsland s code unit sev data).island := rfl

theorem notify_noticesOnly (s : State) (code slot data : Nat) : NoticesOnly s.island (notify s code slot data).island := by
  unfold notify
  simp only
  split_ifs <;> rfl

/-- A notice that finds no room adds to the log; none takes a record from it. -/
theorem log_prefix_notify (s : State) (code slot data : Nat) : s.island.log <+: (notify s code slot data).island.log := by
  unfold notify
  simp only
  split_ifs
  · exact List.prefix_append ..
  · exact List.prefix_rfl
  · exact List.prefix_append ..
  · exact List.prefix_rfl

theorem wairiqNotice_onlyIsland (s : State) (code slot data : Nat) : OnlyIsland s (wairiqNotice s code slot data) := by
  unfold wairiqNotice
  simp only
  split_ifs <;> rfl

theorem wairiqNotice_noticesOnly (s : State) (code slot data : Nat) : NoticesOnly s.island (wairiqNotice s code slot data).island := by
  unfold wairiqNotice
  simp only
  split_ifs <;> rfl

@[simp] theorem wairiqNotice_log (s : State) (code slot data : Nat) : (wairiqNotice s code slot data).island.log = s.island.log := by
  unfold wairiqNotice
  simp only
  split_ifs <;> rfl

@[simp] theorem wairiqNotice_mem (s : State) (code slot data : Nat) : (wairiqNotice s code slot data).mem = s.mem := by
  rw [wairiqNotice_onlyIsland s code slot data]

/-! ## Leak cut-off (R788 to R795) -/

theorem leakIdx_not_ne (b : Bool) : leakIdx (!b) ≠ leakIdx b := by cases b <;> decide

/-- The number a leak input has in records and notices (Table 10-22). -/
def leakCode (b : Bool) : Nat := if b then 2 else 1

/-- A wet input sets the latch and the kill line. -/
def leakLatched (b : Bool) (s : State) : State := modIsland s fun i => { i with
  leakLatch := true, kill := true, leak := vmod i.leak (leakIdx b) fun l => { l with wet := true, isOpen := false, dryAt := some (now s) } }

/-- A trip is logged. -/
def leakLogged (b : Bool) (s : State) : State := logIsland s 0x0508 0xFF 2 (put 0 1 (leakCode b))

/-- A trip is told to the firmware and to the rack manager. -/
def leakTold (b : Bool) (s : State) : State :=
  wairiqNotice (notify s 0x04 (slotByte s) (put 20 1 (leakCode b))) 0x04 (slotByte s) (put 20 1 (leakCode b))

theorem leakTold_onlyIsland (b : Bool) (s : State) : OnlyIsland s (leakTold b s) :=
  onlyIsland_trans (notify_only ..) (wairiqNotice_onlyIsland ..)

theorem leakTold_noticesOnly (b : Bool) (s : State) : NoticesOnly s.island (leakTold b s).island :=
  (notify_noticesOnly ..).trans (wairiqNotice_noticesOnly ..)

theorem log_prefix_leakTold (b : Bool) (s : State) : s.island.log <+: (leakTold b s).island.log := by
  rw [leakTold, wairiqNotice_log]
  exact log_prefix_notify ..

/-- The record of a trip names its input. -/
theorem leakLogged_mem (b : Bool) (s : State) : ∃ x ∈ (leakLogged b s).island.log, x.code = 0x0508 ∧ x.data = if b then 2 else 1 :=
  ⟨_, List.mem_append_right _ (List.mem_singleton_self _), rfl, by cases b <;> rfl⟩

/-- An open sensor is kept as open, and logged; its notice takes a free value as its code. -/
def sensorOpened (b : Bool) (s : State) : State :=
  (takeFree (logIsland (modIsland s fun i => { i with leak := vmod i.leak (leakIdx b) fun l => { l with isOpen := true } }) 0x0503 0xFF 1
    (put 0 1 (leakIdx b).1))).2

/-- A leak trip with no sequence running is no rail loss (R795). -/
theorem leakRailLoss_of_idle {s : State} (h : s.seq.step = none) : leakRailLoss s = s := by
  simp [leakRailLoss, h]

section
variable {b : Bool} {s : State} (hen : (s.island.leak.get (leakIdx b)).enabled = true)
include hen

/-- A trip under the latch sets the latch again, and no more. -/
theorem exec_leakTrip_of_latched (haon : s.seq.aonRst = false) (hlatch : s.island.leakLatch = true) :
    exec (.leakTrip b) s = .next (leakLatched b s) := by
  change execLeakTrip b s = _
  simp [execLeakTrip, hen, haon, hlatch, leakLatched]

/-- The first trip, no sequence running, is logged and told besides. -/
theorem exec_leakTrip_of_first (haon : s.seq.aonRst = false) (hstep : s.seq.step = none) (hlatch : s.island.leakLatch = false) :
    exec (.leakTrip b) s = .next (leakTold b (leakLogged b (leakLatched b s))) := by
  have hseq : (leakTold b (leakLogged b (leakLatched b s))).seq = s.seq := (congrArg State.seq (leakTold_onlyIsland ..)).trans rfl
  rw [← leakRailLoss_of_idle (s := leakTold b _) (hseq ▸ hstep)]
  change execLeakTrip b s = _
  simp only [execLeakTrip, hen, haon, hlatch]
  rfl

theorem exec_leakSensorOpen_of_enabled (hopen : (s.island.leak.get (leakIdx b)).isOpen = false) (hrun : islandRuns s = true) :
    exec (.leakSensorOpen b) s = .next (wairiqNotice (sensorOpened b s) (Config.freeNat s.free % 256) (slotByte s)
      (put 20 1 (leakIdx b).1)) := by
  change execLeakSensorOpen b s = _
  simp only [execLeakSensorOpen, hen, hopen, hrun]
  rfl

end

theorem exec_leakTrip_of_disabled {b : Bool} {s : State} (h : (s.island.leak.get (leakIdx b)).enabled = false) :
    exec (.leakTrip b) s = .next s :=
  congrArg Host.Outcome.next (if_pos (by simp [h]))

/-- The second stage of the cooling watchdog resets the island's core at most, which keeps the latch and the kill line (R785). -/
theorem exec_coolingWatchdogStage2_keeps_leak (s : State) : ∃ t, exec .coolingWatchdogStage2 s = .next t
    ∧ t.island.leakLatch = s.island.leakLatch ∧ t.island.kill = s.island.kill := by
  change ∃ t, execCoolingWatchdogStage2 s = .next t ∧ _
  unfold execCoolingWatchdogStage2
  split_ifs <;> exact ⟨_, rfl, rfl, rfl⟩

/-! ## Cables (R796 to R798) -/

/-- The seven checks of a cable's identity record (Table 13-8). -/
def RecordAccepted (r : BitVec 256) : Prop :=
  fld r 28 4 = (crc32c (leBytes 28 r.toNat)).toNat ∧ fld r 0 2 = 0x4357 ∧ fld r 2 1 = 1 ∧ fld r 3 1 ≤ 1 ∧ fld r 4 1 = 5 ∧ 32 ≤ fld r 5 1
    ∧ fld r 6 2 ≤ 500

/-- A port's cable is as given. -/
def cableSet (p : PortId) (c : Cable) (s : State) : State := modIsland s fun i => { i with cable := vmod i.cable p fun _ => c }

/-- The port of a cable taken away is held: an ACTIVE one leaves ACTIVE, any other gives up its attempt. -/
def portHeld (p : PortId) (s : State) : State :=
  if (s.fabric.ports.get p).st = .active then modPort (leaveActive s p) p fun q => { q with fckSeen := false }
  else modPort s p fun q => { q with
    fckSeen := false, trying := false, pauseUntil := none, st := if q.st == .training || q.st == .failed then .idle else q.st }

section
variable {p : PortId} {s : State} (hup : s.island.up = true)
include hup

theorem exec_cablePresenceAssert_of_accepted (hport : hasPort s.fuses.variant p.1 = true) (hnone : (s.island.cable.get p).present = false)
    {r : BitVec 256} (hr : RecordAccepted r) : exec (.cablePresenceAssert p (some r)) s = .next (cableSet p ⟨true, true⟩ s) := by
  obtain ⟨hcrc, hmagic, hversion, hkind, hlanes, hrate, hflight⟩ := hr
  change execCablePresenceAssert p (some r) s = _
  simp [execCablePresenceAssert, hcrc, hmagic, hversion, Nat.not_lt.2 hkind, hlanes, Nat.not_lt.2 hrate, Nat.not_lt.2 hflight, hup, hport, hnone,
    cableSet, modIsland]

theorem exec_cablePresenceAssert_of_unread (hport : hasPort s.fuses.variant p.1 = true) (hnone : (s.island.cable.get p).present = false) :
    exec (.cablePresenceAssert p none) s
      = .next (logIsland (notify (cableSet p ⟨true, false⟩ s) 0x0A (slotByte s) (put 20 1 p.1)) 0x0505 p.1 2 (put 0 1 p.1 + put 1 1 0)) := by
  change execCablePresenceAssert p none s = _
  simp [execCablePresenceAssert, hup, hport, hnone, cableSet, modIsland, slotByte]

theorem exec_cablePresenceDeassert_of_present (hpres : (s.island.cable.get p).present = true) :
    exec (.cablePresenceDeassert p) s = .next (portHeld p (cableSet p ⟨false, false⟩ s)) := by
  change execCablePresenceDeassert p s = _
  simp [execCablePresenceDeassert, hup, hpres, portHeld, cableSet, modIsland]

end

/-- A held port is not ACTIVE and without a clock; the other ports, the island and the memory are as before. -/
theorem portHeld_holds (p : PortId) (s : State) : ((portHeld p s).fabric.ports.get p).fckSeen = false
    ∧ ((portHeld p s).fabric.ports.get p).st ≠ .active ∧ OtherPorts s (portHeld p s) p ∧ (portHeld p s).island = s.island
    ∧ (portHeld p s).mem = s.mem := by
  unfold portHeld
  split
  · exact ⟨by simp, by simp [leaveActive], fun q hq => by simp [leaveActive, vget_vmod_other _ _ hq], rfl, rfl⟩
  · rename_i hst
    refine ⟨by simp, ?_, fun q hq => by simp [vget_vmod_other _ _ hq], rfl, rfl⟩
    simp only [modPort_fabric, vget_vmod_same]
    split
    · simp
    · exact hst

/-! ## Lamps (R799 to R801) -/

/-- An element that is set to itself leaves the vector as it is. -/
theorem vmod_eq_self {α : Type} {n : Nat} (v : Vector α n) (i : Fin n) {f : α → α} (h : f (v.get i) = v.get i) : vmod v i f = v := by
  rw [vmod, h]
  exact Vector.set_getElem_self ..

/-- A lamp set to itself leaves the die as it is. -/
theorem modIsland_lamps_self {s : State} {n : LampId} {f : Lamp → Lamp} (h : f (s.island.lamps.get n) = s.island.lamps.get n) :
    modIsland s (fun i => { i with lamps := vmod i.lamps n f }) = s := by
  simp only [modIsland, vmod_eq_self _ _ h]

/-- Outside a test and owing nothing, a lamp is lit for 5 µs per step of its duty and stays as it is. -/
theorem lampPeriod_of_settled {t : Tick} {duty : Nat} {l : Lamp} (hcheck : apart l.checkAt t < 24576000) (howed : l.owed = 0) :
    lampPeriod t duty l = (5 * duty, l) := by
  obtain ⟨⟩ := l
  obtain rfl : _ = 0 := howed
  simp [lampPeriod, Nat.not_le.2 hcheck]

theorem exec_lampPwmPeriod_of_settled {n : LampId} {s : State} (hrun : islandRuns s = true) (hperiod : now s % 122880 = 0)
    (hcheck : passed s (s.island.lamps.get n).checkAt 24576000 = false) (howed : (s.island.lamps.get n).owed = 0)
    (hnext : (s.island.lamps.get n).next = none) : exec (.lampPwmPeriod n) s = .next (emit s (.lamp n (5 * lampDuty s n))) := by
  have hbefore : apart (s.island.lamps.get n).checkAt (now s) < 24576000 := Nat.not_le.1 (of_decide_eq_false hcheck)
  change execLampPwmPeriod n s = _
  simp [execLampPwmPeriod, hrun, hperiod, hnext, modIsland_lamps_self, lampPeriod_of_settled hbefore howed]

/-- A lamp after a check that it passes, or not. -/
def lampChecked (n : LampId) (f : Lamp → Lamp) (s : State) : State :=
  modIsland s fun i => { i with lamps := vmod i.lamps n fun l => { f l with testDue := false } }

/-- One more failure, the third in a row making the lamp open. -/
def lampFailed (l : Lamp) : Lamp := { l with fails := l.fails + 1, isOpen := l.isOpen || decide (2 ≤ l.fails) }

section
variable {n : LampId} {ua : Nat} {s : State} (hrun : islandRuns s = true) (hdue : (s.island.lamps.get n).testDue = true)
  (hlit : lampDuty s n ≠ 0)
include hrun hdue hlit

/-- Half the drive current or more clears the failures; a lamp that was open is logged as mended. -/
theorem exec_lampOpenCheck_of_pass (hua : (s.island.lamps.get n).driveUa ≤ 2 * ua) :
    exec (.lampOpenCheck n ua) s = .next (if (s.island.lamps.get n).isOpen
      then logIsland (lampChecked n (fun l => { l with fails := 0, isOpen := false }) s) 0x0504 0xFF 0 (put 0 1 n.1)
      else lampChecked n (fun l => { l with fails := 0, isOpen := false }) s) := by
  change execLampOpenCheck n ua s = _
  simp [execLampOpenCheck, hrun, hdue, hlit, hua, lampChecked]

/-- Less counts a failure; the third in a row is logged and told (R801). -/
theorem exec_lampOpenCheck_of_fail (hua : 2 * ua < (s.island.lamps.get n).driveUa) :
    exec (.lampOpenCheck n ua) s = .next (if (s.island.lamps.get n).isOpen = false ∧ 2 ≤ (s.island.lamps.get n).fails
      then notify (logIsland (lampChecked n lampFailed s) 0x0501 0xFF 1 (put 0 1 n.1)) 0x03 (slotByte s) (put 20 1 n.1)
      else lampChecked n lampFailed s) := by
  change execLampOpenCheck n ua s = _
  simp [execLampOpenCheck, hrun, hdue, hlit, Nat.not_le.2 hua, lampChecked, lampFailed]

end

/-- Settles O47: each clause runs its command by the law above and reads the part of the island or the port it names. -/
theorem leaksCablesAndLamps : Obligations.LeaksCablesAndLamps := by
  refine ⟨?trip, fun b s => exec_leakTrip_of_disabled, ?stage2, ?sensor, ?cableIn, ?cableOut, ?period, ?check⟩
  case trip =>
    intro b s hen haon hstep
    cases hlatch : s.island.leakLatch with
    | true =>
      exact ⟨_, exec_leakTrip_of_latched hen haon hlatch, rfl, rfl, rfl, by simp [leakLatched, modIsland],
        vget_vmod_other _ _ (leakIdx_not_ne b), fun h => absurd h (by simp), fun _ => rfl⟩
    | false =>
      obtain ⟨x, hx, hrecord⟩ := leakLogged_mem b (leakLatched b s)
      have hisland := leakTold_noticesOnly b (leakLogged b (leakLatched b s))
      refine ⟨_, exec_leakTrip_of_first hen haon hstep hlatch,
        onlyIsland_trans (t := leakLogged b (leakLatched b s)) rfl (leakTold_onlyIsland ..), congrArg Island.leakLatch hisland,
        congrArg Island.kill hisland, ?_, ?_, fun _ => ⟨x, (log_prefix_leakTold ..).subset hx, hrecord⟩, fun h => absurd h (by simp)⟩
      · rw [congrArg Island.leak hisland]
        simp [leakLogged, logIsland, leakLatched, modIsland]
      · rw [congrArg Island.leak hisland]
        exact vget_vmod_other _ _ (leakIdx_not_ne b)
  case stage2 =>
    intro s hlatch hkill
    obtain ⟨t, hrun, hlatched, hkilled⟩ := exec_coolingWatchdogStage2_keeps_leak s
    exact ⟨t, hrun, hlatched.trans hlatch, hkilled.trans hkill⟩
  case sensor =>
    intro b s hen hopen hrun
    have hisland := wairiqNotice_noticesOnly (sensorOpened b s) (Config.freeNat s.free % 256) (slotByte s)
      (put 20 1 (leakIdx b).1)
    refine ⟨_, exec_leakSensorOpen_of_enabled hen hopen hrun, ?_, (congrArg Island.leakLatch hisland).trans rfl, ?_,
      by rw [wairiqNotice_mem]; rfl⟩
    · rw [congrArg Island.leak hisland]
      simp [sensorOpened, takeFree, logIsland, modIsland]
    · rw [wairiqNotice_log]
      exact List.length_append
  case cableIn =>
    intro p s hup hport hnone
    refine ⟨fun r hcrc hmagic hversion hkind hlanes hrate hflight => ?_, ?_⟩
    · exact ⟨_, exec_cablePresenceAssert_of_accepted hup hport hnone ⟨hcrc, hmagic, hversion, hkind, hlanes, hrate, hflight⟩,
        vget_vmod_same .., fun q hq => vget_vmod_other _ _ hq, rfl⟩
    · have hframe : OnlyIsland s (notify (cableSet p ⟨true, false⟩ s) 0x0A (slotByte s) (put 20 1 p.1)) :=
        onlyIsland_trans (t := cableSet p ⟨true, false⟩ s) rfl (notify_only ..)
      refine ⟨_, exec_cablePresenceAssert_of_unread hup hport hnone, ?_, onlyIsland_trans hframe rfl, _,
        List.mem_append_right _ (List.mem_singleton_self _), rfl⟩
      exact (congrArg (fun i : Island => i.cable.get p) (notify_noticesOnly (cableSet p ⟨true, false⟩ s) 0x0A (slotByte s) (put 20 1 p.1))).trans
        (vget_vmod_same ..)
  case cableOut =>
    intro p s hup hpres
    obtain ⟨hclock, hst, hothers, hisland, hmem⟩ := portHeld_holds p (cableSet p ⟨false, false⟩ s)
    exact ⟨_, exec_cablePresenceDeassert_of_present hup hpres, by rw [hisland]; exact vget_vmod_same .., hothers, hclock, hst, hmem⟩
  case period =>
    intro n s hrun hperiod hcheck howed hnext
    exact ⟨_, exec_lampPwmPeriod_of_settled hrun hperiod hcheck howed hnext, rfl, rfl, rfl⟩
  case check =>
    intro n ua s hrun hdue hlit
    refine ⟨fun hua => ?_, fun hua => ?_⟩
    · rw [exec_lampOpenCheck_of_pass hrun hdue hlit hua]
      refine ⟨_, rfl, ?_⟩
      split <;> simp [logIsland, lampChecked, modIsland]
    · rw [exec_lampOpenCheck_of_fail hrun hdue hlit hua]
      refine ⟨_, rfl, ?_⟩
      have hlamp : (lampChecked n lampFailed s).island.lamps.get n = { lampFailed (s.island.lamps.get n) with testDue := false } := vget_vmod_same ..
      split
      · have hisland := notify_noticesOnly (logIsland (lampChecked n lampFailed s) 0x0501 0xFF 1 (put 0 1 n.1)) 0x03 (slotByte s) (put 20 1 n.1)
        refine ⟨onlyIsland_trans (t := logIsland (lampChecked n lampFailed s) 0x0501 0xFF 1 (put 0 1 n.1)) rfl (notify_only ..), ?_⟩
        rw [congrArg Island.lamps hisland]
        exact ⟨congrArg Lamp.fails hlamp, congrArg Lamp.isOpen hlamp⟩
      · exact ⟨rfl, congrArg Lamp.fails hlamp, congrArg Lamp.isOpen hlamp⟩

end Sys2Proof.Proofs
end

section
/-! PROOFS. The SMBus side band: bytes of a number, what the governor keeps of a cap, how a transaction reaches its meaning, and the
statement O48 assembled from them. -/

namespace Sys2Proof.Proofs

open Sys2Proof Sys2Proof.Machine Sys2Proof.Safety Sys2Proof.Laws

/-! ## Bytes of a number (R18) -/

@[simp] theorem leBytes_length (n v : Nat) : (leBytes n v).length = n := by
  induction n generalizing v with
  | zero => rfl
  | succ n ih => simp [leBytes, ih]

/-- The first bytes of a number are the number's own in fewer bytes. -/
theorem leBytes_take {k n : Nat} (h : k ≤ n) (v : Nat) : (leBytes n v).take k = leBytes k v := by
  induction k generalizing n v with
  | zero => rfl
  | succ k ih =>
    obtain ⟨m, rfl⟩ : ∃ m, n = m + 1 := ⟨n - 1, by omega⟩
    simp [leBytes, ih (Nat.le_of_succ_le_succ h)]

theorem leNat_leBytes (n v : Nat) : leNat (leBytes n v) = v % 256 ^ n := by
  induction n generalizing v with
  | zero => simp [leBytes, leNat, Nat.mod_one]
  | succ n ih =>
    rw [leBytes, leNat, ih, BitVec.toNat_ofNat, Nat.shiftRight_eq_div_pow, Nat.pow_succ' (n := n)]
    exact Nat.mod_mul.symm

/-- A field placed at byte `k` or above is a multiple of what that byte counts. -/
theorem dvd_put {k off : Nat} (h : k ≤ off) (len v : Nat) : 256 ^ k ∣ put off len v := by
  rw [put, Nat.shiftLeft_eq, Nat.pow_mul 2 8 off]
  exact (pow_dvd_pow 256 h).mul_left _

/-- The field at offset 0 is what the number has below the fields above it. -/
theorem put_zero_add_mod {len r : Nat} (v : Nat) (h : 256 ^ len ∣ r) : (put 0 len v + r) % 256 ^ len = v % 256 ^ len := by
  obtain ⟨q, rfl⟩ := h
  rw [Nat.add_mul_mod_self_left, put, Nat.shiftLeft_zero, Nat.pow_mul]
  exact Nat.mod_mod ..

/-! ## What the limits leave of the governor (R45, R703) -/

/-- Of the governor, only the cap target, the points allowed and the change of point may differ. -/
def OnlyPoints (s t : State) : Prop := t.power = { s.power with
  target := t.power.target, targetAt := t.power.targetAt, allowedAt := t.power.allowedAt, change := t.power.change
  latched := t.power.latched, preRamp := t.power.preRamp }

theorem OnlyPoints.trans {s t u : State} (hst : OnlyPoints s t) (htu : OnlyPoints t u) : OnlyPoints s u := by
  unfold OnlyPoints at *
  rw [htu, hst]

theorem requestOp_onlyPoints (s : State) (target : Fin 5) (cause : OpCause) : OnlyPoints s (requestOp s target cause) := by
  unfold requestOp
  simp only
  split
  · split_ifs <;> rfl
  · split_ifs <;> rfl

theorem activateNext_onlyPoints (s : State) (h : Nat) : OnlyPoints s (activateNext s h).1 := by
  unfold activateNext activateBy
  split
  · rfl
  · split
    · rfl
    · simp only
      split
      · exact .trans (t := modStream s h _) rfl (requestOp_onlyPoints ..)
      · rfl

theorem noteTarget_onlyPoints (s : State) : OnlyPoints s (noteTarget s) := by
  unfold noteTarget
  split <;> rfl

theorem limitCheck_onlyPoints (s : State) : OnlyPoints s (limitCheck s) := by
  have hallowed (v : Vector (Option Tick) 5) :
      OnlyPoints s { noteTarget s with power := { (noteTarget s).power with allowedAt := v } } := (noteTarget_onlyPoints s).trans rfl
  have hlost (v : Vector (Option Tick) 5) (l : List Machine.Stream) : OnlyPoints s (l.foldl (fun t st => (activateNext t st.handle).1)
      { noteTarget s with power := { (noteTarget s).power with allowedAt := v } }) :=
    List.foldlRecOn (motive := OnlyPoints s) l _ (hallowed v) fun t ht st _ => ht.trans (activateNext_onlyPoints t st.handle)
  unfold limitCheck
  simp only
  split_ifs
  · exact (hlost ..).trans (requestOp_onlyPoints ..)
  · exact hlost ..
  · exact (hallowed _).trans (requestOp_onlyPoints ..)
  · exact hallowed _

@[simp] theorem limitCheck_stewardCap (s : State) : (limitCheck s).power.stewardCap = s.power.stewardCap := by
  rw [limitCheck_onlyPoints s]

@[simp] theorem limitCheck_out (s : State) : (limitCheck s).out = s.out := by rw [limitCheck_onlyGovernor s]

/-- A notice sends nothing at once: it waits in the island and in the outbox. -/
@[simp] theorem notify_out (s : State) (code slot data : Nat) : (notify s code slot data).out = s.out := by
  unfold notify
  simp only
  split_ifs <;> rfl

@[simp] theorem notify_power (s : State) (code slot data : Nat) : (notify s code slot data).power = s.power := by
  rw [notify_only s code slot data]

/-- A CAP applied here becomes the steward cap and sends nothing at once (R805). -/
theorem applyOwnCap_applies (s : State) (mw : Nat) :
    (applyOwnCap s mw).power.stewardCap = some mw ∧ (applyOwnCap s mw).out = s.out := by
  simp [applyOwnCap]

/-! ## How a transaction reaches its meaning (R809, R886) -/

/-- A bad PEC is not acknowledged. -/
theorem onSmb_of_badPec {s : State} {b : Smb} (haon : s.seq.aonRst = false) (hup : s.island.up = true) (hpec : b.pecOk = false) (rom : Bool)
    (f : State → State) : onSmb s b rom f = { s with out := s.out ++ [.smb none] } := by
  simp [onSmb, haon, hup, hpec, smbNack, emit]

/-- With a good PEC the island's own firmware answers. -/
theorem onSmb_of_taken {s : State} {b : Smb} (h : SmbTaken s b) (rom : Bool) (f : State → State) : onSmb s b rom f = f s := by
  obtain ⟨haon, hup, hrom, hpec⟩ := h
  simp [onSmb, haon, hup, hrom, hpec]

/-! ## The transactions (Table 13-9) -/

/-- The sequence number from which LOG answers: the one written now, or else the one before. -/
def smbLogStart (b : Smb) (s : State) : Nat := if b.data = [] then s.island.smbLogFrom else leNat b.data

section
variable {s : State} {b : Smb} (h : SmbTaken s b)
include h

/-- STATUS answers the sequencer's state first. -/
theorem exec_smbusStatus_of_taken : ∃ v, exec (.smbusStatus b) s = .next (smbAck s (leBytes 7 v))
    ∧ v % 256 = seqCode (shownState s) % 256 := by
  refine ⟨_, congrArg Host.Outcome.next (onSmb_of_taken h ..), ?_⟩
  simp only [Nat.add_assoc]
  refine put_zero_add_mod (len := 1) _ (Nat.dvd_add ?_ (Nat.dvd_add ?_ (Nat.dvd_add ?_ (Nat.dvd_add ?_ (Nat.dvd_add ?_ ?_)))))
  all_goals exact dvd_put (by decide) ..

theorem exec_smbusThermal_of_taken : ∃ v, exec (.smbusThermal b) s = .next (smbAck s (leBytes 3 v)) :=
  ⟨_, congrArg Host.Outcome.next (onSmb_of_taken h ..)⟩

theorem exec_smbusPowerReading_of_taken : exec (.smbusPowerReading b) s
    = .next (smbAck s (leBytes 8 (put 0 4 (satTo 32 s.power.estMw) + put 4 4 (s.power.stewardCap.getD 0)))) :=
  congrArg Host.Outcome.next (onSmb_of_taken h ..)

theorem exec_smbusNotice_of_read (hread : ∀ n ∈ s.island.notices, n.smbRead = true) :
    exec (.smbusNotice b) s = .next (smbAck s []) := by
  have hnone : (s.island.notices.find? fun n => !n.smbRead) = none := List.find?_eq_none.2 fun n hn => by simp [hread n hn]
  refine congrArg Host.Outcome.next ((onSmb_of_taken h ..).trans ?_)
  simp only [hnone]

theorem exec_smbusNotice_of_unread {n : Notice} {r : List Notice} (hheld : s.island.notices = n :: r) (hunread : n.smbRead = false) :
    exec (.smbusNotice b) s = .next (smbAck (modIsland s fun i => { i with notices := { n with smbRead := true } :: r })
      ([n.code, n.slot] ++ leBytes 44 n.data.toNat)) := by
  refine congrArg Host.Outcome.next ((onSmb_of_taken h ..).trans ?_)
  simp [hheld, hunread, modIsland, readNotice]

theorem exec_smbusLog_of_taken : exec (.smbusLog b) s = .next (smbAck (modIsland s fun i => { i with smbLogFrom := smbLogStart b s })
    ((s.island.log.filter fun r => decide (smbLogStart b s ≤ r.seq)).flatMap logBytes)) := by
  refine congrArg Host.Outcome.next ((onSmb_of_taken h ..).trans ?_)
  have hstart : (if b.data.isEmpty then s.island.smbLogFrom else leNat b.data) = smbLogStart b s := by simp [smbLogStart]
  simp only [hstart]

theorem exec_smbusPower_off (hdata : b.data = [0]) : exec (.smbusPower b) s = .next (smbAck (requestOff s) []) := by
  refine congrArg Host.Outcome.next ((onSmb_of_taken h ..).trans ?_)
  simp [hdata]

theorem exec_smbusCap_of_alone (hlen : b.data.length = 4) (htray : s.island.trayEn = false) (hlo : 15000 ≤ leNat b.data)
    (hhi : leNat b.data ≤ 130000) : exec (.smbusCap b) s = .next (smbAck (applyOwnCap s (leNat b.data)) []) := by
  have hpos : leNat b.data ≠ 0 := by omega
  refine congrArg Host.Outcome.next ((onSmb_of_taken h ..).trans ?_)
  simp [hlen, htray, hlo, hhi, hpos]

theorem exec_smbusCap_of_ethernet (htray : s.island.trayEn = true) (heth : hasEth s.fuses.variant = true) :
    exec (.smbusCap b) s = .next (smbNack s) := by
  refine congrArg Host.Outcome.next ((onSmb_of_taken h ..).trans ?_)
  simp [htray, trayEth, heth]

theorem exec_smbusServiceArm_of_action {a : Byte} {r : List Byte} (hdata : b.data = a :: r) :
    exec (.smbusServiceArm b) s = .next (smbAck (modIsland s fun i => { i with arm := some (a.toNat, now s) }) []) := by
  refine congrArg Host.Outcome.next ((onSmb_of_taken h ..).trans ?_)
  simp only [hdata]

theorem exec_smbusServiceGo_of_unarmed
    (harm : ∀ a r x k, b.data = a :: r → s.island.arm = some (x, k) → a.toNat ≠ x ∨ passed s k 24576001 = true) :
    exec (.smbusServiceGo b) s = .next (smbNack s) := by
  refine congrArg Host.Outcome.next ((onSmb_of_taken h ..).trans ?_)
  split
  · rename_i a r x k hdata hx
    refine if_neg ?_
    rcases harm a r x k hdata hx with hother | hlate
    · simp [hother]
    · simp [hlate]
  · rfl

theorem exec_smbusServiceGo_clears_shut {r : List Byte} {k : Tick} (hdata : b.data = 3 :: r) (harm : s.island.arm = some (3, k))
    (hearly : passed s k 24576001 = false) (hstate : s.seq.state = .s1) :
    exec (.smbusServiceGo b) s = .next (smbAck (modSeq (modIsland s fun i => { i with arm := none }) fun q => { q with shut := false }) []) := by
  have hclear : ∀ v, doService (modIsland s fun i => { i with arm := none }) 3 v
      = (modSeq (modIsland s fun i => { i with arm := none }) fun q => { q with shut := false }, true) := fun v =>
    if_pos (by simp [shownState, hstate])
  refine congrArg Host.Outcome.next ((onSmb_of_taken h ..).trans ?_)
  simp [hdata, harm, hearly, hclear]

theorem exec_smbusLamp_of_duty {n : LampId} {d : Nat} (hdata : b.data = BitVec.ofNat 8 n.1 :: leBytes 2 d) (hd : d ≤ 1000) :
    exec (.smbusLamp b) s = .next (smbAck (setLamp s n d) []) := by
  have hn : n.1 < 4 := n.2
  have hlamp : bfld b.data 0 1 = n.1 := by
    simp [hdata, bfld, slice, leNat, Nat.mod_eq_of_lt (hn.trans (by decide) : n.1 < 256)]
  have hduty : bfld b.data 1 2 = d := by
    rw [hdata, bfld, slice, List.drop_succ_cons, List.drop_zero, leBytes_take le_rfl, leNat_leBytes]
    exact Nat.mod_eq_of_lt (by omega)
  have hlen : b.data.length = 3 := by rw [hdata, List.length_cons, leBytes_length]
  refine congrArg Host.Outcome.next ((onSmb_of_taken h ..).trans ?_)
  simp [hlamp, hduty, hlen, hn, hd, Nat.mod_eq_of_lt hn]

end

/-- Settles O48: each clause runs its transaction by the law above and reads what it answers. -/
theorem smbusTransactionsAnswer : Obligations.SmbusTransactionsAnswer := by
  refine ⟨?badPec, fun b s h => ⟨?status, ?thermal, ?reading, exec_smbusNotice_of_read h, ?notice, ?log, ?power, ?cap,
    fun a r => exec_smbusServiceArm_of_action h, ?go, exec_smbusServiceGo_of_unarmed h, exec_smbusCap_of_ethernet h, ?lamp⟩⟩
  case badPec =>
    intro b s haon hup hpec c hc
    have hdropped (rom : Bool) (f : State → State) : (.next (onSmb s b rom f) : Res') = .next { s with out := s.out ++ [.smb none] } :=
      congrArg Host.Outcome.next (onSmb_of_badPec haon hup hpec rom f)
    simp only [List.mem_cons, List.not_mem_nil, or_false] at hc
    rcases hc with rfl | rfl | rfl | rfl | rfl | rfl | rfl | rfl | rfl | rfl <;> exact hdropped ..
  case status =>
    obtain ⟨v, hrun, hv⟩ := exec_smbusStatus_of_taken h
    exact ⟨_, hrun, leBytes_length .., congrArg some (BitVec.eq_of_toNat_eq (by simpa using hv))⟩
  case thermal =>
    obtain ⟨v, hrun⟩ := exec_smbusThermal_of_taken h
    exact ⟨_, hrun, leBytes_length ..⟩
  case reading =>
    refine ⟨_, exec_smbusPowerReading_of_taken h, leBytes_length .., ?_⟩
    have hsat : satTo 32 s.power.estMw < 256 ^ 4 := by
      rw [satTo]
      omega
    rw [leBytes_take (by decide), leNat_leBytes, put_zero_add_mod _ (dvd_put le_rfl ..), Nat.mod_eq_of_lt hsat]
  case notice => exact fun n r hheld hunread => ⟨_, exec_smbusNotice_of_unread h hheld hunread, rfl, rfl, rfl⟩
  case log => exact ⟨_, exec_smbusLog_of_taken h, rfl, rfl, rfl⟩
  case power =>
    intro hdata hstate hstep
    rw [exec_smbusPower_off h hdata, requestOff_of_s6 h.1 hstate hstep]
    exact ⟨_, rfl, rfl, rfl⟩
  case cap =>
    intro hlen htray hlo hhi
    obtain ⟨hcap, hout⟩ := applyOwnCap_applies s (leNat b.data)
    exact ⟨_, exec_smbusCap_of_alone h hlen htray hlo hhi, hcap, congrArg (· ++ _) hout⟩
  case go =>
    intro r k hdata harm
    refine ⟨fun hearly hstate => exec_smbusServiceGo_clears_shut h hdata harm hearly hstate,
      fun hlate => exec_smbusServiceGo_of_unarmed h fun a r x t _ hx => .inr ?_⟩
    obtain ⟨-, rfl⟩ := Prod.mk.inj (Option.some.inj (harm.symm.trans hx))
    exact hlate
  case lamp =>
    intro n d hdata hd
    exact ⟨_, exec_smbusLamp_of_duty h hdata hd, by simp [setLamp, modIsland, smbAck], rfl, rfl, fun k hk => vget_vmod_other _ _ hk⟩

end Sys2Proof.Proofs
end

section
/-! PROOFS. What every command keeps: the queue, the canonical form of memory, the bounds of the overflow log and of the fault record, and
channel 0's tenant. One relation carries all of them through the model, with one lemma for each function that answers a state; the
statements O57, O58 and O59 are read off it. -/

namespace Sys2Proof.Proofs

open Sys2Proof Sys2Proof.Machine Sys2Proof.Safety Sys2Proof.Laws

set_option Elab.async false

/-! ## The relation -/

/-- What every command keeps of the state `s₀` it finds: the queue as it is, and each invariant where it held. It reads a state through six
fields only, so an update of any other field keeps it by definition. -/
def Keeps (s₀ s : State) : Prop :=
  s.pending = s₀.pending ∧ (s₀.mem.wf → s.mem.wf) ∧ (HostOk s₀ → HostOk s) ∧ (RecordOk s₀ → RecordOk s)

/-- A command answers a next state that keeps what it found. -/
def KeepsNext (s₀ : State) (r : Res') : Prop := ∃ t, r = .next t ∧ Keeps s₀ t

theorem Keeps.refl (s : State) : Keeps s s := ⟨rfl, id, id, id⟩

section
variable {s₀ s : State}

theorem KeepsNext.next (hk : Keeps s₀ s) : KeepsNext s₀ (.next s) := ⟨s, rfl, hk⟩

/-- An update of fields that the relation does not read, memory, the host interface and the island among them where the parts it reads stay. -/
theorem Keeps.set {fuses time host fw flash mem engines itins streams snaps power seq island audio fabric tap out free} (hk : Keeps s₀ s)
    (hc : mem.cells = s.mem.cells := by exact rfl) (hl : host.log = s.host.log := by exact rfl)
    (hch : host.channels = s.host.channels := by exact rfl) (hst : island.standing = s.island.standing := by exact rfl)
    (hh : island.history = s.island.history := by exact rfl) :
    Keeps s₀ ⟨fuses, time, host, fw, flash, mem, engines, itins, streams, snaps, power, seq, island, audio, fabric, tap, out, free, s.pending⟩ := by
  obtain ⟨hq, hmem, hhost, hrec⟩ := hk
  refine ⟨hq, fun h => ?_, fun h => ?_, fun h => ?_⟩
  · rw [Mem.wf, hc]; exact hmem h
  · rw [HostOk, hl, hch]; exact hhost h
  · rw [RecordOk, hst, hh]; exact hrec h

/-- Both branches of a choice keep it. -/
theorem Keeps.ite {c : Prop} {_ : Decidable c} {t : State} (hs : Keeps s₀ s) (ht : Keeps s₀ t) : Keeps s₀ (if c then s else t) := by
  split
  · exact hs
  · exact ht

/-- The same of a state that comes with another answer. -/
theorem Keeps.fst_ite {α : Type} {c : Prop} {_ : Decidable c} {p q : State × α} (hp : Keeps s₀ p.1) (hq : Keeps s₀ q.1) :
    Keeps s₀ (if c then p else q).1 := by
  split
  · exact hp
  · exact hq

/-- A fold whose every step keeps it keeps it. -/
theorem Keeps.foldl {α : Type} {f : State → α → State} {l : List α} (hk : Keeps s₀ s) (hf : ∀ t a, Keeps s₀ t → Keeps s₀ (f t a)) :
    Keeps s₀ (l.foldl f s) := by
  induction l generalizing s with
  | nil => exact hk
  | cons a r ih => exact ih (hf s a hk)

/-- Memory may be changed in any way that keeps its canonical form. -/
theorem Keeps.withMem {m : Mem} (hk : Keeps s₀ s) (hm : s.mem.wf → m.wf) : Keeps s₀ { s with mem := m } := by
  obtain ⟨hq, hmem, hhost, hrec⟩ := hk
  exact ⟨hq, hm ∘ hmem, hhost, hrec⟩

/-- The host interface may be changed in any way that keeps its invariant. -/
theorem Keeps.withHost {x : HostIf} (hk : Keeps s₀ s)
    (hx : s.host.log.length ≤ 4096 ∧ (s.host.channels.get 0).tenant = 0 → x.log.length ≤ 4096 ∧ (x.channels.get 0).tenant = 0) :
    Keeps s₀ { s with host := x } := by
  obtain ⟨hq, hmem, hhost, hrec⟩ := hk
  exact ⟨hq, hmem, hx ∘ hhost, hrec⟩

/-- The fault record may be changed in any way that keeps its bounds. -/
theorem Keeps.withIsland {x : Island} (hk : Keeps s₀ s) (hx : RecordOk s → RecordOk { s with island := x }) :
    Keeps s₀ { s with island := x } := by
  obtain ⟨hq, hmem, hhost, hrec⟩ := hk
  exact ⟨hq, hmem, hhost, hx ∘ hrec⟩

/-- A channel may be changed in any way that leaves tenant 0 at 0. -/
theorem Keeps.modMem {f} (hk : Keeps s₀ s) (hc : (f s.mem).cells = s.mem.cells := by exact rfl) : Keeps s₀ (modMem s f) := hk.set hc

theorem Keeps.modIsland {f} (hk : Keeps s₀ s) (hst : (f s.island).standing = s.island.standing := by exact rfl)
    (hh : (f s.island).history = s.island.history := by exact rfl) : Keeps s₀ (modIsland s f) := hk.set rfl rfl rfl hst hh

theorem Keeps.modChan {ch f} (hk : Keeps s₀ s) (hf : ∀ c : Chan, c.tenant = 0 → (f c).tenant = 0 := by exact fun _ h => h) :
    Keeps s₀ (modChan s ch f) := by
  refine hk.withHost fun ⟨hlog, ht⟩ => ⟨hlog, ?_⟩
  rw [vget_vmod]
  split
  · next h => subst h; exact hf _ ht
  · exact ht

theorem Keeps.sendMsix {vec} (hk : Keeps s₀ s) : Keeps s₀ (sendMsix s vec) := .ite hk hk

theorem Keeps.raiseIrq {c} (hk : Keeps s₀ s) : Keeps s₀ (raiseIrq s c) :=
  have hset : Keeps s₀ { s with host := { s.host with irqCause := s.host.irqCause ||| (1#32 <<< c) } } := hk
  .ite hset hset.sendMsix

theorem Keeps.emit {o} (hk : Keeps s₀ s) : Keeps s₀ (emit s o) := hk

theorem Keeps.takeFree (hk : Keeps s₀ s) : Keeps s₀ (takeFree s).2 := hk

theorem Keeps.modEngine {e f} (hk : Keeps s₀ s) : Keeps s₀ (modEngine s e f) := hk

theorem Keeps.releaseOwner {o} (hk : Keeps s₀ s) : Keeps s₀ (releaseOwner s o) := hk

theorem Keeps.complete {m st result} (hk : Keeps s₀ s) : Keeps s₀ (complete s m st result) := hk

theorem Keeps.postEvent {code payload} (hk : Keeps s₀ s) : Keeps s₀ (postEvent s code payload) := hk

theorem Keeps.logDie {code unit sev data} (hk : Keeps s₀ s) : Keeps s₀ (logDie s code unit sev data) := hk

theorem Keeps.logIsland {code unit sev data} (hk : Keeps s₀ s) : Keeps s₀ (logIsland s code unit sev data) := hk

theorem Keeps.faultHistory {code unit data} (hk : Keeps s₀ s) : Keeps s₀ (faultHistory s code unit data) :=
  hk.withIsland fun h => faultHistory_ok h code unit data

theorem Keeps.faultStanding {code unit data} (hk : Keeps s₀ s) : Keeps s₀ (faultStanding s code unit data) := by
  rw [faultStanding_only]
  exact hk.withIsland fun h => by rw [← faultStanding_only]; exact faultStanding_ok h code unit data

theorem Keeps.notify {code slot data} (hk : Keeps s₀ s) : Keeps s₀ (notify s code slot data) := .ite (.postEvent (.ite hk hk)) (.ite hk hk)

theorem Keeps.sendTray {dest k} (hk : Keeps s₀ s) : Keeps s₀ (sendTray s dest k) := hk

theorem Keeps.modStream {h f} (hk : Keeps s₀ s) : Keeps s₀ (modStream s h f) := hk

theorem Keeps.enqueue {p vc cls k} (hk : Keeps s₀ s) : Keeps s₀ (enqueue s p vc cls k) := .ite hk hk

theorem Keeps.forward {k came} (hk : Keeps s₀ s) : Keeps s₀ (forward s k came) := by
  unfold Machine.forward
  split
  · exact hk.enqueue
  · exact hk

theorem Keeps.sendPacket {k} (hk : Keeps s₀ s) : Keeps s₀ (sendPacket s k) := by
  unfold Machine.sendPacket
  split
  · exact .ite (.forward hk) hk
  · exact hk.forward

theorem Keeps.sendWaitingFor {via} (hk : Keeps s₀ s) : Keeps s₀ (sendWaitingFor s via) := .foldl hk fun _ _ hk => (.ite (.forward hk) hk)

theorem Keeps.linkPacket {p k} (hk : Keeps s₀ s) : Keeps s₀ (linkPacket s p k) := hk.enqueue

theorem Keeps.sendMgmt {dest k} (hk : Keeps s₀ s) : Keeps s₀ (sendMgmt s dest k) := hk

theorem Keeps.sendNeighbours {k} (hk : Keeps s₀ s) : Keeps s₀ (sendNeighbours s k) := .foldl hk fun _ _ hk => hk

theorem Keeps.askPackets {dest op tag addr len data} (hk : Keeps s₀ s) : Keeps s₀ (askPackets s dest op tag addr len data) :=
  .foldl hk fun _ _ hk => hk.sendPacket

theorem Keeps.readRemote {move addr len} (hk : Keeps s₀ s) : Keeps s₀ (readRemote s move addr len) := .askPackets hk

theorem Keeps.moveRemote {move addr len data} (hk : Keeps s₀ s) : Keeps s₀ (moveRemote s move addr len data) := .askPackets hk

theorem Keeps.applyRetest {e kept demoted} (hk : Keeps s₀ s) : Keeps s₀ (applyRetest s e kept demoted) := hk

theorem Keeps.capacityReduced {e demoted} (hk : Keeps s₀ s) : Keeps s₀ (capacityReduced s e demoted) := .foldl hk fun _ _ hk => hk

theorem Keeps.refetch {h items} (hk : Keeps s₀ s) : Keeps s₀ (refetch s h items) := by
  unfold Machine.refetch
  refine .foldl hk fun _ _ hk => ?_
  split
  · exact hk
  · exact hk

theorem Keeps.endFrame {h st tier kind info} (hk : Keeps s₀ s) : Keeps s₀ (endFrame s h st tier kind info) := by
  unfold Machine.endFrame
  split
  · exact .ite hk (.refetch (.foldl hk fun _ _ hk => hk))
  · exact hk

theorem Keeps.logTierFault {addr h} (hk : Keeps s₀ s) : Keeps s₀ (logTierFault s addr h) := hk

theorem Keeps.tierFault {h tier addr} (hk : Keeps s₀ s) : Keeps s₀ (tierFault s h tier addr) := by
  unfold Machine.tierFault
  split
  · exact hk
  · exact .ite hk hk.endFrame.logTierFault

theorem Keeps.endOnMove {h m st tier} (hk : Keeps s₀ s) : Keeps s₀ (endOnMove s h m st tier) := by
  unfold Machine.endOnMove
  split
  · exact hk
  · exact .ite hk hk.endFrame.logTierFault

theorem Keeps.startRead {h m} (hk : Keeps s₀ s) : Keeps s₀ (startRead s h m) :=
  .ite (.ite hk hk.endOnMove) (.ite (.ite hk.readRemote hk.endOnMove) hk)

theorem Keeps.issueMove {h m} (hk : Keeps s₀ s) : Keeps s₀ (issueMove s h m) := .startRead hk

theorem Keeps.queueMove {it h m may} (hk : Keeps s₀ s) : Keeps s₀ (queueMove s it h m may) := .ite (.issueMove hk) hk

theorem Keeps.addMove {st it layer item src len dstTier lastUse pin switch} (hk : Keeps s₀ s) : Keeps s₀ (addMove s st it layer item src len dstTier lastUse pin switch) :=
  hk.queueMove

theorem Keeps.moveToT0 {st it layer item lastUse pin e} (hk : Keeps s₀ s) : Keeps s₀ (moveToT0 s st it layer item lastUse pin e) :=
  .queueMove (.ite hk hk.addMove)

theorem Keeps.issueSchedule {h layer} (hk : Keeps s₀ s) : Keeps s₀ (issueSchedule s h layer) := by
  unfold Machine.issueSchedule
  split
  · exact .foldl hk fun _ _ hk => (.ite (.ite hk hk.moveToT0) (.ite hk hk.addMove))
  · exact hk

theorem Keeps.restage {e h old} (hk : Keeps s₀ s) : Keeps s₀ (restage s e h old) := by
  unfold Machine.restage
  split
  · split
    · exact hk
    · exact .ite hk (.ite hk (.foldl hk fun _ _ hk => hk.moveToT0))
  · exact hk

theorem Keeps.issuePages {h layer} (hk : Keeps s₀ s) : Keeps s₀ (issuePages s h layer) := by
  unfold Machine.issuePages
  split
  · split
    · exact hk
    · exact .foldl hk fun _ _ hk => (.foldl hk fun _ _ hk => hk.addMove)
  · exact hk

theorem Keeps.frameStartsLayer {h layer} (hk : Keeps s₀ s) : Keeps s₀ (frameStartsLayer s h layer) := hk.issueSchedule.issuePages

theorem Keeps.endOnPage {h p} (hk : Keeps s₀ s) : Keeps s₀ (endOnPage s h p) := hk.endFrame.logTierFault

theorem Keeps.moveMapping {e} (hk : Keeps s₀ s) : Keeps s₀ (moveMapping s e) := hk

theorem Keeps.restageAll {before e} (hk : Keeps s₀ s) : Keeps s₀ (restageAll before s e) := .foldl hk fun _ _ hk => hk.restage

theorem Keeps.endAllInternal (hk : Keeps s₀ s) : Keeps s₀ (endAllInternal s) := .ite hk (.foldl hk fun _ _ hk => hk.endFrame)

theorem Keeps.engineFault {e cause} (hk : Keeps s₀ s) : Keeps s₀ (engineFault s e cause) :=
  .ite hk (.ite (.postEvent (.restageAll (.moveMapping (.modEngine (.postEvent (.faultStanding (.foldl (.modEngine (.set
    (.foldl hk fun _ _ hk => hk))) fun _ _ hk => hk))))))) (.endAllInternal (.capacityReduced (.restageAll (.applyRetest (.postEvent
      (.faultStanding (.foldl (.modEngine (.set (.foldl hk fun _ _ hk => hk))) fun _ _ hk => hk))))))))

theorem Keeps.laybyFailed {cause detail} (hk : Keeps s₀ s) : Keeps s₀ (laybyFailed s cause detail) := .postEvent (.faultStanding hk)

theorem Keeps.onMail {m op f} (hk : Keeps s₀ s) (hf : ∀ t, Keeps s₀ t → Keeps s₀ (f t)) : Keeps s₀ (onMail m op s f) :=
  .ite hk (.ite hk (hf s hk))

theorem Keeps.refuse {m l go} (hk : Keeps s₀ s) (hgo : ∀ t, Keeps s₀ t → Keeps s₀ (go t)) : Keeps s₀ (refuse s m l go) := by
  unfold Machine.refuse
  split
  · exact hk
  · exact hgo s hk

theorem Keeps.writeRecord {m buf len rec_ extra} (hk : Keeps s₀ s) : Keeps s₀ (writeRecord s m buf len rec_ extra) := .ite hk (.ite hk (.ite hk hk))

theorem Keeps.onStream {m h bad f} (hk : Keeps s₀ s) (hf : ∀ st, Keeps s₀ (f st)) : Keeps s₀ (onStream s m h bad f) := by
  unfold Machine.onStream
  split
  · exact hk
  · exact .ite hk (.ite hk (hf _))

theorem Keeps.applySteward (hk : Keeps s₀ s) : Keeps s₀ (applySteward s) := hk

theorem Keeps.applyCap (hk : Keeps s₀ s) : Keeps s₀ (applyCap s) := hk

theorem Keeps.requestOp {target cause} (hk : Keeps s₀ s) : Keeps s₀ (requestOp s target cause) := by
  unfold Machine.requestOp
  extract_lets
  split
  · exact .ite hk (.ite hk (.ite hk hk))
  · exact .ite hk (.ite hk hk)

theorem Keeps.activateBy {h order} (hk : Keeps s₀ s) : Keeps s₀ (activateBy s h order).1 := by
  unfold Machine.activateBy
  split
  · exact hk
  · split
    · exact hk
    · exact .ite (.requestOp hk) hk

theorem Keeps.activateNext {h} (hk : Keeps s₀ s) : Keeps s₀ (activateNext s h).1 := hk.activateBy

theorem Keeps.noteTarget (hk : Keeps s₀ s) : Keeps s₀ (noteTarget s) := .ite hk hk

theorem Keeps.limitCheck (hk : Keeps s₀ s) : Keeps s₀ (limitCheck s) :=
  .ite (.requestOp (.ite (.foldl (.set hk.noteTarget) fun _ _ hk => hk.activateNext) (.set hk.noteTarget))) (.ite (.foldl
    (.set hk.noteTarget) fun _ _ hk => hk.activateNext) (.set hk.noteTarget))

theorem Keeps.execOpChangeRequest {target cause} (hk : Keeps s₀ s) : KeepsNext s₀ (execOpChangeRequest target cause s) := .next (.ite hk hk.requestOp)

theorem Keeps.beginDeferred {c} (hk : Keeps s₀ s) : Keeps s₀ (beginDeferred s c) := .ite hk hk

theorem Keeps.execOpChangeGapStart (hk : Keeps s₀ s) : KeepsNext s₀ (execOpChangeGapStart s) := by
  refine .next ?_
  split
  · exact .ite hk.beginDeferred hk
  · exact hk

theorem Keeps.execOpChangeDeferTimeout (hk : Keeps s₀ s) : KeepsNext s₀ (execOpChangeDeferTimeout s) := by
  refine .next ?_
  split
  · exact .ite hk.beginDeferred hk
  · exact hk

theorem Keeps.execOpStopBegin (hk : Keeps s₀ s) : KeepsNext s₀ (execOpStopBegin s) := by
  refine .next ?_
  split
  · exact .ite hk hk
  · exact hk

theorem Keeps.endStop {c settled} (hk : Keeps s₀ s) : Keeps s₀ (endStop s c settled) := by
  unfold Machine.endStop
  extract_lets
  split
  · exact hk
  · exact .ite hk hk

theorem Keeps.execOpStopSettled (hk : Keeps s₀ s) : KeepsNext s₀ (execOpStopSettled s) := by
  refine .next ?_
  split
  · exact .ite (.ite hk.endStop hk) (.ite hk hk)
  · exact .ite hk hk

theorem Keeps.execOpStopTimeout {shortMv} (hk : Keeps s₀ s) : KeepsNext s₀ (execOpStopTimeout shortMv s) := by
  refine .next ?_
  split
  · exact .ite hk (.logDie (.set hk.endStop))
  · exact hk

theorem Keeps.execApproachTimeout {e} (hk : Keeps s₀ s) : KeepsNext s₀ (execApproachTimeout e s) := .next (.ite hk.engineFault hk)

/-- Taking what is free reserves capacity and nothing else. -/
theorem Keeps.takeNeed {o tenant x t} (hk : Keeps s₀ s) (ht : takeNeed s o tenant x = some t) : Keeps s₀ t := by
  have hspread (l : List McId) (a : State × Nat) (ha : Keeps s₀ a.1) : Keeps s₀ (l.foldl (fun (a : State × Nat) c =>
      let k := min a.2 (freeChan a.1 c)
      if k == 0 then a else (reserve a.1 o tenant 2 c.1 k none, a.2 - k)) a).1 := by
    induction l generalizing a with
    | nil => exact ha
    | cons c r ih => exact ih _ (.fst_ite ha ha)
  unfold Machine.takeNeed at ht
  split at ht
  · cases ht; exact hk
  split at ht
  · cases ht
  split at ht
  · split at ht
    · dsimp only at ht
      split at ht
      · cases ht; exact hspread _ (s, x.n) hk
      · cases ht
    · obtain ⟨c, -, rfl⟩ := Option.map_eq_some_iff.1 ht
      exact hk
  split at ht
  · obtain ⟨c, -, rfl⟩ := Option.map_eq_some_iff.1 ht
    exact hk
  · cases ht; exact hk

theorem Keeps.takeAll {o tenant l t} (hk : Keeps s₀ s) (ht : takeAll s o tenant l = some t) : Keeps s₀ t := by
  induction l generalizing s with
  | nil => cases ht; exact hk
  | cons x r ih =>
    obtain ⟨u, hu, hr⟩ := Option.bind_eq_some_iff.1 ht
    exact ih (hk.takeNeed hu) hr

theorem Keeps.sendRecalls (hk : Keeps s₀ s) : Keeps s₀ (sendRecalls s) := by
  unfold Machine.sendRecalls
  refine .foldl hk fun _ _ hk => ?_
  split
  · exact hk
  · exact hk

theorem Keeps.recallNeeds {req l} (hk : Keeps s₀ s) : Keeps s₀ (recallNeeds s req l) := .sendRecalls (.foldl hk fun _ _ hk => (.ite hk hk))

theorem Keeps.finishLimits (hk : Keeps s₀ s) : Keeps s₀ (finishLimits s) := by
  unfold Machine.finishLimits
  refine .ite hk ?_
  refine .foldl hk fun _ _ hk => ?_
  split
  · exact hk
  · exact hk

theorem Keeps.takeBack {b base} (hk : Keeps s₀ s) : Keeps s₀ (takeBack s b base) := .finishLimits (.sendRecalls hk)

theorem Keeps.modWait {req f} (hk : Keeps s₀ s) : Keeps s₀ (modWait s req f) := hk

theorem Keeps.askLender {req} (hk : Keeps s₀ s) : Keeps s₀ (askLender s req).1 := by
  unfold Machine.askLender
  split
  · exact hk
  · refine .fst_ite hk ?_
    split
    · exact hk
    · exact .fst_ite hk hk

theorem Keeps.askAll (hk : Keeps s₀ s) : Keeps s₀ (askAll s) := .foldl hk fun _ _ hk => hk.askLender

theorem Keeps.dropWaiting {req} (hk : Keeps s₀ s) : Keeps s₀ (dropWaiting s req) := hk

theorem Keeps.returnLoans {o} (hk : Keeps s₀ s) : Keeps s₀ (returnLoans s o) := by
  unfold Machine.returnLoans
  refine .foldl hk fun _ _ hk => ?_
  split
  · exact hk
  · exact .ite hk hk

theorem Keeps.freeRooms (hk : Keeps s₀ s) : Keeps s₀ (freeRooms s) := hk

theorem Keeps.releaseAll {o} (hk : Keeps s₀ s) : Keeps s₀ (releaseAll s o) := hk.returnLoans.releaseOwner.freeRooms

theorem Keeps.assignRoom {l} (hk : Keeps s₀ s) : Keeps s₀ (assignRoom s l) := by
  unfold Machine.assignRoom
  refine .ite hk ?_
  split
  · exact hk
  · exact hk

theorem Keeps.assignRooms (hk : Keeps s₀ s) : Keeps s₀ (assignRooms s) := .foldl hk fun _ _ hk => hk.assignRoom

theorem Keeps.takeLoan {w tenant lender base n} (hk : Keeps s₀ s) : Keeps s₀ (takeLoan s w tenant lender base n) :=
  .modWait (.ite (.assignRoom hk) hk)

theorem Keeps.endLoan {l} (hk : Keeps s₀ s) : Keeps s₀ (endLoan s l) := hk

theorem Keeps.recallMove {lender src dstTier dst n} (hk : Keeps s₀ s) : Keeps s₀ (recallMove s lender src dstTier dst n) := .ite (.readRemote hk) hk

theorem Keeps.nextRecallMove (hk : Keeps s₀ s) : Keeps s₀ (nextRecallMove s) := by
  unfold Machine.nextRecallMove
  refine .ite hk ?_
  split
  · exact hk
  · exact .ite (.readRemote hk) hk

theorem Keeps.seekFor {l n} (hk : Keeps s₀ s) : Keeps s₀ (seekFor s l n).1 := .fst_ite hk (.fst_ite (.askLender hk) (.dropWaiting (.askLender hk)))

theorem Keeps.copyToRoom {l} (hk : Keeps s₀ s) : Keeps s₀ (copyToRoom s l) := by
  unfold Machine.copyToRoom
  split
  · exact .recallMove hk
  · exact hk

theorem Keeps.leaveLoan {l} (hk : Keeps s₀ s) : Keeps s₀ (leaveLoan s l) := .ite hk.copyToRoom (.ite hk.seekFor hk.seekFor.copyToRoom)

theorem Keeps.serveRecall {l} (hk : Keeps s₀ s) : Keeps s₀ (serveRecall s l) :=
  .ite hk (.leaveLoan (.foldl hk fun _ _ hk => hk.releaseAll.dropWaiting))

theorem Keeps.searchEnds {w} (hk : Keeps s₀ s) : Keeps s₀ (searchEnds s w) := by
  unfold Machine.searchEnds
  extract_lets
  split
  · exact hk.releaseAll.dropWaiting.copyToRoom
  · exact hk.releaseAll.dropWaiting

theorem Keeps.loseLoan {lost l} (hk : Keeps s₀ s) : Keeps s₀ (loseLoan lost s l) :=
  .nextRecallMove (.freeRooms (.modMem (.foldl hk fun _ _ hk => hk)))

theorem Keeps.recallFailed {m} (hk : Keeps s₀ s) : Keeps s₀ (recallFailed s m) := by
  unfold Machine.recallFailed
  split
  · exact .ite hk.loseLoan (.nextRecallMove (.leaveLoan (.foldl hk fun _ _ hk => hk)))
  · exact .nextRecallMove (.foldl hk fun _ _ hk => hk)

theorem Keeps.redirectReads {src dst n} (hk : Keeps s₀ s) : Keeps s₀ (redirectReads s src dst n) := .foldl hk fun _ _ hk => (.ite hk (.readRemote hk))

theorem Keeps.relocate {src dst n} (hk : Keeps s₀ s) : Keeps s₀ (relocate s src dst n) := .redirectReads hk

theorem Keeps.recallDone {m lender} (hk : Keeps s₀ s) : Keeps s₀ (recallDone s m lender) := by
  unfold Machine.recallDone
  refine .nextRecallMove ?_
  split
  · exact .endLoan (.modMem hk.relocate)
  · exact .freeRooms (.modMem (.modMem hk.relocate))

theorem Keeps.endPass {tier} (hk : Keeps s₀ s) : Keeps s₀ (endPass s tier) := .ite hk hk

theorem Keeps.takeSpare {x t} (hk : Keeps s₀ s) (ht : takeSpare s x = some t) : Keeps s₀ t := by
  unfold Machine.takeSpare at ht
  split at ht <;> split at ht <;> cases ht <;> exact hk

theorem Keeps.columnDue {x} (hk : Keeps s₀ s) : Keeps s₀ (columnDue s x) := .ite hk (.modMem hk.faultStanding)

theorem Keeps.repairRow {x} (hk : Keeps s₀ s) : Keeps s₀ (repairRow s x) := by
  unfold Machine.repairRow
  refine .ite (.ite hk.faultHistory (.modMem hk.faultStanding)) ?_
  split
  · exact .columnDue (.modMem hk.faultHistory)
  · next t ht => exact .columnDue (.modMem (hk.takeSpare ht).faultStanding)

theorem Keeps.rowSeen {x patrol} (hk : Keeps s₀ s) : Keeps s₀ (rowSeen s x patrol) := .ite (.repairRow hk) hk

theorem Keeps.countT0 {x} (hk : Keeps s₀ s) : Keeps s₀ (countT0 s x) := .ite hk hk

theorem Keeps.readT0 {e hit} (hk : Keeps s₀ s) : Keeps s₀ (readT0 s e hit).1 := by
  unfold Machine.readT0
  split
  · exact hk
  · exact .fst_ite hk.countT0.rowSeen.engineFault hk.countT0.rowSeen

theorem Keeps.execRateWindowClose {e chain} (hk : Keeps s₀ s) : KeepsNext s₀ (execRateWindowClose e chain s) := .next (.ite hk hk)

theorem Keeps.execRateBelowMinimum {e} (hk : Keeps s₀ s) : KeepsNext s₀ (execRateBelowMinimum e s) := .next (.ite hk (.ite hk hk))

theorem Keeps.execPacerTokenCredit {e} (hk : Keeps s₀ s) : KeepsNext s₀ (execPacerTokenCredit e s) := .next (.ite hk hk)

theorem Keeps.issueWave {e ballast} (hk : Keeps s₀ s) : Keeps s₀ (issueWave e ballast s) := by
  unfold Machine.issueWave
  refine .ite (.ite hk hk) ?_
  split
  · exact hk
  · refine .ite hk ?_
    split
    · exact .ite hk hk
    · exact .ite hk (.ite hk hk)

theorem Keeps.execWavefrontIssue {e ballast} (hk : Keeps s₀ s) : KeepsNext s₀ (execWavefrontIssue e ballast s) := by
  refine .next (.ite hk ?_)
  extract_lets reads r
  have hr : Keeps s₀ r.1 := .fst_ite hk.readT0 hk
  exact .ite hr.issueWave hr

theorem Keeps.issueStep {e} (hk : Keeps s₀ s) : Keeps s₀ (issueStep e s) := by
  unfold Machine.issueStep
  extract_lets
  split
  · exact hk
  · exact hk

theorem Keeps.execAttentionStepIssue {e residueUpset} (hk : Keeps s₀ s) : KeepsNext s₀ (execAttentionStepIssue e residueUpset s) := by
  refine .next ?_
  extract_lets
  split
  · exact hk
  · exact .ite hk (.ite hk.engineFault (.ite hk.readT0.issueStep hk.readT0))

theorem Keeps.beginSeg {e st it fr sg} (hk : Keeps s₀ s) : Keeps s₀ (beginSeg s e st it fr sg) := by
  unfold Machine.beginSeg
  extract_lets
  split
  · exact hk
  · split
    · exact hk
    · exact hk

theorem Keeps.execSegmentStart {e res} (hk : Keeps s₀ s) : KeepsNext s₀ (execSegmentStart e res s) := by
  refine .next ?_
  refine .ite hk ?_
  split
  · exact hk
  · split
    · refine .ite hk ?_
      extract_lets
      split
      · exact .ite hk (.frameStartsLayer hk)
      · refine .ite (.ite hk (.frameStartsLayer hk)) ?_
        split
        · exact .endOnPage (.ite hk (.frameStartsLayer hk))
        · split
          · exact .tierFault (.ite hk (.frameStartsLayer hk))
          · exact .beginSeg (.ite hk (.frameStartsLayer hk))
    · exact hk

theorem Keeps.execBankDrainComplete {e upsets} (hk : Keeps s₀ s) : KeepsNext s₀ (execBankDrainComplete e upsets s) := by
  refine .next ?_
  extract_lets
  split
  · split
    · exact hk
    · refine .ite hk.engineFault ?_
      refine .ite hk ?_
      extract_lets
      split
      · exact hk
      · exact hk
  · exact hk

theorem Keeps.moveSealed {h before} (hk : Keeps s₀ s) : Keeps s₀ (moveSealed s h before) := by
  unfold Machine.moveSealed
  split
  · split
    · exact hk
    · exact .ite hk (.foldl hk fun _ _ hk => hk.addMove)
  · exact hk

theorem Keeps.storeCommit {h layer before r} (hk : Keeps s₀ s) : Keeps s₀ (storeCommit s h layer before r) := .moveSealed (.ite hk hk)

theorem Keeps.execWaymarkCommit {e res residueUpset} (hk : Keeps s₀ s) : KeepsNext s₀ (execWaymarkCommit e res residueUpset s) := by
  refine .next ?_
  extract_lets
  split
  · split
    · exact hk
    · refine .ite hk ?_
      refine .ite hk.engineFault ?_
      extract_lets
      split
      · exact .ite (.storeCommit hk) (.storeCommit hk)
      · exact hk
  · split
    · exact hk
    · refine .ite hk ?_
      refine .ite hk.engineFault ?_
      extract_lets
      split
      · exact .storeCommit hk
      · exact hk

theorem Keeps.execLaybySelfTest (hk : Keeps s₀ s) : KeepsNext s₀ (execLaybySelfTest s) := .next (.ite hk hk)

theorem Keeps.engageAtStart (hk : Keeps s₀ s) : Keeps s₀ (engageAtStart s) := by
  unfold Machine.engageAtStart
  split
  · exact hk
  · exact hk

theorem Keeps.execLaybySelfTestDone {pass detail} (hk : Keeps s₀ s) : KeepsNext s₀ (execLaybySelfTestDone pass detail s) :=
  .next (.ite hk (.ite (.ite hk (.engageAtStart hk)) (.set hk.laybyFailed)))

theorem Keeps.thermalControl (hk : Keeps s₀ s) : Keeps s₀ (thermalControl s) := hk

theorem Keeps.chargeWindow {raw} (hk : Keeps s₀ s) : Keeps s₀ (chargeWindow s raw) := .foldl hk fun _ _ hk => (.foldl hk fun _ _ hk => hk)

theorem Keeps.accountReason {r ticks} (hk : Keeps s₀ s) : Keeps s₀ (accountReason s r ticks) := .ite hk (.ite hk (.ite hk hk))

theorem Keeps.execThrottleEnd {reason} (hk : Keeps s₀ s) : KeepsNext s₀ (execThrottleEnd reason s) := by
  refine .next ?_
  extract_lets
  split
  · exact hk
  · exact .ite hk (.ite hk hk)

theorem Keeps.closeInterval {r} (hk : Keeps s₀ s) : Keeps s₀ (closeInterval s r) := .foldl hk fun _ _ hk => hk

theorem Keeps.execThrottleEventIntervalClose (hk : Keeps s₀ s) : KeepsNext s₀ (execThrottleEventIntervalClose s) :=
  .next (.ite hk (.closeInterval (.closeInterval hk)))

theorem Keeps.closeWindow {ramp} (hk : Keeps s₀ s) : Keeps s₀ (closeWindow s ramp) := hk

theorem Keeps.estimate (hk : Keeps s₀ s) : Keeps s₀ (execEstimateWindow.estimate s) := by
  unfold execEstimateWindow.estimate
  extract_lets p raw pv est hist mean t high phi cur e s1 ballast s2 s3 s4 due _ s5
  have h2 : Keeps s₀ s2 := .set hk.chargeWindow
  have h3 : Keeps s₀ s3 := .foldl h2 fun _ _ hk => hk.accountReason
  have h4 : Keeps s₀ s4 := .applySteward (.applyCap h3.closeWindow)
  have h5 : Keeps s₀ s5 := .ite (.logDie (.set h4)) h4
  split
  · exact .ite (.set h5) h5
  · exact h5

theorem Keeps.execEstimateWindow (hk : Keeps s₀ s) : KeepsNext s₀ (execEstimateWindow s) := .next (.ite hk hk.noteTarget.estimate)

theorem Keeps.execCalibrationUpdate (hk : Keeps s₀ s) : KeepsNext s₀ (execCalibrationUpdate s) := .next (.ite hk (.ite hk (.ite hk hk)))

theorem Keeps.execCalibrationFreezeGuard (hk : Keeps s₀ s) : KeepsNext s₀ (execCalibrationFreezeGuard s) := .next (.ite hk hk)

theorem Keeps.execOpReturnHoldExpiry (hk : Keeps s₀ s) : KeepsNext s₀ (execOpReturnHoldExpiry s) := by
  refine .next ?_
  refine .ite hk ?_
  split
  · exact hk.requestOp
  · exact hk

theorem Keeps.execDroopTrip {e quadrant sagMv} (hk : Keeps s₀ s) : KeepsNext s₀ (execDroopTrip e quadrant sagMv s) := .next (.ite hk hk)

theorem Keeps.execDroopRelease {e sags} (hk : Keeps s₀ s) : KeepsNext s₀ (execDroopRelease e sags s) := .next (.ite hk hk)

theorem Keeps.execDroopHoldTimeout {e quadrant senseSagMv} (hk : Keeps s₀ s) : KeepsNext s₀ (execDroopHoldTimeout e quadrant senseSagMv s) := by
  refine .next ?_
  extract_lets
  split
  · exact hk
  · exact .ite hk (.ite hk (.ite hk (.limitCheck hk)))

theorem Keeps.takeReading {n r} (hk : Keeps s₀ s) : Keeps s₀ (takeReading s n r) := .ite hk hk

theorem Keeps.execThermalSensorRead {n reading} (hk : Keeps s₀ s) : KeepsNext s₀ (execThermalSensorRead n reading s) := by
  refine .next ?_
  refine .ite hk ?_
  refine .limitCheck ?_
  refine .thermalControl ?_
  refine .ite (.takeReading (.ite hk hk)) ?_
  split
  · exact .takeReading (.ite hk hk)
  · exact .ite hk hk

theorem Keeps.execThermalPointDrop (hk : Keeps s₀ s) : KeepsNext s₀ (execThermalPointDrop s) := by
  refine .next ?_
  split
  · exact .ite hk (.limitCheck hk)
  · exact hk

theorem Keeps.execThermalPointReturn (hk : Keeps s₀ s) : KeepsNext s₀ (execThermalPointReturn s) := .next (.ite hk (.limitCheck hk))

theorem Keeps.applyTrim {mv} (hk : Keeps s₀ s) : Keeps s₀ (applyTrim s mv) := .ite (.requestOp hk) hk

theorem Keeps.execAgeingTrimRun {cause counts} (hk : Keeps s₀ s) : KeepsNext s₀ (execAgeingTrimRun cause counts s) := by
  refine .next ?_
  dsimp only
  split
  · exact hk
  · exact .ite hk (.ite (.ite hk.applyTrim (.ite hk.applyTrim hk)) (.ite hk.applyTrim hk))

theorem Keeps.execEnergyChargeSend (hk : Keeps s₀ s) : KeepsNext s₀ (execEnergyChargeSend s) := .next (.ite hk (.set (.foldl hk fun _ _ hk => hk)))

theorem Keeps.execEnergyChargeReceive {p h uj} (hk : Keeps s₀ s) : KeepsNext s₀ (execEnergyChargeReceive p h uj s) := .next (.ite hk hk)

theorem Keeps.execPwrCapSet {m} (hk : Keeps s₀ s) : KeepsNext s₀ (execPwrCapSet m s) :=
  .next (.onMail hk fun _ hk => (.ite hk (.complete (.limitCheck hk))))

theorem Keeps.execPwrReport {m} (hk : Keeps s₀ s) : KeepsNext s₀ (execPwrReport m s) := .next (.onMail hk fun _ hk => (.ite hk hk.writeRecord))

theorem Keeps.execOpSet {m} (hk : Keeps s₀ s) : KeepsNext s₀ (execOpSet m s) := .next (.onMail hk fun _ hk => (.ite hk (.complete (.requestOp hk))))

theorem Keeps.execEnergyRead {m} (hk : Keeps s₀ s) : KeepsNext s₀ (execEnergyRead m s) :=
  .next (.onMail hk fun _ hk => (.ite hk (.ite hk (.onStream hk fun _ => hk))))

theorem Keeps.startGrid {h t} (hk : Keeps s₀ s) : Keeps s₀ (startGrid s h t) := by
  unfold Machine.startGrid
  split
  · exact hk
  · exact hk

theorem Keeps.variantThere {d} (hk : Keeps s₀ s) : Keeps s₀ (variantThere s d).2 := by
  unfold Machine.variantThere
  split
  · exact hk
  · split
    · exact hk
    · split
      · exact hk
      · exact hk

theorem Keeps.fitThere {img d} (hk : Keeps s₀ s) : Keeps s₀ (fitThere s img d).2 := by
  rw [Machine.fitThere]
  exact hk.variantThere

theorem Keeps.fitOthers {img} (hk : Keeps s₀ s) : Keeps s₀ (fitOthers s img).2 := by
  refine List.foldlRecOn (motive := fun a : (Option (FabId × Nat) × Nat) × State => Keeps s₀ a.2) _ _ hk fun a ha d _ => ?_
  have hd : Keeps s₀ (Machine.fitThere a.2 img d).2 := ha.fitThere
  dsimp only
  split <;> exact hd

theorem Keeps.giveHomes {o img src} (hk : Keeps s₀ s) : Keeps s₀ (giveHomes s o img src).2 :=
  List.foldlRecOn (motive := fun a : List (Nat × Nat) × State => Keeps s₀ a.2) _ _ hk fun _ ha _ _ => ha

theorem Keeps.storeHomes {img homes} (hk : Keeps s₀ s) : Keeps s₀ (storeHomes s img homes) := by
  unfold Machine.storeHomes
  refine .foldl hk fun _ _ hk => ?_
  split
  · exact hk
  · exact .ite (.withMem hk fun h => writeBytes_ok h _ _) hk.moveRemote

theorem Keeps.loadNow {m o img fb others} (hk : Keeps s₀ s) : Keeps s₀ (loadNow s m o img fb others) :=
  .complete (.set (.modMem hk.giveHomes.storeHomes))

theorem Keeps.giveUp {m st} (hk : Keeps s₀ s) : Keeps s₀ (giveUp s m st) := by
  unfold Machine.giveUp
  split
  · exact hk.releaseAll.dropWaiting.complete
  · exact hk

theorem Keeps.holdOnce {m} (hk : Keeps s₀ s) : Keeps s₀ (holdOnce s m) := .ite hk hk

theorem Keeps.acquire {m named img l go} (hk : Keeps s₀ s) (hgo : ∀ t w, Keeps s₀ t → Keeps s₀ (go t w)) :
    Keeps s₀ (acquire s m named img l go) := by
  unfold Machine.acquire
  extract_lets held n3 a r
  have ha : Keeps s₀ a.1 := by
    dsimp only [a]
    split
    · exact hk
    · exact hk
  have hr : Keeps s₀ r.1 := ha.holdOnce.askLender
  refine .ite hk.giveUp (.ite hk.giveUp (.ite (.ite hr hr.giveUp) ?_))
  split
  · next s1 hs1 => exact hgo _ _ (show Keeps s₀ s1 from ha.takeAll hs1)
  · exact .ite ha.giveUp ha.holdOnce.recallNeeds

theorem Keeps.loadItin {m img} (hk : Keeps s₀ s) : Keeps s₀ (loadItin s m img) := by
  unfold Machine.loadItin
  split
  · exact hk
  · refine .ite hk ?_
    refine .ite hk ?_
    extract_lets
    split
    · exact hk
    · exact hk.fitOthers.complete
    · exact .ite hk.fitOthers.complete (.ite hk.fitOthers.giveUp (.ite hk.fitOthers.giveUp (.ite hk.fitOthers.giveUp
      (.acquire hk.fitOthers fun _ _ hk => hk.loadNow))))

theorem Keeps.execItinLoad {m img read} (hk : Keeps s₀ s) : KeepsNext s₀ (execItinLoad m img read s) := by
  refine .next ?_
  refine .onMail hk fun _ hk => ?_
  refine .ite hk ?_
  refine .ite hk ?_
  split
  · exact hk
  · split
    · exact hk
    · exact hk.loadItin

theorem Keeps.execItinUnload {m} (hk : Keeps s₀ s) : KeepsNext s₀ (execItinUnload m s) := by
  refine .next ?_
  refine .onMail hk fun _ hk => ?_
  split
  · exact hk
  · exact .ite hk (.ite hk (.complete (.modMem (.releaseAll hk))))

theorem Keeps.admitStream {m it p go} (hk : Keeps s₀ s) (hgo : ∀ t st, Keeps s₀ t → Keeps s₀ (go t st)) :
    Keeps s₀ (admitStream s m it p go) := by
  unfold Machine.admitStream
  refine .ite hk.giveUp ?_
  split
  · exact hk.giveUp
  · exact .ite hk.giveUp (.ite hk.giveUp (.acquire hk fun _ _ hk => hgo _ _ hk))

theorem Keeps.openStream {m} (hk : Keeps s₀ s) : Keeps s₀ (openStream s m) := by
  unfold Machine.openStream
  extract_lets
  split
  · exact hk.giveUp
  · exact .ite hk.giveUp (.ite hk.giveUp (.ite hk.giveUp (.admitStream hk fun _ _ hk => hk)))

theorem Keeps.execStreamOpen {m} (hk : Keeps s₀ s) : KeepsNext s₀ (execStreamOpen m s) := .next (.onMail hk fun _ hk => hk.openStream)

theorem Keeps.missEvent {st slot debt again k} (hk : Keeps s₀ s) : Keeps s₀ (missEvent s st slot debt again k) := hk

theorem Keeps.returnBoost {had} (hk : Keeps s₀ s) : Keeps s₀ (returnBoost s had) := .ite hk.requestOp hk

theorem Keeps.leaveCatchup {st slot} (hk : Keeps s₀ s) : Keeps s₀ (leaveCatchup s st slot) := .returnBoost hk

theorem Keeps.fixRelease {h slot release} (hk : Keeps s₀ s) : Keeps s₀ (fixRelease s h slot release) := by
  unfold Machine.fixRelease
  extract_lets
  split
  · exact hk
  · exact .ite hk (.ite (.ite (.leaveCatchup hk) hk) (.modStream (.ite hk (.missEvent (.activateNext hk)))))

theorem Keeps.rebaseFeeds {st release} (hk : Keeps s₀ s) : Keeps s₀ (rebaseFeeds s st release) := by
  unfold Machine.rebaseFeeds
  split
  · exact .ite hk hk
  · exact hk

theorem Keeps.tryFix {h} (hk : Keeps s₀ s) : Keeps s₀ (tryFix s h) := by
  unfold Machine.tryFix
  split
  · exact hk
  · refine .ite hk ?_
    split
    · exact hk
    · refine .ite ?_ (.ite (.fixRelease hk) hk.fixRelease)
      extract_lets
      split
      · exact hk.rebaseFeeds.modStream.fixRelease
      · exact hk.rebaseFeeds.modStream.modStream

theorem Keeps.execStreamStart {m} (hk : Keeps s₀ s) : KeepsNext s₀ (execStreamStart m s) := by
  refine .next ?_
  refine .onMail hk fun _ hk => ?_
  refine .onStream hk fun _ => ?_
  refine .ite hk ?_
  refine .ite hk ?_
  refine .ite hk ?_
  refine .complete ?_
  refine .tryFix ?_
  split
  · exact .modStream (.modStream (.ite hk.startGrid hk))
  · exact .modStream (.ite hk.startGrid hk)

theorem Keeps.acceptFeed {m st it items seqs} (hk : Keeps s₀ s) : Keeps s₀ (acceptFeed s m st it items seqs) := .tryFix hk

theorem Keeps.passFeed {m} (hk : Keeps s₀ s) : Keeps s₀ (passFeed s m) :=
  hk.modChan fun c hc => by
    split
    · exact hc
    · exact hc

theorem Keeps.execStreamFeed {m inputs seqs read} (hk : Keeps s₀ s) : KeepsNext s₀ (execStreamFeed m inputs seqs read s) := by
  refine .next ?_
  refine .ite hk ?_
  refine .ite hk.passFeed.complete ?_
  split
  · exact hk.passFeed.complete
  · refine .ite hk.passFeed.complete ?_
    split
    · exact hk.passFeed.complete
    · extract_lets
      split
      · exact hk.passFeed.complete
      · exact .ite hk.passFeed.complete hk.passFeed.acceptFeed

theorem Keeps.drainCheck {h} (hk : Keeps s₀ s) : Keeps s₀ (drainCheck s h) := by
  unfold Machine.drainCheck
  split
  · exact hk
  · refine .ite hk ?_
    extract_lets
    split
    · exact hk
    · exact hk

theorem Keeps.execStreamDrain {m} (hk : Keeps s₀ s) : KeepsNext s₀ (execStreamDrain m s) :=
  .next (.onMail hk fun _ hk => (.onStream hk fun _ => (.ite hk (.ite hk (.drainCheck hk)))))

theorem Keeps.dropBinds {h} (hk : Keeps s₀ s) : Keeps s₀ (dropBinds s h) := .foldl hk fun _ _ hk => (.releaseAll hk)

theorem Keeps.removeStream {h} (hk : Keeps s₀ s) : Keeps s₀ (removeStream s h) :=
  .returnBoost (.set (.releaseAll (.dropBinds (.modMem (.foldl hk fun _ _ hk => hk)))))

theorem Keeps.discardFeeds {st} (hk : Keeps s₀ s) : Keeps s₀ (discardFeeds s st) := by
  unfold Machine.discardFeeds
  refine .foldl hk fun _ _ hk => ?_
  split
  · exact hk
  · exact hk

theorem Keeps.execStreamClose {m} (hk : Keeps s₀ s) : KeepsNext s₀ (execStreamClose m s) := by
  refine .next ?_
  refine .onMail hk fun _ hk => ?_
  split
  · exact hk
  · exact .ite hk (.ite hk hk.discardFeeds.removeStream.complete)

theorem Keeps.rebaseNow {h} (hk : Keeps s₀ s) : Keeps s₀ (rebaseNow s h) := by
  unfold Machine.rebaseNow
  split
  · exact hk
  · refine .ite hk ?_
    split
    · exact hk
    · exact .ite hk (.tryFix hk)

theorem Keeps.execStreamPolicy {m} (hk : Keeps s₀ s) : KeepsNext s₀ (execStreamPolicy m s) := by
  refine .next ?_
  refine .onMail hk fun _ hk => ?_
  refine .onStream hk fun _ => ?_
  refine .ite hk ?_
  refine .ite hk ?_
  extract_lets
  split
  · exact .complete (.ite (.rebaseNow hk) hk)
  · exact .ite (.rebaseNow hk) hk

theorem Keeps.snapFailed {h cmd st} (hk : Keeps s₀ s) : Keeps s₀ (snapFailed s h cmd st) := by
  unfold Machine.snapFailed
  extract_lets
  split
  · exact hk
  · exact hk

theorem Keeps.captureNow {h cmd r} (hk : Keeps s₀ s) : Keeps s₀ (captureNow s h cmd r) := by
  unfold Machine.captureNow
  split
  · extract_lets
    split
    · exact hk.snapFailed
    · exact .ite hk.snapFailed hk
  · exact hk.snapFailed

theorem Keeps.captureDue {h advanced every region} (hk : Keeps s₀ s) : Keeps s₀ (captureDue s h advanced every region) := by
  unfold Machine.captureDue
  split
  · exact hk
  · extract_lets
    split
    · refine .ite (.ite hk hk) ?_
      split
      · exact .captureNow (.ite hk hk)
      · exact .snapFailed (.ite hk hk)
    · refine .ite hk ?_
      split
      · exact hk.captureNow
      · exact hk.snapFailed

theorem Keeps.execStreamSnapshot {m} (hk : Keeps s₀ s) : KeepsNext s₀ (execStreamSnapshot m s) := by
  refine .next ?_
  refine .onMail hk fun _ hk => ?_
  refine .onStream hk fun _ => ?_
  refine .ite hk ?_
  refine .ite hk ?_
  split
  · exact hk
  · exact .ite hk (.ite hk (.captureNow hk))

theorem Keeps.execSnapshotComplete {h} (hk : Keeps s₀ s) : KeepsNext s₀ (execSnapshotComplete h s) := by
  refine .next ?_
  split
  · exact hk
  · refine .ite hk ?_
    split
    · exact hk.snapFailed
    · split
      · exact hk.snapFailed
      · extract_lets
        split
        · exact hk
        · exact hk

theorem Keeps.resumeStream {m} (hk : Keeps s₀ s) : Keeps s₀ (resumeStream s m) := by
  unfold Machine.resumeStream
  split
  · split
    · exact hk.giveUp
    · exact .ite hk.giveUp (.ite hk.giveUp (.admitStream hk fun _ _ hk => hk))
  · exact hk.giveUp

theorem Keeps.execStreamResume {m read} (hk : Keeps s₀ s) : KeepsNext s₀ (execStreamResume m read s) := by
  refine .next ?_
  refine .onMail hk fun _ hk => ?_
  split
  · refine .ite hk ?_
    refine .ite hk ?_
    split
    · exact hk
    · split
      · exact hk
      · exact hk.resumeStream
  · exact hk

theorem Keeps.completeFeed {st f code result} (hk : Keeps s₀ s) : Keeps s₀ (completeFeed s st f code result) := by
  unfold Machine.completeFeed
  split
  · exact hk
  · exact hk

theorem Keeps.cutFrame {h st tier kind info} (hk : Keeps s₀ s) : Keeps s₀ (cutFrame s h st tier kind info) := by
  unfold Machine.cutFrame
  extract_lets
  split
  · exact hk.endFrame
  · split
    · exact hk.endFrame
    · exact hk.endFrame.modStream.completeFeed

theorem Keeps.loseStream {h cause die st tier kind info} (hk : Keeps s₀ s) : Keeps s₀ (loseStream s h cause die st tier kind info) := by
  unfold Machine.loseStream
  split
  · exact hk
  · exact .ite hk (.returnBoost (.modStream (.foldl (.foldl (.foldl
    (.cutFrame hk) fun _ _ hk => hk.completeFeed) fun _ _ hk => hk) fun _ _ hk => hk)))

theorem Keeps.remapDie {it st d} (hk : Keeps s₀ s) : Keeps s₀ (remapDie s it st d).1 := by
  refine List.foldlRecOn (motive := fun a : State × Option FabId => Keeps s₀ a.1) _ _ hk fun a ha x _ => .fst_ite ha ?_
  extract_lets f v
  have hf : Keeps s₀ f.2 := by
    dsimp only [f]
    split
    · exact ha
    · exact ha.fitThere
  exact hf

theorem Keeps.streamDieLost {h d} (hk : Keeps s₀ s) : Keeps s₀ (streamDieLost s h d) := by
  unfold Machine.streamDieLost
  split
  · refine .ite hk ?_
    extract_lets
    split
    · exact .returnBoost (.modStream (.foldl hk.remapDie.cutFrame fun _ _ hk => hk))
    · exact hk.remapDie.loseStream
  · exact hk

theorem Keeps.execResumeComplete {h read} (hk : Keeps s₀ s) : KeepsNext s₀ (execResumeComplete h read s) := by
  refine .next ?_
  split
  · refine .ite hk ?_
    extract_lets
    split
    · exact hk.loseStream
    · refine .drainCheck ?_
      refine .tryFix ?_
      refine .postEvent ?_
      split
      · exact .modStream (.modStream (.ite hk.startGrid hk))
      · exact .modStream (.ite hk.startGrid hk)
  · exact hk

theorem Keeps.dropMeasures {st} (hk : Keeps s₀ s) : Keeps s₀ (dropMeasures s st) := .returnBoost hk

theorem Keeps.releaseNow {st0 it f} (hk : Keeps s₀ s) : Keeps s₀ (releaseNow s st0 it f) := by
  unfold Machine.releaseNow
  extract_lets
  split
  · exact .ite hk.dropMeasures.missEvent hk.dropMeasures
  · extract_lets
    split
    · exact .tierFault (.modStream (.ite hk.dropMeasures.missEvent hk.dropMeasures))
    · exact .ite (.endFrame (.modStream (.ite hk.dropMeasures.missEvent hk.dropMeasures))) (.modStream
      (.ite hk.dropMeasures.missEvent hk.dropMeasures))

theorem Keeps.execFrameRelease {h} (hk : Keeps s₀ s) : KeepsNext s₀ (execFrameRelease h s) := by
  refine .next ?_
  split
  · split
    · refine .ite hk ?_
      refine .ite (.drainCheck (.tryFix (.completeFeed hk))) ?_
      extract_lets
      split
      · exact .releaseNow (.ite hk (.fixRelease hk))
      · exact .ite hk (.fixRelease hk)
    · exact hk
  · exact hk

theorem Keeps.execEmptySlot {h} (hk : Keeps s₀ s) : KeepsNext s₀ (execEmptySlot h s) := by
  refine .next ?_
  split
  · exact hk
  · exact .ite hk (.ite hk hk)

theorem Keeps.writeOutputs {st it fr} (hk : Keeps s₀ s) : Keeps s₀ (writeOutputs s st it fr) := .ite hk hk

theorem Keeps.modItin {h f} (hk : Keeps s₀ s) : Keeps s₀ (modItin s h f) := hk

theorem Keeps.homeWrite {it w} (hk : Keeps s₀ s) : Keeps s₀ (homeWrite s it w) := by
  unfold Machine.homeWrite
  dsimp only
  split
  · exact hk
  · next t ht =>
    split
    · exact hk
    · exact .modItin (.modMem (hk.takeNeed ht))

theorem Keeps.applyWrites {it fr} (hk : Keeps s₀ s) : Keeps s₀ (applyWrites s it fr) := by
  unfold Machine.applyWrites
  refine .ite hk ?_
  extract_lets
  split
  · exact .modMem (.modItin (.foldl hk fun _ _ hk => hk.homeWrite))
  · refine .foldl (.modMem (.modItin (.foldl hk fun _ _ hk => hk.homeWrite))) fun _ _ hk => ?_
    split
    · exact .ite (.withMem hk fun h => writeBytes_ok h _ _) hk
    · exact hk

theorem Keeps.audioResult {st it fr} (hk : Keeps s₀ s) : Keeps s₀ (audioResult s st it fr) := by
  unfold Machine.audioResult
  split
  · exact hk
  · extract_lets
    split
    · exact hk
    · exact hk

theorem Keeps.completeFrame {st fr} (hk : Keeps s₀ s) : Keeps s₀ (completeFrame s st fr) := by
  unfold Machine.completeFrame
  refine .ite ?_ hk.completeFeed
  split
  · exact hk
  · exact hk

theorem Keeps.execFrameFinish {h} (hk : Keeps s₀ s) : KeepsNext s₀ (execFrameFinish h s) := by
  refine .next ?_
  split
  · split
    · exact hk
    · exact .ite hk (.drainCheck (.completeFrame (.tryFix (.ite (.activateBy (.captureDue (.audioResult (.modStream
      (.ite hk.applyWrites.writeOutputs hk))))) (.captureDue (.audioResult (.modStream (.ite hk.applyWrites.writeOutputs hk))))))))
  · exact hk

theorem Keeps.execAudioConfig {m} (hk : Keeps s₀ s) : KeepsNext s₀ (execAudioConfig m s) :=
  .next (.onMail hk fun _ hk => (.ite hk (.ite hk (.ite hk hk))))

theorem Keeps.unbind {m st} (hk : Keeps s₀ s) : Keeps s₀ (unbind s m st) := by
  unfold Machine.unbind
  refine .ite hk ?_
  refine .complete ?_
  refine .foldl hk fun _ _ hk => ?_
  split
  · exact hk
  · exact hk

theorem Keeps.bindStream {m st} (hk : Keeps s₀ s) : Keeps s₀ (bindStream s m st) := by
  unfold Machine.bindStream
  refine .ite hk.giveUp ?_
  refine .ite hk.giveUp ?_
  extract_lets
  split
  · exact .ite hk.giveUp (.ite hk.giveUp (.ite hk.giveUp (.ite hk.giveUp (.acquire hk fun _ _ hk => hk))))
  · exact hk.giveUp

theorem Keeps.execAudioBind {m} (hk : Keeps s₀ s) : KeepsNext s₀ (execAudioBind m s) :=
  .next (.onMail hk fun _ hk => (.onStream hk fun _ => (.ite hk (.ite (.ite hk hk.unbind) hk.bindStream))))

theorem Keeps.execAudioBlockEnd {p h samples} (hk : Keeps s₀ s) : KeepsNext s₀ (execAudioBlockEnd p h samples s) := by
  refine .next ?_
  extract_lets
  split
  · exact .ite hk (.tryFix hk)
  · exact hk

theorem Keeps.fillEvent {p b} (hk : Keeps s₀ s) : Keeps s₀ (fillEvent s p b) := hk

theorem Keeps.execAudioPlayStart {p h readBad} (hk : Keeps s₀ s) : KeepsNext s₀ (execAudioPlayStart p h readBad s) := by
  refine .next ?_
  extract_lets
  split
  · exact .ite hk (.ite (.fillEvent (.ite hk hk)) (.ite hk hk))
  · exact hk

theorem Keeps.execAudioFillRepost {p h} (hk : Keeps s₀ s) : KeepsNext s₀ (execAudioFillRepost p h s) := by
  refine .next ?_
  split
  · exact hk
  · exact .ite hk hk

theorem Keeps.execSlaveClockValid {p start period} (hk : Keeps s₀ s) : KeepsNext s₀ (execSlaveClockValid p start period s) := by
  refine .next ?_
  extract_lets
  split
  · exact hk
  · exact .ite hk hk

theorem Keeps.execSlaveClockLost {p} (hk : Keeps s₀ s) : KeepsNext s₀ (execSlaveClockLost p s) := by
  refine .next ?_
  split
  · exact .ite hk hk
  · exact hk

theorem Keeps.chanError {ch e} (hk : Keeps s₀ s) : Keeps s₀ (chanError s ch e) := .raiseIrq (.modChan hk)

theorem Keeps.acceptEntry {ch e} (hk : Keeps s₀ s) : Keeps s₀ (acceptEntry s ch e) := by
  unfold Machine.acceptEntry
  extract_lets op m bad _ s1 s2
  have h2 : Keeps s₀ s2 := .modChan (.set hk) fun c hc => by
    split
    · exact hc
    · exact hc
  exact .ite h2.complete (.set h2)

theorem Keeps.execCommandFetch {data} (hk : Keeps s₀ s) : KeepsNext s₀ (execCommandFetch data s) := by
  refine .next ?_
  refine .ite hk ?_
  split
  · exact hk
  · split
    · exact hk.acceptEntry
    · exact hk.chanError
    · exact .ite hk hk.acceptEntry

theorem Keeps.writeCmdTail {ch v} (hk : Keeps s₀ s) : Keeps s₀ (writeCmdTail s ch v) := .ite hk (.ite hk.chanError (.modChan hk))

theorem Keeps.writeCmpHead {ch v} (hk : Keeps s₀ s) : Keeps s₀ (writeCmpHead s ch v) := .ite hk (.modChan hk)

theorem Keeps.writeEvtHead {v} (hk : Keeps s₀ s) : Keeps s₀ (writeEvtHead s v) := .ite hk hk

theorem Keeps.execCmdTailWrite {ch v} (hk : Keeps s₀ s) : KeepsNext s₀ (execCmdTailWrite ch v s) := .next (.ite hk.writeCmdTail hk)

theorem Keeps.execCmpHeadWrite {ch v} (hk : Keeps s₀ s) : KeepsNext s₀ (execCmpHeadWrite ch v s) := .next (.ite hk.writeCmpHead hk)

theorem Keeps.execEvtHeadWrite {v} (hk : Keeps s₀ s) : KeepsNext s₀ (execEvtHeadWrite v s) := .next (.ite hk.writeEvtHead hk)

/-- A write of CFG leaves channel 0 at tenant 0 (Table 9-8). -/
theorem Keeps.writeCfg {ch v} (hk : Keeps s₀ s) : Keeps s₀ (writeCfg s ch v) := by
  have hset {f : Chan → Chan} (hf : ch = 0 → ∀ c, (f c).tenant = 0) : Keeps s₀ (Machine.modChan s ch f) :=
    hk.withHost fun ⟨hlog, ht⟩ => ⟨hlog, by
      rw [vget_vmod]
      split
      · next h => exact hf h.symm _
      · exact ht⟩
  have hcfg (c : Chan) (h : ch = 0) : (setCfg ch v.toNat c).tenant = 0 := by rw [h]; rfl
  unfold Machine.writeCfg
  extract_lets c en _ c1 s1 _ s2 s3
  have h1 : Keeps s₀ s1 := hset fun h _ => hcfg c h
  have h2 : Keeps s₀ s2 := .ite (.set h1) h1
  split
  · exact hset fun h c => hcfg c h
  · exact .ite h2.chanError h2
  · exact hk
  · exact .set hk.modChan

theorem Keeps.execChannelEnable {ch cfg} (hk : Keeps s₀ s) : KeepsNext s₀ (execChannelEnable ch cfg s) := .next (.ite hk.writeCfg hk)

theorem Keeps.execChannelDisable {ch cfg} (hk : Keeps s₀ s) : KeepsNext s₀ (execChannelDisable ch cfg s) := .next (.ite hk.writeCfg hk)

theorem Keeps.writeMask {v} (hk : Keeps s₀ s) : Keeps s₀ (writeMask s v) := .foldl hk fun _ _ hk => hk.sendMsix

theorem Keeps.sendPending (hk : Keeps s₀ s) : Keeps s₀ (sendPending s) := .ite hk (.foldl hk fun _ _ hk => (.sendMsix hk))

theorem Keeps.execIrqCauseWrite {v} (hk : Keeps s₀ s) : KeepsNext s₀ (execIrqCauseWrite v s) := .next (.ite hk hk)

theorem Keeps.execIrqMaskWrite {v} (hk : Keeps s₀ s) : KeepsNext s₀ (execIrqMaskWrite v s) := .next (.ite hk.writeMask hk)

theorem Keeps.execMsixVectorUnmask {vec} (hk : Keeps s₀ s) : KeepsNext s₀ (execMsixVectorUnmask vec s) := by
  refine .next ?_
  refine .ite hk ?_
  split
  · exact .sendPending hk
  · exact .sendPending hk

theorem Keeps.execMscLoRead (hk : Keeps s₀ s) : KeepsNext s₀ (execMscLoRead s) := .next (.ite hk hk)

theorem Keeps.bootEnd {st args} (hk : Keeps s₀ s) : Keeps s₀ (bootEnd s st args) := .raiseIrq hk

theorem Keeps.writeBootCmd {r} (hk : Keeps s₀ s) : Keeps s₀ (writeBootCmd s r) := .ite hk (.ite hk (.bootEnd hk))

theorem Keeps.writeChanReg {ch o size v} (hk : Keeps s₀ s) : Keeps s₀ (writeChanReg s ch o size v) :=
  .ite (.ite (.modChan hk) hk) (.ite (.ite (.modChan hk) hk) (.ite (.ite (.modChan hk.writeCfg) (.ite hk.writeCfg (.modChan hk))) (.ite
    (.ite hk.writeCmdTail hk) (.ite (.ite hk.writeCmpHead (.ite hk.writeCmpHead hk)) (.ite hk (.ite (.ite hk hk) (.ite (.ite (.writeEvtHead
      (.ite hk hk)) (.ite (.ite hk hk) hk.writeEvtHead)) hk)))))))

theorem Keeps.writeMsix {o size v} (hk : Keeps s₀ s) : Keeps s₀ (writeMsix s o size v) := .ite hk (.ite (.sendPending hk) (.ite hk (.sendPending hk)))

theorem Keeps.writeBar {off size v} (hk : Keeps s₀ s) : Keeps s₀ (writeBar s off size v) :=
  .ite hk (.ite hk.writeBootCmd (.ite hk (.ite hk.writeChanReg (.ite (.ite (.writeMask hk) hk) (.ite hk.writeMask (.ite hk.writeMsix hk))))))

theorem Keeps.execRegisterWrite {off size v} (hk : Keeps s₀ s) : KeepsNext s₀ (execRegisterWrite off size v s) := .next (.ite hk.writeBar hk)

theorem Keeps.execBootQuery (hk : Keeps s₀ s) : KeepsNext s₀ (execBootQuery s) := .next (.ite hk hk.bootEnd)

theorem Keeps.execBootLog (hk : Keeps s₀ s) : KeepsNext s₀ (execBootLog s) := .next (.ite hk (.ite hk.bootEnd (.bootEnd hk)))

theorem Keeps.countCmp {ch} (hk : Keeps s₀ s) : Keeps s₀ (countCmp s ch) := .ite (.raiseIrq (.modChan hk)) (.modChan hk)

theorem Keeps.ringWrite {p fromLog} (hk : Keeps s₀ s) : Keeps s₀ (ringWrite s p fromLog) :=
  .ite (.raiseIrq hk) (.ite (.countCmp (.modChan hk)) (.modChan hk))

theorem Keeps.overflowEvent {r kind} (hk : Keeps s₀ s) : Keeps s₀ (overflowEvent s r kind) := hk

/-- The overflow log takes an entry only while it is not full. -/
theorem Keeps.logPost {p} (hk : Keeps s₀ s) : Keeps s₀ (logPost s p) := by
  unfold Machine.logPost
  split
  · extract_lets first _ s1
    have h1 : Keeps s₀ s1 := .raiseIrq (.set hk)
    exact .ite h1.overflowEvent h1
  · next hroom =>
    extract_lets first e _ s1
    have hlog : s.host.log.length < logSize := Nat.lt_of_not_le hroom
    have h1 : Keeps s₀ s1 := .raiseIrq <| hk.withHost fun ⟨_, ht⟩ => ⟨by
      rw [List.length_append]
      exact hlog, ht⟩
    exact .ite h1.overflowEvent h1

theorem Keeps.deliver {p} (hk : Keeps s₀ s) : Keeps s₀ (deliver s p) := .ite (.ringWrite hk) hk.logPost

theorem Keeps.execCompletionWrite (hk : Keeps s₀ s) : KeepsNext s₀ (execCompletionWrite s) := by
  refine .next ?_
  refine .ite hk ?_
  split
  · exact hk
  · exact .deliver hk

theorem dropFirst_length_le {α : Type} (p : α → Bool) (l : List α) : (dropFirst p l).length ≤ l.length := by
  induction l with
  | nil => exact Nat.le_refl _
  | cons a r ih =>
    simp only [dropFirst]
    split
    · exact Nat.le_succ _
    · exact Nat.succ_le_succ ih

theorem Keeps.execOverflowLogDrain {ch} (hk : Keeps s₀ s) : KeepsNext s₀ (execOverflowLogDrain ch s) := by
  refine .next (.ite hk ?_)
  split
  · exact hk
  · exact .ringWrite <| hk.withHost fun ⟨hlog, ht⟩ => ⟨(dropFirst_length_le _ _).trans hlog, ht⟩

theorem Keeps.execIrqDelayExpiry {ch} (hk : Keeps s₀ s) : KeepsNext s₀ (execIrqDelayExpiry ch s) := by
  refine .next ?_
  extract_lets
  split
  · exact hk
  · exact .ite hk (.raiseIrq (.modChan hk))

theorem Keeps.execHeartbeatIncrement (hk : Keeps s₀ s) : KeepsNext s₀ (execHeartbeatIncrement s) := .next (.ite hk hk)

theorem Keeps.resetHostIf (hk : Keeps s₀ s) : Keeps s₀ (Machine.resetHostIf s) := hk.withHost fun ⟨hlog, _⟩ => ⟨hlog, by simp⟩

theorem Keeps.execPerstReset {low} (hk : Keeps s₀ s) : KeepsNext s₀ (execPerstReset low s) := .next (.ite (.set hk.resetHostIf) hk)

theorem Keeps.execFunctionLevelReset (hk : Keeps s₀ s) : KeepsNext s₀ (execFunctionLevelReset s) := .next (.ite hk.resetHostIf hk)

theorem Keeps.execPcieLinkDown (hk : Keeps s₀ s) : KeepsNext s₀ (execPcieLinkDown s) := .next hk

theorem Keeps.execPcieLinkUp (hk : Keeps s₀ s) : KeepsNext s₀ (execPcieLinkUp s) := .next (.ite hk hk)

theorem Keeps.setFw {st} (hk : Keeps s₀ s) : Keeps s₀ (setFw s st) := .ite hk (.raiseIrq hk)

theorem Keeps.clearFirmware (hk : Keeps s₀ s) : Keeps s₀ (clearFirmware s) :=
  (hk.withHost (x := freshHost s.host) fun ⟨_, ht⟩ => ⟨Nat.zero_le _, by simpa [freshHost] using ht⟩ :)

theorem Keeps.cutSlotWrite (hk : Keeps s₀ s) : Keeps s₀ (cutSlotWrite s) := by
  unfold Machine.cutSlotWrite
  split
  · exact hk
  · exact hk

/-- What a reset of the system leaves: the log stays and every channel has tenant 0. -/
theorem Keeps.resetHost {b} (hk : Keeps s₀ s) : Keeps s₀ { s with host := { (Machine.resetHostIf s).host with linkUp := b } } :=
  hk.withHost fun ⟨hlog, _⟩ => ⟨hlog, by simp [Machine.resetHostIf]⟩

theorem Keeps.resetAsserted (hk : Keeps s₀ s) :
    Keeps s₀
      { s with
        host := { (Machine.resetHostIf s).host with linkUp := false }
        fw := { s.fw with state := .bootstrap, stage := stageIsland, fault := 0 }
        seq := { s.seq with internalReset := true, state := .s4, step := none } } :=
  .set (s := { s with host := { (Machine.resetHostIf s).host with linkUp := false } }) hk.resetHost

theorem Keeps.assertReset (hk : Keeps s₀ s) : Keeps s₀ (assertReset s) := by
  have h0 : Keeps s₀ (if s.seq.state == .s6 then { s with seq := { s.seq with s6Ticks := s.seq.s6Ticks + elapsed s (s.fw.readyAt.getD (now s)) } } else s) :=
    .ite (.set hk) hk
  exact .resetAsserted (.clearFirmware (.cutSlotWrite h0))

theorem Keeps.loseMemory (hk : Keeps s₀ s) : Keeps s₀ (loseMemory s) :=
  (hk.withMem (m := { s.mem with cells := [], bad := [], t2Size := 0, channels := vmap (fun c => { c with st := .untrained, badReads := [] }) s.mem.channels })
    fun _ => rfl :)

theorem Keeps.warmRestart (hk : Keeps s₀ s) : Keeps s₀ (warmRestart s) := .set (.setFw (.set hk.resetHostIf.clearFirmware))

theorem Keeps.logUncoded {unit} (hk : Keeps s₀ s) : Keeps s₀ (logUncoded s unit) := hk

theorem Keeps.modSeq {f} (hk : Keeps s₀ s) : Keeps s₀ (modSeq s f) := hk

theorem Keeps.reachS1 (hk : Keeps s₀ s) : Keeps s₀ (reachS1 s) := .modSeq (.loseMemory hk)

theorem Keeps.descendFrom {n} (hk : Keeps s₀ s) : Keeps s₀ (descendFrom s n) := .ite hk (.ite hk (.ite hk (.ite hk hk.reachS1)))

theorem Keeps.descendReset (hk : Keeps s₀ s) : Keeps s₀ (descendReset s) := hk.assertReset.descendFrom

theorem Keeps.beginDescent (hk : Keeps s₀ s) : Keeps s₀ (beginDescent s) := .ite hk (.ite (.descendReset hk) (.descendFrom (.cutSlotWrite hk)))

theorem Keeps.ascend {n} (hk : Keeps s₀ s) : Keeps s₀ (ascend s n) := .ite hk (.ite hk (.ite hk (.ite hk hk)))

theorem Keeps.admitAlone (hk : Keeps s₀ s) : Keeps s₀ (admitAlone s) := .ite hk hk

theorem Keeps.tryAscend (hk : Keeps s₀ s) : Keeps s₀ (tryAscend s) := .ite hk.admitAlone.modSeq.ascend hk.admitAlone

theorem Keeps.requestOn (hk : Keeps s₀ s) : Keeps s₀ (requestOn s) := .ite hk (.ite hk (.ite hk (.tryAscend hk)))

theorem Keeps.requestOff (hk : Keeps s₀ s) : Keeps s₀ (requestOff s) := .ite hk (.ite hk (.ite (.beginDescent hk) hk))

theorem Keeps.execPowerOnRequest {src} (hk : Keeps s₀ s) : KeepsNext s₀ (execPowerOnRequest src s) := .next (.ite hk hk.requestOn)

theorem Keeps.execPowerOffRequest {src} (hk : Keeps s₀ s) : KeepsNext s₀ (execPowerOffRequest src s) := .next (.ite hk (.requestOff (.ite hk hk)))

theorem Keeps.afterUp {n} (hk : Keeps s₀ s) : Keeps s₀ (afterUp s n) := .ite (.beginDescent hk) (.ite hk hk.ascend)

theorem Keeps.execRailStepDone (hk : Keeps s₀ s) : KeepsNext s₀ (execRailStepDone s) := by
  refine .next ?_
  split
  · exact hk
  · exact .ite hk (.ite (.ite (.afterUp hk) hk) (.ite (.descendFrom hk) hk))

theorem Keeps.recordSeqFault {dom} (hk : Keeps s₀ s) : Keeps s₀ (recordSeqFault s dom) := hk.faultHistory

theorem Keeps.execRailStepTimeout (hk : Keeps s₀ s) : KeepsNext s₀ (execRailStepTimeout s) := by
  refine .next ?_
  split
  · exact hk
  · exact .ite hk (.ite (.ite hk (.ite (.beginDescent hk) hk.recordSeqFault.modSeq.descendFrom)) (.ite (.descendFrom (.recordSeqFault hk)) hk))

theorem Keeps.execSequencerHoldExpiry (hk : Keeps s₀ s) : KeepsNext s₀ (execSequencerHoldExpiry s) := by
  refine .next ?_
  split
  · exact hk
  · exact .ite hk (.ite (.ite hk hk.afterUp) (.ite (.ite hk (.ite (.beginDescent hk) hk)) hk))

theorem Keeps.execAscentHoldoffExpiry (hk : Keeps s₀ s) : KeepsNext s₀ (execAscentHoldoffExpiry s) := .next (.ite hk hk.tryAscend)

theorem Keeps.execFirmwareQuiesced (hk : Keeps s₀ s) : KeepsNext s₀ (execFirmwareQuiesced s) := by
  refine .next ?_
  split
  · exact .ite hk.descendReset hk
  · exact hk

theorem Keeps.execQuiesceTimeout (hk : Keeps s₀ s) : KeepsNext s₀ (execQuiesceTimeout s) := by
  refine .next ?_
  split
  · exact .ite hk.descendReset hk
  · exact hk

theorem Keeps.hardDescent (hk : Keeps s₀ s) : Keeps s₀ (hardDescent s) := .ite (.descendReset hk) (.descendFrom (.cutSlotWrite hk))

theorem Keeps.execRailLoss {d} (hk : Keeps s₀ s) : KeepsNext s₀ (execRailLoss d s) := by
  refine .next ?_
  split
  · exact hk
  · exact .ite hk (.hardDescent (.recordSeqFault hk))

theorem Keeps.execThermalTrip {n reading} (hk : Keeps s₀ s) : KeepsNext s₀ (execThermalTrip n reading s) :=
  .next (.ite hk hk.faultHistory.hardDescent)

theorem Keeps.execAonReset (hk : Keeps s₀ s) : KeepsNext s₀ (execAonReset s) := .next (.set hk.assertReset.loseMemory)

theorem Keeps.execAonResetRelease {trayEn slot auto} (hk : Keeps s₀ s) : KeepsNext s₀ (execAonResetRelease trayEn slot auto s) := .next (.ite hk hk)

theorem Keeps.execSysResetAssert (hk : Keeps s₀ s) : KeepsNext s₀ (execSysResetAssert s) := by
  refine .next ?_
  refine .ite (.ite (.descendReset hk) (.ite (.beginDescent hk) (.assertReset hk))) ?_
  split
  · exact .ite hk hk
  · exact hk

theorem Keeps.execSysResetRelease (hk : Keeps s₀ s) : KeepsNext s₀ (execSysResetRelease s) := .next (.ite (.ascend hk) hk)

theorem Keeps.readFailed {d} (hk : Keeps s₀ s) : Keeps s₀ (readFailed s d) := .ite hk hk

theorem Keeps.takeSample {d raw t} (hk : Keeps s₀ s) : Keeps s₀ (takeSample s d raw t) := hk

theorem Keeps.execPmbusIoutRead {d ioutMa dropUv meanTemp connected ok} (hk : Keeps s₀ s) : KeepsNext s₀ (execPmbusIoutRead d ioutMa dropUv meanTemp connected ok s) :=
  .next (.ite hk (.ite hk.readFailed (.ite (.ite hk hk) (.ite (.ite (.logUncoded (.set (.ite hk hk))) (.set (.ite hk hk))) (.ite (.ite hk hk)
    (.takeSample (.ite hk hk)))))))

theorem Keeps.execPmbusStatusRead {d voutMv temp status ok} (hk : Keeps s₀ s) : KeepsNext s₀ (execPmbusStatusRead d voutMv temp status ok s) :=
  .next (.ite hk (.ite hk.readFailed hk))

theorem Keeps.execPmbusAlert {d status} (hk : Keeps s₀ s) : KeepsNext s₀ (execPmbusAlert d status s) := .next (.ite hk hk)

theorem Keeps.execBaselineLearned {d} (hk : Keeps s₀ s) : KeepsNext s₀ (execBaselineLearned d s) := by
  refine .next ?_
  refine .ite hk ?_
  split
  · exact hk
  · exact hk

theorem Keeps.pdnEvent {d action} (hk : Keeps s₀ s) : Keeps s₀ (pdnEvent s d action) := hk

theorem Keeps.pdnRecord {d action} (hk : Keeps s₀ s) : Keeps s₀ (pdnRecord s d action) := hk.faultStanding

theorem Keeps.execPdnAlarmRaise {d} (hk : Keeps s₀ s) : KeepsNext s₀ (execPdnAlarmRaise d s) := by
  refine .next ?_
  extract_lets
  split
  · exact hk
  · exact .ite hk (.limitCheck (.pdnEvent (.pdnRecord hk)))

theorem Keeps.execPdnShut {d} (hk : Keeps s₀ s) : KeepsNext s₀ (execPdnShut d s) :=
  .next (.ite hk (.ite hk.pdnRecord.pdnEvent.modSeq hk.pdnRecord.pdnEvent.modSeq.requestOff))

theorem Keeps.execPdnAlarmClear {d} (hk : Keeps s₀ s) : KeepsNext s₀ (execPdnAlarmClear d s) := by
  refine .next ?_
  extract_lets
  split
  · exact hk
  · exact .ite hk (.limitCheck hk)

theorem Keeps.wairiqNotice {code slot data} (hk : Keeps s₀ s) : Keeps s₀ (wairiqNotice s code slot data) := .ite (.ite hk hk) hk

theorem Keeps.noticeAll {code slot data} (hk : Keeps s₀ s) : Keeps s₀ (noticeAll s code slot data) := hk.notify.sendTray

theorem Keeps.requestRole {dest} (hk : Keeps s₀ s) : Keeps s₀ (requestRole s dest) := hk

/-- STAT_OUT low under an error, with the exchange a primary then asks for. -/
theorem Keeps.statLow (hk : Keeps s₀ s) : Keeps s₀ (
    let s1 := Machine.modIsland s fun i => { i with statOut := .low, statKick := now s }
    match s1.island.standby with
    | some d =>
      if s1.island.role == .primary && s1.island.roleReq.isNone && s1.island.swapAt.isNone && mayAskRole s1 then Machine.requestRole s1 d else s1
    | none => s1) := by
  dsimp only
  split
  · exact .ite (.requestRole (.modIsland hk)) (.modIsland hk)
  · exact .modIsland hk

/-- STAT_OUT in the half of its square wave. -/
theorem Keeps.statWave {w} (hk : Keeps s₀ s) : Keeps s₀ (Machine.modIsland s fun i => { i with statOut := .wave w, statKick := now s }) :=
  .modIsland hk

theorem Keeps.execStatToggle (hk : Keeps s₀ s) : KeepsNext s₀ (execStatToggle s) :=
  have h0 : Keeps s₀ (if passed s s.island.statKick 2457601 then Machine.modIsland s fun i => { i with trialAt := now s } else s) :=
    .ite (.modIsland hk) hk
  .next (.ite hk (.ite h0.statLow h0.statWave))

theorem Keeps.execStatWatchdogExpiry (hk : Keeps s₀ s) : KeepsNext s₀ (execStatWatchdogExpiry s) := .next (.ite hk hk)

theorem Keeps.execStatInSample {levels} (hk : Keeps s₀ s) : KeepsNext s₀ (execStatInSample levels s) := .next (.ite hk hk)

theorem Keeps.logRole {r cause peer} (hk : Keeps s₀ s) : Keeps s₀ (logRole s r cause peer) := hk

theorem Keeps.takeRole {r cause peer} (hk : Keeps s₀ s) : Keeps s₀ (takeRole s r cause peer) := .ite hk (.logRole (.modIsland (.ite hk hk)))

theorem Keeps.roleEvent {r peer} (hk : Keeps s₀ s) : Keeps s₀ (roleEvent s r peer) := .ite hk hk

theorem Keeps.execElection (hk : Keeps s₀ s) : KeepsNext s₀ (execElection s) := .next (.ite hk (.ite hk (.tryAscend (.takeRole hk))))

theorem Keeps.sendBeat (hk : Keeps s₀ s) : Keeps s₀ (sendBeat s) := hk

theorem Keeps.execHeartbeatSend (hk : Keeps s₀ s) : KeepsNext s₀ (execHeartbeatSend s) := .next (.ite hk hk.sendBeat)

theorem Keeps.dropBadPec {kind} (hk : Keeps s₀ s) : Keeps s₀ (dropBadPec s kind) := hk

theorem Keeps.onTray {t kind f} (hk : Keeps s₀ s) (hf : ∀ x, Keeps s₀ x → Keeps s₀ (f x)) : Keeps s₀ (onTray s t kind f) :=
  .ite hk (.ite hk (hf s hk))

theorem Keeps.stewardValues {slope off half} (hk : Keeps s₀ s) : Keeps s₀ (stewardValues s slope off half) := .limitCheck hk

theorem Keeps.execTrayHeartbeat {t b} (hk : Keeps s₀ s) : KeepsNext s₀ (execTrayHeartbeat t b s) :=
  .next (.onTray hk fun _ hk => (.ite hk (.stewardValues (.takeRole hk))))

theorem Keeps.applyOwnCap {mw} (hk : Keeps s₀ s) : Keeps s₀ (applyOwnCap s mw) := .notify (.limitCheck hk)

theorem Keeps.capAdmits (hk : Keeps s₀ s) : Keeps s₀ (capAdmits s) := .ite (.tryAscend hk) hk

theorem Keeps.powerOnHere (hk : Keeps s₀ s) : Keeps s₀ (powerOnHere s) := .requestOn (.ite hk hk)

theorem Keeps.capInPlace {n p} (hk : Keeps s₀ s) : Keeps s₀ (capInPlace s n p) := .ite hk (.ite (.powerOnHere hk) hk)

theorem Keeps.sendCap {n p} (hk : Keeps s₀ s) : Keeps s₀ (sendCap s n p) := .ite hk.applyOwnCap.capAdmits.capInPlace hk

theorem Keeps.sendDue (hk : Keeps s₀ s) : Keeps s₀ (sendDue s) := .foldl hk fun _ _ hk => hk.sendCap

theorem Keeps.pushCaps {powerOn} (hk : Keeps s₀ s) : Keeps s₀ (pushCaps s powerOn) := .sendDue (.foldl hk fun _ _ hk => hk)

theorem Keeps.countSlot {n powerOn} (hk : Keeps s₀ s) : Keeps s₀ (countSlot s n powerOn) := .pushCaps hk

theorem Keeps.takeState {n b} (hk : Keeps s₀ s) : Keeps s₀ (takeState s n b) :=
  .ite hk (.ite (.countSlot hk) (.ite (.pushCaps (.ite hk hk)) (.ite hk hk)))

theorem Keeps.execStateSend (hk : Keeps s₀ s) : KeepsNext s₀ (execStateSend s) := .next (.ite hk (.ite (.takeState hk) hk))

theorem Keeps.execTrayState {t b} (hk : Keeps s₀ s) : KeepsNext s₀ (execTrayState t b s) := .next (.onTray hk fun _ hk => (.ite hk hk.takeState))

theorem Keeps.execTrayCap {t capMw gen} (hk : Keeps s₀ s) : KeepsNext s₀ (execTrayCap t capMw gen s) :=
  .next (.onTray hk fun _ hk => hk.applyOwnCap.sendTray.capAdmits)

theorem Keeps.execCapAck {t gen} (hk : Keeps s₀ s) : KeepsNext s₀ (execCapAck t gen s) := by
  refine .next ?_
  refine .onTray hk fun _ hk => ?_
  split
  · exact .ite hk.capInPlace.sendDue hk
  · exact hk

theorem Keeps.execCapResend {n} (hk : Keeps s₀ s) : KeepsNext s₀ (execCapResend n s) := by
  refine .next ?_
  split
  · exact hk
  · split
    · exact hk
    · exact .ite hk (.ite hk.sendCap (.pushCaps hk))

theorem Keeps.execCapRecompute (hk : Keeps s₀ s) : KeepsNext s₀ (execCapRecompute s) := .next (.ite hk (.pushCaps hk))

theorem Keeps.execTrayRoleRequest {t} (hk : Keeps s₀ s) : KeepsNext s₀ (execTrayRoleRequest t s) :=
  .next (.onTray hk fun _ hk => (.ite hk (.ite hk hk)))

theorem Keeps.execTrayRoleAccept {t swap} (hk : Keeps s₀ s) : KeepsNext s₀ (execTrayRoleAccept t swap s) :=
  .next (.onTray hk fun _ hk => (.ite hk hk))

theorem Keeps.execTrayRoleSwap (hk : Keeps s₀ s) : KeepsNext s₀ (execTrayRoleSwap s) := by
  refine .next ?_
  split
  · exact hk
  · exact .ite hk (.roleEvent (.takeRole hk))

theorem Keeps.execTrayRoleRequestTimeout (hk : Keeps s₀ s) : KeepsNext s₀ (execTrayRoleRequestTimeout s) := by
  refine .next ?_
  split
  · exact hk
  · exact .ite hk hk

theorem Keeps.askPrimary (hk : Keeps s₀ s) : Keeps s₀ (askPrimary s) := by
  unfold Machine.askPrimary
  split
  · exact .ite hk hk
  · exact hk

theorem Keeps.execTrayRoleHoldoffExpiry (hk : Keeps s₀ s) : KeepsNext s₀ (execTrayRoleHoldoffExpiry s) := .next (.ite hk (.askPrimary hk))

theorem Keeps.execStandbyNamed {t n} (hk : Keeps s₀ s) : KeepsNext s₀ (execStandbyNamed t n s) :=
  .next (.onTray hk fun _ hk => (.ite (.takeRole hk) (.ite (.takeRole hk) hk)))

theorem Keeps.nameStandby {n} (hk : Keeps s₀ s) : Keeps s₀ (nameStandby s n) := by
  unfold Machine.nameStandby
  split
  · exact hk
  · exact hk

theorem Keeps.execPrimaryRerank (hk : Keeps s₀ s) : KeepsNext s₀ (execPrimaryRerank s) :=
  .next (.ite hk (.ite (.ite hk.nameStandby hk) hk.askPrimary))

theorem Keeps.execTrayPower {t on} (hk : Keeps s₀ s) : KeepsNext s₀ (execTrayPower t on s) :=
  .next (.onTray hk fun _ hk => (.ite hk.powerOnHere hk.requestOff))

theorem Keeps.execTrayPowerOnSequence (hk : Keeps s₀ s) : KeepsNext s₀ (execTrayPowerOnSequence s) := by
  refine .next ?_
  refine .ite hk ?_
  split
  · exact hk
  · exact .countSlot hk

theorem Keeps.execPrimaryVacant (hk : Keeps s₀ s) : KeepsNext s₀ (execPrimaryVacant s) :=
  .next (.ite hk (.notify (.roleEvent (.nameStandby (.sendBeat (.takeRole hk))))))

theorem Keeps.execCoolingWatchdogStage1 (hk : Keeps s₀ s) : KeepsNext s₀ (execCoolingWatchdogStage1 s) := .next (.ite hk (.notify hk))

theorem Keeps.islandCoreReset (hk : Keeps s₀ s) : Keeps s₀ (islandCoreReset s) := hk

theorem Keeps.execCoolingWatchdogStage2 (hk : Keeps s₀ s) : KeepsNext s₀ (execCoolingWatchdogStage2 s) := .next (.ite hk hk)

theorem Keeps.execHeartbeatLossShutdown (hk : Keeps s₀ s) : KeepsNext s₀ (execHeartbeatLossShutdown s) := .next (.ite hk (.notify hk))

theorem Keeps.execOrderedPowerdownStart (hk : Keeps s₀ s) : KeepsNext s₀ (execOrderedPowerdownStart s) := by
  refine .next (.ite hk ?_)
  extract_lets s1
  have h1 : Keeps s₀ s1 := by
    dsimp only [s1]
    split
    · exact .ite (.requestOff (.modIsland hk)) hk
    · exact hk
  split
  · exact .ite h1 (.ite (.requestOff (.modIsland h1)) (.sendTray (.modIsland h1)))
  · exact h1

theorem Keeps.execAinSample {n raw} (hk : Keeps s₀ s) : KeepsNext s₀ (execAinSample n raw s) :=
  .next (.ite hk (.ite hk (.modIsland (.set (.ite hk hk)))))

theorem Keeps.execCoolantWarn {n} (hk : Keeps s₀ s) : KeepsNext s₀ (execCoolantWarn n s) := .next (.ite hk (.wairiqNotice (.noticeAll hk)))

theorem Keeps.execCoolantCritical {n} (hk : Keeps s₀ s) : KeepsNext s₀ (execCoolantCritical n s) := .next (.ite hk (.sendBeat (.stewardValues hk)))

theorem Keeps.execCoolantCriticalShutdown (hk : Keeps s₀ s) : KeepsNext s₀ (execCoolantCriticalShutdown s) := .next (.ite hk hk)

theorem Keeps.execCoolantRestored {n} (hk : Keeps s₀ s) : KeepsNext s₀ (execCoolantRestored n s) :=
  .next (.ite hk (.wairiqNotice (.ite hk (.sendBeat (.stewardValues hk)))))

theorem Keeps.leakRailLoss (hk : Keeps s₀ s) : Keeps s₀ (leakRailLoss s) := .ite hk (.hardDescent (.recordSeqFault hk))

theorem Keeps.execLeakTrip {b} (hk : Keeps s₀ s) : KeepsNext s₀ (execLeakTrip b s) :=
  .next (.ite hk (.ite hk (.leakRailLoss (.wairiqNotice (.notify hk)))))

theorem Keeps.execLeakSensorOpen {b} (hk : Keeps s₀ s) : KeepsNext s₀ (execLeakSensorOpen b s) := .next (.ite hk (.wairiqNotice hk))

theorem Keeps.clearLeakHere (hk : Keeps s₀ s) : Keeps s₀ (clearLeakHere s) := .ite hk hk

theorem Keeps.execLampPwmPeriod {n} (hk : Keeps s₀ s) : KeepsNext s₀ (execLampPwmPeriod n s) := .next (.ite hk hk)

theorem Keeps.execLampOpenCheck {n currentUa} (hk : Keeps s₀ s) : KeepsNext s₀ (execLampOpenCheck n currentUa s) :=
  .next (.ite hk (.ite (.ite hk hk) (.ite (.notify hk) hk)))

theorem Keeps.enterTime {x} (hk : Keeps s₀ s) : Keeps s₀ (enterTime s x) := .ite hk hk

theorem Keeps.unalign (hk : Keeps s₀ s) : Keeps s₀ (unalign s) := .set hk.enterTime

theorem Keeps.askRole {p} (hk : Keeps s₀ s) : Keeps s₀ (askRole s p) := .ite hk hk

theorem Keeps.takeLeader {p tell} (hk : Keeps s₀ s) : Keeps s₀ (takeLeader s p tell) := .ite hk hk

theorem Keeps.loseLeader (hk : Keeps s₀ s) : Keeps s₀ (loseLeader s) := hk

theorem Keeps.retime (hk : Keeps s₀ s) : Keeps s₀ (retime s) := by
  unfold Machine.retime
  refine .foldl ?_ fun _ _ hk => hk.askRole
  refine .ite (.ite (.set (.ite (.enterTime (.ite hk hk)) (.ite hk hk))) (.loseLeader (.ite (.enterTime (.ite hk hk)) (.ite hk hk)))) ?_
  split
  · exact .loseLeader (.ite (.enterTime (.ite hk hk)) (.ite hk hk))
  · exact .ite (.ite (.enterTime (.ite hk hk)) (.ite hk hk)) (.ite (.set (.ite (.enterTime (.ite hk hk)) (.ite hk hk))) (.takeLeader (.ite
    (.enterTime (.ite hk hk)) (.ite hk hk))))

theorem Keeps.swapRoles {p} (hk : Keeps s₀ s) : Keeps s₀ (swapRoles s p) := .ite (.ite (.takeLeader hk) hk) (.ite hk hk)

theorem Keeps.leaderLost {p} (hk : Keeps s₀ s) : Keeps s₀ (leaderLost s p) := .ite hk.retime (.ite hk hk)

theorem Keeps.recordBadImage {target i check} (hk : Keeps s₀ s) : Keeps s₀ (recordBadImage s target i check) := hk.faultHistory

theorem Keeps.modFlash {f} (hk : Keeps s₀ s) : Keeps s₀ (modFlash s f) := hk

theorem Keeps.judge {target i} (hk : Keeps s₀ s) : Keeps s₀ (judge s target i) := by
  unfold Machine.judge
  split
  · exact hk
  · exact .recordBadImage hk

theorem Keeps.setPosition {recordOk x y z sizes wraps} (hk : Keeps s₀ s) : Keeps s₀ (setPosition s recordOk x y z sizes wraps) :=
  .ite hk (.ite hk (.ite hk hk))

/-- The store at its defaults holds no record, which is within the bounds. -/
theorem Keeps.storeDefaults (hk : Keeps s₀ s) : Keeps s₀ (storeDefaults s) := by
  obtain ⟨hq, hmem, hhost, -⟩ := hk
  exact ⟨hq, hmem, hhost, fun _ => ⟨Nat.zero_le _, Nat.zero_le _⟩⟩

theorem Keeps.islandFinds (hk : Keeps s₀ s) : Keeps s₀ (islandFinds s) := .ite (.ite hk hk) (.logIsland (.storeDefaults (.ite hk hk)))

theorem Keeps.execIslandFirmwareRunning {recordOk x y z sizes wraps limits} (hk : Keeps s₀ s) :
    KeepsNext s₀ (execIslandFirmwareRunning recordOk x y z sizes wraps limits s) := by
  refine .next (.ite hk ?_)
  extract_lets order tried s1 down start
  have hstart {t : State} {rom : Bool} (ht : Keeps s₀ t) : Keeps s₀ (start t rom) := ht
  have h1 : Keeps s₀ s1 := hk.islandFinds.foldl fun _ _ hk => hk.judge
  have h2 {t : State} (ht : Keeps s₀ t) : Keeps s₀ (if down then Machine.setPosition t recordOk x y z sizes wraps else t) :=
    .ite ht.setPosition ht
  split
  · exact .ite (h2 (hstart h1)) (h2 (hstart h1))
  · exact .ite (.tryAscend (h2 (hstart h1))) (h2 (hstart h1))

theorem Keeps.execIslandReady (hk : Keeps s₀ s) : KeepsNext s₀ (execIslandReady s) :=
  .next (.ite hk (.ite (.tryAscend (.modIsland (.foldl hk fun _ _ hk => hk.judge))) (.tryAscend (.modSeq (.modIsland
    (.foldl hk fun _ _ hk => hk.judge))))))

theorem Keeps.stopBoot {fault} (hk : Keeps s₀ s) : Keeps s₀ (stopBoot s fault) := .set hk.setFw

theorem Keeps.execDepotSelfTestDone {pass} (hk : Keeps s₀ s) : KeepsNext s₀ (execDepotSelfTestDone pass s) :=
  .next (.ite hk (.ite hk.stopBoot.faultStanding (.ite hk.stopBoot (.set hk.setFw))))

theorem Keeps.runImage {n img} (hk : Keeps s₀ s) : Keeps s₀ (runImage s n img) := hk

theorem Keeps.execFirmwareLoaded {readOk} (hk : Keeps s₀ s) : KeepsNext s₀ (execFirmwareLoaded readOk s) := by
  refine .next ?_
  refine .ite hk ?_
  split
  · exact hk.stopBoot
  · split
    · exact hk
    · exact .ite (.stopBoot (.ite (.recordBadImage hk) hk)) (.ite (.recordBadImage hk) hk)

theorem Keeps.execBootRetry (hk : Keeps s₀ s) : KeepsNext s₀ (execBootRetry s) :=
  .next (.ite hk (.ite hk.bootEnd (.ite hk.bootEnd (.bootEnd (.modFlash (.set hk.clearFirmware.setFw))))))

theorem Keeps.execBootHostImage {data read} (hk : Keeps s₀ s) : KeepsNext s₀ (execBootHostImage data read s) :=
  .next (.ite hk (.ite hk.bootEnd (.ite hk.bootEnd (.ite hk.bootEnd (.ite hk.setFw.bootEnd (.ite hk.setFw.bootEnd (.bootEnd (.runImage
    (.set hk.clearFirmware.setFw)))))))))

theorem Keeps.postNotices (hk : Keeps s₀ s) : Keeps s₀ (postNotices s) := .modIsland (.foldl hk fun _ _ hk => hk)

/-- Applied column repairs are marked in their entries, which are as many as before. -/
theorem Keeps.applyColumns (hk : Keeps s₀ s) : Keeps s₀ (applyColumns s) := by
  refine .foldl hk fun t c hk => ?_
  obtain ⟨hq, hmem, hhost, hrec⟩ := hk
  refine ⟨hq, hmem, hhost, fun h => ?_⟩
  simpa only [RecordOk, List.length_map] using hrec h

theorem Keeps.trainPort {p} (hk : Keeps s₀ s) : Keeps s₀ (trainPort s p) := .ite hk hk

theorem Keeps.timeAtReady (hk : Keeps s₀ s) : Keeps s₀ (timeAtReady s) := .ite hk (.ite (.set hk.enterTime) hk.retime)

theorem Keeps.execFirmwareReady (hk : Keeps s₀ s) : KeepsNext s₀ (execFirmwareReady s) := by
  refine .next (.ite hk ?_)
  extract_lets s1 _ s2 op code _ s3 s4 _ _ _ s5 s6
  have h1 : Keeps s₀ s1 := hk.applyColumns
  have h4 : Keeps s₀ s4 := .setFw (.emit (.set (.set h1)))
  have h6 : Keeps s₀ s6 := .sendNeighbours (.postNotices (.timeAtReady (.limitCheck (.set h4))))
  exact .ite h6.beginDescent (h6.foldl fun _ _ hk => hk.trainPort)

theorem Keeps.execDiscoveryComplete (hk : Keeps s₀ s) : KeepsNext s₀ (execDiscoveryComplete s) := .next (.ite hk hk)

theorem Keeps.execFirmwareHalt {watchdog} (hk : Keeps s₀ s) : KeepsNext s₀ (execFirmwareHalt watchdog s) := .next (.ite hk (.set hk.setFw))

theorem Keeps.execFwCommit {m} (hk : Keeps s₀ s) : KeepsNext s₀ (execFwCommit m s) := by
  refine .next ?_
  refine .onMail hk fun _ hk => ?_
  refine .refuse hk fun _ hk => ?_
  split
  · exact hk
  · exact .ite hk hk

theorem Keeps.execSlotWriteComplete {verified} (hk : Keeps s₀ s) : KeepsNext s₀ (execSlotWriteComplete verified s) := by
  refine .next ?_
  split
  · exact hk
  · extract_lets
    split
    · exact .complete (.modFlash (.foldl hk fun _ _ hk => hk))
    · exact .complete (.foldl hk fun _ _ hk => hk)
    · exact .ite (.ite (.modFlash (.foldl hk fun _ _ hk => hk)) (.foldl hk fun _ _ hk => hk)) (.ite (.foldl hk fun _ _ hk => hk) (.ite (.modFlash
      (.foldl (.foldl hk fun _ _ hk => hk) fun _ _ hk => hk.faultHistory.notify)) (.foldl
        (.foldl hk fun _ _ hk => hk) fun _ _ hk => hk.faultHistory.notify)))

theorem Keeps.execFwVerify {m} (hk : Keeps s₀ s) : KeepsNext s₀ (execFwVerify m s) := by
  refine .next ?_
  refine .onMail hk fun _ hk => ?_
  refine .refuse hk fun _ hk => ?_
  split
  · exact hk
  · exact .ite hk hk

theorem Keeps.execFwRollback {m} (hk : Keeps s₀ s) : KeepsNext s₀ (execFwRollback m s) := .next (.onMail hk fun _ hk => (.ite hk (.ite hk hk)))

theorem Keeps.execTrialConfirm {target} (hk : Keeps s₀ s) : KeepsNext s₀ (execTrialConfirm target s) := by
  refine .next ?_
  refine .ite hk ?_
  extract_lets
  split
  · exact hk
  · exact hk

theorem Keeps.execTrialRollback {target cause} (hk : Keeps s₀ s) : KeepsNext s₀ (execTrialRollback target cause s) :=
  .next (.ite hk (.ite (.warmRestart (.faultHistory hk)) (.islandCoreReset (.faultHistory hk))))

theorem Keeps.startReflash {target slots} (hk : Keeps s₀ s) : Keeps s₀ (startReflash s target slots) := by
  unfold Machine.startReflash
  split
  · exact hk
  · exact hk

theorem Keeps.execSlotReflash {target slot} (hk : Keeps s₀ s) : KeepsNext s₀ (execSlotReflash target slot s) := .next (.ite hk hk.startReflash)

theorem Keeps.execGoldenVerify {target} (hk : Keeps s₀ s) : KeepsNext s₀ (execGoldenVerify target s) :=
  .next (.ite hk (.ite hk (.logIsland (.faultStanding hk))))

theorem Keeps.execMscTick (hk : Keeps s₀ s) : KeepsNext s₀ (execMscTick s) := .next (.ite hk (.ite hk (.ite hk (.faultHistory hk))))

theorem Keeps.sendExchange {p gap} (hk : Keeps s₀ s) : Keeps s₀ (sendExchange s p gap) := .ite hk hk

theorem Keeps.execAlignExchangeTimer (hk : Keeps s₀ s) : KeepsNext s₀ (execAlignExchangeTimer s) := by
  refine .next ?_
  refine .ite hk ?_
  refine .ite (.ite hk (.retime hk)) ?_
  split
  · exact hk
  · exact .ite (.retime hk) (.ite hk hk.sendExchange)

theorem Keeps.execDisciplineExchangeTimer (hk : Keeps s₀ s) : KeepsNext s₀ (execDisciplineExchangeTimer s) := by
  refine .next ?_
  refine .ite hk ?_
  split
  · exact hk
  · exact hk.sendExchange

theorem Keeps.takeOffset {off rtt} (hk : Keeps s₀ s) : Keeps s₀ (takeOffset s off rtt) := .ite hk hk

theorem Keeps.execTimeExchange {p k} (hk : Keeps s₀ s) : KeepsNext s₀ (execTimeExchange p k s) := by
  refine .next ?_
  refine .ite hk ?_
  split
  · exact .ite hk hk
  · exact .ite hk.takeOffset hk

theorem Keeps.execRefclkLost (hk : Keeps s₀ s) : KeepsNext s₀ (execRefclkLost s) := .next (.ite hk (.notify hk))

theorem Keeps.execRefclkReturn (hk : Keeps s₀ s) : KeepsNext s₀ (execRefclkReturn s) := .next (.ite hk (.notify hk))

theorem Keeps.execTimeQuery {m} (hk : Keeps s₀ s) : KeepsNext s₀ (execTimeQuery m s) := .next (.onMail hk fun _ hk => (.ite hk hk))

theorem Keeps.dropMove {id} (hk : Keeps s₀ s) : Keeps s₀ (dropMove s id) := hk

theorem Keeps.failMove {m st hurt} (hk : Keeps s₀ s) : Keeps s₀ (failMove s m st hurt) := by
  unfold Machine.failMove
  split
  · extract_lets
    split
    · exact .ite (.dropMove (.ite hk hk)) (.endOnMove (.dropMove (.ite hk hk)))
    · exact .dropMove (.ite hk hk)
  · exact hk
  · exact hk.recallFailed
  · exact hk

theorem Keeps.damageHome {it off} (hk : Keeps s₀ s) : Keeps s₀ (damageHome s it off) := by
  unfold Machine.damageHome
  split
  · exact .ite (.withMem hk fun h => writeBytes_ok h _ _) hk
  · exact hk

theorem Keeps.damageStaged {st} (hk : Keeps s₀ s) : Keeps s₀ (damageStaged s st) := by
  unfold Machine.damageStaged
  extract_lets
  split
  · exact .ite (.addMove hk) hk
  · exact hk

theorem Keeps.damageTail {st} (hk : Keeps s₀ s) : Keeps s₀ (damageTail s st) := by
  unfold Machine.damageTail
  extract_lets
  split
  · exact hk
  · exact hk

theorem Keeps.loseState {st a} (hk : Keeps s₀ s) : Keeps s₀ (loseState s st a) := by
  unfold Machine.loseState
  refine .ite hk ?_
  split
  · exact hk.loseStream
  · exact .returnBoost (.modStream (.foldl hk.cutFrame fun _ _ hk => hk))

theorem Keeps.clearStats {st} (hk : Keeps s₀ s) : Keeps s₀ (clearStats s st) := hk

theorem Keeps.loseLogEntry (hk : Keeps s₀ s) : Keeps s₀ (loseLogEntry s) := by
  unfold Machine.loseLogEntry
  dsimp only
  split
  · exact hk
  · exact .raiseIrq <| hk.takeFree.withHost fun ⟨hlog, ht⟩ => ⟨(dropFirst_length_le _ _).trans hlog, ht⟩

theorem Keeps.damage {tier a kind} (hk : Keeps s₀ s) : Keeps s₀ (damage s tier a kind) := by
  unfold Machine.damage
  extract_lets s1 onStreamAt
  have h1 : Keeps s₀ s1 := hk.faultHistory
  have hon {f : Stream → State} (hf : ∀ st, Keeps s₀ (f st)) : Keeps s₀ (onStreamAt f) := by
    dsimp only [onStreamAt]
    split
    · exact hf _
    · exact h1
  cases kind with
  | staged => exact hon fun _ => h1.damageStaged
  | roHome =>
    dsimp only
    split
    · exact h1.damageHome
    · exact h1
  | frameBlock => exact hon fun _ => h1.tierFault
  | tailPage => exact hon fun _ => h1.damageTail
  | recurrent => exact hon fun _ => h1.loseState
  | rowRecords => exact hon fun _ => h1
  | stats => exact hon fun _ => h1.clearStats
  | snapshot => exact h1
  | logEntry => exact h1.loseLogEntry
  | firmware => exact h1
  | other => exact h1

theorem Keeps.badWord {tier a kind} (hk : Keeps s₀ s) : Keeps s₀ (badWord s tier a kind) := by
  unfold Machine.badWord
  refine .damage ?_
  split
  · exact hk
  · exact hk

theorem Keeps.patrolFound {x kind} (hk : Keeps s₀ s) : Keeps s₀ (patrolFound s x kind) := by
  unfold Machine.patrolFound
  refine .ite hk ?_
  refine .ite hk.countT0.rowSeen ?_
  refine .ite ?_ hk.countT0.rowSeen.badWord
  split
  · exact hk.countT0.rowSeen.engineFault
  · exact hk.countT0.rowSeen

theorem Keeps.execPatrolRead {hit kind} (hk : Keeps s₀ s) : KeepsNext s₀ (execPatrolRead hit kind s) := by
  refine .next (.ite hk ?_)
  extract_lets s1
  have h1 : Keeps s₀ s1 := by
    dsimp only [s1]
    split
    · exact hk.patrolFound
    · exact hk
  split
  · exact h1.endPass
  · exact h1

theorem Keeps.execEcsCountRead {n counts} (hk : Keeps s₀ s) : KeepsNext s₀ (execEcsCountRead n counts s) := .next (.ite hk hk)

theorem Keeps.loseFwArea (hk : Keeps s₀ s) : Keeps s₀ (loseFwArea s) := hk

theorem Keeps.losePages {n st} (hk : Keeps s₀ s) : Keeps s₀ (losePages s n st) := .ite hk hk

theorem Keeps.failChannel {n reason} (hk : Keeps s₀ s) : Keeps s₀ (failChannel s n reason) := by
  unfold Machine.failChannel
  extract_lets here own gone s1 s2 s3 s4 s5
  have h2 : Keeps s₀ s2 := .faultStanding (.foldl hk fun _ _ hk => hk.losePages)
  have h4 : Keeps s₀ s4 := .set (h2.withMem fun h => clearBytes_ok h _)
  have h5 : Keeps s₀ s5 := .ite h4.loseFwArea h4
  exact .foldl h5 fun _ _ hk => hk.failMove

theorem Keeps.execChannelFailure {n reason} (hk : Keeps s₀ s) : KeepsNext s₀ (execChannelFailure n reason s) := .next (.ite hk hk.failChannel)

/-- Bytes may be cleared. -/
theorem Keeps.clearBytes {fa fb q} (hk : Keeps s₀ s) :
    Keeps s₀ (Machine.modMem s fun m => { m with fwArea := fa, fwBase := fb, cells := Machine.clearBytes m.cells q }) :=
  hk.withMem fun h => clearBytes_ok h _

theorem Keeps.execFirmwareAreaMove (hk : Keeps s₀ s) : KeepsNext s₀ (execFirmwareAreaMove s) := by
  refine .next (.ite hk ?_)
  split
  · exact hk
  · exact hk.clearBytes.assignRooms

theorem Keeps.areaAtStart (hk : Keeps s₀ s) : Keeps s₀ (areaAtStart s) := by
  unfold Machine.areaAtStart
  split
  · exact hk
  · exact hk

theorem Keeps.remarkSoft {n bad} (hk : Keeps s₀ s) : Keeps s₀ (remarkSoft s n bad) :=
  hk.withIsland fun h => by simpa only [RecordOk, List.length_map] using h

/-- Entries that go leave the record within its bounds. -/
theorem Keeps.forgetDevices {n} (hk : Keeps s₀ s) : Keeps s₀ (forgetDevices s n) := by
  obtain ⟨hq, hmem, hhost, hrec⟩ := hk
  refine ⟨hq, hmem, hhost, fun h => ?_⟩
  obtain ⟨hstanding, hall⟩ := hrec h
  have hle := List.length_filter_le (fun r : LogRec => !((r.code == 0x0704 || r.code == 0x0705) && bits r.data.toNat 0 8 == n.1)) s.island.standing
  exact ⟨hle.trans hstanding, (Nat.add_le_add_right hle _).trans hall⟩

theorem Keeps.execChannelTrainingDone {n matches_ pass replaced hardFailed} (hk : Keeps s₀ s) : KeepsNext s₀ (execChannelTrainingDone n matches_ pass replaced hardFailed s) :=
  .next (.ite hk (.ite (.areaAtStart (.modMem (.ite hk.forgetDevices hk))) (.ite (.areaAtStart (.remarkSoft (.modMem (.modMem (.takeFree
    (.ite hk.forgetDevices hk)))))) (.areaAtStart (.ite (.modMem (.ite hk.forgetDevices hk)) (.faultStanding (.modMem
      (.ite hk.forgetDevices hk))))))))

theorem Keeps.admitGuest {home h img p t} (hk : Keeps s₀ s) (ht : admitGuest s home h img p = some t) : Keeps s₀ t := by
  obtain ⟨fb, -, ht⟩ := Option.bind_eq_some_iff.1 ht
  obtain ⟨map, -, ht⟩ := Option.bind_eq_some_iff.1 ht
  split at ht
  · cases ht
  · obtain ⟨u, hu, ht⟩ := Option.bind_eq_some_iff.1 ht
    cases ht
    exact .set (hk.takeAll hu)

theorem Keeps.openGuest {home h img args} (hk : Keeps s₀ s) : Keeps s₀ (openGuest s home h img args) := by
  unfold Machine.openGuest
  split
  · next t ht =>
    split at ht
    · cases ht
    · exact .sendMgmt (hk.admitGuest ht)
  · exact hk

theorem Keeps.dropGuest {home h} (hk : Keeps s₀ s) : Keeps s₀ (dropGuest s home h) := .releaseAll hk

theorem Keeps.dropLostGuests (hk : Keeps s₀ s) : Keeps s₀ (dropLostGuests s) := .foldl hk fun _ _ hk => hk.dropGuest.faultHistory

theorem Keeps.reserveDone {m w} (hk : Keeps s₀ s) : Keeps s₀ (reserveDone s m w) := by
  unfold Machine.reserveDone
  split
  · exact hk
  · exact hk

theorem Keeps.reserveMem {m} (hk : Keeps s₀ s) : Keeps s₀ (reserveMem s m) :=
  .ite hk.giveUp (.ite hk.giveUp (.ite hk.giveUp (.ite hk.giveUp (.ite hk.giveUp (.acquire hk fun _ _ hk => hk.reserveDone)))))

theorem Keeps.execMemReserve {m} (hk : Keeps s₀ s) : KeepsNext s₀ (execMemReserve m s) := .next (.onMail hk fun _ hk => hk.reserveMem)

theorem Keeps.execMemRelease {m} (hk : Keeps s₀ s) : KeepsNext s₀ (execMemRelease m s) := by
  refine .next ?_
  refine .onMail hk fun _ hk => ?_
  split
  · exact hk
  · exact .ite hk (.ite hk (.complete (.modMem hk.releaseAll)))

theorem Keeps.setLimit {m tier v} (hk : Keeps s₀ s) : Keeps s₀ (setLimit s m tier v) := .ite hk (.finishLimits (.sendRecalls hk))

theorem Keeps.execMemQuotaSet {m} (hk : Keeps s₀ s) : KeepsNext s₀ (execMemQuotaSet m s) :=
  .next (.onMail hk fun _ hk => (.ite hk (.ite hk (.ite hk.setLimit hk))))

theorem Keeps.execRegionMap {m} (hk : Keeps s₀ s) : KeepsNext s₀ (execRegionMap m s) := by
  refine .next ?_
  refine .onMail hk fun _ hk => ?_
  refine .ite hk ?_
  refine .ite hk ?_
  split
  · exact hk
  · exact hk

theorem Keeps.issuePart {m r off} (hk : Keeps s₀ s) : Keeps s₀ (issuePart s m r off) := by
  unfold Machine.issuePart
  extract_lets
  split
  · exact hk
  · exact .ite hk (.ite hk (.ite (.readRemote hk) hk))

theorem Keeps.execRegionMove {m} (hk : Keeps s₀ s) : KeepsNext s₀ (execRegionMove m s) := by
  refine .next ?_
  refine .onMail hk fun _ hk => ?_
  extract_lets
  split
  · exact hk
  · exact hk
  · exact .ite hk (.ite hk (.ite hk (.issuePart hk)))

theorem Keeps.rewriteHomes {it} (hk : Keeps s₀ s) : Keeps s₀ (rewriteHomes s it) := by
  unfold Machine.rewriteHomes
  refine .foldl hk fun _ _ hk => ?_
  split
  · exact .ite (.withMem hk fun h => writeBytes_ok h _ _) hk
  · exact hk

theorem Keeps.switchHomes {src dst n} (hk : Keeps s₀ s) : Keeps s₀ (switchHomes s src dst n) :=
  .foldl (.freeRooms (.ite hk (.assignRoom hk))) fun _ _ hk => hk.rewriteHomes

theorem Keeps.partDone {m x} (hk : Keeps s₀ s) : Keeps s₀ (partDone s m x) := by
  unfold Machine.partDone
  extract_lets
  split
  · exact hk
  · exact .ite (.issuePart hk) (.complete (.ite (.switchHomes hk) hk))

theorem Keeps.retryCmd {m img} (hk : Keeps s₀ s) : Keeps s₀ (retryCmd s m img) := by
  unfold Machine.retryCmd
  refine .ite hk.reserveMem ?_
  refine .ite ?_ ?_
  · split
    · exact hk.loadItin
    · exact hk
  · refine .ite hk.openStream ?_
    refine .ite hk.resumeStream ?_
    refine .ite ?_ hk
    split
    · exact hk.bindStream
    · exact hk.giveUp

theorem Keeps.moveCopies {w} (hk : Keeps s₀ s) : Keeps s₀ (moveCopies s w) := by
  unfold Machine.moveCopies
  extract_lets
  split
  · exact .recallMove hk
  · exact .releaseAll hk

theorem Keeps.goOn {req} (hk : Keeps s₀ s) : Keeps s₀ (goOn s req) := by
  unfold Machine.goOn
  split
  · exact hk
  · refine .ite hk ?_
    refine .ite ?_ ?_
    · refine .ite hk.askLender ?_
      split
      · exact hk.askLender.giveUp
      · exact hk.askLender.searchEnds
    · split
      · exact .ite hk hk.retryCmd
      · exact hk.moveCopies

theorem Keeps.retryAll (hk : Keeps s₀ s) : Keeps s₀ (retryAll s) := .foldl hk fun _ _ hk => hk.goOn

theorem Keeps.execLoanRequest {p src req tier granules} (hk : Keeps s₀ s) : KeepsNext s₀ (execLoanRequest p src req tier granules s) := by
  refine .next ?_
  refine .ite hk ?_
  split
  · exact hk
  · exact hk

theorem Keeps.loanRefusedBy {req lender} (hk : Keeps s₀ s) : Keeps s₀ (loanRefusedBy s req lender) := by
  unfold Machine.loanRefusedBy
  split
  · exact hk
  · exact .askAll (.goOn hk)

theorem Keeps.execLoanGrant {p lender req tier base granules} (hk : Keeps s₀ s) : KeepsNext s₀ (execLoanGrant p lender req tier base granules s) := by
  refine .next ?_
  refine .ite hk ?_
  split
  · exact hk
  · exact .ite hk (.ite hk.loanRefusedBy.sendMgmt hk.takeLoan.goOn.askAll)

theorem Keeps.execRecallNotice {p lender base} (hk : Keeps s₀ s) : KeepsNext s₀ (execRecallNotice p lender base s) := by
  refine .next ?_
  refine .ite hk ?_
  split
  · exact hk
  · exact .ite hk hk.serveRecall

theorem Keeps.execLoanReturn {p borrower base} (hk : Keeps s₀ s) : KeepsNext s₀ (execLoanReturn p borrower base s) :=
  .next (.ite hk hk.takeBack.retryAll)

theorem Keeps.execRecallNoticeExpiry {borrower base} (hk : Keeps s₀ s) : KeepsNext s₀ (execRecallNoticeExpiry borrower base s) := by
  refine .next ?_
  refine .ite hk ?_
  refine .ite ?_ (.ite hk.takeBack.retryAll hk)
  split
  · exact hk.loseLoan
  · exact hk

theorem Keeps.execRecallRoomRestore {lender} (hk : Keeps s₀ s) : KeepsNext s₀ (execRecallRoomRestore lender s) := by
  refine .next ?_
  refine .ite hk ?_
  split
  · exact .ite hk hk.seekFor
  · exact hk

theorem Keeps.landSeal {h m data} (hk : Keeps s₀ s) : Keeps s₀ (landSeal s h m data) := by
  unfold Machine.landSeal
  refine .ite hk ?_
  split
  · exact hk
  · exact .ite (.moveRemote hk) (.failMove hk)

theorem Keeps.landItem {h m data} (hk : Keeps s₀ s) : Keeps s₀ (landItem s h m data) := by
  unfold Machine.landItem
  split
  · exact .ite hk.failMove (.ite hk (.ite hk.failMove hk.issueMove))
  · exact hk

theorem Keeps.landPart {c m data} (hk : Keeps s₀ s) : Keeps s₀ (landPart s c m data) :=
  .ite (.partDone (.withMem hk fun h => writeBytes_ok h _ _)) (.ite hk.moveRemote hk.failMove)

theorem Keeps.landRecall {l m data} (hk : Keeps s₀ s) : Keeps s₀ (landRecall s l m data) :=
  .ite (.recallDone (.withMem hk fun h => writeBytes_ok h _ _)) (.ite hk.moveRemote hk.failMove)

theorem Keeps.landOk {m data} (hk : Keeps s₀ s) : Keeps s₀ (landOk s m data) := by
  unfold Machine.landOk
  extract_lets
  split
  · exact .ite (.landSeal hk) (.ite hk (.landItem hk))
  · exact hk.landPart
  · exact hk.landRecall
  · exact hk

theorem Keeps.landBad {m kind} (hk : Keeps s₀ s) : Keeps s₀ (landBad s m kind) := by
  unfold Machine.landBad
  extract_lets
  split
  · split
    · refine .ite ?_ ?_
      · split
        · refine .issueMove ?_
          refine .ite hk.badWord ?_
          refine .ite ?_ hk
          split
          · exact hk
          · exact hk
        · refine .failMove ?_
          refine .ite hk.badWord ?_
          refine .ite ?_ hk
          split
          · exact hk
          · exact hk
      · refine .failMove ?_
        refine .ite hk.badWord ?_
        refine .ite ?_ hk
        split
        · exact hk
        · exact hk
    · refine .failMove ?_
      refine .ite hk.badWord ?_
      refine .ite ?_ hk
      split
      · exact hk
      · exact hk
  · refine .failMove ?_
    refine .ite hk.badWord ?_
    refine .ite ?_ hk
    split
    · exact hk
    · exact hk

theorem Keeps.execMoveLand {id result data kind} (hk : Keeps s₀ s) : KeepsNext s₀ (execMoveLand id result data kind s) := by
  refine .next ?_
  split
  · exact hk
  · refine .ite hk ?_
    split
    · exact hk
    · exact hk.failMove
    · exact .ite hk.landBad hk
    · exact .ite hk (.ite hk.failMove (.ite hk.landBad hk.landOk))

theorem Keeps.execMoveDeferredIssue {id} (hk : Keeps s₀ s) : KeepsNext s₀ (execMoveDeferredIssue id s) := by
  refine .next ?_
  split
  · exact hk
  · split
    · split
      · exact .ite hk hk.issueMove
      · exact hk
    · exact hk

theorem Keeps.execMoveLatenessTimeout {id} (hk : Keeps s₀ s) : KeepsNext s₀ (execMoveLatenessTimeout id s) := by
  refine .next ?_
  split
  · exact hk
  · exact .ite hk hk.failMove

theorem Keeps.remoteDone {m} (hk : Keeps s₀ s) : Keeps s₀ (remoteDone s m) := by
  unfold Machine.remoteDone
  split
  · exact hk
  · exact hk.partDone
  · exact hk.recallDone
  · exact hk

theorem Keeps.answered {p isRead tag src status} (hk : Keeps s₀ s) : Keeps s₀ (answered s p isRead tag src status) := by
  unfold Machine.answered
  split
  · exact hk
  · refine .ite ?_ ?_
    · extract_lets
      split
      · exact .failMove hk
      · exact hk
    · refine .ite hk ?_
      extract_lets
      split
      · exact .ite hk (.remoteDone hk)
      · exact hk

theorem Keeps.execRemoteRequestTimeout {tag} (hk : Keeps s₀ s) : KeepsNext s₀ (execRemoteRequestTimeout tag s) := by
  refine .next ?_
  split
  · exact hk
  · refine .ite hk ?_
    extract_lets
    split
    · exact .failMove hk
    · exact hk

theorem Keeps.sendNak {p again} (hk : Keeps s₀ s) : Keeps s₀ (sendNak s p again) := .ite hk hk

theorem Keeps.execFlitReceive {p f} (hk : Keeps s₀ s) : KeepsNext s₀ (execFlitReceive p f s) :=
  .next (.ite hk (.ite hk.sendNak (.ite hk (.ite hk.sendNak hk))))

theorem Keeps.execNakReceive {p seq} (hk : Keeps s₀ s) : KeepsNext s₀ (execNakReceive p seq s) := .next (.ite hk (.ite hk hk))

theorem Keeps.execLinkReplayLimit {p} (hk : Keeps s₀ s) : KeepsNext s₀ (execLinkReplayLimit p s) := .next (.ite hk hk)

theorem Keeps.execLinkOutputArbitrate {p} (hk : Keeps s₀ s) : KeepsNext s₀ (execLinkOutputArbitrate p s) := by
  refine .next ?_
  refine .ite hk ?_
  split
  · exact .ite hk hk
  · exact hk

theorem Keeps.execPacketForward {p vc cls} (hk : Keeps s₀ s) : KeepsNext s₀ (execPacketForward p vc cls s) := by
  refine .next ?_
  split
  · exact hk
  · refine .ite hk ?_
    refine .ite (.ite hk hk) ?_
    split
    · exact hk
    · exact .ite hk (.enqueue hk)

theorem Keeps.execReadPkt {p k} (hk : Keeps s₀ s) : KeepsNext s₀ (execReadPkt p k s) := by
  refine .next ?_
  refine .ite hk ?_
  split
  · exact hk
  · exact .ite (.ite (.sendPacket hk) hk) (.ite (.ite (.sendPacket hk) hk) (.ite (.sendPacket hk) hk))

theorem Keeps.execReadData {p k} (hk : Keeps s₀ s) : KeepsNext s₀ (execReadData p k s) := by
  refine .next ?_
  refine .ite hk ?_
  split
  · exact hk
  · exact .answered hk

theorem Keeps.execMovePkt {p k} (hk : Keeps s₀ s) : KeepsNext s₀ (execMovePkt p k s) := by
  refine .next ?_
  refine .ite hk ?_
  split
  · exact hk
  · exact .ite (.sendPacket hk) (.ite (.sendPacket hk) (.sendPacket (.withMem hk fun h => writeBytes_ok h _ _)))

theorem Keeps.execMoveAck {p k} (hk : Keeps s₀ s) : KeepsNext s₀ (execMoveAck p k s) := by
  refine .next ?_
  refine .ite hk ?_
  split
  · exact hk
  · exact .answered hk

theorem Keeps.execRelaySend (hk : Keeps s₀ s) : KeepsNext s₀ (execRelaySend s) := by
  refine .next ?_
  split
  · exact hk
  · exact .sendPacket (.forward hk)

theorem Keeps.execRelayCredit {p via} (hk : Keeps s₀ s) : KeepsNext s₀ (execRelayCredit p via s) := .next (.ite hk (.sendWaitingFor hk))

theorem Keeps.endRequestsTo {d} (hk : Keeps s₀ s) : Keeps s₀ (endRequestsTo s d) :=
  .foldl (.set (.foldl hk fun _ _ hk => hk.failMove)) fun _ _ hk => (.goOn hk)

theorem Keeps.loseDie {d} (hk : Keeps s₀ s) : Keeps s₀ (loseDie s d) :=
  .ite hk (.sendNeighbours (.set (.foldl (.foldl (.endRequestsTo hk) fun _ _ hk => hk.loseLoan) fun _ _ hk => hk.streamDieLost)))

theorem Keeps.loseCutOff (hk : Keeps s₀ s) : Keeps s₀ (loseCutOff s) := .foldl hk fun _ _ hk => (.ite hk.loseDie hk)

theorem Keeps.linkDown {l} (hk : Keeps s₀ s) : Keeps s₀ (linkDown s l) := .ite hk hk

theorem Keeps.declareDown {p st reason} (hk : Keeps s₀ s) : Keeps s₀ (declareDown s p st reason) :=
  .leaderLost (.loseCutOff (.sendNeighbours (.linkDown hk)))

theorem Keeps.execLinkTrainingStart {p} (hk : Keeps s₀ s) : KeepsNext s₀ (execLinkTrainingStart p s) := .next (.ite hk hk)

theorem Keeps.execPeerFckSeen {p} (hk : Keeps s₀ s) : KeepsNext s₀ (execPeerFckSeen p s) := .next (.ite hk hk)

theorem Keeps.execTrainingSet {p t} (hk : Keeps s₀ s) : KeepsNext s₀ (execTrainingSet p t s) := .next (.ite hk (.ite hk (.ite hk hk)))

theorem Keeps.execLinkTrainingTimeout {p} (hk : Keeps s₀ s) : KeepsNext s₀ (execLinkTrainingTimeout p s) := .next (.ite hk hk)

theorem Keeps.execLinkTrainingRetry {p} (hk : Keeps s₀ s) : KeepsNext s₀ (execLinkTrainingRetry p s) := by
  refine .next ?_
  extract_lets
  split
  · exact hk
  · exact .ite hk hk

theorem Keeps.tellRejoin {p} (hk : Keeps s₀ s) : Keeps s₀ (tellRejoin s p) := .ite hk hk

theorem Keeps.linkActive {p width tx rx flight} (hk : Keeps s₀ s) : Keeps s₀ (linkActive s p width tx rx flight) := by
  unfold Machine.linkActive
  refine .ite ?_ ?_
  · refine .tellRejoin ?_
    split
    · exact .ite (.swapRoles (.ite hk hk)) (.ite hk hk)
    · exact .ite hk hk
  · refine .ite ?_ ?_
    · refine .ite ?_ ?_
      · refine .retime ?_
        refine .tellRejoin ?_
        split
        · exact .ite (.swapRoles (.ite hk hk)) (.ite hk hk)
        · exact .ite hk hk
      · refine .askRole ?_
        refine .tellRejoin ?_
        split
        · exact .ite (.swapRoles (.ite hk hk)) (.ite hk hk)
        · exact .ite hk hk
    · refine .sendNeighbours ?_
      refine .retime ?_
      refine .ite ?_ ?_
      · refine .unalign ?_
        refine .tellRejoin ?_
        split
        · exact .ite (.swapRoles (.ite hk hk)) (.ite hk hk)
        · exact .ite hk hk
      · refine .tellRejoin ?_
        split
        · exact .ite (.swapRoles (.ite hk hk)) (.ite hk hk)
        · exact .ite hk hk

theorem Keeps.execLinkTrainingComplete {p lanes txDelay rxDelay flight} (hk : Keeps s₀ s) : KeepsNext s₀ (execLinkTrainingComplete p lanes txDelay rxDelay flight s) :=
  .next (.ite hk (.ite hk hk.linkActive))

theorem Keeps.execPortSettleTimeout {p} (hk : Keeps s₀ s) : KeepsNext s₀ (execPortSettleTimeout p s) := .next (.ite hk hk)

theorem Keeps.execLinkSignalLoss {p} (hk : Keeps s₀ s) : KeepsNext s₀ (execLinkSignalLoss p s) := .next (.ite hk hk)

theorem Keeps.execPhaseWanderRetrain {p} (hk : Keeps s₀ s) : KeepsNext s₀ (execPhaseWanderRetrain p s) := .next (.ite hk (.ite hk hk))

theorem Keeps.execLinkDownTimeout {p} (hk : Keeps s₀ s) : KeepsNext s₀ (execLinkDownTimeout p s) := .next (.ite hk hk.declareDown)

theorem Keeps.execCablePresenceAssert {p rec_} (hk : Keeps s₀ s) : KeepsNext s₀ (execCablePresenceAssert p rec_ s) := by
  refine .next ?_
  refine .ite hk ?_
  extract_lets
  split
  · exact hk
  · exact .logIsland (.notify hk)

theorem Keeps.execCablePresenceDeassert {p} (hk : Keeps s₀ s) : KeepsNext s₀ (execCablePresenceDeassert p s) := .next (.ite hk (.ite hk hk))

theorem Keeps.askCredits {via} (hk : Keeps s₀ s) : Keeps s₀ (askCredits s via) := .ite hk hk

theorem Keeps.resendWaiting (hk : Keeps s₀ s) : Keeps s₀ (resendWaiting s) := .foldl hk fun _ _ hk => (.sendPacket hk)

theorem Keeps.installRoutes {cause} (hk : Keeps s₀ s) : Keeps s₀ (installRoutes s cause) := by
  unfold Machine.installRoutes
  extract_lets t _ f _ s1 s2 s3 s4 gone s5 s6 out
  have h3 : Keeps s₀ s3 := .sendNeighbours (.postEvent (.set hk))
  have h4 : Keeps s₀ s4 := .resendWaiting (h3.foldl fun _ _ hk => hk.askCredits)
  have h5 : Keeps s₀ s5 := h4.foldl fun _ _ hk => hk.takeBack
  have h6 : Keeps s₀ s6 := .ite h5 h5.retryAll
  exact .retime (.dropLostGuests (h6.foldl fun _ _ hk => hk.endRequestsTo))

theorem Keeps.execRouteSetInstall {cause} (hk : Keeps s₀ s) : KeepsNext s₀ (execRouteSetInstall cause s) :=
  .next (.ite hk (.ite (.installRoutes hk) hk))

theorem Keeps.execLinkUsabilityHoldExpiry {p} (hk : Keeps s₀ s) : KeepsNext s₀ (execLinkUsabilityHoldExpiry p s) := .next (.ite hk hk)

theorem Keeps.passOn {key k t} (hk : Keeps s₀ s) (ht : passOn s key k = some t) : Keeps s₀ t := by
  unfold Machine.passOn at ht
  split at ht
  · cases ht
  · cases ht
    exact .sendNeighbours hk

theorem Keeps.execLinkNotice {p a b serial} (hk : Keeps s₀ s) : KeepsNext s₀ (execLinkNotice p a b serial s) := by
  refine .next (.ite hk ?_)
  split
  · exact hk
  · next s1 hs1 =>
    have h1 : Keeps s₀ s1 := hk.passOn hs1
    split
    · exact h1.declareDown
    · exact h1.linkDown.loseCutOff

theorem Keeps.execDieNotice {p d serial} (hk : Keeps s₀ s) : KeepsNext s₀ (execDieNotice p d serial s) := by
  refine .next (.ite hk ?_)
  split
  · exact hk
  · next s1 hs1 =>
    have h1 : Keeps s₀ s1 := hk.passOn hs1
    exact .ite h1 (.loseDie (h1.foldl fun _ _ hk => hk.declareDown))

theorem Keeps.execRouteGenerationNotice {p src gen} (hk : Keeps s₀ s) : KeepsNext s₀ (execRouteGenerationNotice p src gen s) := .next (.ite hk hk)

theorem Keeps.execRoleRequest {p} (hk : Keeps s₀ s) : KeepsNext s₀ (execRoleRequest p s) := .next (.ite hk (.ite hk hk))

theorem Keeps.execRoleAccept {p swap} (hk : Keeps s₀ s) : KeepsNext s₀ (execRoleAccept p swap s) := .next (.ite hk hk)

theorem Keeps.execRoleSwapTick {p} (hk : Keeps s₀ s) : KeepsNext s₀ (execRoleSwapTick p s) := by
  refine .next ?_
  extract_lets
  split
  · exact hk
  · exact .ite hk hk.swapRoles

theorem Keeps.execRoleRequestTimeout {p} (hk : Keeps s₀ s) : KeepsNext s₀ (execRoleRequestTimeout p s) := by
  refine .next ?_
  split
  · exact hk
  · exact .ite hk hk

theorem Keeps.execRoleHoldoffExpiry {p} (hk : Keeps s₀ s) : KeepsNext s₀ (execRoleHoldoffExpiry p s) := .next (.ite hk (.askRole hk))

theorem Keeps.execPresentNotice {p d} (hk : Keeps s₀ s) : KeepsNext s₀ (execPresentNotice p d s) :=
  .next (.ite hk (.ite (.ite (.sendNeighbours hk) hk) (.ite hk (.ite (.retime (.sendNeighbours hk)) (.retime (.unalign (.sendNeighbours hk)))))))

theorem Keeps.closeNow (hk : Keeps s₀ s) : Keeps s₀ (closeNow s) := .logDie (.installRoutes hk)

theorem Keeps.execCensusClose (hk : Keeps s₀ s) : KeepsNext s₀ (execCensusClose s) := .next (.ite hk hk.closeNow)

theorem Keeps.execRejoinState {p sizes wraps gen lost down} (hk : Keeps s₀ s) : KeepsNext s₀ (execRejoinState p sizes wraps gen lost down s) :=
  .next (.ite hk (.ite hk (.sendNeighbours (.installRoutes (.unalign hk)))))

theorem Keeps.execMgmt {p src k} (hk : Keeps s₀ s) : KeepsNext s₀ (execMgmt p src k s) := by
  refine .next ?_
  refine .ite hk ?_
  split
  · exact hk.loanRefusedBy
  · exact .ite hk (.ite hk hk)
  · exact .sendWaitingFor hk
  · exact hk
  · exact .ite hk hk
  · exact hk.openGuest
  · exact hk.dropGuest
  · exact hk
  · exact hk

theorem Keeps.execFabQuery {m} (hk : Keeps s₀ s) : KeepsNext s₀ (execFabQuery m s) := by
  refine .next ?_
  refine .onMail hk fun _ hk => ?_
  refine .ite hk ?_
  refine .ite hk ?_
  split
  · exact hk
  · exact .ite hk hk

theorem Keeps.execFabRouteSet {m} (hk : Keeps s₀ s) : KeepsNext s₀ (execFabRouteSet m s) := by
  refine .next ?_
  refine .onMail hk fun _ hk => ?_
  refine .ite hk ?_
  refine .ite hk ?_
  split
  · exact hk
  · exact .ite hk (.complete (.installRoutes hk))

theorem Keeps.startIsolate {cmds} (hk : Keeps s₀ s) : Keeps s₀ (startIsolate s cmds) := .foldl (.sendRecalls hk) fun _ _ hk => hk.serveRecall

theorem Keeps.execFabIsolate {m} (hk : Keeps s₀ s) : KeepsNext s₀ (execFabIsolate m s) := by
  refine .next ?_
  refine .onMail hk fun _ hk => ?_
  refine .ite hk ?_
  refine .ite hk ?_
  split
  · exact hk
  · exact hk
  · exact .startIsolate hk

theorem Keeps.isolatePorts (hk : Keeps s₀ s) : Keeps s₀ (isolatePorts s) :=
  .foldl (.foldl (.foldl hk fun _ _ hk => (.sendNeighbours hk)) fun _ _ hk => hk) fun _ _ hk => hk

theorem Keeps.execIsolateDrainEnd (hk : Keeps s₀ s) : KeepsNext s₀ (execIsolateDrainEnd s) := by
  refine .next ?_
  split
  · exact hk
  · exact .ite hk (.ite (.warmRestart (.foldl (.retime (.foldl (.foldl
    (.set hk.isolatePorts) fun _ _ hk => hk.loseLoan) fun _ _ hk => hk.endRequestsTo)) fun _ _ hk => hk)) (.foldl (.retime (.foldl (.foldl
      (.set hk.isolatePorts) fun _ _ hk => hk.loseLoan) fun _ _ hk => hk.endRequestsTo)) fun _ _ hk => hk))

theorem Keeps.doYield (hk : Keeps s₀ s) : Keeps s₀ (doYield s).1 := by
  unfold Machine.doYield
  split
  · exact .fst_ite hk hk
  · exact hk

theorem Keeps.doClearShut (hk : Keeps s₀ s) : Keeps s₀ (doClearShut s).1 := .fst_ite hk hk

theorem Keeps.doClearBaseline {d} (hk : Keeps s₀ s) : Keeps s₀ (doClearBaseline s d).1 := .fst_ite hk hk

theorem Keeps.doGolden (hk : Keeps s₀ s) : Keeps s₀ (doGolden s).1 := .fst_ite hk.startReflash hk

theorem Keeps.toTray {action} (hk : Keeps s₀ s) : Keeps s₀ (toTray s action) := .ite hk hk

theorem Keeps.doClearLeak (hk : Keeps s₀ s) : Keeps s₀ (doClearLeak s).1 := hk.toTray.clearLeakHere

theorem Keeps.doService {action param} (hk : Keeps s₀ s) : Keeps s₀ (doService s action param).1 := by
  unfold Machine.doService
  split
  · exact hk.doYield
  · exact hk.doClearLeak
  · exact hk.doClearShut
  · exact hk.doClearBaseline
  · exact hk.doGolden
  · exact hk

theorem Keeps.smbNack (hk : Keeps s₀ s) : Keeps s₀ (smbNack s) := hk

theorem Keeps.smbAck {l} (hk : Keeps s₀ s) : Keeps s₀ (smbAck s l) := hk

theorem Keeps.onSmb {b rom f} (hk : Keeps s₀ s) (hf : ∀ x, Keeps s₀ x → Keeps s₀ (f x)) : Keeps s₀ (onSmb s b rom f) :=
  .ite hk (.ite hk (hf s hk))

theorem Keeps.execSmbusStatus {b} (hk : Keeps s₀ s) : KeepsNext s₀ (execSmbusStatus b s) := .next (.onSmb hk fun _ hk => hk)

theorem Keeps.execSmbusPower {b} (hk : Keeps s₀ s) : KeepsNext s₀ (execSmbusPower b s) := by
  refine .next ?_
  refine .onSmb hk fun _ hk => ?_
  split
  · exact .ite hk.requestOn.smbAck (.ite hk.requestOff.smbAck hk)
  · exact hk

theorem Keeps.execSmbusThermal {b} (hk : Keeps s₀ s) : KeepsNext s₀ (execSmbusThermal b s) := .next (.onSmb hk fun _ hk => hk)

theorem Keeps.execSmbusPowerReading {b} (hk : Keeps s₀ s) : KeepsNext s₀ (execSmbusPowerReading b s) := .next (.onSmb hk fun _ hk => hk)

theorem Keeps.execSmbusNotice {b} (hk : Keeps s₀ s) : KeepsNext s₀ (execSmbusNotice b s) := by
  refine .next ?_
  refine .onSmb hk fun _ hk => ?_
  split
  · exact hk
  · exact hk

theorem Keeps.execSmbusLog {b} (hk : Keeps s₀ s) : KeepsNext s₀ (execSmbusLog b s) := .next (.onSmb hk fun _ hk => hk)

theorem Keeps.setTrayCap {w demand} (hk : Keeps s₀ s) : Keeps s₀ (setTrayCap s w demand) := .pushCaps hk

theorem Keeps.execSmbusCap {b} (hk : Keeps s₀ s) : KeepsNext s₀ (execSmbusCap b s) :=
  .next (.onSmb hk fun _ hk => (.ite (.ite (.smbAck (.ite (.limitCheck hk) hk.applyOwnCap)) hk) (.ite hk (.ite hk.setTrayCap.smbAck hk))))

theorem Keeps.execSmbusServiceArm {b} (hk : Keeps s₀ s) : KeepsNext s₀ (execSmbusServiceArm b s) := by
  refine .next ?_
  refine .onSmb hk fun _ hk => ?_
  split
  · exact hk
  · exact hk

theorem Keeps.execSmbusServiceGo {b} (hk : Keeps s₀ s) : KeepsNext s₀ (execSmbusServiceGo b s) := by
  refine .next ?_
  refine .onSmb hk fun _ hk => ?_
  split
  · exact .ite (.ite (.smbAck (.doService hk)) (.smbNack (.doService hk))) hk
  · exact hk

theorem Keeps.execSmbusLamp {b} (hk : Keeps s₀ s) : KeepsNext s₀ (execSmbusLamp b s) := .next (.onSmb hk fun _ hk => (.ite hk hk))

theorem Keeps.wqReply {w result body} (hk : Keeps s₀ s) : Keeps s₀ (wqReply s w result body) := hk

theorem Keeps.acceptSeq {seq} (hk : Keeps s₀ s) : Keeps s₀ (acceptSeq s seq) := hk

theorem Keeps.onWairiq {w type own} (hk : Keeps s₀ s) (hown : ∀ t, Keeps s₀ t → Keeps s₀ (own t).1) : Keeps s₀ (onWairiq s w type own) := by
  unfold Machine.onWairiq
  extract_lets answer s1 n
  have h1 : Keeps s₀ s1 := .acceptSeq hk
  have h2 : Keeps s₀ (answer (own s)) := .wqReply (hown s hk)
  have h3 : Keeps s₀ (answer (own s1)) := .wqReply (hown s1 h1)
  exact .ite hk (.ite hk.wqReply (.ite hk.wqReply (.ite h2 (.ite hk (.ite h1.wqReply (.ite h3 (.ite h1.sendTray h1.wqReply)))))))

theorem Keeps.execWairiqIdent {w} (hk : Keeps s₀ s) : KeepsNext s₀ (execWairiqIdent w s) := .next (.onWairiq hk fun _ hk => hk)

theorem Keeps.execWairiqStatus {w} (hk : Keeps s₀ s) : KeepsNext s₀ (execWairiqStatus w s) := .next (.onWairiq hk fun _ hk => hk)

theorem Keeps.execTrayCapSet {w} (hk : Keeps s₀ s) : KeepsNext s₀ (execTrayCapSet w s) :=
  .next (.onWairiq hk fun _ hk => (.fst_ite hk (.fst_ite hk hk.setTrayCap)))

theorem Keeps.carrySlope {w} (hk : Keeps s₀ s) : Keeps s₀ (carrySlope w s).1 := .fst_ite hk (.fst_ite hk hk.stewardValues)

theorem Keeps.execSlopeSet {w} (hk : Keeps s₀ s) : KeepsNext s₀ (execSlopeSet w s) := .next (.onWairiq hk fun _ hk => hk.carrySlope)

theorem Keeps.carryThermal {w} (hk : Keeps s₀ s) : Keeps s₀ (carryThermal w s).1 := .fst_ite hk (.fst_ite hk (.stewardValues hk))

theorem Keeps.execThermalSet {w} (hk : Keeps s₀ s) : KeepsNext s₀ (execThermalSet w s) := .next (.onWairiq hk fun _ hk => hk.carryThermal)

theorem Keeps.powerSlot {on n} (hk : Keeps s₀ s) : Keeps s₀ (powerSlot on s n) :=
  .ite (.ite (.requestOn hk) (.countSlot hk)) (.ite (.requestOff hk) hk)

theorem Keeps.execWairiqPower {w} (hk : Keeps s₀ s) : KeepsNext s₀ (execWairiqPower w s) :=
  .next (.onWairiq hk fun _ hk => (.fst_ite hk (.foldl hk fun _ _ hk => hk.powerSlot)))

theorem Keeps.carryLamp {w} (hk : Keeps s₀ s) : Keeps s₀ (carryLamp w s).1 := .fst_ite hk hk

theorem Keeps.execWairiqLamp {w} (hk : Keeps s₀ s) : KeepsNext s₀ (execWairiqLamp w s) := .next (.onWairiq hk fun _ hk => hk.carryLamp)

theorem Keeps.onService {w action own} (hk : Keeps s₀ s) (hown : ∀ t, Keeps s₀ t → Keeps s₀ (own t).1) :
    Keeps s₀ (onService s w action own) := .ite hk (hk.onWairiq hown)

theorem Keeps.execYieldRole {w} (hk : Keeps s₀ s) : KeepsNext s₀ (execYieldRole w s) := .next (.onService hk fun _ hk => hk.doYield)

theorem Keeps.execClearLeak {w} (hk : Keeps s₀ s) : KeepsNext s₀ (execClearLeak w s) := .next (.onService hk fun _ hk => hk.doClearLeak)

theorem Keeps.carryClearShut {w} (hk : Keeps s₀ s) : Keeps s₀ (carryClearShut w s).1 :=
  .ite (.modIsland (.doClearShut (.ite hk.toTray hk))) (.doClearShut (.ite hk.toTray hk))

theorem Keeps.execClearShut {w} (hk : Keeps s₀ s) : KeepsNext s₀ (execClearShut w s) := .next (.onService hk fun _ hk => hk.carryClearShut)

theorem Keeps.execClearBaseline {w} (hk : Keeps s₀ s) : KeepsNext s₀ (execClearBaseline w s) := .next (.onService hk fun _ hk => hk.doClearBaseline)

theorem Keeps.execGoldenReflash {w} (hk : Keeps s₀ s) : KeepsNext s₀ (execGoldenReflash w s) :=
  .next (.ite hk (.onService hk fun _ hk => hk.doGolden))

theorem Keeps.carryLogRead {w} (hk : Keeps s₀ s) : Keeps s₀ (carryLogRead w s).1 := .fst_ite hk hk

theorem Keeps.execWairiqLogRead {w} (hk : Keeps s₀ s) : KeepsNext s₀ (execWairiqLogRead w s) := .next (.onWairiq hk fun _ hk => hk.carryLogRead)

theorem Keeps.setLeak {b} (hk : Keeps s₀ s) : Keeps s₀ (setLeak s b).1 := .fst_ite hk hk

theorem Keeps.setLampCfg {b} (hk : Keeps s₀ s) : Keeps s₀ (setLampCfg s b).1 := .fst_ite hk hk

theorem Keeps.setNet {b} (hk : Keeps s₀ s) : Keeps s₀ (setNet s b).1 := .fst_ite hk hk

theorem Keeps.setSlew {b} (hk : Keeps s₀ s) : Keeps s₀ (setSlew s b).1 := .fst_ite hk hk

theorem Keeps.carryConfig {w} (hk : Keeps s₀ s) : Keeps s₀ (carryConfig w s).1 := by
  unfold Machine.carryConfig
  extract_lets
  split
  · exact hk.setLeak
  · exact hk.setLampCfg
  · exact hk.setNet
  · exact hk.setSlew
  · exact hk

theorem Keeps.execConfig {w} (hk : Keeps s₀ s) : KeepsNext s₀ (execConfig w s) := .next (.onWairiq hk fun _ hk => hk.carryConfig)

theorem Keeps.carryKey {w} (hk : Keeps s₀ s) : Keeps s₀ (carryKey w s).1 := .fst_ite hk (.fst_ite hk hk)

theorem Keeps.execKey {w} (hk : Keeps s₀ s) : KeepsNext s₀ (execKey w s) := .next (.onWairiq hk fun _ hk => hk.carryKey)

theorem Keeps.carryRelayed {w} (hk : Keeps s₀ s) : Keeps s₀ (carryRelayed w s).1 := by
  unfold Machine.carryRelayed
  split
  · exact hk
  · exact hk.carrySlope
  · exact hk.carryThermal
  · exact .fst_ite hk (.fst_ite hk (.ite hk.requestOn hk.requestOff))
  · exact hk.carryLamp
  · exact .fst_ite hk.carryClearShut hk.doService
  · exact hk.carryLogRead
  · exact hk.carryConfig
  · exact hk.carryKey
  · exact hk

theorem Keeps.execTrayRelay {t payload} (hk : Keeps s₀ s) : KeepsNext s₀ (execTrayRelay t payload s) := by
  refine .next (.onTray hk fun s hk => ?_)
  extract_lets type echo body slot r
  have hr : Keeps s₀ r.1 := hk.carryRelayed
  exact .ite hk (.ite (.ite hk hk) (.ite hk.notify (.ite hr hr.sendTray)))

theorem Keeps.execDevQuery {m} (hk : Keeps s₀ s) : KeepsNext s₀ (execDevQuery m s) := .next (.onMail hk fun _ hk => (.ite hk hk))

theorem Keeps.execDevCaps {m} (hk : Keeps s₀ s) : KeepsNext s₀ (execDevCaps m s) :=
  .next (.onMail hk fun _ hk => (.ite hk (.ite hk (.ite hk hk.writeRecord))))

theorem Keeps.dropAll (hk : Keeps s₀ s) : Keeps s₀ (dropAll s) := .set (.foldl hk fun _ _ hk => hk.releaseAll)

theorem Keeps.flushOutbox (hk : Keeps s₀ s) : Keeps s₀ (flushOutbox s) := .foldl hk fun _ _ hk => hk.deliver

theorem Keeps.restartWarm (hk : Keeps s₀ s) : Keeps s₀ (restartWarm s) := .ite hk.warmRestart (.ite hk (.startIsolate hk))

theorem Keeps.execDevReset {m} (hk : Keeps s₀ s) : KeepsNext s₀ (execDevReset m s) :=
  .next (.onMail hk fun _ hk => (.ite hk (.ite hk (.ite (.restartWarm (.ite (.islandCoreReset (.flushOutbox (.complete (.ite hk.dropAll hk))))
    (.flushOutbox (.complete (.ite hk.dropAll hk))))) (.requestOff (.modSeq (.ite (.islandCoreReset (.flushOutbox (.complete
      (.ite hk.dropAll hk)))) (.flushOutbox (.complete (.ite hk.dropAll hk))))))))))

theorem Keeps.execFwStage {m data read} (hk : Keeps s₀ s) : KeepsNext s₀ (execFwStage m data read s) := by
  refine .next ?_
  refine .onMail hk fun _ hk => ?_
  refine .ite hk ?_
  refine .ite hk ?_
  split
  · exact hk
  · refine .ite hk ?_
    refine .ite hk ?_
    split
    · exact hk
    · exact hk

theorem Keeps.execDiagRun {m} (hk : Keeps s₀ s) : KeepsNext s₀ (execDiagRun m s) := by
  refine .next ?_
  refine .onMail hk fun _ hk => ?_
  refine .ite hk ?_
  split
  · exact hk
  · exact hk

theorem Keeps.failEngine {e detail} (hk : Keeps s₀ s) : Keeps s₀ (failEngine s e detail) := by
  unfold Machine.failEngine
  split
  · exact hk.laybyFailed
  · exact hk.engineFault
  · exact hk.engineFault
  · exact hk
  · exact hk

theorem Keeps.execDiagRunComplete {pass detail corrected duration} (hk :
    Keeps s₀ s) : KeepsNext s₀ (execDiagRunComplete pass detail corrected duration s) := by
  refine .next ?_
  split
  · exact hk
  · refine .complete ?_
    split
    · exact .ite hk.failEngine hk
    · exact hk

theorem Keeps.execLogRead {m} (hk : Keeps s₀ s) : KeepsNext s₀ (execLogRead m s) :=
  .next (.onMail hk fun _ hk => (.ite hk (.ite hk (.complete (.ite hk hk)))))

theorem Keeps.execStatsRead {m} (hk : Keeps s₀ s) : KeepsNext s₀ (execStatsRead m s) := by
  refine .next ?_
  refine .onMail hk fun _ hk => ?_
  refine .ite hk ?_
  refine .ite (.ite hk hk.writeRecord) ?_
  refine .onStream hk fun _ => ?_
  split
  · exact hk
  · exact hk.writeRecord
end

/-! ## What a step keeps -/

/-- Every command answers a next state that keeps what it found. -/
theorem exec_keeps {s₀ s : State} (hk : Keeps s₀ s) : ∀ c : Instr, KeepsNext s₀ (exec c s)
  | .devQuery _ => hk.execDevQuery
  | .devCaps _ => hk.execDevCaps
  | .devReset _ => hk.execDevReset
  | .timeQuery _ => hk.execTimeQuery
  | .memReserve _ => hk.execMemReserve
  | .memRelease _ => hk.execMemRelease
  | .memQuotaSet _ => hk.execMemQuotaSet
  | .regionMap _ => hk.execRegionMap
  | .regionMove _ => hk.execRegionMove
  | .itinLoad _ _ _ => hk.execItinLoad
  | .itinUnload _ => hk.execItinUnload
  | .streamOpen _ => hk.execStreamOpen
  | .streamStart _ => hk.execStreamStart
  | .streamFeed _ _ _ _ => hk.execStreamFeed
  | .streamDrain _ => hk.execStreamDrain
  | .streamClose _ => hk.execStreamClose
  | .streamSnapshot _ => hk.execStreamSnapshot
  | .streamResume _ _ => hk.execStreamResume
  | .streamPolicy _ => hk.execStreamPolicy
  | .pwrCapSet _ => hk.execPwrCapSet
  | .pwrReport _ => hk.execPwrReport
  | .opSet _ => hk.execOpSet
  | .energyRead _ => hk.execEnergyRead
  | .fabQuery _ => hk.execFabQuery
  | .fabRouteSet _ => hk.execFabRouteSet
  | .fabIsolate _ => hk.execFabIsolate
  | .fwStage _ _ _ => hk.execFwStage
  | .fwCommit _ => hk.execFwCommit
  | .fwVerify _ => hk.execFwVerify
  | .fwRollback _ => hk.execFwRollback
  | .diagRun _ => hk.execDiagRun
  | .logRead _ => hk.execLogRead
  | .statsRead _ => hk.execStatsRead
  | .audioBind _ => hk.execAudioBind
  | .audioConfig _ => hk.execAudioConfig
  | .commandFetch _ => hk.execCommandFetch
  | .cmdTailWrite _ _ => hk.execCmdTailWrite
  | .cmpHeadWrite _ _ => hk.execCmpHeadWrite
  | .evtHeadWrite _ => hk.execEvtHeadWrite
  | .channelEnable _ _ => hk.execChannelEnable
  | .channelDisable _ _ => hk.execChannelDisable
  | .irqCauseWrite _ => hk.execIrqCauseWrite
  | .irqMaskWrite _ => hk.execIrqMaskWrite
  | .msixVectorUnmask _ => hk.execMsixVectorUnmask
  | .mscLoRead => hk.execMscLoRead
  | .registerWrite _ _ _ => hk.execRegisterWrite
  | .bootQuery => hk.execBootQuery
  | .bootLog => hk.execBootLog
  | .bootRetry => hk.execBootRetry
  | .bootHostImage _ _ => hk.execBootHostImage
  | .completionWrite => hk.execCompletionWrite
  | .overflowLogDrain _ => hk.execOverflowLogDrain
  | .irqDelayExpiry _ => hk.execIrqDelayExpiry
  | .heartbeatIncrement => hk.execHeartbeatIncrement
  | .firmwareHalt _ => hk.execFirmwareHalt
  | .perstReset _ => hk.execPerstReset
  | .functionLevelReset => hk.execFunctionLevelReset
  | .pcieLinkDown => hk.execPcieLinkDown
  | .pcieLinkUp => hk.execPcieLinkUp
  | .rateWindowClose _ _ => hk.execRateWindowClose
  | .rateBelowMinimum _ => hk.execRateBelowMinimum
  | .pacerTokenCredit _ => hk.execPacerTokenCredit
  | .wavefrontIssue _ _ => hk.execWavefrontIssue
  | .attentionStepIssue _ _ => hk.execAttentionStepIssue
  | .segmentStart _ _ => hk.execSegmentStart
  | .bankDrainComplete _ _ => hk.execBankDrainComplete
  | .waymarkCommit _ _ _ => hk.execWaymarkCommit
  | .laybySelfTest => hk.execLaybySelfTest
  | .laybySelfTestDone _ _ => hk.execLaybySelfTestDone
  | .opChangeRequest _ _ => hk.execOpChangeRequest
  | .opChangeGapStart => hk.execOpChangeGapStart
  | .opChangeDeferTimeout => hk.execOpChangeDeferTimeout
  | .opStopBegin => hk.execOpStopBegin
  | .opStopSettled => hk.execOpStopSettled
  | .opStopTimeout _ => hk.execOpStopTimeout
  | .approachTimeout _ => hk.execApproachTimeout
  | .mscTick => hk.execMscTick
  | .alignExchangeTimer => hk.execAlignExchangeTimer
  | .disciplineExchangeTimer => hk.execDisciplineExchangeTimer
  | .timeExchange _ _ => hk.execTimeExchange
  | .refclkLost => hk.execRefclkLost
  | .refclkReturn => hk.execRefclkReturn
  | .linkTrainingStart _ => hk.execLinkTrainingStart
  | .trainingSet _ _ => hk.execTrainingSet
  | .linkTrainingComplete _ _ _ _ _ => hk.execLinkTrainingComplete
  | .linkTrainingTimeout _ => hk.execLinkTrainingTimeout
  | .linkTrainingRetry _ => hk.execLinkTrainingRetry
  | .flitReceive _ _ => hk.execFlitReceive
  | .nakReceive _ _ => hk.execNakReceive
  | .linkReplayLimit _ => hk.execLinkReplayLimit
  | .linkOutputArbitrate _ => hk.execLinkOutputArbitrate
  | .packetForward _ _ _ => hk.execPacketForward
  | .readPkt _ _ => hk.execReadPkt
  | .readData _ _ => hk.execReadData
  | .movePkt _ _ => hk.execMovePkt
  | .moveAck _ _ => hk.execMoveAck
  | .relaySend => hk.execRelaySend
  | .relayCredit _ _ => hk.execRelayCredit
  | .loanRequest _ _ _ _ _ => hk.execLoanRequest
  | .loanGrant _ _ _ _ _ _ => hk.execLoanGrant
  | .recallNotice _ _ _ => hk.execRecallNotice
  | .loanReturn _ _ _ => hk.execLoanReturn
  | .recallNoticeExpiry _ _ => hk.execRecallNoticeExpiry
  | .recallRoomRestore _ => hk.execRecallRoomRestore
  | .linkSignalLoss _ => hk.execLinkSignalLoss
  | .linkDownTimeout _ => hk.execLinkDownTimeout
  | .linkNotice _ _ _ _ => hk.execLinkNotice
  | .dieNotice _ _ _ => hk.execDieNotice
  | .routeGenerationNotice _ _ _ => hk.execRouteGenerationNotice
  | .routeSetInstall _ => hk.execRouteSetInstall
  | .linkUsabilityHoldExpiry _ => hk.execLinkUsabilityHoldExpiry
  | .roleRequest _ => hk.execRoleRequest
  | .roleAccept _ _ => hk.execRoleAccept
  | .roleSwapTick _ => hk.execRoleSwapTick
  | .roleRequestTimeout _ => hk.execRoleRequestTimeout
  | .roleHoldoffExpiry _ => hk.execRoleHoldoffExpiry
  | .remoteRequestTimeout _ => hk.execRemoteRequestTimeout
  | .isolateDrainEnd => hk.execIsolateDrainEnd
  | .moveLand _ _ _ _ => hk.execMoveLand
  | .moveDeferredIssue _ => hk.execMoveDeferredIssue
  | .moveLatenessTimeout _ => hk.execMoveLatenessTimeout
  | .firmwareAreaMove => hk.execFirmwareAreaMove
  | .frameRelease _ => hk.execFrameRelease
  | .emptySlot _ => hk.execEmptySlot
  | .frameFinish _ => hk.execFrameFinish
  | .snapshotComplete _ => hk.execSnapshotComplete
  | .resumeComplete _ _ => hk.execResumeComplete
  | .audioBlockEnd _ _ _ => hk.execAudioBlockEnd
  | .audioPlayStart _ _ _ => hk.execAudioPlayStart
  | .audioFillRepost _ _ => hk.execAudioFillRepost
  | .slaveClockValid _ _ _ => hk.execSlaveClockValid
  | .slaveClockLost _ => hk.execSlaveClockLost
  | .pmbusIoutRead _ _ _ _ _ _ => hk.execPmbusIoutRead
  | .pmbusStatusRead _ _ _ _ _ => hk.execPmbusStatusRead
  | .pmbusAlert _ _ => hk.execPmbusAlert
  | .baselineLearned _ => hk.execBaselineLearned
  | .pdnAlarmRaise _ => hk.execPdnAlarmRaise
  | .pdnShut _ => hk.execPdnShut
  | .pdnAlarmClear _ => hk.execPdnAlarmClear
  | .powerOnRequest _ => hk.execPowerOnRequest
  | .powerOffRequest _ => hk.execPowerOffRequest
  | .railStepDone => hk.execRailStepDone
  | .railStepTimeout => hk.execRailStepTimeout
  | .sequencerHoldExpiry => hk.execSequencerHoldExpiry
  | .ascentHoldoffExpiry => hk.execAscentHoldoffExpiry
  | .firmwareQuiesced => hk.execFirmwareQuiesced
  | .quiesceTimeout => hk.execQuiesceTimeout
  | .railLoss _ => hk.execRailLoss
  | .aonReset => hk.execAonReset
  | .aonResetRelease _ _ _ => hk.execAonResetRelease
  | .sysResetAssert => hk.execSysResetAssert
  | .sysResetRelease => hk.execSysResetRelease
  | .estimateWindow => hk.execEstimateWindow
  | .throttleEnd _ => hk.execThrottleEnd
  | .throttleEventIntervalClose => hk.execThrottleEventIntervalClose
  | .calibrationUpdate => hk.execCalibrationUpdate
  | .calibrationFreezeGuard => hk.execCalibrationFreezeGuard
  | .opReturnHoldExpiry => hk.execOpReturnHoldExpiry
  | .droopTrip _ _ _ => hk.execDroopTrip
  | .droopRelease _ _ => hk.execDroopRelease
  | .droopHoldTimeout _ _ _ => hk.execDroopHoldTimeout
  | .thermalSensorRead _ _ => hk.execThermalSensorRead
  | .thermalPointDrop => hk.execThermalPointDrop
  | .thermalPointReturn => hk.execThermalPointReturn
  | .thermalTrip _ _ => hk.execThermalTrip
  | .ageingTrimRun _ _ => hk.execAgeingTrimRun
  | .energyChargeSend => hk.execEnergyChargeSend
  | .energyChargeReceive _ _ _ => hk.execEnergyChargeReceive
  | .statToggle => hk.execStatToggle
  | .statWatchdogExpiry => hk.execStatWatchdogExpiry
  | .statInSample _ => hk.execStatInSample
  | .election => hk.execElection
  | .heartbeatSend => hk.execHeartbeatSend
  | .trayHeartbeat _ _ => hk.execTrayHeartbeat
  | .stateSend => hk.execStateSend
  | .trayState _ _ => hk.execTrayState
  | .trayCap _ _ _ => hk.execTrayCap
  | .capAck _ _ => hk.execCapAck
  | .capResend _ => hk.execCapResend
  | .capRecompute => hk.execCapRecompute
  | .trayRoleRequest _ => hk.execTrayRoleRequest
  | .trayRoleAccept _ _ => hk.execTrayRoleAccept
  | .trayRoleSwap => hk.execTrayRoleSwap
  | .trayRoleRequestTimeout => hk.execTrayRoleRequestTimeout
  | .trayRoleHoldoffExpiry => hk.execTrayRoleHoldoffExpiry
  | .standbyNamed _ _ => hk.execStandbyNamed
  | .primaryRerank => hk.execPrimaryRerank
  | .trayPower _ _ => hk.execTrayPower
  | .trayRelay _ _ => hk.execTrayRelay
  | .trayPowerOnSequence => hk.execTrayPowerOnSequence
  | .primaryVacant => hk.execPrimaryVacant
  | .coolingWatchdogStage1 => hk.execCoolingWatchdogStage1
  | .coolingWatchdogStage2 => hk.execCoolingWatchdogStage2
  | .heartbeatLossShutdown => hk.execHeartbeatLossShutdown
  | .orderedPowerdownStart => hk.execOrderedPowerdownStart
  | .ainSample _ _ => hk.execAinSample
  | .coolantWarn _ => hk.execCoolantWarn
  | .coolantCritical _ => hk.execCoolantCritical
  | .coolantCriticalShutdown => hk.execCoolantCriticalShutdown
  | .coolantRestored _ => hk.execCoolantRestored
  | .leakTrip _ => hk.execLeakTrip
  | .leakSensorOpen _ => hk.execLeakSensorOpen
  | .cablePresenceAssert _ _ => hk.execCablePresenceAssert
  | .cablePresenceDeassert _ => hk.execCablePresenceDeassert
  | .lampPwmPeriod _ => hk.execLampPwmPeriod
  | .lampOpenCheck _ _ => hk.execLampOpenCheck
  | .smbusStatus _ => hk.execSmbusStatus
  | .smbusPower _ => hk.execSmbusPower
  | .smbusThermal _ => hk.execSmbusThermal
  | .smbusPowerReading _ => hk.execSmbusPowerReading
  | .smbusNotice _ => hk.execSmbusNotice
  | .smbusLog _ => hk.execSmbusLog
  | .smbusCap _ => hk.execSmbusCap
  | .smbusServiceArm _ => hk.execSmbusServiceArm
  | .smbusServiceGo _ => hk.execSmbusServiceGo
  | .smbusLamp _ => hk.execSmbusLamp
  | .wairiqIdent _ => hk.execWairiqIdent
  | .wairiqStatus _ => hk.execWairiqStatus
  | .trayCapSet _ => hk.execTrayCapSet
  | .slopeSet _ => hk.execSlopeSet
  | .thermalSet _ => hk.execThermalSet
  | .wairiqPower _ => hk.execWairiqPower
  | .wairiqLamp _ => hk.execWairiqLamp
  | .yieldRole _ => hk.execYieldRole
  | .clearLeak _ => hk.execClearLeak
  | .clearShut _ => hk.execClearShut
  | .clearBaseline _ => hk.execClearBaseline
  | .goldenReflash _ => hk.execGoldenReflash
  | .wairiqLogRead _ => hk.execWairiqLogRead
  | .config _ => hk.execConfig
  | .key _ => hk.execKey
  | .patrolRead _ _ => hk.execPatrolRead
  | .channelFailure _ _ => hk.execChannelFailure
  | .trialConfirm _ => hk.execTrialConfirm
  | .trialRollback _ _ => hk.execTrialRollback
  | .slotReflash _ _ => hk.execSlotReflash
  | .goldenVerify _ => hk.execGoldenVerify
  | .islandReady => hk.execIslandReady
  | .firmwareLoaded _ => hk.execFirmwareLoaded
  | .firmwareReady => hk.execFirmwareReady
  | .channelTrainingDone _ _ _ _ _ => hk.execChannelTrainingDone
  | .discoveryComplete => hk.execDiscoveryComplete
  | .portSettleTimeout _ => hk.execPortSettleTimeout
  | .presentNotice _ _ => hk.execPresentNotice
  | .censusClose => hk.execCensusClose
  | .rejoinState _ _ _ _ _ _ => hk.execRejoinState
  | .peerFckSeen _ => hk.execPeerFckSeen
  | .phaseWanderRetrain _ => hk.execPhaseWanderRetrain
  | .mgmt _ _ _ => hk.execMgmt
  | .diagRunComplete _ _ _ _ => hk.execDiagRunComplete
  | .slotWriteComplete _ => hk.execSlotWriteComplete
  | .islandFirmwareRunning _ _ _ _ _ _ _ => hk.execIslandFirmwareRunning
  | .depotSelfTestDone _ => hk.execDepotSelfTestDone
  | .ecsCountRead _ _ => hk.execEcsCountRead

/-- Every step keeps what it found, but for the command it takes from the queue. -/
theorem step_keeps {s t : State} (hstep : step s = .next t) : Keeps { s with pending := s.pending.tail } t := by
  obtain hq | ⟨c, rest, hq⟩ : s.pending = [] ∨ ∃ c rest, s.pending = c :: rest := by cases s.pending <;> simp
  · simp only [step, hq] at hstep
    cases hstep
    simpa only [hq] using ⟨hq, id, id, id⟩
  · simp only [step, hq] at hstep
    obtain ⟨u, hu, hkeeps⟩ := exec_keeps (Keeps.refl { s with pending := rest }) c
    rw [hu] at hstep
    cases hstep
    simpa only [hq, List.tail_cons] using hkeeps

/-- Settles O57: every command's state has the queue it was run with, which is the rest. -/
theorem stepTakesOneCommand : Obligations.StepTakesOneCommand := by
  intro s t c rest hq hstep
  obtain ⟨hpending, -⟩ := step_keeps hstep
  rw [hpending, hq, List.tail]

/-- Settles O58, by the relation's part about memory. -/
theorem memoryFormKept : Obligations.MemoryFormKept := by
  intro s t hwf hstep
  obtain ⟨-, hmem, -⟩ := step_keeps hstep
  exact hmem hwf

/-- Settles O59, by the relation's parts about the host interface and the fault record. -/
theorem hostAndRecordKept : Obligations.HostAndRecordKept := by
  intro s t hhost hrec hstep
  obtain ⟨-, -, hh, hr⟩ := step_keeps hstep
  exact ⟨hh hhost, hr hrec⟩

end Sys2Proof.Proofs
end

section
/-! PROOFS. The first statements of the family: the step on the queue, the reset, handles, completions, and the bytes of memory. -/

namespace Sys2Proof.Proofs

open Sys2Proof Sys2Proof.Machine Sys2Proof.Safety Sys2Proof.Laws

set_option Elab.async false

/-! ## The step and the reset -/

/-- Settles O1: it is the step's second case. -/
theorem stepRunsFrontCommand : Obligations.StepRunsFrontCommand := fun _ _ _ => rfl

/-- Settles O2: the first part is the step's first case; of the second, each command's definition is a next state. -/
theorem everyStepAnswersNext : Obligations.EveryStepAnswersNext := by
  refine ⟨fun s hq => by simp only [step, hq], fun c s => ?_⟩
  cases c <;> exact ⟨_, rfl⟩

/-- Settles O3: the values are read off `State.reset`. -/
theorem resetValues : Obligations.ResetValues := by
  refine ⟨rfl, rfl, rfl, rfl, ?_, ?_, rfl, rfl, rfl, rfl, ?_, ?_⟩
  · decide
  · decide
  · decide
  · decide

/-- Settles O60: memory is empty, and so are the log and the fault record. -/
theorem invariantsHoldAtReset : Obligations.InvariantsHoldAtReset :=
  ⟨reset_wf, ⟨Nat.zero_le _, rfl⟩, ⟨Nat.zero_le _, Nat.zero_le _⟩, rfl⟩

/-! ## The bytes of memory -/

/-- An address below every cell reads as one that nothing has written. -/
theorem readByte_of_lt {m : List Host.Cell} {x : Nat} (h : ∀ c ∈ m, x < c.1) : readByte m x = emptyByte := by
  cases m with
  | nil => rfl
  | cons d r =>
    have hx : x < d.1 := h d (List.mem_cons_self ..)
    have hne : (d.1 == x) = false := by simp; omega
    simp [readByte, hne, hx]

/-- A byte written reads back, and every other address reads as before. -/
theorem readByte_writeByte {m : List Host.Cell} (hm : cellsOk m = true) (a : Nat) (v : Byte) (x : Nat) :
    readByte (writeByte m a v) x = if x = a then v else readByte m x := by
  induction m with
  | nil =>
    simp only [writeByte]
    grind [readByte]
  | cons d r ih =>
    obtain ⟨y, b⟩ := d
    obtain ⟨-, hr, hlt⟩ := (cellsOk_cons y b r).1 hm
    have hbelow : x ≤ y → readByte r x = emptyByte := fun hxy => readByte_of_lt fun c hc => Nat.lt_of_le_of_lt hxy (hlt c hc)
    rcases lt_trichotomy y a with hya | rfl | hya
    · simp only [writeByte, if_pos hya, readByte, ih hr]
      grind
    · simp only [writeByte, lt_irrefl, if_false, beq_self_eq_true, if_true]
      grind [readByte]
    · simp only [writeByte]
      grind [readByte]

/-- Bytes written elsewhere leave an address as it was. -/
theorem readByte_writeBytes_other {m : List Host.Cell} (hm : cellsOk m = true) {a x : Nat} {l : List Byte} (hx : x < a ∨ a + l.length ≤ x) :
    readByte (writeBytes m a l) x = readByte m x := by
  induction l generalizing m a with
  | nil => rfl
  | cons b r ih =>
    rw [List.length_cons] at hx
    rw [writeBytes, ih (writeByte_ok hm a b) (by omega), readByte_writeByte hm, if_neg (by omega)]

/-- Bytes written read back, one by one. -/
theorem readByte_writeBytes {m : List Host.Cell} (hm : cellsOk m = true) {a i : Nat} {l : List Byte} (hi : i < l.length) :
    readByte (writeBytes m a l) (a + i) = l[i] := by
  induction l generalizing m a i with
  | nil => simp at hi
  | cons b r ih =>
    rw [writeBytes]
    cases i with
    | zero => rw [readByte_writeBytes_other (writeByte_ok hm a b) (by omega), readByte_writeByte hm]; simp
    | succ j =>
      have hj : j < r.length := by simpa using hi
      rw [show a + (j + 1) = a + 1 + j by omega, ih (writeByte_ok hm a b) hj]
      simp

/-- Bytes written read back. -/
theorem readBytes_writeBytes {m : List Host.Cell} (hm : cellsOk m = true) (a : Nat) (l : List Byte) :
    readBytes (writeBytes m a l) a l.length = l := by
  apply List.ext_getElem
  · simp [readBytes]
  · intro i hi hl
    simp [readBytes, readByte_writeBytes hm hl]

/-- A cleared address reads as one that nothing has written. -/
theorem readByte_clearBytes {m : List Host.Cell} (hm : cellsOk m = true) (lost : Nat → Bool) (x : Nat) :
    readByte (clearBytes m lost) x = if lost x then emptyByte else readByte m x := by
  induction m with
  | nil => simp [clearBytes, readByte]
  | cons d r ih =>
    obtain ⟨y, b⟩ := d
    obtain ⟨-, hr, hlt⟩ := (cellsOk_cons y b r).1 hm
    have hbelow : x ≤ y → readByte r x = emptyByte := fun hxy => readByte_of_lt fun c hc => Nat.lt_of_le_of_lt hxy (hlt c hc)
    have ih := ih hr
    rw [clearBytes] at ih ⊢
    by_cases hy : lost y = true
    · rw [List.filter_cons_of_neg (by simpa using hy), ih]
      grind [readByte]
    · rw [List.filter_cons_of_pos (by simpa using hy), readByte, ih]
      grind [readByte]

/-- Settles O56, by the three laws above. -/
theorem memoryReadsBackWrites : Obligations.MemoryReadsBackWrites := by
  refine ⟨fun m a v hm => ⟨?_, fun x hx => ?_⟩, fun m a l hm => ⟨readBytes_writeBytes hm a l, fun x hx => ?_⟩, fun m lost hm x => ?_⟩
  · rw [readByte_writeByte hm, if_pos rfl]
  · rw [readByte_writeByte hm, if_neg hx]
  · exact readByte_writeBytes_other hm hx
  · exact readByte_clearBytes hm lost x

/-! ## Handles -/

/-- The candidate that `nextHandle` looks at after `n`. -/
def candidate (n : Nat) : Nat := if n ≥ 0xFFFF then 1 else n + 1

theorem nextHandle_succ (live : List Nat) (k n : Nat) :
    nextHandle live (k + 1) n = if live.contains n then nextHandle live k (candidate n) else n := rfl

/-- The `i`-th candidate from `n`. -/
theorem candidate_iterate {n : Nat} (h1 : 1 ≤ n) (h2 : n ≤ 0xFFFF) (i : Nat) : candidate^[i] n = (n - 1 + i) % 0xFFFF + 1 := by
  induction i with
  | zero => rw [Function.iterate_zero_apply]; omega
  | succ i ih => rw [Function.iterate_succ_apply', ih, candidate]; split <;> omega

/-- The handle given is a candidate, and where it is live so is every candidate up to the last one looked at. -/
theorem nextHandle_eq_iterate (live : List Nat) (k n : Nat) :
    (∃ i, nextHandle live k n = candidate^[i] n) ∧ (nextHandle live k n ∈ live → ∀ i < k, candidate^[i] n ∈ live) := by
  induction k generalizing n with
  | zero => exact ⟨⟨0, rfl⟩, fun _ i hi => absurd hi (Nat.not_lt_zero i)⟩
  | succ k ih =>
    rw [nextHandle_succ]
    split
    · next hn =>
      obtain ⟨⟨i, hi⟩, hall⟩ := ih (candidate n)
      refine ⟨⟨i + 1, hi⟩, fun h j hj => ?_⟩
      cases j with
      | zero => simpa using hn
      | succ j => exact hall h j (by omega)
    · next hn => exact ⟨⟨0, rfl⟩, fun h => absurd (by simpa using h) hn⟩

/-- Settles O13: were the handle live, so would be the 65,535 candidates, which are all different. -/
theorem handlesFresh : Obligations.HandlesFresh := by
  intro live n h1 h2 hlen
  obtain ⟨⟨i, hi⟩, hall⟩ := nextHandle_eq_iterate live 65536 n
  refine ⟨fun hlive => ?_, ?_, ?_⟩
  · have hsub : Finset.Icc 1 0xFFFF ⊆ live.toFinset := by
      intro x hx
      rw [Finset.mem_Icc] at hx
      have hx' := hall hlive ((x + 0xFFFF - n) % 0xFFFF) (by omega)
      rw [candidate_iterate h1 h2, show (n - 1 + (x + 0xFFFF - n) % 0xFFFF) % 0xFFFF + 1 = x by omega] at hx'
      exact List.mem_toFinset.2 hx'
    have hcard := (Finset.card_le_card hsub).trans live.toFinset_card_le
    rw [Nat.card_Icc] at hcard
    omega
  · rw [hi, candidate_iterate h1 h2]; omega
  · rw [hi, candidate_iterate h1 h2]; omega

/-! ## Completions -/

/-- The fields of a completion entry, as a sum of their shares. -/
theorem cmpEntry_toNat (tag status opcode result : Nat) :
    (cmpEntry tag status opcode 0 result).toNat
      = tag % 2 ^ 16 + status % 2 ^ 8 * 2 ^ 16 + opcode % 2 ^ 8 * 2 ^ 24 + result / 2 ^ 64 % 2 ^ 192 * 2 ^ 64 := by
  simp only [cmpEntry, put, Nat.shiftLeft_eq, Nat.shiftRight_eq_div_pow, BitVec.toNat_ofNat]
  omega

/-- Bytes 8 to 31 of a completion entry are those of the result. -/
theorem cmpEntry_result (tag status opcode result i : Nat) (hi : i < 24) :
    fld (cmpEntry tag status opcode 0 result) (8 + i) 1 = result / 2 ^ (8 * (8 + i)) % 256 := by
  rw [fld, cmpEntry_toNat, Nat.shiftRight_eq_div_pow]
  have hpow : 2 ^ (8 * (8 + i)) = 2 ^ 64 * 2 ^ (8 * i) := by rw [← pow_add]; congr 1; omega
  have hlow : (tag % 2 ^ 16 + status % 2 ^ 8 * 2 ^ 16 + opcode % 2 ^ 8 * 2 ^ 24 + result / 2 ^ 64 % 2 ^ 192 * 2 ^ 64) / 2 ^ 64
      = result / 2 ^ 64 % 2 ^ 192 := by omega
  have hsplit : (2 : Nat) ^ 192 = 2 ^ (8 * i) * (2 ^ 8 * 2 ^ (184 - 8 * i)) := by rw [← pow_add, ← pow_add]; congr 1; omega
  rw [hpow, ← Nat.div_div_eq_div_mul, ← Nat.div_div_eq_div_mul, hlow, hsplit, Nat.mod_mul_right_div_self]
  exact Nat.mod_mul_right_mod _ _ _

theorem code_lt (st : Status) : st.code < 256 := by cases st <;> decide

/-- Settles O9. -/
theorem completionEntryFields : Obligations.CompletionEntryFields := by
  intro s m st result
  refine ⟨_, rfl, ?_, ?_, ?_, ?_, fun i hi => cmpEntry_result _ _ _ _ _ hi⟩
  all_goals
    have htag : mailTag m < 2 ^ 16 := Nat.mod_lt _ (by decide)
    have hop : mailOpcode m < 2 ^ 8 := Nat.mod_lt _ (by decide)
    have hcode := code_lt st
    simp only [fld, cmpEntry_toNat, Nat.shiftRight_eq_div_pow]
    omega

end Sys2Proof.Proofs
end

section
/-! PROOFS. The check columns: the sums over the quarters of a row, what a wavefront adds to them, and what one accumulator that differs
does to them. -/

namespace Sys2Proof.Proofs

open Sys2Proof Sys2Proof.Machine Sys2Proof.Safety Sys2Proof.Laws

set_option Elab.async false

/-- The sum of one quarter of a row's columns, a column past the row's end counting 0. -/
def quarterSum (k : Nat) (row : List Int) (q : Nat) : Int := ∑ c ∈ Finset.range (128 / k), nth row (q * (128 / k) + c) 0

/-- The sum of a list's first elements. -/
theorem sum_take (l : List Int) (n : Nat) : (l.take n).sum = ∑ c ∈ Finset.range n, nth l c 0 := by
  induction n with
  | zero => rfl
  | succ n ih =>
    rw [List.take_add_one, List.sum_append, Finset.sum_range_succ, ih]
    cases h : l[n]? <;> simp [nth, h]

theorem checkSums_eq (k : Nat) (row : List Int) : checkSums k row = (List.range 4).map (quarterSum k row) := by
  refine List.map_congr_left fun q _ => ?_
  rw [slice, ← List.sum_eq_foldl, sum_take, quarterSum]
  exact Finset.sum_congr rfl fun c _ => by simp [nth]

/-- Two rows have the same check sums exactly where each quarter has the same sum. -/
theorem checkSums_eq_iff (k : Nat) (row l : List Int) :
    checkSums k row = l ↔ l.length = 4 ∧ ∀ q < 4, nth l q 0 = quarterSum k row q := by
  rw [checkSums_eq]
  constructor
  · rintro rfl
    exact ⟨by simp, fun q hq => by simp [nth, hq]⟩
  · rintro ⟨hlen, hl⟩
    refine List.ext_getElem (by simp [hlen]) fun q h1 h2 => ?_
    have hq := hl q (by simpa using h1)
    simpa [nth, h2] using hq.symm

/-- A bank agrees with its check columns where every row does. -/
theorem bankOk_iff (k : Nat) (acc chk : List (List Int)) :
    bankOk k acc chk = true ↔ ∀ r row, acc[r]? = some row → checkSums k row = nth chk r [0, 0, 0, 0] := by
  simp only [bankOk, List.all_eq_true, List.mem_mapIdx, id]
  constructor
  · intro h r row hr
    obtain ⟨hlt, rfl⟩ := List.getElem?_eq_some_iff.1 hr
    simpa using h _ ⟨r, hlt, rfl⟩
  · rintro h _ ⟨r, hlt, rfl⟩
    simpa using h r _ (List.getElem?_eq_getElem hlt)

/-! ## A wavefront -/

/-- A value in range is not changed by wrapping. -/
theorem wrapTo_of_range {w : Nat} (hw : w = 32 ∨ w = 64) {v : Int} (hlo : -2 ^ (w - 1) ≤ v) (hhi : v < 2 ^ (w - 1)) : wrapTo w v = v := by
  rcases hw with rfl | rfl <;> rw [wrapTo, signed, twos] <;> norm_num at hlo hhi ⊢ <;> split <;> omega

/-- The sum of a value over the indices that have a property. -/
theorem sum_ite_range (p : Nat → Bool) (v : Int) (n : Nat) :
    (∑ c ∈ Finset.range n, if p c then v else 0) = v * ((List.range n).filter p).length := by
  induction n with
  | zero => simp
  | succ n ih =>
    rw [Finset.sum_range_succ, ih, List.range_succ, List.filter_append]
    cases hp : p n <;> simp [hp, mul_add]

/-- What a wavefront adds to a quarter: the activation's share once for every weight bit set. -/
theorem sum_peAdds (d : StepData) (act : Int) (run g j i q top : Nat) :
    (∑ c ∈ Finset.range (128 / d.k), peAdds act (weightBit d g (run * perRun d + (q * (128 / d.k) + c)) j i) i top)
      = (if i = top then -(act * 2 ^ i) else act * 2 ^ i) * bitCount d run g j i q := by
  simp only [peAdds, bitCount, ← Nat.add_assoc]
  rw [sum_ite_range (fun c => weightBit d g (run * perRun d + q * (128 / d.k) + c) j i)]
  simp

/-- A column past the run's last row of weights has no weight bit. -/
theorem weightBit_of_ge {d : StepData} {g n j i : Nat} (h : d.ws.length ≤ n) : weightBit d g n j i = false := by
  simp [weightBit, List.getElem?_eq_none h]

/-- The bounds of a sum of bounded values. -/
theorem sum_range_bounds {f : Nat → Int} {n : Nat} {b : Int} (h : ∀ c < n, -b ≤ f c ∧ f c < b) :
    -(n * b) ≤ ∑ c ∈ Finset.range n, f c ∧ ∑ c ∈ Finset.range n, f c ≤ n * b := by
  constructor
  · have := Finset.card_nsmul_le_sum (Finset.range n) f (-b) fun c hc => (h c (Finset.mem_range.1 hc)).1
    simpa using this
  · have := Finset.sum_le_card_nsmul (Finset.range n) f b fun c hc => (h c (Finset.mem_range.1 hc)).2.le
    simpa using this

section
variable {d : StepData} {pass run j i : Nat}

/-- What the accumulator of row `r` and column `c` takes from a wavefront. -/
def waveAdds (d : StepData) (pass run j i r c : Nat) : Int :=
  peAdds (latched d pass (r / d.acts.length) (r % d.acts.length) j) (weightBit d (r / d.acts.length) (run * perRun d + c) j i) i (d.wbits - 1)

/-- The bound that the accumulators of a bank are to keep. -/
def accBound (d : StepData) : Int := if d.k = 1 then 2 ^ 31 else 2 ^ 56

theorem waveData_row {acc : List (List Int)} {r : Nat} {row : List Int} (h : acc[r]? = some row) :
    (waveData d pass run j i acc)[r]? = some (row.mapIdx fun c a => wrapTo (accWidth d) (a + waveAdds d pass run j i r c)) := by
  simp [waveData, h, waveAdds]

theorem wrapTo_accWidth (hk : d.k = 1 ∨ d.k = 2) {x : Int} (hlo : -accBound d ≤ x) (hhi : x < accBound d) : wrapTo (accWidth d) x = x := by
  rcases hk with hk | hk
  · rw [accBound, if_pos hk] at hlo hhi
    simp only [accWidth, hk]
    exact wrapTo_of_range (.inl rfl) hlo hhi
  · rw [accBound, if_neg (by omega)] at hlo hhi
    simp only [accWidth, hk]
    exact wrapTo_of_range (.inr rfl) (by norm_num at *; omega) (by norm_num at *; omega)

/-- Each accumulator of a row takes its share, and its new value is in range. -/
theorem nth_waveRow (hk : d.k = 1 ∨ d.k = 2) {r : Nat} {row : List Int} (hlen : row.length = min (perRun d) (d.ws.length - run * perRun d))
    (hrange : ∀ c a, row[c]? = some a → -accBound d ≤ a + waveAdds d pass run j i r c ∧ a + waveAdds d pass run j i r c < accBound d)
    {c : Nat} (hc : c < perRun d) :
    nth (row.mapIdx fun c a => wrapTo (accWidth d) (a + waveAdds d pass run j i r c)) c 0 = nth row c 0 + waveAdds d pass run j i r c
      ∧ -accBound d ≤ nth row c 0 + waveAdds d pass run j i r c ∧ nth row c 0 + waveAdds d pass run j i r c < accBound d := by
  rcases Nat.lt_or_ge c row.length with hlt | hge
  · have hget := List.getElem?_eq_getElem hlt
    obtain ⟨hlo, hhi⟩ := hrange c _ hget
    simp only [nth, List.getD_eq_getElem?_getD, List.getElem?_mapIdx, hget, Option.map_some, Option.getD_some]
    exact ⟨wrapTo_accWidth hk hlo hhi, hlo, hhi⟩
  · have hadd : waveAdds d pass run j i r c = 0 := by
      rw [waveAdds, weightBit_of_ge (by omega)]
      rfl
    have hpos : 0 < accBound d := by rw [accBound]; split <;> decide
    simp only [nth, List.getD_eq_getElem?_getD, List.getElem?_mapIdx, List.getElem?_eq_none hge, hadd]
    exact ⟨rfl, by simpa using hpos.le, by simpa using hpos⟩

/-- What a wavefront adds to a quarter of a row, and the bounds the sum keeps. -/
theorem quarterSum_waveRow (hk : d.k = 1 ∨ d.k = 2) {r q : Nat} (hq : q < 4) {row : List Int}
    (hlen : row.length = min (perRun d) (d.ws.length - run * perRun d))
    (hrange : ∀ c a, row[c]? = some a → -accBound d ≤ a + waveAdds d pass run j i r c ∧ a + waveAdds d pass run j i r c < accBound d) :
    quarterSum d.k (row.mapIdx fun c a => wrapTo (accWidth d) (a + waveAdds d pass run j i r c)) q
        = quarterSum d.k row q + ∑ c ∈ Finset.range (128 / d.k), waveAdds d pass run j i r (q * (128 / d.k) + c)
      ∧ -2 ^ 63 ≤ quarterSum d.k row q + ∑ c ∈ Finset.range (128 / d.k), waveAdds d pass run j i r (q * (128 / d.k) + c)
      ∧ quarterSum d.k row q + ∑ c ∈ Finset.range (128 / d.k), waveAdds d pass run j i r (q * (128 / d.k) + c) < 2 ^ 63 := by
  have hcol : ∀ c < 128 / d.k, q * (128 / d.k) + c < perRun d := by
    intro c hc
    rcases hk with hk | hk <;> simp only [hk, perRun] at hc ⊢ <;> omega
  have hrow := fun c hc => nth_waveRow hk hlen hrange (hcol c hc)
  rw [quarterSum, quarterSum, ← Finset.sum_add_distrib]
  refine ⟨Finset.sum_congr rfl fun c hc => (hrow c (Finset.mem_range.1 hc)).1, ?_⟩
  obtain ⟨hlo, hhi⟩ := sum_range_bounds fun c hc => (hrow c hc).2
  rcases hk with hk | hk <;> simp only [accBound, hk] at hlo hhi ⊢ <;> norm_num at hlo hhi ⊢ <;> omega

theorem waveCheck_row {chk : List (List Int)} {r : Nat} {row : List Int} (h : chk[r]? = some row) :
    (waveCheck d pass run j i chk)[r]? = some (row.mapIdx fun q a =>
      wrapTo 64 (a + latched d pass (r / d.acts.length) (r % d.acts.length) j * bitCount d run (r / d.acts.length) j i q
        * (if i + 1 = d.wbits then -2 ^ i else 2 ^ i))) := by
  simp only [waveCheck, List.getElem?_mapIdx, h, Option.map_some, beq_iff_eq]
  congr 2
  funext q a
  split <;> simp

end

/-! ## One accumulator that differs -/

/-- Where one accumulator is moved, the sum of its quarter is moved by as much. -/
theorem quarterSum_moved {k : Nat} (hk : k = 1 ∨ k = 2) {row moved : List Int} {col : Nat} {delta : Int} (hcol : col < 512 / k)
    (h : ∀ c, nth moved c 0 = nth row c 0 + if c = col then delta else 0) :
    quarterSum k moved (col / (128 / k)) = quarterSum k row (col / (128 / k)) + delta := by
  have hpos : 0 < 128 / k := by rcases hk with rfl | rfl <;> decide
  have hmod : col % (128 / k) ∈ Finset.range (128 / k) := Finset.mem_range.2 (Nat.mod_lt _ hpos)
  have hiff : ∀ c ∈ Finset.range (128 / k), (col / (128 / k) * (128 / k) + c = col ↔ col % (128 / k) = c) := by
    intro c _
    have := Nat.div_add_mod' col (128 / k)
    omega
  simp only [quarterSum, h, Finset.sum_add_distrib]
  rw [Finset.sum_congr rfl fun c hc => if_congr (hiff c hc) rfl rfl, Finset.sum_ite_eq, if_pos hmod]

theorem nth_reach {α : Type} (l : List α) (i : Nat) (a : α) (c : Nat) : nth (reach l i a) c a = nth l c a := by
  simp only [nth, reach, List.getD_eq_getElem?_getD, List.getElem?_append]
  split
  · rfl
  · next h =>
    rw [List.getElem?_eq_none (Nat.le_of_not_lt h), List.getElem?_replicate]
    split <;> rfl

theorem lt_length_reach {α : Type} (l : List α) (i : Nat) (a : α) : i < (reach l i a).length := by
  simp only [reach, List.length_append, List.length_replicate]
  omega

/-- The row with an upset, in place of the row it had. -/
theorem upset_row {cols : Nat} {acc : List (List Int)} {u : Upset} (hrow : u.row < 512) (hcol : u.col < cols) :
    (upset cols acc [u])[u.row]? = some ((reach (nth acc u.row []) u.col 0).mapIdx fun c x => if c == u.col then x + u.delta else x) := by
  have hget : (reach acc u.row [])[u.row]? = some (nth acc u.row []) := by
    have hlt := lt_length_reach acc u.row []
    rw [← nth_reach acc u.row [] u.row, nth, List.getD_eq_getElem?_getD, List.getElem?_eq_getElem hlt, Option.getD_some]
  simp [upset, hrow, hcol, hget]

/-- Every accumulator of that row is as it was but for the one upset. -/
theorem nth_upsetRow (row : List Int) (u : Upset) (c : Nat) :
    nth ((reach row u.col 0).mapIdx fun c x => if c == u.col then x + u.delta else x) c 0 = nth row c 0 + if c = u.col then u.delta else 0 := by
  have hreach := nth_reach row u.col 0 c
  have hlen := lt_length_reach row u.col 0
  rw [← hreach]
  simp only [nth, List.getD_eq_getElem?_getD, List.getElem?_mapIdx]
  rcases Nat.lt_or_ge c (reach row u.col 0).length with hc | hc
  · rw [List.getElem?_eq_getElem hc]
    by_cases h : c = u.col <;> simp [h]
  · rw [List.getElem?_eq_none hc, if_neg (by omega)]
    rfl

/-- An empty row agrees with check columns that nothing has been added to. -/
theorem checkSums_nil (k : Nat) : checkSums k [] = [0, 0, 0, 0] := by
  simp [checkSums_eq_iff, quarterSum, nth]
  decide

/-- Settles O33. -/
theorem checkColumnsDetect : Obligations.CheckColumnsDetect := by
  refine ⟨?wave, ?upset⟩
  case wave =>
    intro d pass run j i acc chk hk hi hlen hacc hchk hok hrange
    rw [bankOk_iff] at hok ⊢
    intro r row' hr'
    obtain ⟨row, hr⟩ : ∃ row, acc[r]? = some row := by
      have : r < acc.length := by
        have := (List.getElem?_eq_some_iff.1 hr').1
        simpa [waveData] using this
      exact ⟨_, List.getElem?_eq_getElem this⟩
    obtain ⟨sums, hs⟩ : ∃ sums, chk[r]? = some sums := by
      have := (List.getElem?_eq_some_iff.1 hr).1
      exact ⟨_, List.getElem?_eq_getElem (hlen ▸ this)⟩
    rw [waveData_row hr, Option.some.injEq] at hr'
    subst hr'
    have hsums := hok r row hr
    rw [nth, List.getD_eq_getElem?_getD, hs, Option.getD_some, checkSums_eq_iff] at hsums
    obtain ⟨hsumlen, hsums⟩ := hsums
    rw [nth, List.getD_eq_getElem?_getD, waveCheck_row hs, Option.getD_some, checkSums_eq_iff]
    refine ⟨by simp [hsumlen], fun q hq => ?_⟩
    obtain ⟨hnew, hlo, hhi⟩ := quarterSum_waveRow (pass := pass) (j := j) (i := i) (r := r) hk hq (hacc row (List.mem_of_getElem? hr))
      fun c a hc => hrange r c row a _ hr hc rfl
    have hq' : sums[q]? = some (quarterSum d.k row q) := by
      rw [List.getElem?_eq_getElem (hsumlen ▸ hq), ← hsums q hq]
      simp [nth, hsumlen, hq]
    rw [hnew, ← wrapTo_of_range (.inr rfl) hlo hhi]
    simp only [waveAdds, sum_peAdds]
    simp only [nth, List.getD_eq_getElem?_getD, List.getElem?_mapIdx, hq', Option.map_some, Option.getD_some]
    congr 2
    by_cases htop : i + 1 = d.wbits
    · rw [if_pos htop, if_pos (by omega)]; ring
    · rw [if_neg htop, if_neg (by omega)]; ring
  case upset =>
    intro k cols acc chk u hk hok hlen hacc hcols hrow hcol hdelta
    rw [bankOk_iff] at hok
    refine Bool.eq_false_iff.2 fun hok' => hdelta ?_
    have hnew := (bankOk_iff _ _ _).1 hok' u.row _ (upset_row hrow hcol)
    have hold : checkSums k (nth acc u.row []) = nth chk u.row [0, 0, 0, 0] := by
      rcases Nat.lt_or_ge u.row acc.length with hlt | hge
      · have hget := List.getElem?_eq_getElem hlt
        rw [← hok u.row _ hget, nth, List.getD_eq_getElem?_getD, hget, Option.getD_some]
      · simp only [nth, List.getD_eq_getElem?_getD, List.getElem?_eq_none hge, List.getElem?_eq_none (hlen ▸ hge)]
        exact checkSums_nil k
    have hcol' : u.col < 512 / k := hcol.trans_le hcols
    have hq : u.col / (128 / k) < 4 := by rcases hk with rfl | rfl <;> omega
    have hmoved := quarterSum_moved hk hcol' (nth_upsetRow (nth acc u.row []) u)
    rw [← hold, checkSums_eq_iff] at hnew
    obtain ⟨-, hnew⟩ := hnew
    obtain ⟨-, hsame⟩ := (checkSums_eq_iff k (nth acc u.row []) _).1 rfl
    have hquarter := hsame _ hq
    rw [hnew _ hq, hmoved] at hquarter
    omega

end Sys2Proof.Proofs
end

section
/-! PROOFS. The host interface: doorbells, heads and enables; the bootstrap mailbox; the rings; halts and resets. -/

namespace Sys2Proof.Proofs

open Sys2Proof Sys2Proof.Machine Sys2Proof.Safety Sys2Proof.Laws

set_option Elab.async false

/-! ## Frames -/

/-- Two commands that touch the host interface alone touch it alone together. -/
theorem OnlyHost.trans {s t u : State} (hst : OnlyHost s t) (htu : OnlyHost t u) : OnlyHost s u := by
  rw [OnlyHost] at *
  rw [hst] at htu
  exact htu

theorem OnlyHost.mem {s t : State} (h : OnlyHost s t) : t.mem = s.mem := by rw [h]
theorem OnlyHost.fw {s t : State} (h : OnlyHost s t) : t.fw = s.fw := by rw [h]
theorem OnlyHost.streams {s t : State} (h : OnlyHost s t) : t.streams = s.streams := by rw [h]
theorem OnlyHost.island {s t : State} (h : OnlyHost s t) : t.island = s.island := by rw [h]

@[simp] theorem raiseIrq_mem (s : State) (b : Nat) : (raiseIrq s b).mem = s.mem := by rw [raiseIrq_only]
@[simp] theorem raiseIrq_fw (s : State) (b : Nat) : (raiseIrq s b).fw = s.fw := by rw [raiseIrq_only]
@[simp] theorem raiseIrq_streams (s : State) (b : Nat) : (raiseIrq s b).streams = s.streams := by rw [raiseIrq_only]
@[simp] theorem raiseIrq_island (s : State) (b : Nat) : (raiseIrq s b).island = s.island := by rw [raiseIrq_only]
@[simp] theorem raiseIrq_channels (s : State) (b : Nat) : (raiseIrq s b).host.channels = s.host.channels := by rw [raiseIrq_host]
@[simp] theorem raiseIrq_fenced (s : State) (b : Nat) : (raiseIrq s b).host.fenced = s.host.fenced := by rw [raiseIrq_host]
@[simp] theorem raiseIrq_outbox (s : State) (b : Nat) : (raiseIrq s b).host.outbox = s.host.outbox := by rw [raiseIrq_host]
@[simp] theorem raiseIrq_accepted (s : State) (b : Nat) : (raiseIrq s b).host.accepted = s.host.accepted := by rw [raiseIrq_host]
@[simp] theorem raiseIrq_log (s : State) (b : Nat) : (raiseIrq s b).host.log = s.host.log := by rw [raiseIrq_host]
@[simp] theorem raiseIrq_lost (s : State) (b : Nat) : (raiseIrq s b).host.lost = s.host.lost := by rw [raiseIrq_host]
@[simp] theorem raiseIrq_bootArg (s : State) (b : Nat) : (raiseIrq s b).host.bootArg = s.host.bootArg := by rw [raiseIrq_host]
@[simp] theorem raiseIrq_bootStatus (s : State) (b : Nat) : (raiseIrq s b).host.bootStatus = s.host.bootStatus := by rw [raiseIrq_host]
@[simp] theorem raiseIrq_bootDone (s : State) (b : Nat) : (raiseIrq s b).host.bootDone = s.host.bootDone := by rw [raiseIrq_host]
@[simp] theorem raiseIrq_bootBusy (s : State) (b : Nat) : (raiseIrq s b).host.bootBusy = s.host.bootBusy := by rw [raiseIrq_host]

/-- Raising a cause only adds to what the die sends. -/
theorem mem_raiseIrq_out {s : State} {o : Out} (h : o ∈ s.out) (b : Nat) : o ∈ (raiseIrq s b).out := by
  unfold raiseIrq sendMsix
  dsimp only
  split
  · exact h
  · split
    · exact h
    · exact List.mem_append_left _ h

/-! ## Doorbells, heads and enables (R532, R545, Table 9-8) -/

section
variable {s : State} (hlink : s.host.linkUp = true)
include hlink

theorem exec_cmdTailWrite_of_linkUp (ch : ChanId) (v : W32) : exec (.cmdTailWrite ch v) s = .next (writeCmdTail s ch v) :=
  congrArg Host.Outcome.next (if_pos hlink)

theorem exec_cmpHeadWrite_of_linkUp (ch : ChanId) (v : W32) : exec (.cmpHeadWrite ch v) s = .next (writeCmpHead s ch v) :=
  congrArg Host.Outcome.next (if_pos hlink)

theorem exec_evtHeadWrite_of_linkUp (v : W32) : exec (.evtHeadWrite v) s = .next (writeEvtHead s v) :=
  congrArg Host.Outcome.next (if_pos hlink)

theorem exec_channelEnable_of_linkUp (ch : ChanId) (v : W32) : exec (.channelEnable ch v) s = .next (writeCfg s ch (v ||| 0x80000000)) :=
  congrArg Host.Outcome.next (if_pos hlink)

theorem exec_channelDisable_of_linkUp (ch : ChanId) (v : W32) : exec (.channelDisable ch v) s = .next (writeCfg s ch (v &&& 0x7FFFFFFF)) :=
  congrArg Host.Outcome.next (if_pos hlink)

end

/-- A channel that a write of its configuration enables: the ring sizes of the write, and the rest at rest. -/
def enabledChan (ch : ChanId) (v : W32) (c : Chan) : Chan :=
  { setCfg ch (v ||| 0x80000000).toNat c with
    cmdHead := 0, cmdTail := 0, cmpHead := 0, cmpTail := 0, counted := 0, firstAt := none, feedHead := false, err := .none, st := .enabled }

theorem writeCfg_of_disabled {s : State} {ch : ChanId} (hch : ch ≠ 0) (hst : (s.host.channels.get ch).st = .disabled) (v : W32) :
    writeCfg s ch (v ||| 0x80000000)
      = if badConfig s ch (enabledChan ch v (s.host.channels.get ch)) then
          chanError (modChan s ch fun _ => enabledChan ch v (s.host.channels.get ch)) ch .badConfig
        else modChan s ch fun _ => enabledChan ch v (s.host.channels.get ch) := by
  have hen : (v ||| 0x80000000).getLsbD 31 = true := by simp
  have hzero : (ch == 0) = false := by simpa using hch
  simp only [writeCfg, hst, hen, hzero]
  rfl

theorem enabledChan_logs (ch : ChanId) (v : W32) (c : Chan) :
    (enabledChan ch v c).cmdLog2 = v.toNat % 16 ∧ (enabledChan ch v c).cmpLog2 = v.toNat / 16 % 16 := by
  have hlow : (v ||| 0x80000000).toNat % 2 ^ 8 = v.toNat % 2 ^ 8 := by
    rw [BitVec.toNat_or, Nat.or_mod_two_pow]
    exact Nat.or_zero _
  simp only [enabledChan, setCfg, bits, Nat.shiftRight_eq_div_pow]
  omega

theorem badConfig_iff {s : State} {ch : ChanId} (hch : ch ≠ 0) (c : Chan) : badConfig s ch c = true ↔
    ((c.cmdLog2 < 4 ∨ 12 < c.cmdLog2) ∨ (c.cmpLog2 < 4 ∨ 12 < c.cmpLog2)) ∨ c.cmdBase.toNat % 4096 ≠ 0 ∨ c.cmpBase.toNat % 4096 ≠ 0 := by
  have hzero : (ch == 0) = false := by simpa using hch
  simp [badConfig, hzero, or_assoc]

theorem chanError_only (s : State) (ch : ChanId) (e : ChErr) : OnlyHost s (chanError s ch e) :=
  OnlyHost.trans rfl (raiseIrq_only _ _)

theorem chanError_channel (s : State) (ch : ChanId) (e : ChErr) :
    (chanError s ch e).host.channels.get ch = { s.host.channels.get ch with st := .error, err := e } := by
  simp [chanError]

theorem writeCfg_of_enabled {s : State} {ch : ChanId} (hst : (s.host.channels.get ch).st ≠ .disabled) (v : W32) :
    writeCfg s ch (v &&& 0x7FFFFFFF)
      = { modChan s ch (fun c => { c with st := .disabled, err := .none, feedHead := false }) with
          host := { (modChan s ch fun c => { c with st := .disabled, err := .none, feedHead := false }).host with
            fenced := s.host.fenced.filter (fun x => x.1 != ch) } } := by
  have hen : (v &&& 0x7FFFFFFF).getLsbD 31 = false := by simp
  rw [writeCfg]
  split
  · next hst' _ => exact absurd hst' hst
  · next hst' _ => exact absurd hst' hst
  · next hen' _ => rw [hen] at hen'; cases hen'
  · rfl

/-- Settles O4. -/
theorem ringIndicesAndEnables : Obligations.RingIndicesAndEnables := by
  refine ⟨?cmdTail, ?cmpHead, ?cmpHeadFull, ?evtHead, ?evtHeadFull, ?enable, ?disable⟩
  case cmdTail =>
    intro ch v s hlink hst hne
    refine ⟨fun hfit => ?_, fun hover => ?_⟩ <;> rw [exec_cmdTailWrite_of_linkUp hlink, writeCmdTail]
    · simp [hne, hst, Nat.not_lt.2 hfit]
    · simp [hne, hst, hover, chanError, causeChError]
  case cmpHead =>
    intro ch v s hlink hfit
    rw [exec_cmpHeadWrite_of_linkUp hlink, writeCmpHead, if_neg (Nat.not_lt.2 hfit)]
  case cmpHeadFull =>
    intro ch v s hlink hover
    rw [exec_cmpHeadWrite_of_linkUp hlink, writeCmpHead, if_pos hover]
  case evtHead =>
    intro v s hlink hfit
    rw [exec_evtHeadWrite_of_linkUp hlink, writeEvtHead, if_neg (Nat.not_lt.2 hfit)]
  case evtHeadFull =>
    intro v s hlink hover
    rw [exec_evtHeadWrite_of_linkUp hlink, writeEvtHead, if_pos hover]
  case enable =>
    intro ch v s hlink hch hst
    obtain ⟨hcmd, hcmp⟩ := enabledChan_logs ch v (s.host.channels.get ch)
    have hbad := badConfig_iff (s := s) hch (enabledChan ch v (s.host.channels.get ch))
    rw [hcmd, hcmp] at hbad
    refine ⟨_, exec_channelEnable_of_linkUp hlink ch v, ?_⟩
    rw [writeCfg_of_disabled hch hst]
    split
    · next h =>
      have hbad := hbad.1 h
      refine ⟨OnlyHost.trans rfl (chanError_only _ _ _), ?_⟩
      simp only [chanError_channel, modChan_host, vget_vmod_same]
      refine ⟨rfl, rfl, rfl, rfl, hcmd, hcmp, fun hgood => ?_, fun _ => ⟨trivial, trivial⟩⟩
      have hbase : (enabledChan ch v (s.host.channels.get ch)).cmdBase = (s.host.channels.get ch).cmdBase
        ∧ (enabledChan ch v (s.host.channels.get ch)).cmpBase = (s.host.channels.get ch).cmpBase := ⟨rfl, rfl⟩
      rw [hbase.1, hbase.2] at hbad
      omega
    · next h =>
      have hgood := mt hbad.2 h
      refine ⟨rfl, ?_⟩
      simp only [modChan_host, vget_vmod_same]
      refine ⟨rfl, rfl, rfl, rfl, hcmd, hcmp, fun _ => ⟨rfl, rfl⟩, fun hbad' => ?_⟩
      have hbase : (enabledChan ch v (s.host.channels.get ch)).cmdBase = (s.host.channels.get ch).cmdBase
        ∧ (enabledChan ch v (s.host.channels.get ch)).cmpBase = (s.host.channels.get ch).cmpBase := ⟨rfl, rfl⟩
      rw [hbase.1, hbase.2] at hgood
      omega
  case disable =>
    intro ch v s hlink hst
    refine ⟨_, exec_channelDisable_of_linkUp hlink ch v, ?_⟩
    rw [writeCfg_of_enabled hst]
    refine ⟨rfl, by simp, by simp, by simp [canServe], fun e => by simp, fun c hc => ?_⟩
    simp [vget_vmod_other _ _ hc]

end Sys2Proof.Proofs
end

section
/-! PROOFS. The bootstrap mailbox. -/

namespace Sys2Proof.Proofs

open Sys2Proof Sys2Proof.Machine Sys2Proof.Safety Sys2Proof.Laws

set_option Elab.async false

@[simp] theorem setFw_fw (s : State) (st : FwState) : (setFw s st).fw = { s.fw with state := st } := by rw [setFw_only]
@[simp] theorem setFw_mem (s : State) (st : FwState) : (setFw s st).mem = s.mem := by rw [setFw_only]
@[simp] theorem setFw_streams (s : State) (st : FwState) : (setFw s st).streams = s.streams := by rw [setFw_only]
@[simp] theorem setFw_island (s : State) (st : FwState) : (setFw s st).island = s.island := by rw [setFw_only]

/-- A cleared firmware leaves every byte of memory. -/
@[simp] theorem clearFirmware_cells (s : State) : (clearFirmware s).mem.cells = s.mem.cells := rfl

/-- FW_STATE set to what it is changes nothing. -/
theorem setFw_self {s : State} {st : FwState} (h : s.fw.state = st) : setFw s st = s := by simp [setFw, h]

/-- The end of a bootstrap command touches the host interface alone. -/
theorem bootEnd_only (s : State) (st : Status) (args : Vector W64 6) : OnlyHost s (bootEnd s st args) := OnlyHost.trans rfl (raiseIrq_only _ _)

@[simp] theorem bootEnd_mem (s : State) (st : Status) (args : Vector W64 6) : (bootEnd s st args).mem = s.mem := OnlyHost.mem (bootEnd_only s st args)
@[simp] theorem bootEnd_fw (s : State) (st : Status) (args : Vector W64 6) : (bootEnd s st args).fw = s.fw := OnlyHost.fw (bootEnd_only s st args)
@[simp] theorem bootEnd_streams (s : State) (st : Status) (args : Vector W64 6) : (bootEnd s st args).streams = s.streams :=
  OnlyHost.streams (bootEnd_only s st args)
@[simp] theorem bootEnd_island (s : State) (st : Status) (args : Vector W64 6) : (bootEnd s st args).island = s.island :=
  OnlyHost.island (bootEnd_only s st args)
@[simp] theorem bootEnd_bootStatus (s : State) (st : Status) (args : Vector W64 6) : (bootEnd s st args).host.bootStatus = BitVec.ofNat 8 st.code := by
  simp [bootEnd]
@[simp] theorem bootEnd_bootDone (s : State) (st : Status) (args : Vector W64 6) : (bootEnd s st args).host.bootDone = true := by simp [bootEnd]
@[simp] theorem bootEnd_bootBusy (s : State) (st : Status) (args : Vector W64 6) : (bootEnd s st args).host.bootBusy = false := by simp [bootEnd]
@[simp] theorem bootEnd_bootArg (s : State) (st : Status) (args : Vector W64 6) : (bootEnd s st args).host.bootArg = args := by simp [bootEnd]
@[simp] theorem bootEnd_irqCause (s : State) (st : Status) (args : Vector W64 6) :
    (bootEnd s st args).host.irqCause = s.host.irqCause ||| 2 := raiseIrq_cause _ _

theorem bootRuns_of_busy {s : State} {op : Nat} (h : BootBusy s op) : bootRuns s op = true := by
  obtain ⟨hbusy, hcmd⟩ := h
  simp [bootRuns, hbusy, hcmd]

/-- A write of the whole of BOOT_CMD while the link is up. -/
theorem exec_registerWrite_bootCmd {s : State} (hlink : s.host.linkUp = true) (v : W64) :
    exec (.registerWrite 0x100 8 v) s = .next (writeBootCmd s v) := by
  rw [exec_registerWrite_of_linkUp hlink]
  rfl

theorem writeBootCmd_of_idle {s : State} (hbusy : s.host.bootBusy = false) (v : W64) : writeBootCmd s v
    = if v.toNat % 256 ∈ bootOpcodes then { s with host := { s.host with
          bootCmd := v &&& 0xFFFF, bootBusy := true, bootDone := false, bootSeq := BitVec.ofNat 8 (v.toNat >>> 8) } }
      else bootEnd { s with host := { s.host with
          bootCmd := v &&& 0xFFFF, bootBusy := true, bootDone := false, bootSeq := BitVec.ofNat 8 (v.toNat >>> 8) } } .badCommand s.host.bootArg := by
  simp [writeBootCmd, hbusy]

theorem mem_bootOpcodes {n : Nat} : n ∈ bootOpcodes ↔ 1 ≤ n ∧ n ≤ 4 := by
  simp only [bootOpcodes, List.mem_cons, List.not_mem_nil, or_false]
  omega

section
variable {s : State}

theorem exec_bootQuery_of_busy (h : BootBusy s 1) : exec .bootQuery s = .next (bootEnd s .ok (((s.host.bootArg.set 0 (BitVec.ofNat 64 (fwStateReg s))).set 1
    (BitVec.ofNat 64 (s.fw.stage % 256 + s.fw.fault % 256 * 256))).set 2 (BitVec.ofNat 64 (faultEntries s)))) := by
  change execBootQuery s = _
  simp [execBootQuery, bootRuns_of_busy h]

/-- The bytes of the die log that BOOT_LOG writes. -/
def bootLogBytes (s : State) : List Byte := (s.fw.dieLog.flatMap logBytes).take (s.host.bootArg.get 1).toNat

theorem exec_bootLog_of_aligned (h : BootBusy s 2) (haddr : (s.host.bootArg.get 0).toNat % 64 = 0) (hlo : 64 ≤ (s.host.bootArg.get 1).toNat)
    (hhi : (s.host.bootArg.get 1).toNat ≤ 65536) (hlen : (s.host.bootArg.get 1).toNat % 64 = 0) :
    exec .bootLog s = .next (bootEnd (emit s (.hostWrite (s.host.bootArg.get 0).toNat (bootLogBytes s))) .ok
      (s.host.bootArg.set 0 (BitVec.ofNat 64 (bootLogBytes s).length))) := by
  have hbad : ((s.host.bootArg.get 0).toNat % 64 != 0 || decide ((s.host.bootArg.get 1).toNat < 64)
      || decide (65536 < (s.host.bootArg.get 1).toNat) || (s.host.bootArg.get 1).toNat % 64 != 0) = false := by
    simp only [Bool.or_eq_false_iff, bne_eq_false_iff_eq, decide_eq_false_iff_not]
    omega
  change execBootLog s = _
  simp only [execBootLog, bootRuns_of_busy h, hbad]
  rfl

/-- The state BOOT_RETRY starts the firmware again from. -/
def retried (s : State) : State :=
  modFlash { setFw (clearFirmware s) .loading with
      fw := { (setFw (clearFirmware s) .loading).fw with stage := stageLoad, fault := 0, s5At := now s }
      seq := { (setFw (clearFirmware s) .loading).seq with state := .s5 } } fun f =>
    { f with verdict := vmap (fun v => if v == .fail then .unknown else v) f.verdict }

theorem exec_bootRetry_of_bootstrap (h : BootBusy s 3) (hst : s.fw.state = .bootstrap) (hok : s.fuses.ok = true) :
    exec .bootRetry s = .next (bootEnd (retried s) .ok (retried s).host.bootArg) := by
  change execBootRetry s = _
  simp only [execBootRetry, bootRuns_of_busy h, hst, hok]
  rfl

/-- The state an image from the host runs in. -/
def hostImageRun (s : State) (img : FwImage) : State :=
  runImage { setFw (clearFirmware s) .loading with
    fw := { (setFw (clearFirmware s) .loading).fw with hostImage := some img, fault := 0 }
    seq := { (setFw (clearFirmware s) .loading).seq with state := .s5 } } 3 img

theorem exec_bootHostImage_of_read {data : List Byte} (h : BootBusy s 4) (haddr : (s.host.bootArg.get 0).toNat % 4096 = 0)
    (hlo : 0 < (s.host.bootArg.get 1).toNat) (hhi : (s.host.bootArg.get 1).toNat ≤ 2 ^ 24) (hst : s.fw.state = .bootstrap)
    (hok : s.fuses.ok = true) (hread : (s.host.bootArg.get 1).toNat ≤ data.length) :
    exec (.bootHostImage data .ok) s
      = .next (if (imageCheck s 0 (imageOf (data.take (s.host.bootArg.get 1).toNat))).isSome then bootEnd s .verifyFailed s.host.bootArg
        else bootEnd (hostImageRun s (imageOf (data.take (s.host.bootArg.get 1).toNat))) .ok
          ((hostImageRun s (imageOf (data.take (s.host.bootArg.get 1).toNat))).host.bootArg.set 0
            (BitVec.ofNat 64 (hostImageRun s (imageOf (data.take (s.host.bootArg.get 1).toNat))).fw.version.toNat))) := by
  have hbad : ((s.host.bootArg.get 0).toNat % 4096 != 0 || (s.host.bootArg.get 1).toNat == 0
      || decide (16 * 2 ^ 20 < (s.host.bootArg.get 1).toNat)) = false := by
    simp only [Bool.or_eq_false_iff, bne_eq_false_iff_eq, decide_eq_false_iff_not, beq_eq_false_iff_ne]
    omega
  have hshort : (ReadEnd.ok != ReadEnd.ok || decide (data.length < (s.host.bootArg.get 1).toNat)) = false := by
    simpa using hread
  change execBootHostImage data .ok s = _
  simp only [execBootHostImage, bootRuns_of_busy h, hbad, hst, hok, hshort, setFw_self hst]
  rfl

end

/-- Settles O6. -/
theorem bootCommandsAnswer : Obligations.BootCommandsAnswer := by
  refine ⟨?busy, ?taken, ?unknown, ?query, ?log, ?retry, ?hostImage⟩
  case busy =>
    intro v s hlink hbusy
    rw [exec_registerWrite_bootCmd hlink, writeBootCmd, if_pos hbusy]
  case taken =>
    intro v s hlink hbusy hlo hhi
    rw [exec_registerWrite_bootCmd hlink, writeBootCmd_of_idle hbusy, if_pos (mem_bootOpcodes.2 ⟨hlo, hhi⟩)]
  case unknown =>
    intro v s hlink hbusy hop
    refine ⟨_, exec_registerWrite_bootCmd hlink v, ?_⟩
    rw [writeBootCmd_of_idle hbusy, if_neg (fun h => by have := mem_bootOpcodes.1 h; omega)]
    exact ⟨OnlyHost.trans rfl (bootEnd_only _ _ _), by simp [Status.code], by simp, by simp, by simp⟩
  case query =>
    intro s h
    refine ⟨_, exec_bootQuery_of_busy h, bootEnd_only _ _ _, by simp [Status.code], by simp, by simp, ?_, ?_, ?_⟩
    all_goals simp [Vector.get_eq_getElem]
  case log =>
    intro s h haddr hlo hhi hlen
    refine ⟨_, exec_bootLog_of_aligned h haddr hlo hhi hlen, OnlyHost.trans rfl (bootEnd_only _ _ _), by simp [Status.code], by simp, ?_, ?_⟩
    · simp [Vector.get_eq_getElem, bootLogBytes]
    · exact mem_raiseIrq_out (List.mem_append_right _ (List.mem_singleton_self _)) _
  case retry =>
    intro s h hst hok
    refine ⟨_, exec_bootRetry_of_bootstrap h hst hok, ?_⟩
    exact ⟨by simp [retried], by simp [Status.code], by simp, by simp [retried], by simp [retried, clearFirmware], by simp [retried, clearFirmware],
      fun a => by simp [retried]⟩
  case hostImage =>
    intro data img s h haddr hlo hhi hst hok hread himg
    subst himg
    refine ⟨_, exec_bootHostImage_of_read h haddr hlo hhi hst hok hread, ?_⟩
    split
    · next hcheck =>
      refine ⟨by simp, by simp, fun a => by simp, fun _ => ⟨bootEnd_only _ _ _, by simp [Status.code]⟩, fun hnone => ?_⟩
      simp [hnone] at hcheck
    · next hcheck =>
      refine ⟨by simp, by simp, fun a => by simp [hostImageRun, runImage], fun hsome => absurd hsome hcheck, fun _ => ?_⟩
      simp [hostImageRun, runImage, Status.code, Vector.get_eq_getElem]

end Sys2Proof.Proofs
end

section
/-! PROOFS. The rings, and the halts and resets of the host interface. -/

namespace Sys2Proof.Proofs

open Sys2Proof Sys2Proof.Machine Sys2Proof.Safety Sys2Proof.Laws

set_option Elab.async false

/-! ## An entry fetched twice -/

section
variable {s : State} {ch : ChanId} {e : BitVec 512}

/-- The state with an entry taken from its ring, as a command that is accepted or completed at once. -/
def taken (s : State) (ch : ChanId) (e : BitVec 512) : State :=
  modChan { s with host := { s.host with
    fenced := s.host.fenced.filter (fun x => x.1 != ch), lastServed := if ch == 0 then s.host.lastServed else ch.1 } } ch fun c =>
    if fld e 0 1 == 0x24 then { c with feedHead := true } else { c with cmdHead := c.cmdHead + 1 }

theorem acceptEntry_of_unlisted (h : fld e 0 1 ∉ opcodes) : acceptEntry s ch e = complete (taken s ch e) ⟨ch, e, false⟩ .badCommand 0 := by
  have hbad : (!opcodes.contains (fld e 0 1) || (ch != 0 && chan0Only.contains (fld e 0 1))) = true := by simp [h]
  simp only [acceptEntry, hbad]
  rfl

/-- The completion takes the first accepted command of the same channel and the same bytes off the list. -/
theorem acceptEntry_accepted_of_unlisted (h : fld e 0 1 ∉ opcodes) :
    (acceptEntry s ch e).host.accepted = dropFirst (sameCmd ⟨ch, e, false⟩) s.host.accepted := by
  rw [acceptEntry_of_unlisted h]
  rfl

theorem exec_commandFetch_of_entry (hready : ready s = true) (hlink : s.host.linkUp = true) (hquiet : quiescing s = false)
    (hnext : nextChannel s = some ch) (hfence : fencedOf s ch = none) : exec (.commandFetch (some e)) s
      = .next (if bit (fld e 1 1) 0 && outstandingOn s ch then { s with host := { s.host with fenced := s.host.fenced ++ [(ch, e)] } }
        else acceptEntry s ch e) := by
  change execCommandFetch (some e) s = _
  simp [execCommandFetch, hready, hlink, hquiet, hnext, hfence]

end

theorem fld_zero {w : Nat} (off len : Nat) : fld (0#w) off len = 0 := by
  rw [fld, BitVec.toNat_zero, Nat.zero_shiftRight, Nat.zero_mod]

/-- READY with the link up: channel 0 is ENABLED with one entry to fetch, and a command of the same 64 bytes, all of them 0, is accepted. -/
def fetchedTwice : State :=
  { State.reset with
    fw := { State.reset.fw with state := .ready }
    host := { State.reset.host with
      linkUp := true, channels := vmod State.reset.host.channels 0 fun c => { c with st := .enabled, cmdTail := 1 }
      accepted := [⟨0, 0, false⟩] } }

/-- Refutes O7, by its clause of an opcode not listed: the completion of the entry fetched takes the first accepted command of the same
channel and the same bytes off the list, so in `fetchedTwice`, where such a command is on the list, the list does not stay. -/
theorem not_ringsCarryEntries : ¬ Obligations.RingsCarryEntries := by
  rintro ⟨hfetch, -⟩
  have hready : ready fetchedTwice = true := rfl
  have hnext : nextChannel fetchedTwice = some 0 := by decide
  have hnotListed : fld (0#512) 0 1 ∉ opcodes := by rw [fld_zero]; decide
  have hfree : (bit (fld (0#512) 1 1) 0 && outstandingOn fetchedTwice 0) = false := by rw [fld_zero]; rfl
  obtain ⟨-, -, hunlisted⟩ := hfetch 0 (0#512) fetchedTwice hready rfl rfl hnext rfl
  obtain ⟨t, x, ht, -, haccepted, -⟩ := hunlisted hnotListed hfree
  rw [exec_commandFetch_of_entry hready rfl rfl hnext rfl, hfree] at ht
  rw [← Host.Outcome.next.inj ht, if_neg Bool.false_ne_true, acceptEntry_accepted_of_unlisted hnotListed] at haccepted
  have hlist : fetchedTwice.host.accepted = [⟨0, 0#512, false⟩] := rfl
  rw [hlist] at haccepted
  simp [dropFirst, sameCmd] at haccepted

/-! ## Halts and resets (R519, R523, R576) -/

theorem ready_of_state {s : State} (h : s.fw.state = .ready) : ready s = true := by simp [ready, h]
theorem not_ready_of_state {s : State} (h : s.fw.state ≠ .ready) : ready s = false := by simpa [ready] using h

/-- Setting FW_STATE to another value raises its cause. -/
theorem setFw_irqCause {s : State} {st : FwState} (h : s.fw.state ≠ st) : (setFw s st).host.irqCause = s.host.irqCause ||| 1#32 <<< causeFwState := by
  have hne : (s.fw.state == st) = false := by simpa using h
  simp only [setFw, hne]
  exact raiseIrq_cause _ _

/-- The state a halted firmware leaves. -/
def halted (w : Bool) (s : State) : State :=
  { setFw s .halted with fw := { (setFw s .halted).fw with fault := if w then 5 else 4, stage := stageStopped } }

theorem exec_firmwareHalt_of_ready {s : State} (h : s.fw.state = .ready) (w : Bool) : exec (.firmwareHalt w) s = .next (halted w s) := by
  change execFirmwareHalt w s = _
  simp only [execFirmwareHalt, ready_of_state h]
  rfl

theorem exec_commandFetch_of_not_ready {s : State} (h : ready s = false) (d : Option (BitVec 512)) : exec (.commandFetch d) s = .next s := by
  change execCommandFetch d s = _
  simp [execCommandFetch, h]

/-- Settles O8. -/
theorem firmwareHaltAndHostResets : Obligations.FirmwareHaltAndHostResets := by
  refine ⟨?beat, ?still, ?halt, ?flr, fun s => rfl, fun s => rfl, fun s => rfl, ?linkUp⟩
  case beat =>
    intro s h hdue
    change execHeartbeatIncrement s = _
    simp [execHeartbeatIncrement, ready_of_state h, hdue]
  case still =>
    intro s h
    change execHeartbeatIncrement s = _
    simp [execHeartbeatIncrement, not_ready_of_state h]
  case halt =>
    intro w s h
    refine ⟨_, exec_firmwareHalt_of_ready h w, ?_, ?_, fun d => exec_commandFetch_of_not_ready ?_ d⟩
    · rw [halted, setFw_only]; rfl
    · change (setFw s .halted).host.irqCause.getLsbD 0 = true
      rw [setFw_irqCause (by simp [h])]
      simp [causeFwState]
    · exact not_ready_of_state (by simp [halted])
  case flr =>
    intro s hlink
    refine ⟨congrArg Host.Outcome.next (if_pos hlink), rfl, rfl, rfl, hlink, fun ch => ?_, rfl, rfl, fun v => ?_, rfl, rfl, rfl, rfl, rfl, rfl, rfl⟩
    · simp [resetHostIf, Vector.get_eq_getElem]
    · simp [resetHostIf, Vector.get_eq_getElem]
  case linkUp =>
    intro s hst hperst
    have hup : ((s.seq.state == .s5 || s.seq.state == .s6) && !s.seq.perst) = true := by
      rcases hst with h | h <;> simp [h, hperst]
    exact congrArg Host.Outcome.next (if_pos hup)

end Sys2Proof.Proofs
end

section
/-! PROOFS. Commands that read the die. -/

namespace Sys2Proof.Proofs

open Sys2Proof Sys2Proof.Machine Sys2Proof.Safety Sys2Proof.Laws

set_option Elab.async false

/-- An accepted command of its opcode, without an internal fault, is carried out. -/
theorem onMail_of_accepted {m : MailCmd} {op : Nat} {s : State} (h : Accepted s m op) (f : State → State) : onMail m op s f = f s := by
  obtain ⟨hready, haccepted, hop, hfault, -⟩ := h
  simp [onMail, hready, haccepted, hop, hfault]

theorem reserved_of_accepted {m : MailCmd} {op : Nat} {s : State} (h : Accepted s m op) : reserved m = false := by
  obtain ⟨-, -, -, -, hres⟩ := h
  exact hres

/-- A stream the command may name, neither lost nor resuming, is the one it acts on. -/
theorem onStream_of_names {s : State} {m : MailCmd} {h : Nat} {st : Stream} (hn : Names s m h st) (bad : Stream → Bool) (f : Stream → State) :
    onStream s m h bad f = f st := by
  obtain ⟨hnamed, hlost, hresuming⟩ := hn
  simp [onStream, hnamed, hlost, hresuming]

/-! ## Records written to the host (R575) -/

section
variable {s : State} {m : MailCmd} {buf len : Nat} {rec_ : List Byte} {extra : Nat} (hbuf : buf % 64 = 0) (hlen : len ≤ 2 ^ 24)
include hbuf hlen

/-- A record with a BUF and a LEN in range: it is too long, the link is down, or it is written in one piece. -/
theorem writeRecord_of_inRange : writeRecord s m buf len rec_ extra
    = if len < rec_.length then complete s m .badArgument (put 8 4 rec_.length)
      else if s.host.linkUp = false then complete s m .tierFault 0
      else complete (emit s (.hostWrite buf rec_)) m .ok (put 8 4 rec_.length + extra) := by
  have hbad : (buf % 64 != 0 || decide (2 ^ 24 < len)) = false := by simpa [hbuf] using hlen
  simp only [writeRecord, hbad, Bool.false_eq_true, if_false, Bool.not_eq_true']

/-- The three ends of a command that returns a record. -/
theorem writeRecord_ends :
    (rec_.length ≤ len → s.host.linkUp = true →
      writeRecord s m buf len rec_ 0 = complete (emit s (.hostWrite buf rec_)) m .ok (put 8 4 rec_.length))
    ∧ (rec_.length ≤ len → s.host.linkUp = false → writeRecord s m buf len rec_ 0 = complete s m .tierFault 0)
    ∧ (len < rec_.length → writeRecord s m buf len rec_ 0 = complete s m .badArgument (put 8 4 rec_.length)) := by
  rw [writeRecord_of_inRange hbuf hlen]
  refine ⟨fun hfit hlink => ?_, fun hfit hlink => ?_, fun hshort => ?_⟩
  · rw [if_neg (Nat.not_lt.2 hfit), if_neg (by simp [hlink])]; rfl
  · rw [if_neg (Nat.not_lt.2 hfit), if_pos hlink]
  · rw [if_pos hshort]

end

theorem length_capRecord (s : State) : (capRecord s).length = 256 := leBytes_length _ _

theorem length_bindBytesOf (b : Machine.Bind) : (bindBytesOf b).length = 64 := by
  simp [bindBytesOf, List.length_flatMap]

theorem length_portRecord (n : Nat) (a : AudioPort) : (portRecord n a).length = 32 + 64 * a.binds.length := by
  have hbinds : (a.binds.flatMap bindBytesOf).length = 64 * a.binds.length := by
    simp [List.length_flatMap, length_bindBytesOf, Nat.mul_comm]
  rw [portRecord, List.length_append, leBytes_length, hbinds]

/-! ## The queries -/

section
variable {s : State} {m : MailCmd}

theorem exec_devQuery_of_accepted (h : Accepted s m 0x01) : exec (.devQuery m) s
    = .next (complete s m .ok (put 8 4 (devId s.fuses) + put 12 4 (devRev s) + put 16 2 s.fabric.id.toNat
      + put 18 1 (b2n s.fw.discovered) + put 19 1 s.streams.length + put 20 1 (servingEngines s).length
      + put 21 1 (laybyCode (s.engines.get 6).life))) := by
  change execDevQuery m s = _
  rw [execDevQuery, onMail_of_accepted h, if_neg (by simp [reserved_of_accepted h])]
  rfl

theorem exec_timeQuery_of_accepted (h : Accepted s m 0x04) {leader : FabId}
    (hleader : leader = (match s.time.leader with | some p => (s.fabric.ports.get p).peer | none => 0xFFFF)) : exec (.timeQuery m) s
    = .next (complete s m .ok (put 16 1 (timeCode s.time.state) + put 17 1 s.time.hops + put 18 2 s.time.rootId.toNat
      + put 20 2 leader.toNat + put 22 2 (twos 16 (rateOf s s.time.corr)) + put 24 4 (twos 32 s.time.offset64))) := by
  subst hleader
  exact congrArg Host.Outcome.next ((onMail_of_accepted h _).trans (if_neg (by simp [reserved_of_accepted h])))

theorem exec_energyRead_die (h : Accepted s m 0x33) (hscope : arg m 8 1 = 0) : exec (.energyRead m) s
    = .next (complete s m .ok (put 8 8 (s.power.energyUj / 1000) + put 16 8 s.fw.startTick + put 24 8 (now s))) := by
  change execEnergyRead m s = _
  rw [execEnergyRead, onMail_of_accepted h]
  simp [reserved_of_accepted h, hscope]

theorem exec_energyRead_stream (h : Accepted s m 0x33) (hscope : arg m 8 1 = 1) {st : Stream} (hn : Names s m (arg m 10 2) st) :
    exec (.energyRead m) s = .next (complete s m .ok (put 8 8 (st.energyPj / 1000000000) + put 16 8 st.openTick + put 24 8 (now s))) := by
  change execEnergyRead m s = _
  rw [execEnergyRead, onMail_of_accepted h, onStream_of_names hn]
  simp [reserved_of_accepted h, hscope]

theorem exec_fabQuery_fabric (h : Accepted s m 0x40) (hport : arg m 8 1 = 0xFF) : exec (.fabQuery m) s
    = .next (complete s m .ok (put 8 2 s.fabric.id.toNat + put 10 2 (shapeCode s.fabric) + put 12 1 (wrapCode s.fabric)
      + put 14 2 s.time.rootId.toNat + put 16 4 s.fabric.gen.toNat + put 20 2 s.fabric.lost.length + put 22 2 s.fabric.relay.length
      + put 24 2 s.fabric.pins.length)) := by
  change execFabQuery m s = _
  rw [execFabQuery, onMail_of_accepted h]
  simp [reserved_of_accepted h, hport]

theorem exec_fabQuery_port (h : Accepted s m 0x40) {p : PortId} (hport : arg m 8 1 = p.1) (hhas : hasPort s.fuses.variant p.1 = true)
    {q : Port} (hq : q = s.fabric.ports.get p) : exec (.fabQuery m) s
    = .next (complete s m .ok (put 8 1 (portCode q.st) + put 9 1 q.width + put 10 2 q.peer.toNat + put 12 1 (b2n q.leads)
      + put 14 2 (satTo 16 q.fails) + put 16 4 q.retrains + put 20 4 q.replays + put 24 4 q.discards)) := by
  have hne : (p.1 == 0xFF) = false := by simp; omega
  have hget : (fins 8)[p.1]? = some p := by simp [fins]
  change execFabQuery m s = _
  subst hq
  rw [execFabQuery, onMail_of_accepted h]
  simp only [reserved_of_accepted h, hport, hne, hget, hhas]
  rfl

theorem exec_devCaps_of_discovered (h : Accepted s m 0x02) (hdisc : s.fw.discovered = true) (hbuf : arg m 8 8 % 64 = 0) (hlen : arg m 16 4 ≤ 2 ^ 24) :
    exec (.devCaps m) s = .next (if arg m 16 4 < 256 then complete s m .badArgument (put 8 4 256)
      else writeRecord s m (arg m 8 8) (arg m 16 4) (capRecord s) (put 12 1 1)) := by
  have hbad : (arg m 8 8 % 64 != 0 || decide (2 ^ 24 < arg m 16 4)) = false := by simpa [hbuf] using hlen
  change execDevCaps m s = _
  rw [execDevCaps, onMail_of_accepted h]
  simp only [reserved_of_accepted h, hbad, length_capRecord, discovered, hdisc]
  rfl

theorem exec_pwrReport_of_accepted (h : Accepted s m 0x31) :
    exec (.pwrReport m) s = .next (writeRecord s m (arg m 8 8) (arg m 16 4) (pwrRecord s) 0) := by
  change execPwrReport m s = _
  rw [execPwrReport, onMail_of_accepted h, if_neg (by simp [reserved_of_accepted h])]

theorem exec_statsRead_port (h : Accepted s m 0x62) (hkind : arg m 8 1 = 1) {p : ApId} (hport : arg m 9 1 = p.1) (hhas : p.1 < apCount s.fuses.variant) :
    exec (.statsRead m) s = .next (writeRecord s m (arg m 16 8) (arg m 24 4) (portRecord p.1 (s.audio.get p)) 0) := by
  have hid : (⟨p.1 % 2, Nat.mod_lt _ (by decide)⟩ : ApId) = p := Fin.ext (Nat.mod_eq_of_lt p.2)
  have hlt : ¬ 2 ≤ p.1 := Nat.not_le.2 p.2
  change execStatsRead m s = _
  rw [execStatsRead, onMail_of_accepted h]
  simp [reserved_of_accepted h, hkind, hport, Nat.not_le.2 hhas, hid, hlt]

theorem exec_statsRead_layer (h : Accepted s m 0x62) (hkind : arg m 8 1 = 0) {st : Stream} (hn : Names s m (arg m 10 2) st) {ly : Layer}
    (hly : statsLayer s m st = some ly) : exec (.statsRead m) s
      = .next (writeRecord s m (arg m 16 8) (arg m 24 4) (statsRecord st.handle (statsOf st (arg m 12 2) ly.width) (desc ly.body.desc).window) 0) := by
  change execStatsRead m s = _
  rw [execStatsRead, onMail_of_accepted h, onStream_of_names hn]
  simp [reserved_of_accepted h, hkind, hly]

theorem exec_logRead_die (h : Accepted s m 0x61) (hsrc : arg m 8 1 = 0) (hbuf : arg m 16 8 % 64 = 0) (halign : arg m 24 4 % 32 = 0)
    (hlen : arg m 24 4 ≤ 2 ^ 24) (hlink : s.host.linkUp = true) {r : LogRec} {l : List LogRec} (hlog : s.fw.dieLog = r :: l) {bs : List Byte}
    (hbs : bs = ((s.fw.dieLog.filter fun x => decide (max (arg m 12 4) r.seq ≤ x.seq)).take (arg m 24 4 / 32)).flatMap logBytes) (hne : bs ≠ []) :
    exec (.logRead m) s = .next (complete (emit s (.hostWrite (arg m 16 8) bs)) m .ok
      (put 8 4 bs.length + put 12 4 r.seq + put 16 4 s.fw.logSeq + put 20 4 (r.seq - arg m 12 4))) := by
  have hbad : (reserved m || decide (2 < arg m 8 1) || arg m 16 8 % 64 != 0 || arg m 24 4 % 32 != 0 || decide (2 ^ 24 < arg m 24 4)) = false := by
    simpa [reserved_of_accepted h, hsrc, hbuf, halign] using hlen
  have hsource : logSource s 0 = (r :: l, s.fw.logSeq) := by rw [← hlog]; rfl
  have hnonempty : bs.isEmpty = false := by simpa using hne
  rw [hsrc] at hbad
  rw [hlog] at hbs
  change execLogRead m s = _
  rw [execLogRead, onMail_of_accepted h]
  simp only [hbad, hsrc, hsource, ← hbs, hnonempty, hlink]
  rfl

end

/-- Settles O10: each clause is the law of its command; the commands that return a record end as `writeRecord_ends` says. -/
theorem queriesAnswer : Obligations.QueriesAnswer := by
  refine ⟨fun m s h => exec_devQuery_of_accepted h, fun m s leader h hl => exec_timeQuery_of_accepted h hl, fun m s h => exec_energyRead_die h,
    fun m s st h hscope hn => exec_energyRead_stream h hscope hn, fun m s h => exec_fabQuery_fabric h,
    fun m s p q h hport hhas hq => exec_fabQuery_port h hport hhas hq, ?caps, ?power, ?port, ?layer,
    fun m s r l bs h hsrc hbuf halign hlen hlink hlog hbs hne => exec_logRead_die h hsrc hbuf halign hlen hlink hlog hbs hne⟩
  case caps =>
    intro m s h hdisc hbuf hlen
    have hlength := length_capRecord s
    refine ⟨hlength, ?_⟩
    rw [exec_devCaps_of_discovered h hdisc hbuf hlen, writeRecord_of_inRange hbuf hlen, hlength]
    refine ⟨fun hfit hlink => ?_, fun hfit hlink => ?_, fun hshort => if_pos hshort ▸ rfl⟩
    · rw [if_neg (Nat.not_lt.2 hfit), if_neg (Nat.not_lt.2 hfit), if_neg (by simp [hlink])]
    · rw [if_neg (Nat.not_lt.2 hfit), if_neg (Nat.not_lt.2 hfit), if_pos hlink]
  case power =>
    intro m s rec h hbuf hlen hrec
    subst hrec
    simpa only [exec_pwrReport_of_accepted h, Host.Outcome.next.injEq] using writeRecord_ends hbuf hlen
  case port =>
    intro m s p rec h hkind hport hhas hbuf hlen hrec
    subst hrec
    refine ⟨length_portRecord _ _, ?_⟩
    simpa only [exec_statsRead_port h hkind hport hhas, Host.Outcome.next.injEq] using writeRecord_ends hbuf hlen
  case layer =>
    intro m s st ly rec h hkind hn hly hbuf hlen hrec
    subst hrec
    simpa only [exec_statsRead_layer h hkind hn hly, Host.Outcome.next.injEq] using writeRecord_ends hbuf hlen

end Sys2Proof.Proofs
end

section
/-! PROOFS. Memory commands: reservations, releases, quotas and host windows. -/

namespace Sys2Proof.Proofs

open Sys2Proof Sys2Proof.Machine Sys2Proof.Safety Sys2Proof.Laws

set_option Elab.async false

/-! ## Capacity taken at once (R293, R294) -/

section
variable {s : State} {m : MailCmd} {b : Nat}

/-- The state with a command of need `x` entered behind those that wait. -/
def entered (s : State) (m : MailCmd) (x : Need) : State := (addWaiting s (some m) 0 0xFFFF none [x]).1

/-- A request entered last claims nothing from those before it. -/
theorem claimed_entered (x y : Need) : claimed (entered s m x) s.mem.reqNext y = claimed s s.mem.reqNext y := by
  simp [claimed, entered, addWaiting]

theorem freeFor_entered (x y : Need) : freeFor (entered s m x) s.mem.reqNext y = freeFor s s.mem.reqNext y := by
  simp only [freeFor, claimed_entered]
  rfl

/-- T1 at a fixed place is taken where there is room for it. -/
theorem takeNeed_of_place {s : State} {req tenant n : Nat} (hn : 0 < n) (hfree : n ≤ freeFor s req ⟨1, none, n, true, false⟩)
    (hplace : placeOn s 1 0 n = some b) :
    takeNeed s (.wait req) tenant ⟨1, none, n, true, false⟩ = some (reserve s (.wait req) tenant 1 0 n (some b)) := by
  have hfree' : ¬ freeFor s (reqOf s (.wait req)) ⟨1, none, n, true, false⟩ < n := Nat.not_lt.2 hfree
  simp [takeNeed, hn.ne', hfree', hplace]

/-- A command whose needs can be taken now takes them: its own request is entered, served and taken off again. -/
theorem acquire_of_taken {named : FabId} {img : Option Image} {l : List Need} {s1 : State} (hwait : waitOf s m = none)
    (hquota : needsOverQuota s (mailTenant s m) l 0 = false) (hrecalls : withRecalls s s.mem.reqNext l = true) (hborrow : needOn l 3 = 0)
    (htake : takeAll (addWaiting s (some m) 0 named img l).1 (.wait s.mem.reqNext) (mailTenant s m) l = some s1) (go : State → Owner → State) :
    acquire s m named img l go = go (dropWaiting s1 s.mem.reqNext) (.wait s.mem.reqNext) := by
  have hheld : heldLoans s m = 0 := by simp [heldLoans, hwait]
  have hreq : reqFor s m = s.mem.reqNext := by simp [reqFor, hwait]
  have hadd : addWaiting s (some m) 0 named img l = ((addWaiting s (some m) 0 named img l).1, s.mem.reqNext) := rfl
  simp only [acquire, hheld, hquota, hreq, hrecalls, hwait, hborrow, Nat.sub_zero]
  rw [hadd]
  simp [htake]

/-- A reservation of T1 that can be made now is made. -/
theorem acquire_of_room (hwait : waitOf s m = none) (hquota : overQuota s (mailTenant s m) 1 (arg m 12 4) = false) (hn : 0 < arg m 12 4)
    (hfree : arg m 12 4 ≤ freeFor s s.mem.reqNext ⟨1, none, arg m 12 4, true, false⟩) (hplace : placeOn s 1 0 (arg m 12 4) = some b)
    (go : State → Owner → State) :
    acquire s m 0xFFFF none [⟨1, none, arg m 12 4, true, false⟩] go
      = go (dropWaiting (reserve (entered s m ⟨1, none, arg m 12 4, true, false⟩) (.wait s.mem.reqNext) (mailTenant s m) 1 0 (arg m 12 4) (some b))
          s.mem.reqNext) (.wait s.mem.reqNext) := by
  have hover : needsOverQuota s (mailTenant s m) [⟨1, none, arg m 12 4, true, false⟩] 0 = false := by
    simp [needsOverQuota, needOn, total, hquota]
  have hrecalls : withRecalls s s.mem.reqNext [⟨1, none, arg m 12 4, true, false⟩] = true := by
    simp only [withRecalls, askedOn, List.all_cons, List.all_nil]
    simp [total]
    omega
  have htake := takeNeed_of_place (s := entered s m ⟨1, none, arg m 12 4, true, false⟩) (req := s.mem.reqNext) (tenant := mailTenant s m) hn
    (by rw [freeFor_entered]; exact hfree) (b := b) hplace
  refine acquire_of_taken hwait hover hrecalls rfl ?_ go
  change takeAll (entered s m _) _ _ _ = _
  simp [takeAll, htake]

/-- The region that MEM_RESERVE of T1 gives. -/
def regionGiven (s : State) (m : MailCmd) (b : Nat) : Region := ⟨nextRegion s, mailTenant s m, 1, 0, b, arg m 12 4 * 65536, 0, none, false⟩

/-- The reservation that MEM_RESERVE of T1 makes, for an owner. -/
def resvGiven (s : State) (m : MailCmd) (b : Nat) (o : Owner) : Resv := ⟨o, mailTenant s m, 1, 0, arg m 12 4, some b⟩

/-- The state with the reservation made and given to its region. -/
def reservedTo (s : State) (m : MailCmd) (b : Nat) : State :=
  { s with
    mem := { s.mem with
      reserved := s.mem.reserved ++ [resvGiven s m b (.region (nextRegion s))], regions := s.mem.regions ++ [regionGiven s m b]
      waiting := (entered s m ⟨1, none, arg m 12 4, true, false⟩).mem.waiting.filter (·.req != s.mem.reqNext), reqNext := s.mem.reqNext + 1 }
    fw := { s.fw with regionNext := afterHandle (nextRegion s) } }

/-- The reservation just made is the first of its request, and alone becomes its region's. -/
theorem reserveDone_of_entered (hown : ∀ r ∈ s.mem.reserved, r.owner ≠ .wait s.mem.reqNext) :
    reserveDone (dropWaiting (reserve (entered s m ⟨1, none, arg m 12 4, true, false⟩) (.wait s.mem.reqNext) (mailTenant s m) 1 0 (arg m 12 4) (some b))
        s.mem.reqNext) m (.wait s.mem.reqNext)
      = complete (reservedTo s m b) m .ok (put 8 2 (nextRegion s) + put 12 4 (arg m 12 4) + put 16 8 (gaddr s b)) := by
  have hfind : (s.mem.reserved ++ [resvGiven s m b (.wait s.mem.reqNext)]).find? (fun r => r.owner == .wait s.mem.reqNext)
      = some (resvGiven s m b (.wait s.mem.reqNext)) := by
    rw [List.find?_append, List.find?_eq_none.2 fun r hr => by simpa using hown r hr]
    simp [resvGiven]
  have hmap : (s.mem.reserved ++ [resvGiven s m b (.wait s.mem.reqNext)]).map
        (fun y => if y.owner == .wait s.mem.reqNext then { y with owner := .region (nextRegion s) } else y)
      = s.mem.reserved ++ [resvGiven s m b (.region (nextRegion s))] := by
    rw [List.map_append]
    congr 1
    · refine (List.map_congr_left fun r hr => ?_).trans (List.map_id _)
      simp [hown r hr]
    · simp [resvGiven]
  unfold reserveDone
  have hres : (dropWaiting (reserve (entered s m ⟨1, none, arg m 12 4, true, false⟩) (.wait s.mem.reqNext) (mailTenant s m) 1 0 (arg m 12 4) (some b))
      s.mem.reqNext).mem.reserved = s.mem.reserved ++ [resvGiven s m b (.wait s.mem.reqNext)] := rfl
  have hnext : nextRegion (dropWaiting (reserve (entered s m ⟨1, none, arg m 12 4, true, false⟩) (.wait s.mem.reqNext) (mailTenant s m) 1 0
      (arg m 12 4) (some b)) s.mem.reqNext) = nextRegion s := rfl
  rw [hres, hfind, hnext]
  simp only [hres, hmap, modMem]
  simp only [addRegion, modMem, dropWaiting, reserve, entered, addWaiting, reservedTo]
  rfl

theorem exec_memReserve_of_room (h : Accepted s m 0x10) (hdisc : s.fw.discovered = true) (htier : arg m 8 1 = 1) (hchan : arg m 9 1 = 0xFF)
    (hn : 0 < arg m 12 4) (hwait : waitOf s m = none) (hown : ∀ r ∈ s.mem.reserved, r.owner ≠ .wait s.mem.reqNext)
    (hquota : overQuota s (mailTenant s m) 1 (arg m 12 4) = false) (hfree : arg m 12 4 ≤ freeFor s s.mem.reqNext (reserveNeed m))
    (hplace : placeOn s 1 0 (arg m 12 4) = some b) : exec (.memReserve m) s
      = .next (complete (reservedTo s m b) m .ok (put 8 2 (nextRegion s) + put 12 4 (arg m 12 4) + put 16 8 (gaddr s b))) := by
  have hneed : reserveNeed m = ⟨1, none, arg m 12 4, true, false⟩ := by simp [reserveNeed, htier]
  have hbad : reserveBad s m = false := by simp [reserveBad, reserved_of_accepted h, htier, hchan, hn.ne']
  have hover : needsOverQuota s (mailTenant s m) [⟨1, none, arg m 12 4, true, false⟩] 0 = false := by
    simp [needsOverQuota, needOn, total, hquota]
  have hheld : heldLoans s m = 0 := by simp [heldLoans, hwait]
  rw [hneed] at hfree
  change execMemReserve m s = _
  rw [execMemReserve, onMail_of_accepted h, ← reserveDone_of_entered hown,
    ← acquire_of_room hwait hquota hn hfree hplace fun t w => reserveDone t m w]
  simp [reserveMem, htier, hbad, discovered, hdisc, hneed, hheld, hover]

end

/-! ## Releases, quotas and host windows -/

section
variable {s : State} {m : MailCmd}

/-- An owner without loans gives back its reservations, and nothing else but the rooms kept for it. -/
theorem releaseAll_of_no_loan {o : Owner} (h : ∀ x ∈ s.mem.reserved, x.owner = o → x.tier ≠ 3) : releaseAll s o = freeRooms (releaseOwner s o) := by
  have hnone : (s.mem.reserved.filter fun r => r.owner == o && r.tier == 3) = [] := by
    rw [List.filter_eq_nil_iff]
    intro r hr
    have := h r hr
    simp only [Bool.and_eq_true, beq_iff_eq, not_and]
    exact this
  rw [releaseAll, returnLoans, hnone, List.foldl_nil]

theorem exec_memRelease_of_unused (h : Accepted s m 0x11) {r : Region} (hr : namedRegion s m (arg m 8 2) = some r) (hused : regionUsed s r = false)
    (hloan : ∀ x ∈ s.mem.reserved, x.owner = .region r.handle → x.tier ≠ 3) : exec (.memRelease m) s
      = .next (complete (modMem (freeRooms (releaseOwner s (.region r.handle))) fun x => { x with regions := x.regions.filter fun y => y.handle != r.handle })
          m .ok (put 8 4 (ownerGranules s (.region r.handle)))) := by
  change execMemRelease m s = _
  rw [execMemRelease, onMail_of_accepted h]
  simp [hr, reserved_of_accepted h, hused, releaseAll_of_no_loan hloan]

theorem assoc_assocSet {κ α : Type} [BEq κ] [LawfulBEq κ] (k : κ) (a : α) (l : List (κ × α)) : assoc k (assocSet k a l) = some a := by
  induction l with
  | nil => simp [assocSet, assoc]
  | cons x r ih =>
    obtain ⟨k', a'⟩ := x
    rw [assocSet]
    split
    · simp [assoc]
    · next hne =>
      have hne' : (k == k') = false := beq_eq_false_iff_ne.2 fun hk => hne (beq_iff_eq.2 hk.symm)
      rw [assoc, List.lookup_cons, hne']
      exact ih

theorem exec_memQuotaSet_of_quota (h : Accepted s m 0x12) (hkind : arg m 8 1 = 0) (htenant : arg m 9 1 ≤ 15) (hlo : 1 ≤ arg m 10 1) (hhi : arg m 10 1 ≤ 3) :
    exec (.memQuotaSet m) s = .next (complete (modMem s fun x => { x with quotas := assocSet (arg m 9 1, arg m 10 1) (arg m 12 4) x.quotas }) m .ok
      (put 8 4 (quotaOf s (arg m 9 1) (arg m 10 1)) + put 12 4 (heldBy s (arg m 9 1) (arg m 10 1)))) := by
  have hbad : quotaBad s m = false := by
    simp [quotaBad, reserved_of_accepted h, hkind, Nat.not_lt.2 htenant, Nat.not_lt.2 hhi, (Nat.pos_iff_ne_zero.1 hlo)]
  change execMemQuotaSet m s = _
  rw [execMemQuotaSet, onMail_of_accepted h]
  simp [hbad, hkind]

theorem exec_memQuotaSet_of_bad (h : Accepted s m 0x12) (hbad : quotaBad s m = true) : exec (.memQuotaSet m) s = .next (complete s m .badArgument 0) := by
  change execMemQuotaSet m s = _
  rw [execMemQuotaSet, onMail_of_accepted h]
  simp [hbad]

theorem exec_memQuotaSet_of_radius (h : Accepted s m 0x12) (hkind : arg m 8 1 = 2) (hlo : 1 ≤ arg m 12 4) (hhi : arg m 12 4 ≤ 32) :
    exec (.memQuotaSet m) s = .next (complete { s with mem := { s.mem with radius := arg m 12 4 } } m .ok (put 8 4 s.mem.radius)) := by
  have hbad : quotaBad s m = false := by simp [quotaBad, reserved_of_accepted h, hkind, Nat.not_lt.2 hhi, (Nat.pos_iff_ne_zero.1 hlo)]
  change execMemQuotaSet m s = _
  rw [execMemQuotaSet, onMail_of_accepted h]
  simp [hbad, hkind, modMem]

/-- The window that REGION_MAP adds. -/
def windowGiven (s : State) (m : MailCmd) (b : Nat) : Region := ⟨nextRegion s, mailTenant s m, 4, 0, b, arg m 16 8, arg m 8 8, none, false⟩

theorem exec_regionMap_of_place (h : Accepted s m 0x13) (haddr : arg m 8 8 % 4096 = 0) (halign : arg m 16 8 % 4096 = 0) (hlo : 0 < arg m 16 8)
    (hhi : arg m 16 8 ≤ 2 ^ 40) (hroom : (mapped s).length < 1024) {b : Nat} (hplace : t4Place s (arg m 16 8) = some b) :
    exec (.regionMap m) s = .next (complete (addRegion s (windowGiven s m b)) m .ok (put 8 2 (nextRegion s) + put 16 8 (gaddr s b))) := by
  have hbad : (reserved m || arg m 8 8 % 4096 != 0 || arg m 16 8 % 4096 != 0 || arg m 16 8 == 0 || decide (2 ^ 40 < arg m 16 8)) = false := by
    simpa [reserved_of_accepted h, haddr, halign, hlo.ne'] using hhi
  change execRegionMap m s = _
  rw [execRegionMap, onMail_of_accepted h]
  simp only [hbad, Nat.not_le.2 hroom, hplace]
  rfl

end

/-- Settles O11. -/
theorem memoryCommandsReserve : Obligations.MemoryCommandsReserve := by
  refine ⟨?reserve, ?release, ?quota, ?map, ?limit, ?radiusBad, fun m s h hkind hlo hhi => exec_memQuotaSet_of_radius h hkind hlo hhi⟩
  case reserve =>
    intro m s b h hdisc htier hchan hn hwait hown hquota hfree hplace
    exact ⟨_, exec_memReserve_of_room h hdisc htier hchan hn hwait hown hquota hfree hplace, rfl, fun _ => rfl, rfl, rfl, rfl⟩
  case release =>
    intro m s r h hr hused hloan
    exact ⟨_, exec_memRelease_of_unused h hr hused hloan, rfl, fun _ => rfl, rfl, rfl, rfl⟩
  case quota =>
    intro m s h hkind htenant hlo hhi
    refine ⟨_, exec_memQuotaSet_of_quota h hkind htenant hlo hhi, rfl, ?_, rfl⟩
    simp [quotaOf, assoc_assocSet]
  case map =>
    intro m s b h haddr halign hlo hhi hroom hplace
    exact ⟨_, exec_regionMap_of_place h haddr halign hlo hhi hroom hplace, rfl, rfl, rfl⟩
  case limit =>
    intro m s h hkind htier hover
    exact exec_memQuotaSet_of_bad h (by simp [quotaBad, hkind, hover])
  case radiusBad =>
    intro m s h hkind hradius
    refine exec_memQuotaSet_of_bad h ?_
    rcases hradius with hr | hr <;> simp [quotaBad, hkind, hr]

end Sys2Proof.Proofs
end

section
/-! PROOFS. Region moves and itineraries, and what packets put in the output queues leave as it is. -/

namespace Sys2Proof.Proofs

open Sys2Proof Sys2Proof.Machine Sys2Proof.Safety Sys2Proof.Laws

set_option Elab.async false

/-! ## Packets sent -/

/-- Only the output queues of the ports and what waits for a relay credit may differ. -/
def OnlyQueues (s t : State) : Prop :=
  t = { s with fabric := { s.fabric with ports := t.fabric.ports, relayHeld := t.fabric.relayHeld, relayWait := t.fabric.relayWait } }

theorem OnlyQueues.refl (s : State) : OnlyQueues s s := rfl

theorem OnlyQueues.trans {s t u : State} (hst : OnlyQueues s t) (htu : OnlyQueues t u) : OnlyQueues s u := by
  rw [OnlyQueues] at *
  rw [hst] at htu
  exact htu

theorem OnlyQueues.ite {s t u : State} {c : Prop} {_ : Decidable c} (ht : OnlyQueues s t) (hu : OnlyQueues s u) :
    OnlyQueues s (if c then t else u) := by
  split
  · exact ht
  · exact hu

theorem OnlyQueues.foldl {α : Type} {f : State → α → State} (hf : ∀ t a, OnlyQueues t (f t a)) (l : List α) (s : State) :
    OnlyQueues s (l.foldl f s) := by
  induction l generalizing s with
  | nil => exact .refl s
  | cons a r ih => exact (hf s a).trans (ih (f s a))

section
variable {s t : State} (h : OnlyQueues s t)
include h

theorem OnlyQueues.mem : t.mem = s.mem := by rw [h]
theorem OnlyQueues.itins : t.itins = s.itins := by rw [h]
theorem OnlyQueues.streams : t.streams = s.streams := by rw [h]
theorem OnlyQueues.engines : t.engines = s.engines := by rw [h]
theorem OnlyQueues.host : t.host = s.host := by rw [h]
theorem OnlyQueues.fw : t.fw = s.fw := by rw [h]
theorem OnlyQueues.out : t.out = s.out := by rw [h]

end

theorem modPort_onlyQueues (s : State) (p : PortId) (f : Port → Port) : OnlyQueues s (modPort s p f) := rfl

theorem enqueue_onlyQueues (s : State) (p : PortId) (vc : Fin 4) (cls : Fin 2) (k : Packet) : OnlyQueues s (enqueue s p vc cls k) :=
  .ite (modPort_onlyQueues ..) (modPort_onlyQueues ..)

theorem forward_onlyQueues (s : State) (k : Packet) (came : Option (Nat × Fin 2)) : OnlyQueues s (forward s k came) := by
  unfold forward
  split
  · exact enqueue_onlyQueues ..
  · exact .refl s

theorem sendPacket_onlyQueues (s : State) (k : Packet) : OnlyQueues s (sendPacket s k) := by
  unfold sendPacket
  split
  · refine .ite (.trans ?_ (forward_onlyQueues _ _ _)) ?_
    · rfl
    · rfl
  · exact forward_onlyQueues ..

theorem askPackets_onlyQueues (s : State) (dest : FabId) (op : Nat) (tag : BitVec 16) (addr len : Nat) (data : List Byte) :
    OnlyQueues s (askPackets s dest op tag addr len data) := .foldl (fun _ _ => sendPacket_onlyQueues ..) _ _

/-- Bytes sent to another die are outstanding, and touch the fabric alone. -/
theorem moveRemote_only (s : State) (move : Option Nat) (addr len : Nat) (data : List Byte) :
    moveRemote s move addr len data = { s with fabric := (moveRemote s move addr len data).fabric } := by
  unfold moveRemote
  rw [askPackets_onlyQueues]

/-- A management message is one packet sent. -/
theorem sendMgmt_sends (s : State) (d : FabId) (k : Mgmt) : Sends s (sendMgmt s d k) d k := by
  have hq := sendPacket_onlyQueues (mgmtPacket s d k).2 (mgmtPacket s d k).1
  have hfab : (sendPacket (mgmtPacket s d k).2 (mgmtPacket s d k).1).fabric
      = { s.fabric with
          ports := (sendMgmt s d k).fabric.ports, relayHeld := (sendMgmt s d k).fabric.relayHeld, relayWait := (sendMgmt s d k).fabric.relayWait } := by
    rw [hq]
    rfl
  exact congrArg (fun f => { s with fabric := f, free := (mgmtPacket s d k).2.free, out := s.out ++ [Out.mgmt d k] }) hfab

/-! ## Region moves (R573) -/

section
variable {s : State} {m : MailCmd} {r : Region}

theorem exec_regionMove_of_inRange (h : Accepted s m 0x14) (hsrc : srcStatus s (arg m 8 8) (arg m 32 8) = none)
    (hr : namedRegion s m (arg m 16 2) = some r) (htier : r.tier = 1 ∨ r.tier = 2) (halign : arg m 8 8 % 64 = 0) (hoff : arg m 24 8 % 64 = 0)
    (hlen : arg m 32 8 % 64 = 0) (hpos : 0 < arg m 32 8) (hplain : arg m 18 1 = 0) : exec (.regionMove m) s
      = .next (if r.bytes < arg m 24 8 + arg m 32 8 then complete s m .noReservation 0
        else if writableSrc s (arg m 8 8) (arg m 32 8) then complete s m .busy 0 else issuePart (hold s m) m r 0) := by
  have hwindow : (r.tier == 4) = false := by rcases htier with ht | ht <;> simp [ht]
  have hbad : (reserved m || (none : Option Status).isSome || r.tier == 4 || arg m 8 8 % 64 != 0 || arg m 24 8 % 64 != 0 || arg m 32 8 % 64 != 0
      || arg m 32 8 == 0) = false := by
    simp [reserved_of_accepted h, hwindow, halign, hoff, hlen, hpos.ne']
  change execRegionMove m s = _
  rw [execRegionMove, onMail_of_accepted h]
  simp only [hsrc, hr, hbad, hplain]
  simp [bit]

/-- The first part of a region move goes out, from this die's T1 or T2, or from host memory with the link up. -/
theorem issuePart_of_local (hfault : regionFault s r = none)
    (hsrc : tierOf s (arg m 8 8) = 1 ∨ tierOf s (arg m 8 8) = 2 ∨ (tierOf s (arg m 8 8) = 4 ∧ s.host.linkUp = true)) :
    issuePart (hold s m) m r 0 = { hold s m with mem := { s.mem with moves := s.mem.moves ++ [partMove s m r 0], moveNext := s.mem.moveNext + 1 } } := by
  have hpart : partMove (hold s m) m r 0 = partMove s m r 0 := rfl
  have htier : (partMove s m r 0).srcTier = tierOf s (arg m 8 8) := rfl
  have hfault' : regionFault (hold s m) r = none := hfault
  have hlink : (hold s m).host.linkUp = s.host.linkUp := rfl
  simp only [issuePart, hpart, hfault', htier, hlink]
  rcases hsrc with ht | ht | ⟨ht, hup⟩
  · simp only [ht]; rfl
  · simp only [ht]; rfl
  · simp only [ht, hup]; rfl

end

/-! ## Itineraries (R569 to R571) -/

section
variable {s : State} {m : MailCmd} {img : Image}

theorem exec_itinLoad_of_read (h : Accepted s m 0x20) (hsrc : srcStatus s (arg m 8 8) (arg m 16 4) = none)
    (hread : readStatus s (arg m 8 8) (arg m 16 4) .ok = none) (halign : arg m 16 4 % 64 = 0) (hpos : 0 < arg m 16 4) :
    exec (.itinLoad m img .ok) s = .next (loadItin s m { img with bytes := img.bytes.take (arg m 16 4) }) := by
  change execItinLoad m img .ok s = _
  rw [execItinLoad, onMail_of_accepted h]
  simp [hsrc, hread, reserved_of_accepted h, halign, hpos.ne']

theorem loadItin_of_fault {off : Nat} (h : imageFault img = some off) : loadItin s m img = complete s m .badArgument (put 8 4 off) := by
  rw [loadItin, h]

theorem knownId_self (s : State) : knownId s s.fabric.id = true := by simp [knownId]

theorem reachable_self (s : State) : reachable s s.fabric.id = true := by simp [reachable]

/-- An image for this die alone asks nothing of another. -/
theorem fitOthers_of_alone (h : ∀ d ∈ img.dies ++ img.spares, d = s.fabric.id) : fitOthers s img = ((none, 0), s) := by
  have hnone : (img.dies ++ img.spares).filter (· != s.fabric.id) = [] := by
    rw [List.filter_eq_nil_iff]
    intro d hd
    simp [h d hd]
  rw [fitOthers, hnone, List.foldl_nil]

/-- A valid image for this die alone, with no item in the T4 window: whether it is loaded hangs on how this die takes it. -/
theorem loadItin_of_alone (hvalid : imageFault img = none) (hdies : ∀ d ∈ img.dies ++ img.spares ++ img.items.map (·.die), d = s.fabric.id)
    (htier : ∀ i ∈ img.items, i.tier ≤ 3) : loadItin s m img
      = match fitHere s img with
        | .lacks k => complete s m .absentUnit (put 8 2 s.fabric.id.toNat + put 10 1 k)
        | fit =>
          let fb := match fit with | .fallback l => l | _ => []
          if !discovered s then complete s m .notReady 0
          else if needsOverQuota s (mailTenant s m) (itinNeeds s img (!fb.isEmpty)) (heldLoans s m) then giveUp s m .quotaExceeded
          else if 32 ≤ s.itins.length then giveUp s m .noReservation
          else acquire s m 0xFFFF (some img) (itinNeeds s img (!fb.isEmpty)) fun t w => loadNow t m w img fb 0 := by
  have hknown : ((img.dies ++ img.spares ++ img.items.map (·.die)).any fun d => !knownId s d && !s.fabric.lost.contains d) = false := by
    rw [List.any_eq_false]
    intro d hd
    simp [hdies d hd, knownId_self]
  have hwindow : (img.items.any fun i => i.die == s.fabric.id && i.tier == 4
      && (mappedRegion s (arg m 8 8) == 0 || (arg m 8 8 + i.off) % 64 != 0)) = false := by
    rw [List.any_eq_false]
    intro i hi
    have hne : (i.tier == 4) = false := by have := htier i hi; simp; omega
    simp [hne]
  have hreach : ((img.dies ++ img.items.map (·.die)).any fun d => !reachable s d) = false := by
    rw [List.any_eq_false]
    intro d hd
    have hmem : d ∈ img.dies ++ img.spares ++ img.items.map (·.die) := by
      simp only [List.mem_append] at hd ⊢
      tauto
    simp [hdies d hmem, reachable_self]
  have hothers := fitOthers_of_alone (s := s) (img := img) fun d hd => hdies d (List.mem_append_left _ hd)
  simp only [loadItin, hvalid, hknown, hwindow, hothers, hreach, Bool.false_eq_true, if_false]
  cases fitHere s img with
  | lacks k => rfl
  | main => rfl
  | fallback l => rfl

end

/-! ## What an itinerary takes and stores -/

/-- Reservations of one owner are added, and nothing else. -/
def Reserves (o : Owner) (s t : State) : Prop :=
  ∃ l : List Resv, (∀ r ∈ l, r.owner = o) ∧ t = { s with mem := { s.mem with reserved := s.mem.reserved ++ l } }

theorem Reserves.refl (o : Owner) (s : State) : Reserves o s s := ⟨[], by simp, by simp⟩

theorem Reserves.trans {o : Owner} {s t u : State} (hst : Reserves o s t) (htu : Reserves o t u) : Reserves o s u := by
  obtain ⟨l, hl, rfl⟩ := hst
  obtain ⟨k, hk, rfl⟩ := htu
  refine ⟨l ++ k, fun r hr => ?_, by simp⟩
  rcases List.mem_append.1 hr with hr | hr
  · exact hl r hr
  · exact hk r hr

theorem reserve_reserves (s : State) (o : Owner) (tenant tier chan n : Nat) (base : Option Nat) : Reserves o s (reserve s o tenant tier chan n base) :=
  ⟨[⟨o, tenant, tier, chan, n, base⟩], by simp, rfl⟩

theorem takeNeed_reserves {s t : State} {o : Owner} {tenant : Nat} {x : Need} (h : takeNeed s o tenant x = some t) : Reserves o s t := by
  have hspread (l : List McId) (a : State × Nat) (ha : Reserves o s a.1) : Reserves o s (l.foldl (fun (a : State × Nat) c =>
      let k := min a.2 (freeChan a.1 c)
      if k == 0 then a else (reserve a.1 o tenant 2 c.1 k none, a.2 - k)) a).1 := by
    induction l generalizing a with
    | nil => exact ha
    | cons c r ih =>
      refine ih _ ?_
      dsimp only
      split
      · exact ha
      · exact ha.trans (reserve_reserves ..)
  unfold takeNeed at h
  split at h
  · cases h; exact .refl o s
  split at h
  · cases h
  split at h
  · split at h
    · dsimp only at h
      split at h
      · cases h; exact hspread _ (s, x.n) (.refl o s)
      · cases h
    · obtain ⟨c, -, rfl⟩ := Option.map_eq_some_iff.1 h
      exact reserve_reserves ..
  split at h
  · obtain ⟨c, -, rfl⟩ := Option.map_eq_some_iff.1 h
    exact reserve_reserves ..
  · cases h; exact reserve_reserves ..

theorem takeAll_reserves {s t : State} {o : Owner} {tenant : Nat} {l : List Need} (h : takeAll s o tenant l = some t) : Reserves o s t := by
  induction l generalizing s with
  | nil => cases h; exact .refl ..
  | cons x r ih =>
    obtain ⟨u, hu, hrest⟩ := Option.bind_eq_some_iff.1 h
    exact (takeNeed_reserves hu).trans (ih hrest)

/-- Bytes stored here or sent to another die: memory's cells and the fabric alone may differ. -/
def OnlyStored (s t : State) : Prop := t = { s with mem := { s.mem with cells := t.mem.cells }, fabric := t.fabric }

theorem OnlyStored.trans {s t u : State} (hst : OnlyStored s t) (htu : OnlyStored t u) : OnlyStored s u := by
  rw [OnlyStored] at *
  rw [hst] at htu
  exact htu

theorem storeHomes_onlyStored (s : State) (img : Image) (homes : List (Nat × Nat)) : OnlyStored s (storeHomes s img homes) := by
  unfold storeHomes
  generalize img.items.filter (fun i => decide (i.tier ≤ 3)) = l
  induction l generalizing s with
  | nil => rfl
  | cons i r ih =>
    refine OnlyStored.trans ?_ (ih _)
    dsimp only
    split
    · rfl
    · split
      · rfl
      · rw [OnlyStored, moveRemote_only]

/-- Homes on this die alone take no free value. -/
theorem giveHomes_of_alone {s : State} {img : Image} (h : ∀ i ∈ img.items, i.die = s.fabric.id) (o : Owner) (src : Nat) :
    (giveHomes s o img src).2 = s := by
  have hnone : (img.items.filter fun i => i.die != s.fabric.id) = [] := by
    rw [List.filter_eq_nil_iff]
    intro i hi
    simp [h i hi]
  rw [giveHomes, hnone, List.foldl_nil]

/-- What a tile, an index or a table an itinerary uses here is among its items. -/
theorem mem_taken {img : Image} {fallback : Bool} {i : ItemDecl} (h : i ∈ (Machine.taken img fallback).items) : i ∈ img.items := by
  unfold Machine.taken at h
  split at h
  · exact h
  · exact List.mem_of_mem_filter h

/-- The owner of a reservation is changed where it is the request, and stays elsewhere. -/
theorem mem_map_owner {o o' : Owner} {l : List Resv} {r : Resv} (h : r ∈ l.map fun r => if r.owner == o then { r with owner := o' } else r) :
    (r ∈ l ∧ r.owner ≠ o) ∨ r.owner = o' := by
  obtain ⟨x, hx, rfl⟩ := List.mem_map.1 h
  by_cases ho : x.owner = o
  · simp [ho]
  · simp [ho, hx]

/-- An itinerary loaded joins the others; what its request had reserved is its own. -/
theorem loadNow_of_alone {s : State} {m : MailCmd} {img : Image} {o : Owner} (hitems : ∀ i ∈ img.items, i.die = s.fabric.id) :
    ∃ it : Itin, (loadNow s m o img [] 0).itins = s.itins ++ [it] ∧ it.handle = nextItin s ∧ it.tenant = mailTenant s m ∧ it.img = img
      ∧ it.crc = BitVec.ofNat 32 (bfld img.bytes (img.bytes.length - 4) 4)
      ∧ (loadNow s m o img [] 0).streams = s.streams ∧ (loadNow s m o img [] 0).engines = s.engines
      ∧ ∀ r ∈ (loadNow s m o img [] 0).mem.reserved, (r ∈ s.mem.reserved ∧ r.owner ≠ o) ∨ r.owner = .itin (nextItin s) := by
  have hgive : (giveHomes s o (Machine.taken img false) (arg m 8 8)).2 = s := giveHomes_of_alone (fun i hi => hitems i (mem_taken hi)) _ _
  have hstored := storeHomes_onlyStored s (Machine.taken img false) (giveHomes s o (Machine.taken img false) (arg m 8 8)).1
  have hitins : (storeHomes s (Machine.taken img false) (giveHomes s o (Machine.taken img false) (arg m 8 8)).1).itins = s.itins := by rw [hstored]
  have hstreams : (storeHomes s (Machine.taken img false) (giveHomes s o (Machine.taken img false) (arg m 8 8)).1).streams = s.streams := by
    rw [hstored]
  have hengines : (storeHomes s (Machine.taken img false) (giveHomes s o (Machine.taken img false) (arg m 8 8)).1).engines = s.engines := by
    rw [hstored]
  have hreserved : (storeHomes s (Machine.taken img false) (giveHomes s o (Machine.taken img false) (arg m 8 8)).1).mem.reserved = s.mem.reserved := by
    rw [hstored]
  simp only [loadNow, List.isEmpty_nil, Bool.not_true, hgive, complete_itins, complete_streams, complete_engines, complete_mem, modMem_itins,
    modMem_streams, modMem_engines, modMem_mem, hitins, hstreams, hengines, hreserved]
  exact ⟨_, rfl, rfl, rfl, rfl, rfl, trivial, trivial, fun r hr => mem_map_owner hr⟩

/-- Items in T1 and T2 ask for no lent capacity. -/
theorem needOn_itinNeeds_of_local {s : State} {img : Image} (htier : ∀ i ∈ img.items, i.tier ≤ 2) : needOn (itinNeeds s img false) 3 = 0 := by
  have hitems : itemsOn s (Machine.taken img false) 3 0 = [] := by
    rw [itemsOn, List.filter_eq_nil_iff]
    intro i hi
    have hne : (i.tier == 3) = false := by have := htier i (mem_taken hi); simp; omega
    simp [hne]
  have hnone : (itinNeeds s img false).filter (·.tier == 3) = [] := by
    rw [List.filter_eq_nil_iff]
    intro x hx hx3
    obtain ⟨hmem, hn⟩ := List.mem_filter.1 hx
    simp only [List.mem_append, List.mem_cons, List.mem_map, List.not_mem_nil, or_false] at hmem
    rcases hmem with ((rfl | rfl) | ⟨c, -, rfl⟩) | rfl
    · simp at hx3
    · simp at hx3
    · simp at hx3
    · simp [hitems, packedBytes, granules, total, cdiv] at hn
  rw [needOn, hnone]
  rfl

/-! ## ITIN_UNLOAD -/

theorem exec_itinUnload_of_named {s : State} {m : MailCmd} {it : Itin} (h : Accepted s m 0x21) (hit : namedItin s m (arg m 8 2) = some it) :
    exec (.itinUnload m) s = .next (if s.streams.any fun st => st.itin == it.handle then complete s m .busy 0
      else complete (modMem (releaseAll { s with itins := s.itins.filter fun x => x.handle != it.handle } (.itin it.handle)) fun x => { x with
          staged := x.staged.filter fun c => c.itin != it.handle
          damagedItems := x.damagedItems.filter fun d => d.1 != it.handle }) m .ok (put 8 4 (ownerGranules s (.itin it.handle)))) := by
  change execItinUnload m s = _
  rw [execItinUnload, onMail_of_accepted h]
  simp [hit, reserved_of_accepted h]

/-- Settles O12. -/
theorem itinerariesAndRegionMoves : Obligations.ItinerariesAndRegionMoves := by
  refine ⟨?move, ?fault, ?load, ?absent, ?unload⟩
  case move =>
    intro m s r h hsrc hr htier hfault halign hoff hlen hpos hplain
    rw [exec_regionMove_of_inRange h hsrc hr htier halign hoff hlen hpos hplain]
    refine ⟨fun hfit hwritable hlocal => ?_, fun hover => by rw [if_pos hover]⟩
    rw [if_neg (Nat.not_lt.2 hfit), hwritable, if_neg Bool.false_ne_true, issuePart_of_local hfault hlocal]
  case fault =>
    intro m img s off h hsrc hread halign hpos hfault
    rw [exec_itinLoad_of_read h hsrc hread halign hpos, loadItin_of_fault hfault]
  case load =>
    intro m img img' s s1 h hsrc hread halign hpos himg hvalid hdies htier hfit hdisc hquota hcount hwait hrecalls htake
    subst himg
    have hheld : heldLoans s m = 0 := by simp [heldLoans, hwait]
    have hload := loadItin_of_alone (m := m) hvalid hdies fun i hi => (htier i hi).trans (by decide)
    simp only [hfit, discovered, hdisc, List.isEmpty_nil, Bool.not_true, hheld, hquota, Nat.not_le.2 hcount] at hload
    rw [acquire_of_taken hwait hquota hrecalls (needOn_itinNeeds_of_local htier) htake] at hload
    obtain ⟨l, hl, hs1⟩ := takeAll_reserves htake
    have hitems : ∀ i ∈ img.items, i.die = s.fabric.id := fun i hi => hdies i.die (List.mem_append_right _ (List.mem_map_of_mem hi))
    subst hs1
    obtain ⟨it, hitins, hhandle, htenant, hbody, hcrc, hstreams, hengines, hreserved⟩ := loadNow_of_alone (m := m) (o := .wait s.mem.reqNext)
      (s := dropWaiting { (addWaiting s (some m) 0 0xFFFF (some { img with bytes := img.bytes.take (arg m 16 4) })
          (itinNeeds s { img with bytes := img.bytes.take (arg m 16 4) } false)).1 with mem := { (addWaiting s (some m) 0 0xFFFF
            (some { img with bytes := img.bytes.take (arg m 16 4) }) (itinNeeds s { img with bytes := img.bytes.take (arg m 16 4) } false)).1.mem with
            reserved := (addWaiting s (some m) 0 0xFFFF (some { img with bytes := img.bytes.take (arg m 16 4) })
              (itinNeeds s { img with bytes := img.bytes.take (arg m 16 4) } false)).1.mem.reserved ++ l } } s.mem.reqNext)
      (img := { img with bytes := img.bytes.take (arg m 16 4) }) hitems
    refine ⟨_, it, (exec_itinLoad_of_read h hsrc hread halign hpos).trans (congrArg Host.Outcome.next hload), hitins, hhandle, htenant, hbody, hcrc,
      hstreams, hengines, fun r hr => ?_⟩
    rcases hreserved r hr with ⟨hmem, hne⟩ | hown
    · rcases List.mem_append.1 hmem with hold | hnew
      · exact .inl hold
      · exact absurd (hl r hnew) hne
    · exact .inr (hown.trans (by rw [hhandle]))
  case absent =>
    intro m img img' s k h hsrc hread halign hpos himg hvalid hdies htier hfit
    subst himg
    rw [exec_itinLoad_of_read h hsrc hread halign hpos, loadItin_of_alone hvalid hdies htier, hfit]
  case unload =>
    intro m s it h hit
    rw [exec_itinUnload_of_named h hit]
    refine ⟨fun hused => by rw [if_pos hused], fun hunused hloan => ?_⟩
    rw [hunused, if_neg Bool.false_ne_true, releaseAll_of_no_loan (s := { s with itins := s.itins.filter fun x => x.handle != it.handle }) hloan]
    exact ⟨_, rfl, rfl, fun _ => rfl, rfl, rfl, rfl⟩

end Sys2Proof.Proofs
end

section
/-! PROOFS. Streams opened and started, and their policy. -/

namespace Sys2Proof.Proofs

open Sys2Proof Sys2Proof.Machine Sys2Proof.Safety Sys2Proof.Laws

set_option Elab.async false

/-- The stream changed is the one a later lookup finds. -/
theorem streamOf_modStream_same {s : State} {h : Nat} {f : Stream → Stream} {st : Stream} (hof : streamOf s h = some st)
    (hf : ∀ st, (f st).handle = st.handle) : streamOf (modStream s h f) h = some (f st) := by
  rw [streamOf_modStream _ _ _ _ hf, if_pos rfl, hof, Option.map_some]

theorem streamOf_modStream_other {s : State} {h k : Nat} {f : Stream → Stream} (hk : k ≠ h) (hf : ∀ st, (f st).handle = st.handle) :
    streamOf (modStream s h f) k = streamOf s k := by
  rw [streamOf_modStream _ _ _ _ hf, if_neg hk]

/-- A stream put in the place of another is the one a later lookup finds. -/
theorem streamOf_replace {s : State} {h : Nat} {st t : Stream} (hof : streamOf s h = some st) (ht : t.handle = h) :
    streamOf (modStream s h fun _ => t) h = some t := by
  have hkeep (u : Stream) : ((if u.handle == h then t else u).handle == h) = (u.handle == h) := by
    by_cases hu : u.handle = h <;> simp [hu, ht]
  have hst : st.handle = h := by simpa using List.find?_some hof
  rw [streamOf] at hof ⊢
  simp only [modStream_streams, List.find?_map, Function.comp_def, hkeep]
  rw [hof]
  simp [hst]

/-! ## STREAM_OPEN (R581) -/

section
variable {s : State} {m : MailCmd} {it : Itin}

theorem giveUp_of_no_wait (hwait : waitOf s m = none) (st : Status) : giveUp s m st = complete s m st 0 := by rw [giveUp, hwait]

/-- The state with a stream opened: it joins the others, and what its request had reserved is its own. -/
def opened (s : State) (m : MailCmd) (it : Itin) (p : OpenArgs) (map : List EngineId) (w : Owner) : State :=
  { modMem s fun x => { x with reserved := x.reserved.map fun r =>
      if r.owner == w then { r with owner := .stream (newStream s m it p map).handle } else r } with
    streams := s.streams ++ [newStream s m it p map], fw := { s.fw with streamNext := afterHandle (newStream s m it p map).handle } }

/-- The state in which a command's needs are reserved for its request and the request is taken off again. -/
def served (s : State) (m : MailCmd) (named : FabId) (img : Option Image) (needs : List Need) (l : List Resv) : State :=
  { s with mem := { s.mem with
    reserved := s.mem.reserved ++ l, reqNext := s.mem.reqNext + 1
    waiting := (addWaiting s (some m) 0 named img needs).1.mem.waiting.filter (·.req != s.mem.reqNext) } }

theorem dropWaiting_of_taken {named : FabId} {img : Option Image} {needs : List Need} {tenant : Nat} {s1 : State}
    (h : takeAll (addWaiting s (some m) 0 named img needs).1 (.wait s.mem.reqNext) tenant needs = some s1) :
    ∃ l : List Resv, (∀ r ∈ l, r.owner = .wait s.mem.reqNext) ∧ dropWaiting s1 s.mem.reqNext = served s m named img needs l := by
  obtain ⟨l, hl, rfl⟩ := takeAll_reserves h
  exact ⟨l, hl, rfl⟩

/-- A stream that quota, the tollgate, the count of streams and of strand records, and the room all allow is opened. -/
theorem admitStream_of_room {p : OpenArgs} {map : List EngineId} {s1 : State} (hwait : waitOf s m = none)
    (hquota : needsOverQuota s (mailTenant s m) (streamNeeds it p) 0 = false) (hadmit : admitEngines s p.guar (openTask it p) = some map)
    (hstreams : s.streams.length < 64) (hstrands : strandsHeld s + it.steps ≤ 16384) (hdies : ∀ d ∈ it.img.dies, reachable s d = true)
    (hrecalls : withRecalls s s.mem.reqNext (streamNeeds it p) = true) (hborrow : needOn (streamNeeds it p) 3 = 0)
    (htake : takeAll (addWaiting s (some m) 0 0xFFFF none (streamNeeds it p)).1 (.wait s.mem.reqNext) (mailTenant s m) (streamNeeds it p) = some s1)
    (go : State → Stream → State) :
    admitStream s m it p go = go (opened (dropWaiting s1 s.mem.reqNext) m it p map (.wait s.mem.reqNext))
      (newStream (dropWaiting s1 s.mem.reqNext) m it p map) := by
  have hheld : heldLoans s m = 0 := by simp [heldLoans, hwait]
  have hroom : ¬ (64 ≤ s.streams.length ∨ 16384 < strandsHeld s + it.steps) := by omega
  have hreach : (it.img.dies.any fun d => !reachable s d) = false := by
    rw [List.any_eq_false]
    intro d hd
    simp [hdies d hd]
  simp only [admitStream, hheld, hquota, hadmit, hroom, hreach, Bool.false_eq_true, if_false]
  rw [acquire_of_taken hwait hquota hrecalls hborrow htake]
  rfl

theorem exec_streamOpen_of_named (h : Accepted s m 0x22) (hit : namedItin s m (openArgs m.entry.toNat).itin = some it) : exec (.streamOpen m) s
    = .next (if openBad s m it (openArgs m.entry.toNat) then giveUp s m .badArgument
      else if (openArgs m.entry.toNat).backward && attnFallback it then giveUp s m .absentUnit
      else if !discovered s then giveUp s m .notReady
      else admitStream s m it (openArgs m.entry.toNat) fun t st => complete t m .ok
        (put 8 2 st.handle + put 10 2 it.img.dies.length + put 12 1 (engineMask st.map) + put 16 4 (granulesHere t (.stream st.handle)))) := by
  change execStreamOpen m s = _
  rw [execStreamOpen, onMail_of_accepted h, openStream]
  simp [hit, reserved_of_accepted h]

end

/-! ## STREAM_START (R582 to R584) -/

section
variable {s : State} {m : MailCmd} {st : Stream}

theorem handle_of_names {h : Nat} (hn : Names s m h st) : streamOf s h = some st ∧ st.handle = h := by
  obtain ⟨hnamed, -, -⟩ := hn
  obtain ⟨hof, -⟩ := Option.filter_eq_some_iff.1 hnamed
  exact ⟨hof, by simpa using List.find?_some hof⟩

/-- A stream that no binding names has no frame grid. -/
theorem gridOf_of_unbound {h : Nat} (hfree : ∀ p, ∀ b ∈ (s.audio.get p).binds, b.stream ≠ h) : gridOf s h = none := by
  have hbind (input : Bool) : bindOf s h input = none := by
    rw [bindOf, List.findSome?_eq_none_iff]
    intro p _
    have hnone : ((s.audio.get p).binds.find? fun b => b.stream == h && (if input then b.dirIn else b.dirOut)) = none := by
      rw [List.find?_eq_none]
      intro b hb
      simp [hfree p b hb]
    simp [hnone]
  simp [gridOf, hbind]

theorem clockMissing_of_unbound {h : Nat} (hfree : ∀ p, ∀ b ∈ (s.audio.get p).binds, b.stream ≠ h) : clockMissing s h = false := by
  rw [clockMissing, List.any_eq_false]
  intro p _
  have hnone : ((s.audio.get p).binds.any (·.stream == h)) = false := by
    rw [List.any_eq_false]
    intro b hb
    simp [hfree p b hb]
  simp [hnone]

/-- A stream without feeds has no release to fix. -/
theorem tryFix_of_no_feeds {h : Nat} (hof : streamOf s h = some st) (hfeeds : st.feeds = []) : tryFix s h = s := by
  simp [tryFix, hof, hfeeds]

/-- The slot-0 tick a started stream gets. -/
def startTick (s : State) (m : MailCmd) (st : Stream) : Nat :=
  if st.period = 0 then now s else if arg m 16 8 = 0 then now s + 1024 else arg m 16 8

/-- The state with the stream RUNNING. -/
def started (s : State) (h n0 : Nat) : State :=
  modStream (modStream s h fun t => { t with st := .running, started := true, n0 := n0 }) h fun t => { t with feeds := [], prevSlot := none }

theorem streamOf_running {h : Nat} (hof : streamOf s h = some st) (n0 : Nat) :
    streamOf (modStream s h fun t => { t with st := .running, started := true, n0 := n0 }) h
      = some { st with st := .running, started := true, n0 := n0 } := streamOf_modStream_same hof fun _ => rfl

theorem streamOf_started {h : Nat} (hof : streamOf s h = some st) (n0 : Nat) :
    streamOf (started s h n0) h = some { st with st := .running, started := true, n0 := n0, feeds := [], prevSlot := none } :=
  streamOf_modStream_same (streamOf_running hof n0) fun _ => rfl

theorem streamOf_started_other {h k : Nat} (hk : k ≠ h) (n0 : Nat) : streamOf (started s h n0) k = streamOf s k := by
  have hrunning : streamOf (modStream s h fun t => { t with st := .running, started := true, n0 := n0 }) k = streamOf s k :=
    streamOf_modStream_other hk fun _ => rfl
  rw [← hrunning]
  exact streamOf_modStream_other hk fun _ => rfl

/-- A stream without audio bindings is set RUNNING and its feeds get their slots. -/
def startRun (s : State) (m : MailCmd) (st : Stream) : State :=
  let s1 := modStream s (arg m 8 2) fun t => { t with st := .running, started := true, n0 := startTick s m st }
  let s2 := match streamOf s1 (arg m 8 2) with
    | some t => modStream s1 (arg m 8 2) fun u => { u with feeds := (assignAll s1 t).1, prevSlot := (assignAll s1 t).2 }
    | none => s1
  complete (tryFix s2 (arg m 8 2)) m .ok (put 8 8 (if st.period = 0 then 0 else startTick s m st))

theorem exec_streamStart_of_unbound (h : Accepted s m 0x23) (hn : Names s m (arg m 8 2) st)
    (hfree : ∀ p, ∀ b ∈ (s.audio.get p).binds, b.stream ≠ arg m 8 2) : exec (.streamStart m) s
      = .next (if st.st != .opened then complete s m .badCommand 0
        else if arg m 16 8 != 0 && within s (arg m 16 8) 256 then complete s m .badArgument 0
        else if s.time.state == .unaligned then complete s m .notReady 0 else startRun s m st) := by
  obtain ⟨-, hhandle⟩ := handle_of_names hn
  have hgrid := gridOf_of_unbound hfree
  have haudio : audioBound s (arg m 8 2) = false := by rw [audioBound, hgrid]; rfl
  change execStreamStart m s = _
  rw [execStreamStart, onMail_of_accepted h, onStream_of_names hn]
  simp only [hhandle, haudio, reserved_of_accepted h, clockMissing_of_unbound hfree, Bool.false_and, Bool.not_false, Bool.true_and,
    Bool.false_or, Bool.or_false, Bool.false_eq_true, if_false]
  simp only [hgrid, startRun, startTick, beq_iff_eq] <;> rfl

theorem startRun_of_no_feeds (hof : streamOf s (arg m 8 2) = some st) (hfeeds : st.feeds = []) : startRun s m st
    = complete (started s (arg m 8 2) (startTick s m st)) m .ok (put 8 8 (if st.period = 0 then 0 else startTick s m st)) := by
  have hassign (t : State) (n0 : Nat) : assignAll t { st with st := .running, started := true, n0 := n0 } = ([], none) := by
    simp [assignAll, hfeeds]
  have hfix := tryFix_of_no_feeds (streamOf_started hof (startTick s m st)) rfl
  simp only [startRun, streamOf_running hof, hassign]
  rw [started] at hfix
  rw [hfix, started]

/-! ## STREAM_POLICY (R586, R587) -/

theorem exec_streamPolicy_of_bad (h : Accepted s m 0x29) (hn : Names s m (arg m 8 2) st) (hbad : policyBad s m st (policyApplied m st) = true) :
    exec (.streamPolicy m) s = .next (complete s m .badArgument 0) := by
  change execStreamPolicy m s = _
  rw [execStreamPolicy, onMail_of_accepted h, onStream_of_names hn]
  simp [hbad]

theorem exec_streamPolicy_of_refused (h : Accepted s m 0x29) (hn : Names s m (arg m 8 2) st)
    (hgood : policyBad s m st (policyApplied m st) = false) (hrefused : policyAdmitted s st (policyApplied m st) = false) :
    exec (.streamPolicy m) s = .next (complete s m .noReservation 0) := by
  change execStreamPolicy m s = _
  rw [execStreamPolicy, onMail_of_accepted h, onStream_of_names hn]
  simp [hgood, hrefused]

theorem exec_streamPolicy_of_admitted (h : Accepted s m 0x29) (hn : Names s m (arg m 8 2) st)
    (hgood : policyBad s m st (policyApplied m st) = false) (hadmitted : policyAdmitted s st (policyApplied m st) = true)
    (hkeep : (bit (arg m 10 2) 7 && bit (arg m 12 1) 5) = false) : exec (.streamPolicy m) s
      = .next (complete (modStream s (arg m 8 2) fun _ => policyApplied m st) m .ok (policyResult (policyApplied m st))) := by
  obtain ⟨hof, hhandle⟩ := handle_of_names hn
  have hfound : streamOf (modStream s (arg m 8 2) fun _ => policyApplied m st) (arg m 8 2) = some (policyApplied m st) :=
    streamOf_replace hof hhandle
  change execStreamPolicy m s = _
  rw [execStreamPolicy, onMail_of_accepted h, onStream_of_names hn]
  simp [hgood, hadmitted, hkeep, hhandle, hfound]

end

/-- Settles O14. -/
theorem streamsOpenAndStart : Obligations.StreamsOpenAndStart := by
  refine ⟨?openRoom, ?openBad, ?start, ?policy⟩
  case openRoom =>
    intro m s s1 it p map h hp hit hgood hunit hdisc hwait hquota hadmit hstreams hstrands hdies hrecalls hborrow htake
    subst hp
    have hrun := exec_streamOpen_of_named h hit
    rw [hgood, hunit, discovered, hdisc] at hrun
    simp only [Bool.false_eq_true, if_false, Bool.not_true] at hrun
    rw [admitStream_of_room hwait hquota hadmit hstreams hstrands hdies hrecalls hborrow htake] at hrun
    obtain ⟨l, hl, hserved⟩ := dropWaiting_of_taken htake
    rw [hserved] at hrun
    refine ⟨_, newStream (served s m 0xFFFF none _ l) m it _ map, hrun, rfl, rfl, rfl, rfl, rfl, rfl, rfl, rfl, rfl, rfl, rfl, rfl, fun r hr => ?_⟩
    rcases mem_map_owner (l := s.mem.reserved ++ l) hr with ⟨hmem, hne⟩ | hown
    · rcases List.mem_append.1 hmem with hold | hnew
      · exact .inl hold
      · exact absurd (hl r hnew) hne
    · exact .inr hown
  case openBad =>
    intro m s it h hit hwait hbad
    rw [exec_streamOpen_of_named h hit, if_pos hbad, giveUp_of_no_wait hwait]
  case start =>
    intro m s st h hn hfree
    have hrun := exec_streamStart_of_unbound h hn hfree
    refine ⟨fun hst => ?_, fun hst hperiod hfirst hsoon => ?_, fun hst hperiod hfirst htime => ?_, fun n0 hst hfirst htime hfeeds hn0 => ?_⟩
    · rw [hrun, if_pos (by simpa using hst)]
    · rw [hrun, hst, hsoon]
      simp [hfirst.ne']
    · rw [hrun, hst, hfirst, htime]
      rfl
    · obtain ⟨hof, -⟩ := handle_of_names hn
      have hgood : (arg m 16 8 != 0 && within s (arg m 16 8) 256) = false := by rcases hfirst with hf | hf <;> simp [hf]
      have hn0' : startTick s m st = n0 := hn0.symm
      rw [hst, hgood, startRun_of_no_feeds hof hfeeds, hn0'] at hrun
      simp only [bne_self_eq_false, Bool.false_eq_true, if_false, beq_iff_eq, htime] at hrun
      refine ⟨_, hrun, rfl, fun k hk => ?_, ?_, rfl⟩
      · exact streamOf_started_other hk n0
      · refine (streamOf_started hof n0).trans ?_
        rw [← hfeeds]
  case policy =>
    intro m s st h hn
    refine ⟨exec_streamPolicy_of_bad h hn, exec_streamPolicy_of_refused h hn, fun hgood hadmitted hkeep =>
      ⟨exec_streamPolicy_of_admitted h hn hgood hadmitted hkeep, rfl, rfl, fun hv => ?_, fun hv => ?_⟩⟩
    · simp [policyApplied, hv]
    · simp [policyApplied, hv, bits]

end Sys2Proof.Proofs
end

section
/-! PROOFS. Remote reads and moves at their sink, responses, and relays. -/

namespace Sys2Proof.Proofs

open Sys2Proof Sys2Proof.Machine Sys2Proof.Safety Sys2Proof.Laws

set_option Elab.async false

section
variable {s : State} {p : PortId} {k : Packet} {x : Queued}

/-! ## Requests of another die -/

theorem exec_readPkt_of_open (hop : k.op = 1) (hready : ready s = true) (hsink : atSink s p k = some x)
    (hopen : openTo s k.src k.addr.toNat (64 * k.len) = true) (hpos : 1 ≤ k.len) (hlen : k.len ≤ 16) (halign : k.addr.toNat % 64 = 0)
    (hread : cannotRead s k.addr.toNat (64 * k.len) = false) {r : Packet}
    (hr : packet s k.src 2 k.len k.tag k.addr.toNat 0 (flitsOf (readBytes s.mem.cells (glocal k.addr.toNat) (64 * k.len))) = r)
    (hans : canAnswer s r = true) : exec (.readPkt p k) s = .next (sendPacket (takeRx s p x) r) := by
  have hlt : ¬ 16 < k.len := by omega
  have hne : k.len ≠ 0 := by omega
  change execReadPkt p k s = _
  simp [execReadPkt, hop, hready, hsink, hopen, hlt, hne, halign, hread, hr, hans]

theorem exec_readPkt_of_closed (hop : k.op = 1) (hready : ready s = true) (hsink : atSink s p k = some x)
    (hopen : openTo s k.src k.addr.toNat (64 * k.len) = false) (hans : canAnswer s (packet s k.src 2 1 k.tag k.addr.toNat 1 [0]) = true) :
    exec (.readPkt p k) s = .next (sendPacket (takeRx s p x) (packet s k.src 2 1 k.tag k.addr.toNat 1 [0])) := by
  change execReadPkt p k s = _
  simp only [execReadPkt, hop, hready, hsink, hopen, hans, bne_self_eq_false, Bool.not_true, Bool.not_false, Bool.or_self, Bool.true_or,
    Bool.false_eq_true, if_true, if_false]

/-- The state in which a MOVE's packet is taken, its bytes are in memory, and its answer of status `st` is sent. -/
def acked (s : State) (p : PortId) (x : Queued) (k : Packet) (m : Mem) (st : Nat) : State :=
  sendPacket { takeRx s p x with mem := m } (packet { takeRx s p x with mem := m } k.src 4 0 k.tag k.addr.toNat st [])

theorem acked_mem (m : Mem) (st : Nat) : (acked s p x k m st).mem = m := (sendPacket_onlyQueues _ _).mem

theorem acked_frame (m : Mem) (st : Nat) : acked s p x k m st
    = { s with fabric := (acked s p x k m st).fabric, mem := (acked s p x k m st).mem } := by
  have h := sendPacket_onlyQueues { takeRx s p x with mem := m } (packet { takeRx s p x with mem := m } k.src 4 0 k.tag k.addr.toNat st [])
  rw [OnlyQueues] at h
  rw [acked, h]
  rfl

/-- The memory with the bytes of a MOVE written. -/
def movedIn (m : Mem) (k : Packet) : Mem :=
  { m with
    cells := writeBytes m.cells (glocal k.addr.toNat) ((k.body.flatMap fun b => leBytes 64 b.toNat).take (64 * k.len))
    bad := m.bad.filter fun b => !(decide (glocal k.addr.toNat ≤ b) && decide (b < glocal k.addr.toNat + 64 * k.len)) }

/-- A MOVE at its sink is answered; whether its bytes are written depends on the range alone. -/
theorem exec_movePkt_acked (hop : k.op = 3) (hready : ready s = true) (hsink : atSink s p k = some x) : exec (.movePkt p k) s
    = .next (if !openTo s k.src k.addr.toNat (64 * k.len) || k.len == 0 || decide (16 < k.len) || k.addr.toNat % 64 != 0 then acked s p x k s.mem 1
      else if chanFailed s (glocal k.addr.toNat) then acked s p x k s.mem 2 else acked s p x k (movedIn s.mem k) 0) := by
  change execMovePkt p k s = _
  simp only [execMovePkt, hop, hready, hsink]
  rfl

theorem length_flatMap_leBytes (l : List (BitVec 512)) : (l.flatMap fun b => leBytes 64 b.toNat).length = 64 * l.length := by
  induction l with
  | nil => rfl
  | cons b l ih => simp [List.flatMap_cons, ih]; omega

theorem readByte_movedIn {m : Mem} (hm : cellsOk m.cells = true) (hlen : k.body.length = k.len) :
    (∀ a, a < glocal k.addr.toNat ∨ glocal k.addr.toNat + 64 * k.len ≤ a → readByte (movedIn m k).cells a = readByte m.cells a)
    ∧ (∀ i, i < 64 * k.len → readByte (movedIn m k).cells (glocal k.addr.toNat + i) = nth (k.body.flatMap fun b => leBytes 64 b.toNat) i 0) := by
  have hbytes := length_flatMap_leBytes k.body
  have htake : (k.body.flatMap fun b => leBytes 64 b.toNat).take (64 * k.len) = k.body.flatMap fun b => leBytes 64 b.toNat :=
    List.take_of_length_le (by omega)
  simp only [movedIn, htake]
  refine ⟨fun a ha => readByte_writeBytes_other hm (by omega), fun i hi => ?_⟩
  have hlt : i < (k.body.flatMap fun b => leBytes 64 b.toNat).length := by omega
  rw [readByte_writeBytes hm hlt, nth, List.getD_eq_getElem _ _ hlt]

/-! ## Responses -/

/-- The responses of one tag retired, or counted. -/
theorem modOut_only (t : State) (tag : BitVec 16) (f : Outstanding → Option Outstanding) : OnlyFabric t (modOut t tag f) := rfl

theorem takeRx_outstanding : (takeRx s p x).fabric.outstanding = s.fabric.outstanding := rfl

theorem modOut_none_outstanding (t : State) (tag : BitVec 16) :
    (modOut t tag fun _ => none).fabric.outstanding = t.fabric.outstanding.filter (fun y => y.tag != tag) := by
  rw [modOut, ← List.filterMap_eq_filter]
  refine List.filterMap_congr fun o _ => ?_
  by_cases ho : o.tag = tag <;> simp [ho, Option.guard]

theorem modOut_some_outstanding (t : State) (tag : BitVec 16) (g : Outstanding → Outstanding) :
    (modOut t tag fun o => some (g o)).fabric.outstanding = t.fabric.outstanding.map (fun y => if y.tag == tag then g y else y) := by
  rw [modOut, ← List.filterMap_eq_map]
  refine List.filterMap_congr fun o _ => ?_
  by_cases ho : o.tag = tag <;> simp [ho]

/-- A good response to a request of no move is the last one due, and retires the tag, or is counted. -/
theorem answered_of_no_move {t : State} {isRead : Bool} {tag : BitVec 16} {src : FabId} {o : Outstanding}
    (hfind : t.fabric.outstanding.find? (fun o => o.tag == tag && o.isRead == isRead && o.dest == src) = some o) (hmove : o.move = none) :
    answered t p isRead tag src 0 = if o.got + 1 < o.need then modOut t tag fun o => some { o with got := o.got + 1 } else modOut t tag fun _ => none := by
  simp [answered, hfind, hmove]

theorem answered_of_unmatched {t : State} {isRead : Bool} {tag : BitVec 16} {src : FabId} {st : Nat}
    (hfind : t.fabric.outstanding.find? (fun o => o.tag == tag && o.isRead == isRead && o.dest == src) = none) :
    answered t p isRead tag src st = modPort t p fun q => { q with discards := q.discards + 1 } := by
  rw [answered, hfind]

/-! ## Relays -/

theorem lookup_assocSet {κ α : Type} [BEq κ] [LawfulBEq κ] (k : κ) (a : α) (l : List (κ × α)) : (assocSet k a l).lookup k = some a :=
  assoc_assocSet k a l

theorem OnlyQueues.relayBuf {s t : State} (h : OnlyQueues s t) : t.fabric.relayBuf = s.fabric.relayBuf := by rw [h]
theorem OnlyQueues.onlyFabric {s t : State} (h : OnlyQueues s t) : OnlyFabric s t := by
  rw [OnlyQueues] at h
  rw [h]

end

/-- Settles O26. -/
theorem remoteReadsMovesAndRelays : Obligations.RemoteReadsMovesAndRelays := by
  refine ⟨?read, ?move, ?readData, ?moveAck, ?send, ?credit⟩
  case read =>
    intro p k s x hop hready hsink
    exact ⟨fun hopen hpos hlen halign hread hans => exec_readPkt_of_open hop hready hsink hopen hpos hlen halign hread rfl hans,
      exec_readPkt_of_closed hop hready hsink⟩
  case move =>
    intro p k s x hop hready hsink hwf
    refine ⟨_, exec_movePkt_acked hop hready hsink, ?_, fun hopen => ?_, fun hopen hpos hlen halign hchan hbody => ?_⟩
    · split_ifs <;> exact acked_frame ..
    · rw [hopen]
      exact acked_mem ..
    · have hbad : (!openTo s k.src k.addr.toNat (64 * k.len) || k.len == 0 || decide (16 < k.len) || k.addr.toNat % 64 != 0) = false := by
        simp [hopen, halign]
        omega
      rw [hbad, hchan]
      simp only [Bool.false_eq_true, if_false, acked_mem]
      exact readByte_movedIn hwf hbody
  case readData =>
    intro p k s x o hop hready hsink hfind hstatus hmove
    refine ⟨answered (takeRx s p x) p true k.tag k.src 0, ?_, ?_⟩
    · change execReadData p k s = _
      simp [execReadData, hop, hready, hsink, hstatus]
    · rw [answered_of_no_move (t := takeRx s p x) hfind hmove]
      refine ⟨?_, fun hlast => ?_, fun hmore => ?_⟩
      · split_ifs <;> rfl
      · rw [if_neg (by omega), modOut_none_outstanding, takeRx_outstanding]
      · rw [if_pos hmore, modOut_some_outstanding, takeRx_outstanding]
  case moveAck =>
    intro p k s x hop hready hsink hfind
    refine ⟨answered (takeRx s p x) p false k.tag k.src k.status.toNat, ?_, ?_⟩
    · change execMoveAck p k s = _
      simp [execMoveAck, hop, hready, hsink]
    · rw [answered_of_unmatched (t := takeRx s p x) hfind]
      exact ⟨rfl, rfl, by simp [takeRx]⟩
  case send =>
    intro s x r hbuf
    have hforward := forward_onlyQueues { s with fabric := { s.fabric with relayBuf := r } } { x.pkt with rly := false, via := 0, rdir := 2 } none
    have hqueues := hforward.trans (sendPacket_onlyQueues _ (packet s x.pkt.src 0x14 0 0 0 0 []))
    have hrun : exec .relaySend s = .next (sendPacket (forward { s with fabric := { s.fabric with relayBuf := r } }
        { x.pkt with rly := false, via := 0, rdir := 2 } none) (packet s x.pkt.src 0x14 0 0 0 0 [])) := by
      change execRelaySend s = _
      rw [execRelaySend, hbuf]
      have hsrc : packet (forward { s with fabric := { s.fabric with relayBuf := r } } { x.pkt with rly := false, via := 0, rdir := 2 } none)
          x.pkt.src 0x14 0 0 0 0 [] = packet s x.pkt.src 0x14 0 0 0 0 [] := by
        rw [packet, hforward]
        rfl
      rw [← hsrc]
    refine ⟨_, hrun, ?_, hqueues.relayBuf, rfl⟩
    exact hqueues.onlyFabric
  case credit =>
    intro p via s hactive hwait
    refine ⟨{ s with fabric := { s.fabric with relayHeld := assocSet via (min relaySlots (creditsOf s.fabric via + 1)) s.fabric.relayHeld } }, ?_, rfl, ?_⟩
    · change execRelayCredit p via s = _
      simp [execRelayCredit, hactive, sendWaitingFor, hwait]
    · simp [creditsOf, lookup_assocSet, relaySlots]

end Sys2Proof.Proofs
end

section
/-! PROOFS. A frame's late move while a sealed page of its stream is still on its way to its home. -/

namespace Sys2Proof.Proofs

open Sys2Proof Sys2Proof.Machine Sys2Proof.Safety Sys2Proof.Laws

set_option Elab.async false

/-- A sealed page of a stream, homed in T2. -/
def sealedPage : KvPage :=
  { layer := 0, head := 0, slot := 0, page := 0, k := [], v := [], isSealed := true, damaged := false, home := 0, tier := 2 }

/-- A frame in flight, without work. -/
def idleFrame : Frame :=
  { slot := 0, release := 0, feed := ⟨none, 0, 0, [], [], 0, false, false⟩, segs := [], blocks := [], partials := [], attnParts := []
    staging := [], maxima := [], lean := false, boost := false, replayed := false, replayLat := 0, fault := none, deadline := 0, lengths := []
    pages := [], replaced := [], writes := [], started := [], lastCommit := 0, prio := 0, guar := false, quiet := false
    timeouts := Vector.replicate 3 0, catchH := none }

/-- A stream with that frame in flight and that page sealed. -/
def sealedStream : Stream :=
  { handle := 1, itin := 1, tenant := 0, ch := 0, st := .running, started := true, period := 0, deadline := 0, prio := 0, guaranteed := false
    cuRatio := 0, cuOrder := [], snapEvery := 0, quiet := false, snapRegion := 0, timeouts := Vector.replicate 3 0, kvFmt := 0, pageLog2 := 4
    ragged := false, backward := false, maxSeqs := 1, maxPos := 1, maxRows := 1, n0 := 0, feeds := [], frame := some idleFrame, prevSlot := none
    prevRelease := 0, nextRelease := none, minRelease := 0, debt := 0, maxDebt := 0, cuFrames := 0, catchup := false, active := [], used := []
    demoted := false, emptySlots := 0, finished := 0, late := 0, drainedFrames := 0, advances := 0, lastAdvSlot := 0, map := [0], home := 0
    energyPj := 0, chargePj := 0, openTick := 0, hist := [], stats := [], lengths := [], pages := [sealedPage], recurrent := [], rowRecords := []
    gradients := [], kept := none, snapSeq := 0, snapping := none, drainCmd := none, lostDie := 0, dies := [0], rebase := false, rowsBad := none }

/-- A move of an item of the frame from T2, issued at tick 0 with a timeout of 5 ticks. -/
def itemMove : Move := ⟨0, .frame 1, 0, 0, 2, t2Base, 1, 0x10000, 64, false, 0, false, some 0, 5, false, none⟩

/-- The move of the sealed page from T1 to its home in T2. -/
def sealMove : Move := ⟨1, .frame 1, 0, kvItem 0 0 0 0, 1, 0x20000, 2, t2Base + 0x10000, 64, false, 0, false, some 0, 0, false, none⟩

/-- READY at tick 6, with the late move of the frame's item and the move of the sealed page under way. -/
def lateBesideSeal : State :=
  { State.reset with
    fw := { State.reset.fw with state := .ready }
    time := { State.reset.time with msc := 6 }
    streams := [sealedStream]
    mem := { State.reset.mem with moves := [itemMove, sealMove] } }

/-- The move of a page that is sealed is kept when its stream's frame ends. -/
theorem moves_of_lateBesideSeal : (failMove lateBesideSeal itemMove .tierFault false).mem.moves = [sealMove] := by
  decide +kernel

theorem exec_moveLatenessTimeout_lateBesideSeal :
    exec (.moveLatenessTimeout 0) lateBesideSeal = .next (failMove lateBesideSeal itemMove .tierFault false) := rfl

/-- Refutes O31, by its clause of MOVE_LATENESS_TIMEOUT: the end of a frame keeps the move of a page that is sealed already, so in
`lateBesideSeal` a move of the stream is left. -/
theorem not_movesLand : ¬ Obligations.MovesLand := by
  rintro ⟨-, -, -, -, hlate⟩
  obtain ⟨t, ht, -, -, -, hmoves⟩ := hlate 0 1 lateBesideSeal itemMove sealedStream idleFrame 5 rfl rfl (by decide) rfl rfl rfl rfl rfl (by decide)
  rw [exec_moveLatenessTimeout_lateBesideSeal] at ht
  rw [← Host.Outcome.next.inj ht, moves_of_lateBesideSeal] at hmoves
  exact hmoves sealMove (List.mem_singleton.2 rfl) rfl

end Sys2Proof.Proofs
end

section
/-! PROOFS. Streams fed, drained and closed. -/

namespace Sys2Proof.Proofs

open Sys2Proof Sys2Proof.Machine Sys2Proof.Safety Sys2Proof.Laws

set_option Elab.async false

section
variable {s : State} {m : MailCmd} {st : Stream} {it : Itin}

/-! ## STREAM_FEED -/

theorem passFeed_only (s : State) (m : MailCmd) : OnlyHost s (passFeed s m) := rfl

theorem passFeed_tenant (s : State) (m : MailCmd) (ch : ChanId) : ((passFeed s m).host.channels.get ch).tenant = (s.host.channels.get ch).tenant := by
  simp only [passFeed, modChan, vget_vmod]
  split_ifs with hch hhead
  · subst hch; rfl
  · subst hch; rfl
  · rfl

theorem namedStream_passFeed (h : Nat) : namedStream (passFeed s m) m h = namedStream s m h := by
  have hname (tenant : Nat) : mayName (passFeed s m) m tenant = mayName s m tenant := by
    simp only [mayName, mailTenant, passFeed_tenant]
  rw [namedStream, namedStream, funext fun t : Stream => hname t.tenant]
  rfl

theorem exec_streamFeed_of_named (h : Accepted s m 0x24) (hn : Names s m (arg m 8 2) st) (hit : itinOf s st.itin = some it)
    (addrs : List Nat) (items : List (List Byte)) (seqs : List (BitVec 64)) : exec (.streamFeed m ⟨addrs, items⟩ seqs .ok) s
    = .next (match feedFault (passFeed s m) m st it addrs items seqs .ok with
      | some (x, i) => complete (passFeed s m) m x (put 8 2 i)
      | none => acceptFeed (passFeed s m) m st it items seqs) := by
  obtain ⟨hready, haccepted, hop, hfault, -⟩ := h
  obtain ⟨hnamed, hlost, hresuming⟩ := hn
  have hit' : itinOf (passFeed s m) st.itin = some it := hit
  change execStreamFeed m ⟨addrs, items⟩ seqs .ok s = _
  simp [execStreamFeed, hready, haccepted, hop, hfault, namedStream_passFeed, hnamed, hlost, hresuming, hit'] <;> rfl

/-- A feed as accepted for a stream that has not started: without a slot. -/
def unstartedFeed (s : State) (m : MailCmd) (it : Itin) (items : List (List Byte)) (seqs : List (BitVec 64)) : Feed :=
  { cmd := some m, accepted := now s, slot := 0
    inputs := feedBlocks (if bit (arg m 10 1) 0 then it.img.gradInputs else it.img.inputs) items
    seqs := seqs.map seqEntry, outBuf := arg m 32 8, backward := bit (arg m 10 1) 0, inRing := false }

/-- A stream with its use of energy counted, at home or for its home (R743). -/
def chargedBy (s : State) (pj : Nat) (st : Stream) : Stream :=
  if st.home == s.fabric.id then { st with energyPj := st.energyPj + pj } else { st with chargePj := st.chargePj + pj }

theorem chargeStream_eq (s : State) (h pj : Nat) : chargeStream s h pj = modStream s h (chargedBy s pj) := rfl

theorem chargedBy_handle (s : State) (pj : Nat) (st : Stream) : (chargedBy s pj st).handle = st.handle := by
  unfold chargedBy
  split <;> rfl

theorem chargedBy_feeds (s : State) (pj : Nat) (st : Stream) : (chargedBy s pj st).feeds = st.feeds := by
  unfold chargedBy
  split <;> rfl

theorem chargedBy_st (s : State) (pj : Nat) (st : Stream) : (chargedBy s pj st).st = st.st := by
  unfold chargedBy
  split <;> rfl

theorem chargedBy_started (s : State) (pj : Nat) (st : Stream) : (chargedBy s pj st).started = st.started := by
  unfold chargedBy
  split <;> rfl

theorem streamOf_chargeStream {h pj : Nat} (hof : streamOf s h = some st) : streamOf (chargeStream s h pj) h = some (chargedBy s pj st) :=
  streamOf_modStream_same hof (chargedBy_handle s pj)

theorem streamOf_chargeStream_other {h k pj : Nat} (hk : k ≠ h) : streamOf (chargeStream s h pj) k = streamOf s k :=
  streamOf_modStream_other hk (chargedBy_handle s pj)

/-- A stream with one more feed, without a slot. -/
def withFeed (f : Feed) (t : Stream) : Stream :=
  { t with
    emptySlots := t.emptySlots + 0, feeds := t.feeds ++ [f], prevSlot := t.prevSlot
    st := if t.st == .drained then .running else t.st }

theorem tryFix_of_not_started {h : Nat} (hof : streamOf s h = some st) (hstarted : st.started = false) : tryFix s h = s := by
  simp [tryFix, hof, hstarted]

/-- The state with a feed joined to a stream that has not started. -/
def fed (s : State) (m : MailCmd) (h n : Nat) (f : Feed) : State := modStream (chargeMove (hold s m) h 4 1 n) h (withFeed f)

theorem streamOf_fed {h n : Nat} (hof : streamOf s h = some st) (f : Feed) : streamOf (fed s m h n f) h
    = (streamOf (chargeMove s h 4 1 n) h).map (withFeed f) := by
  have hof' : streamOf (hold s m) h = some st := hof
  have hcharged := streamOf_chargeStream (pj := n * (Config.movePjPerByte 4 + Config.movePjPerByte 1)) hof
  have hcharged' := streamOf_chargeStream (pj := n * (Config.movePjPerByte 4 + Config.movePjPerByte 1)) hof'
  rw [fed, chargeMove, chargeMove, hcharged]
  exact streamOf_modStream_same hcharged' fun _ => rfl

theorem streamOf_fed_other {h k n : Nat} (hk : k ≠ h) (f : Feed) : streamOf (fed s m h n f) k = streamOf s k := by
  have hcharged : streamOf (chargeMove (hold s m) h 4 1 n) k = streamOf (hold s m) k := streamOf_chargeStream_other hk
  have hfed : streamOf (fed s m h n f) k = streamOf (chargeMove (hold s m) h 4 1 n) k := streamOf_modStream_other hk fun _ => rfl
  rw [hfed, hcharged]
  rfl

theorem acceptFeed_of_not_started (hof : streamOf s st.handle = some st) (hstarted : st.started = false) (items : List (List Byte))
    (seqs : List (BitVec 64)) : acceptFeed s m st it items seqs
      = fed s m st.handle (total (items.map (·.length)) + 8 * seqs.length) (unstartedFeed s m it items seqs) := by
  have hfed := streamOf_fed (m := m) (n := total (items.map (·.length)) + 8 * seqs.length) hof (unstartedFeed s m it items seqs)
  rw [chargeMove, streamOf_chargeStream hof] at hfed
  have hkept := tryFix_of_not_started hfed ((chargedBy_started ..).trans hstarted)
  rw [acceptFeed]
  simp only [hstarted, Bool.false_eq_true, if_false]
  exact hkept

/-! ## STREAM_DRAIN -/

/-- The state with a stream being drained for a command. -/
def draining (s : State) (m : MailCmd) (h : Nat) : State :=
  modStream (hold s m) h fun t => { t with st := .draining, drainCmd := some m, drainedFrames := 0 }

theorem streamOf_draining {h : Nat} (hof : streamOf s h = some st) :
    streamOf (draining s m h) h = some { st with st := .draining, drainCmd := some m, drainedFrames := 0 } :=
  streamOf_modStream_same (s := hold s m) hof fun _ => rfl

theorem streamOf_draining_other {h k : Nat} (hk : k ≠ h) : streamOf (draining s m h) k = streamOf s k := by
  have hother : streamOf (draining s m h) k = streamOf (hold s m) k := streamOf_modStream_other hk fun _ => rfl
  rw [hother]
  rfl

theorem streamOf_drained {h : Nat} (hof : streamOf s h = some st) :
    streamOf (modStream (draining s m h) h fun t => { t with st := .drained, drainCmd := none }) h
      = some { st with st := .drained, drainCmd := none, drainedFrames := 0 } :=
  streamOf_modStream_same (streamOf_draining hof) fun _ => rfl

theorem exec_streamDrain_of_running (h : Accepted s m 0x25) (hn : Names s m (arg m 8 2) st) (hst : st.st = .running) : exec (.streamDrain m) s
    = .next (drainCheck (draining s m (arg m 8 2)) (arg m 8 2)) := by
  obtain ⟨-, hhandle⟩ := handle_of_names hn
  change execStreamDrain m s = _
  rw [execStreamDrain, onMail_of_accepted h, onStream_of_names hn]
  simp [hst, reserved_of_accepted h, hhandle, draining]

/-- A stream being drained that has something left stays so. -/
theorem drainCheck_of_busy {h : Nat} (hof : streamOf s h = some st) (hbusy : (st.frame.isSome || !st.feeds.isEmpty) = true) : drainCheck s h = s := by
  rw [Bool.or_eq_true] at hbusy
  rcases hbusy with hframe | hfeeds
  · simp [drainCheck, hof, hframe]
  · simp [drainCheck, hof, hfeeds]

theorem drainCheck_of_empty {h : Nat} {c : MailCmd} (hof : streamOf s h = some st) (hst : st.st = .draining) (hframe : st.frame = none)
    (hfeeds : st.feeds = []) (hcmd : st.drainCmd = some c) : drainCheck s h
      = complete (modStream s h fun t => { t with st := .drained, drainCmd := none }) c .ok (put 8 4 st.drainedFrames) := by
  simp [drainCheck, hof, hst, hframe, hfeeds, hcmd]

theorem drainCheck_onlyStreams (s : State) (h : Nat) : OnlyStreams s (drainCheck s h) := by
  unfold drainCheck
  split
  · rfl
  · simp only
    split
    · rfl
    · split <;> rfl

theorem drainCheck_otherStreams {h k : Nat} (hk : k ≠ h) : streamOf (drainCheck s h) k = streamOf s k := by
  unfold drainCheck
  split
  · rfl
  · simp only
    split
    · rfl
    · split <;> exact streamOf_modStream_other hk fun _ => rfl

/-! ## STREAM_CLOSE -/

/-- What releasing and returning touches: the bytes, the moves, the streams and the itineraries stay, and no reservation is new. -/
structure Releases (s t : State) : Prop where
  cells : t.mem.cells = s.mem.cells
  moves : t.mem.moves = s.mem.moves
  streams : t.streams = s.streams
  itins : t.itins = s.itins
  reserved : ∀ r ∈ t.mem.reserved, r ∈ s.mem.reserved

theorem Releases.refl (s : State) : Releases s s := ⟨rfl, rfl, rfl, rfl, fun _ hr => hr⟩

theorem Releases.trans {s t u : State} (hst : Releases s t) (htu : Releases t u) : Releases s u :=
  ⟨htu.cells.trans hst.cells, htu.moves.trans hst.moves, htu.streams.trans hst.streams, htu.itins.trans hst.itins,
    fun r hr => hst.reserved r (htu.reserved r hr)⟩

theorem Releases.foldl {α : Type} {f : State → α → State} (hf : ∀ t a, Releases t (f t a)) (l : List α) (s : State) : Releases s (l.foldl f s) :=
  List.foldlRecOn (motive := Releases s) l f (.refl s) fun t ht a _ => ht.trans (hf t a)

theorem returnLoans_releases (s : State) (o : Owner) : Releases s (returnLoans s o) := by
  refine .foldl (fun t r => ?_) _ _
  split
  · exact .refl t
  · simp only
    split
    · exact ⟨rfl, rfl, rfl, rfl, fun _ hr => hr⟩
    · exact ⟨rfl, rfl, rfl, rfl, fun _ hr => hr⟩

theorem releaseOwner_releases (s : State) (o : Owner) : Releases s (releaseOwner s o) :=
  ⟨rfl, rfl, rfl, rfl, fun _ hr => List.mem_of_mem_filter hr⟩

theorem releaseAll_releases (s : State) (o : Owner) : Releases s (releaseAll s o) :=
  ((returnLoans_releases s o).trans (releaseOwner_releases _ o)).trans ⟨rfl, rfl, rfl, rfl, fun _ hr => hr⟩

theorem releaseAll_owner {o : Owner} : ∀ r ∈ (releaseAll s o).mem.reserved, r.owner ≠ o := by
  intro r hr
  simpa using (List.mem_filter.1 hr).2

theorem dropBinds_releases (s : State) (h : Nat) : Releases s (dropBinds s h) :=
  .foldl (fun t _ => .trans (t := modAp t _ _) ⟨rfl, rfl, rfl, rfl, fun _ hr => hr⟩ (releaseAll_releases ..)) _ _

theorem dropOutstanding_releases (s : State) (move : Nat) : Releases s (dropOutstanding s move) := ⟨rfl, rfl, rfl, rfl, fun _ hr => hr⟩

theorem discardFeeds_only (s : State) (st : Stream) : discardFeeds s st = { s with host := (discardFeeds s st).host, free := (discardFeeds s st).free } := by
  refine List.foldlRecOn (motive := fun t : State => t = { s with host := t.host, free := t.free }) st.feeds _ rfl fun t ht f _ => ?_
  split
  · rw [completeCode, takeFree, ht]
  · exact ht

theorem returnBoost_onlyPower (s : State) (had : Bool) : returnBoost s had = { s with power := (returnBoost s had).power } := by
  unfold returnBoost
  split
  · have honly := requestOp_onlyGovernor s s.power.opBase .boostReturn
    have hstreams : (requestOp s s.power.opBase .boostReturn).streams = s.streams := by
      unfold requestOp
      simp only
      split <;> split_ifs <;> rfl
    rw [OnlyGovernor, hstreams] at honly
    exact honly
  · rfl

theorem returnBoost_mem (s : State) (had : Bool) : (returnBoost s had).mem = s.mem := by rw [returnBoost_onlyPower]
theorem returnBoost_itins (s : State) (had : Bool) : (returnBoost s had).itins = s.itins := by rw [returnBoost_onlyPower]
theorem returnBoost_streams (s : State) (had : Bool) : (returnBoost s had).streams = s.streams := by rw [returnBoost_onlyPower]

/-- The state in which a stream's engines are cleared and its moves and staged items are gone. -/
def unworked (s : State) (h : Nat) : State :=
  modMem ((s.mem.moves.filter fun m => m.purpose == .frame h || m.purpose == .resume h).foldl (fun t m => dropOutstanding t m.id) (clearStream s h))
    fun x => { x with
      moves := x.moves.filter fun m => !(m.purpose == .frame h || m.purpose == .resume h), staged := x.staged.filter fun c => c.stream != h }

/-- The state in which what a stream holds is released. -/
def unbound (s : State) (h : Nat) : State := releaseAll (dropBinds s h) (.stream h)

theorem unbound_releases (s : State) (h : Nat) : Releases s (unbound s h) :=
  (dropBinds_releases s h).trans (releaseAll_releases (dropBinds s h) (.stream h))

theorem unbound_owner (s : State) (h : Nat) : ∀ r ∈ (unbound s h).mem.reserved, r.owner ≠ .stream h := releaseAll_owner

theorem unworked_only (s : State) (h : Nat) : (unworked s h).streams = s.streams ∧ (unworked s h).mem.cells = s.mem.cells
    ∧ (unworked s h).itins = s.itins ∧ ∀ x ∈ (unworked s h).mem.moves, x.purpose ≠ .frame h := by
  have hdropped : Releases (clearStream s h) ((s.mem.moves.filter fun m => m.purpose == .frame h || m.purpose == .resume h).foldl
      (fun t (m : Move) => dropOutstanding t m.id) (clearStream s h)) := .foldl (fun t _ => dropOutstanding_releases t _) _ _
  refine ⟨hdropped.streams, hdropped.cells, hdropped.itins, fun x hx hown => ?_⟩
  have hne := (List.mem_filter.1 hx).2
  simp [hown] at hne

/-- The state with a stream and what it holds gone, before a BOOST it had is returned. -/
def closed (s : State) (h : Nat) : State :=
  { unbound (unworked s h) h with streams := (unbound (unworked s h) h).streams.filter fun t => t.handle != h }

theorem removeStream_eq (s : State) (h : Nat) : ∃ had, removeStream s h = returnBoost (closed s h) had := by
  simp only [removeStream, closed, unbound, unworked]
  exact ⟨_, rfl⟩

/-- A stream closed: the streams without it, the bytes and the itineraries as before, nothing reserved or moved for it. -/
theorem removeStream_drops (s : State) (h : Nat) : (removeStream s h).streams = s.streams.filter (fun x => x.handle != h)
    ∧ (removeStream s h).mem.cells = s.mem.cells ∧ (removeStream s h).itins = s.itins
    ∧ (∀ r ∈ (removeStream s h).mem.reserved, r.owner ≠ .stream h) ∧ (∀ x ∈ (removeStream s h).mem.moves, x.purpose ≠ .frame h) := by
  obtain ⟨hstreams, hcells, hitins, hmoves⟩ := unworked_only s h
  have hreleased := unbound_releases (unworked s h) h
  obtain ⟨had, heq⟩ := removeStream_eq s h
  have hmem : (removeStream s h).mem = (unbound (unworked s h) h).mem := by rw [heq, returnBoost_mem, closed]
  have hclosed : (removeStream s h).streams = (unbound (unworked s h) h).streams.filter fun x => x.handle != h := by
    rw [heq, returnBoost_streams, closed]
  have hitins' : (removeStream s h).itins = (unbound (unworked s h) h).itins := by rw [heq, returnBoost_itins, closed]
  rw [hmem, hclosed, hitins', hreleased.cells, hreleased.moves, hreleased.streams, hreleased.itins, hstreams]
  exact ⟨rfl, hcells, hitins, unbound_owner (unworked s h) h, hmoves⟩

theorem exec_streamClose_of_named (h : Accepted s m 0x26) (hn : namedStream s m (arg m 8 2) = some st) : exec (.streamClose m) s
    = .next (if st.st == .resuming || (st.started && st.st != .lost && (st.frame.isSome || !st.feeds.isEmpty)) || st.snapping.isSome then complete s m .busy 0
      else complete (removeStream (discardFeeds s st) st.handle) m .ok
        (put 8 8 (st.energyPj / 10 ^ 9) + put 16 4 st.finished + put 20 4 st.late)) := by
  change execStreamClose m s = _
  rw [execStreamClose, onMail_of_accepted h]
  simp [hn, reserved_of_accepted h]

end

/-- Settles O15. -/
theorem streamsFeedDrainAndClose : Obligations.StreamsFeedDrainAndClose := by
  refine ⟨?feedBad, ?feedGood, ?drain, ?closeBusy, ?close⟩
  case feedBad =>
    intro m addrs items seqs s st it x i h hn hit hfault
    rw [exec_streamFeed_of_named h hn hit, hfault]
  case feedGood =>
    intro m addrs items seqs s st it h hn hit hfault hstarted
    obtain ⟨hof, hhandle⟩ := handle_of_names hn
    have hof' : streamOf (passFeed s m) st.handle = some st := by rw [hhandle]; exact hof
    have hrun := exec_streamFeed_of_named h hn hit addrs items seqs
    rw [hfault] at hrun
    simp only at hrun
    rw [acceptFeed_of_not_started hof' hstarted, hhandle] at hrun
    refine ⟨_, unstartedFeed (passFeed s m) m it items seqs, hrun, rfl, fun k hk => streamOf_fed_other hk _, ?_, rfl, rfl, rfl, rfl, ?_⟩
    · exact List.mem_append.2 (.inr (List.mem_singleton.2 rfl))
    · rw [streamOf_fed (s := passFeed s m) hof, chargeMove, chargeMove, streamOf_chargeStream hof, streamOf_chargeStream (s := passFeed s m) hof]
      simp only [Option.map_some, withFeed, chargedBy_feeds, chargedBy_st, beq_iff_eq]
      rfl
  case drain =>
    intro m s st h hn hst
    obtain ⟨hof, -⟩ := handle_of_names hn
    refine ⟨_, exec_streamDrain_of_running h hn hst, ?_, fun k hk => (drainCheck_otherStreams hk).trans (streamOf_draining_other hk),
      fun hfeeds hframe => ?_, fun hframe => ?_⟩
    · rw [drainCheck_onlyStreams]
      rfl
    · rw [drainCheck_of_empty (streamOf_draining hof) rfl hframe hfeeds rfl]
      have hzero : put 8 4 0 = 0 := rfl
      exact ⟨streamOf_drained hof, by rw [hzero]; rfl⟩
    · rw [drainCheck_of_busy (streamOf_draining hof) (by simp [hframe])]
      exact ⟨List.mem_append.2 (.inr (List.mem_singleton.2 rfl)), streamOf_draining hof⟩
  case closeBusy =>
    intro m s st h hn hstarted hlost hframe
    rw [exec_streamClose_of_named h hn]
    simp [hstarted, hlost, hframe]
  case close =>
    intro m s st h hn hresuming hidle hsnap
    obtain ⟨hof, -⟩ := Option.filter_eq_some_iff.1 hn
    have hhandle : st.handle = arg m 8 2 := by simpa using List.find?_some hof
    have hfree : (st.st == .resuming || (st.started && st.st != .lost && (st.frame.isSome || !st.feeds.isEmpty)) || st.snapping.isSome) = false := by
      rcases hidle with hlost | hstarted | ⟨hframe, hfeeds⟩
      · simp [hsnap, hlost]
      · simp [hresuming, hsnap, hstarted]
      · simp [hresuming, hsnap, hframe, hfeeds]
    have hrun := exec_streamClose_of_named h hn
    rw [hfree, if_neg Bool.false_ne_true, hhandle] at hrun
    obtain ⟨hstreams, hcells, hitins, hreserved, hmoves⟩ := removeStream_drops (discardFeeds s st) (arg m 8 2)
    have hdiscard := discardFeeds_only s st
    refine ⟨_, hrun, hstreams.trans ?_, fun a => congrArg (readByte · a) (hcells.trans ?_), hreserved, hmoves, hitins.trans ?_⟩
    · rw [hdiscard]
    · rw [hdiscard]
    · rw [hdiscard]

end Sys2Proof.Proofs
end

section
/-! PROOFS. Snapshots captured, completed and resumed. -/

namespace Sys2Proof.Proofs

open Sys2Proof Sys2Proof.Machine Sys2Proof.Safety Sys2Proof.Laws

set_option Elab.async false

section
variable {s : State} {m : MailCmd} {st : Stream} {it : Itin} {r : Region} {x : Snapshot}

/-! ## STREAM_SNAPSHOT -/

/-- The area that does not hold the region's newest valid snapshot. -/
def freeArea (s : State) (r : Region) : Fin 2 :=
  match newestSnap s r.tier (regionAddr s r) with
  | some y => if y.area == 0 then 1 else 0
  | none => 0

/-- What a capture of a stream for a command holds (R773, Table 14-4). -/
def captured (s : State) (st : Stream) (it : Itin) (r : Region) : Snapshot :=
  { tier := r.tier, base := regionAddr s r, area := freeArea s r, valid := false, auto := false, advances := st.advances, itinCrc := it.crc
    stream := st.handle, homeId := s.fabric.id, seq := st.snapSeq + 1, snapSlot := st.lastAdvSlot, capture := now s
    params := BitVec.ofNat 192 (paramBits st), timeouts := st.timeouts, lengths := st.lengths
    pages := st.pages.map fun p => { p with layer := ordOf (attnLayers it) p.layer }, hist := st.hist.map fun y => (ordOf (rmLayers it) y.1, y.2)
    recurrent := st.recurrent.map fun y => ((ordOf (keptLayers it) y.1.1, y.1.2), y.2), bytes := snapBytes st it }

/-- The state with that capture under way. -/
def capturing (s : State) (m : MailCmd) (st : Stream) (it : Itin) (r : Region) : State :=
  modStream { s with snaps := s.snaps.filter fun y => !(y.tier == r.tier && y.base == regionAddr s r && y.area == freeArea s r) } st.handle fun t =>
    { t with snapSeq := t.snapSeq + 1, snapping := some (captured s st it r, some m) }

theorem captureNow_of_room (hof : streamOf s st.handle = some st) (hit : itinOf s st.itin = some it) (hregion : regionFault s r = none)
    (hroom : snapBytes st it ≤ areaBytes r) : captureNow s st.handle (some m) r = capturing s m st it r := by
  simp only [captureNow, hof, Option.bind_some, hit, hregion, Nat.not_lt.2 hroom, if_false]
  rfl

theorem exec_streamSnapshot_of_idle (h : Accepted s m 0x27) (hn : Names s m (arg m 8 2) st) (hst : st.st = .running)
    (hr : namedRegion s m (if arg m 10 2 = 0 then st.snapRegion else arg m 10 2) = some r) (htier : r.tier = 2 ∨ r.tier = 3)
    (hsnap : st.snapping = none) (hframe : st.frame = none) :
    exec (.streamSnapshot m) s = .next (captureNow (hold s m) st.handle (some m) r) := by
  have hgood : snapRegionOk s m (if arg m 10 2 = 0 then st.snapRegion else arg m 10 2) = true := by
    rcases htier with ht | ht <;> simp [snapRegionOk, hr, ht]
  change execStreamSnapshot m s = _
  rw [execStreamSnapshot, onMail_of_accepted h, onStream_of_names hn]
  simp [hst, reserved_of_accepted h, hgood, hr, hsnap, hframe]

theorem mem_snaps_of_newest {y : Snapshot} {tier base : Nat} (hy : newestSnap s tier base = some y) : y ∈ s.snaps := by
  have hkept : ∀ z, newestSnap s tier base = some z → z ∈ snapsOf s tier base :=
    List.foldlRecOn (motive := fun b : Option Snapshot => ∀ z, b = some z → z ∈ snapsOf s tier base) (snapsOf s tier base) _
      (fun z hz => by simp at hz) fun b hb x hx z hz => by
        cases b with
        | none =>
          obtain rfl : x = z := by simpa using hz
          exact hx
        | some w =>
          simp only [] at hz
          split at hz
          · obtain rfl : x = z := by simpa using hz
            exact hx
          · exact hb z hz
  exact List.mem_of_mem_filter (hkept y hy)

theorem freeArea_ne {y : Snapshot} (hy : newestSnap s r.tier (regionAddr s r) = some y) : freeArea s r ≠ y.area := by
  simp only [freeArea, hy, beq_iff_eq]
  split
  · next h0 => simp [h0]
  · next h0 => exact fun h => h0 h.symm

/-! ## SNAPSHOT_COMPLETE -/

/-- The state with a snapshot valid. -/
def saved (s : State) (x : Snapshot) : State := { s with snaps := s.snaps ++ [{ x with valid := true }] }

theorem exec_snapshotComplete_of_captured {h : Nat} (hof : streamOf s h = some st) (hsnap : st.snapping = some (x, some m))
    (hwait : waitsCapture x = false) (hr : regionAt s x = some r) (hregion : regionFault s r = none) (res : ReadEnd) :
    exec (.snapshotComplete ⟨h, res⟩) s = .next (match endStatus res with
      | some e => complete (modStream s h fun y => { y with snapping := none }) m e 0
      | none => complete (modStream (chargeMove { s with snaps := s.snaps ++ [{ x with valid := true }] } h 1 x.tier x.bytes) h fun t => { t with snapping := none })
          m .ok (put 8 8 x.snapSlot + put 16 8 x.bytes + put 24 8 x.capture)) := by
  change execSnapshotComplete ⟨h, res⟩ s = _
  simp only [execSnapshotComplete, hof, Option.bind_some, hsnap, hwait, Bool.false_eq_true, if_false, hr, hregion, Option.none_or]
  cases res <;> rfl

/-! ## STREAM_RESUME -/

theorem exec_streamResume_of_read (h : Accepted s m 0x28) (hit : namedItin s m (arg m 8 2) = some it) (hr : namedRegion s m (arg m 10 2) = some r)
    (htier : r.tier ≠ 4) (hdisc : s.fw.discovered = true) (hregion : regionFault s r = none)
    (hread : readStatus s (regionAddr s r) r.bytes .ok = none) : exec (.streamResume m .ok) s = .next (resumeStream s m) := by
  change execStreamResume m .ok s = _
  rw [execStreamResume, onMail_of_accepted h]
  simp [hit, hr, reserved_of_accepted h, htier, discovered, hdisc, hregion, hread]

/-- A change of the one stream under a fresh handle changes the last of the streams. -/
theorem map_last_of_fresh {l : List Stream} {h : Nat} {new : Stream} {f : Stream → Stream} (hfresh : ∀ y ∈ l, y.handle ≠ h) (hnew : new.handle = h) :
    ((l ++ [new]).map fun t => if t.handle == h then f t else t) = l ++ [f new] := by
  have hold : (l.map fun t => if t.handle == h then f t else t) = l.map id := List.map_congr_left fun y hy => by simp [hfresh y hy]
  rw [List.map_append, hold, List.map_id, List.map_singleton, hnew, beq_self_eq_true, if_pos rfl]

end

/-- Settles O16. -/
theorem snapshotsCaptureAndResume : Obligations.SnapshotsCaptureAndResume := by
  refine ⟨?snapshot, ?written, ?failed, ?resume, ?refused⟩
  case snapshot =>
    intro m s st r it h hn hst hr htier hsnap hframe hit hregion hroom
    obtain ⟨hof, hhandle⟩ := handle_of_names hn
    rw [← hhandle] at hof
    have hrun := exec_streamSnapshot_of_idle h hn hst hr htier hsnap hframe
    have hnow : captureNow (hold s m) st.handle (some m) r = capturing (hold s m) m st it r := captureNow_of_room (s := hold s m) hof hit hregion hroom
    rw [hnow] at hrun
    rw [← hhandle]
    refine ⟨_, captured (hold s m) st it r, hrun, rfl, List.mem_append.2 (.inr (List.mem_singleton.2 rfl)), fun k hk => ?_, ?_,
      rfl, rfl, rfl, rfl, rfl, rfl, rfl, rfl, rfl, fun y hy => ⟨freeArea_ne hy, List.mem_filter.2 ⟨mem_snaps_of_newest hy, ?_⟩⟩⟩
    · exact streamOf_modStream_other (s := { hold s m with snaps := _ }) hk fun _ => rfl
    · exact streamOf_modStream_same (s := { hold s m with snaps := _ }) hof fun _ => rfl
    · have hne := freeArea_ne hy
      have hne' : ¬ y.area = freeArea (hold s m) r := fun h => hne h.symm
      simp [hne']
  case written =>
    intro h s st x m r hof hsnap hwait hr hregion
    have hsaved : streamOf (saved s x) h = some st := hof
    have hcharged : streamOf (chargeMove s h 1 x.tier x.bytes) h = some (chargedBy s _ st) := streamOf_chargeStream hof
    have hcharged' : streamOf (chargeMove (saved s x) h 1 x.tier x.bytes) h = some (chargedBy (saved s x) _ st) := streamOf_chargeStream hsaved
    have hrun := exec_snapshotComplete_of_captured hof hsnap hwait hr hregion .ok
    simp only [endStatus] at hrun
    refine ⟨_, hrun, rfl, fun k hk => ?_, ?_, rfl⟩
    · have hother : streamOf (chargeMove (saved s x) h 1 x.tier x.bytes) k = streamOf (saved s x) k := streamOf_chargeStream_other hk
      refine Eq.trans ?_ hother
      exact streamOf_modStream_other (s := chargeMove (saved s x) h 1 x.tier x.bytes) hk fun _ => rfl
    · rw [hcharged]
      exact streamOf_modStream_same hcharged' fun _ => rfl
  case failed =>
    intro h res s st x m r hof hsnap hwait hr hregion hres
    rw [exec_snapshotComplete_of_captured hof hsnap hwait hr hregion]
    rcases hres with rfl | rfl <;> rfl
  case resume =>
    intro m s s1 it r x p map h hit hr htier hdisc hregion hread hnew hcrc hp hunit hwait hquota hadmit hstreams hstrands hdies hrecalls hborrow hfresh htake
    have hrun := exec_streamResume_of_read h hit hr htier hdisc hregion hread
    subst hp
    have hcrc' : (x.itinCrc != it.crc) = false := by simp [hcrc]
    rw [resumeStream, hit, hr] at hrun
    simp only [hnew, hcrc', hunit, Bool.false_eq_true, if_false] at hrun
    rw [admitStream_of_room hwait hquota hadmit hstreams hstrands hdies hrecalls hborrow htake] at hrun
    obtain ⟨l, -, hserved⟩ := dropWaiting_of_taken htake
    rw [hserved] at hrun
    refine ⟨_, _, hrun, map_last_of_fresh hfresh rfl, rfl, rfl, rfl, rfl, rfl, rfl, rfl, rfl⟩
  case refused =>
    intro m s it r h hit hr htier hdisc hregion hread hwait hnew
    rw [exec_streamResume_of_read h hit hr htier hdisc hregion hread, resumeStream, hit, hr]
    rcases hnew with hnone | ⟨x, hx, hcrc⟩
    · simp only [hnone]
      rw [giveUp_of_no_wait hwait]
    · simp only [hx, bne_iff_ne, ne_eq, hcrc, not_false_eq_true, if_true]
      rw [giveUp_of_no_wait hwait]

end Sys2Proof.Proofs
end

section
/-! PROOFS. Power caps and the base point. -/

namespace Sys2Proof.Proofs

open Sys2Proof Sys2Proof.Machine Sys2Proof.Safety Sys2Proof.Laws

set_option Elab.async false

section
variable {s : State} {m : MailCmd}

/-! ## PWR_CAP_SET -/

/-- The state with the host's cap set, 0 removing it. -/
def hostCapped (s : State) (cap : Nat) : State := { s with power := { s.power with hostCap := if cap == 0 then none else some cap } }

theorem exec_pwrCapSet_of_good (h : Accepted s m 0x30) (hcap : arg m 8 4 = 0 ∨ (15000 ≤ arg m 8 4 ∧ arg m 8 4 ≤ 130000)) :
    exec (.pwrCapSet m) s = .next (complete (limitCheck (hostCapped s (arg m 8 4))) m .ok
      (put 8 4 (arg m 8 4) + put 12 4 (s.power.stewardCap.getD 0) + put 16 4 (capInForce (limitCheck (hostCapped s (arg m 8 4))))
        + put 20 1 (highestAllowed (limitCheck (hostCapped s (arg m 8 4)))).1)) := by
  have hgood : (arg m 8 4 != 0 && (decide (arg m 8 4 < 15000) || decide (130000 < arg m 8 4))) = false := by
    rcases hcap with h0 | ⟨hlo, hhi⟩
    · simp [h0]
    · simp [Nat.not_lt.2 hlo, Nat.not_lt.2 hhi]
  change execPwrCapSet m s = _
  simp only [execPwrCapSet, onMail_of_accepted h, reserved_of_accepted h, hgood, Bool.or_false, Bool.false_eq_true, if_false]
  rfl

theorem exec_pwrCapSet_of_bad (h : Accepted s m 0x30) (hpos : arg m 8 4 ≠ 0) (hcap : arg m 8 4 < 15000 ∨ 130000 < arg m 8 4) :
    exec (.pwrCapSet m) s = .next (complete s m .badArgument 0) := by
  have hbad : (arg m 8 4 != 0 && (decide (arg m 8 4 < 15000) || decide (130000 < arg m 8 4))) = true := by simpa [hpos] using hcap
  change execPwrCapSet m s = _
  simp only [execPwrCapSet, onMail_of_accepted h, hbad, Bool.or_true, if_true]

theorem limitCheck_hostCap (s : State) : (limitCheck s).power.hostCap = s.power.hostCap := by rw [limitCheck_onlyPoints s]

theorem capInForce_limitCheck (s : State) : capInForce (limitCheck s) = capInForce s := by
  rw [capInForce, capInForce, limitCheck_hostCap, limitCheck_stewardCap]

theorem capInForce_complete (s : State) (m : MailCmd) (st : Status) (r : Nat) : capInForce (complete s m st r) = capInForce s := rfl

/-! ## A change that a limit begins (R703) -/

/-- The governor's state before a limit's request, where no stream is there: the target and the ticks from which points are allowed noted. -/
def noted (s : State) : State :=
  { noteTarget s with power := { (noteTarget s).power with
      allowedAt := vmapIdx (fun n a => if n ≤ (highestAllowed (noteTarget s)).1 then (match a with | some t => some t | none => some (now (noteTarget s))) else none)
        (noteTarget s).power.allowedAt } }

theorem noteTarget_power (s : State) : ∃ target targetAt, noteTarget s = { s with power := { s.power with target := target, targetAt := targetAt } } := by
  unfold noteTarget
  split
  · exact ⟨s.power.target, s.power.targetAt, rfl⟩
  · exact ⟨_, _, rfl⟩

theorem noted_power (s : State) : ∃ target targetAt allowedAt, noted s
    = { s with power := { s.power with target := target, targetAt := targetAt, allowedAt := allowedAt } } := by
  obtain ⟨target, targetAt, heq⟩ := noteTarget_power s
  exact ⟨target, targetAt, _, by rw [noted, heq]⟩

theorem highestAllowed_noteTarget (s : State) : highestAllowed (noteTarget s) = highestAllowed s := by
  obtain ⟨target, targetAt, heq⟩ := noteTarget_power s
  rw [heq]
  rfl

theorem highestAllowed_noted (s : State) : highestAllowed (noted s) = highestAllowed s := by
  obtain ⟨target, targetAt, allowedAt, heq⟩ := noted_power s
  rw [heq]
  rfl

theorem rampingDown_noted (s : State) : rampingDown (noted s) = rampingDown s := by
  obtain ⟨target, targetAt, allowedAt, heq⟩ := noted_power s
  rw [heq]
  rfl

/-- The point a change under way leads to, the point in force without one. -/
def headingOf (s : State) : Fin 5 :=
  match s.power.change with
  | some c => if c.phase == .deferred then s.power.opForce else c.target
  | none => s.power.opForce

/-- A limit gives BOOST up where OP4 is lost (R713). -/
def unboosted (s : State) : State :=
  if ((noteTarget s).power.allowedAt.get 4).isSome && highestAllowed (noteTarget s) != 4 then
    ((noted s).streams.filter fun st => st.active.contains .boost).foldl (fun t st => (activateNext t st.handle).1) (noted s)
  else noted s

/-- The last step of a limit's effect: a request of a lower point, where the point in force or the one headed for is above it. -/
def lowered (s : State) (h : Fin 5) : State :=
  if h.1 < max s.power.opForce.1 (headingOf s).1 && limitCheck.headsAbove s h then requestOp s (minPoint (wantedPoint s) h) .limit else s

theorem limitCheck_eq (s : State) : limitCheck s = lowered (unboosted s) (highestAllowed (noteTarget s)) := rfl

/-- Without streams no BOOST is given up. -/
theorem unboosted_of_no_streams (hstreams : s.streams = []) : unboosted s = noted s := by
  have hnoted : (noted s).streams = [] := by
    obtain ⟨target, targetAt, allowedAt, heq⟩ := noted_power s
    rw [heq]
    exact hstreams
  rw [unboosted, hnoted, List.filter_nil, List.foldl_nil, ite_self]

/-- A limit below the point in force, with no stream and no change under way, begins a change. -/
theorem limitCheck_of_above (hstreams : s.streams = []) (hchange : s.power.change = none) (habove : (highestAllowed s).1 < s.power.opForce.1) :
    limitCheck s = requestOp (noted s) (minPoint (wantedPoint (noted s)) (highestAllowed s)) .limit := by
  obtain ⟨target, targetAt, allowedAt, heq⟩ := noted_power s
  have hforce : (noted s).power.opForce = s.power.opForce := by rw [heq]
  have hnone : (noted s).power.change = none := by rw [heq]; exact hchange
  rw [limitCheck_eq, unboosted_of_no_streams hstreams, highestAllowed_noteTarget]
  simp only [lowered, headingOf, limitCheck.headsAbove, hforce, hnone, max_self, habove, decide_true, Bool.and_true, if_true]

theorem noted_opForce (s : State) : (noted s).power.opForce = s.power.opForce := by
  obtain ⟨target, targetAt, allowedAt, heq⟩ := noted_power s
  rw [heq]

theorem minPoint_le_right (a b : Fin 5) : (minPoint a b).1 ≤ b.1 := by
  unfold minPoint
  split
  · assumption
  · exact le_rfl

theorem requestOp_limit_of_none {target : Fin 5} (hchange : s.power.change = none) (hne : minPoint target (highestAllowed s) ≠ s.power.opForce) :
    requestOp s target .limit = beginChange s (minPoint target (highestAllowed s)) false := by
  simp only [requestOp, hchange, beq_eq_false_iff_ne.2 hne, waitsForGap, Bool.false_and, Bool.false_eq_true, if_false]
  rfl

/-- A change that begins: it waits for a ramp-down where one runs. -/
def begun (s : State) (target : Fin 5) (trim : Bool) : OpChange :=
  ⟨if rampingDown s then .waiting else .approach, s.power.opForce, target, now s, trim⟩

theorem limitCheck_begins (hstreams : s.streams = []) (hchange : s.power.change = none) (habove : (highestAllowed s).1 < s.power.opForce.1) :
    (limitCheck s).power.change
      = some (begun (noted s) (minPoint (minPoint (wantedPoint (noted s)) (highestAllowed s)) (highestAllowed s)) false) := by
  have hnone : (noted s).power.change = none := by
    obtain ⟨target, targetAt, allowedAt, heq⟩ := noted_power s
    rw [heq]
    exact hchange
  have hne : minPoint (minPoint (wantedPoint (noted s)) (highestAllowed s)) (highestAllowed (noted s)) ≠ (noted s).power.opForce := by
    rw [highestAllowed_noted, noted_opForce]
    intro heq
    have hle := minPoint_le_right (minPoint (wantedPoint (noted s)) (highestAllowed s)) (highestAllowed s)
    rw [heq] at hle
    omega
  rw [limitCheck_of_above hstreams hchange habove, requestOp_limit_of_none hnone hne, highestAllowed_noted]
  rfl

/-! ## OP_SET -/

/-- The state with another base point. -/
def withBase (s : State) (n : Fin 5) : State := { s with power := { s.power with opBase := n } }

theorem requestOp_host_of_same {target : Fin 5} (hchange : s.power.change = none) (heq : minPoint target (highestAllowed s) = s.power.opForce) :
    requestOp s target .host = s := by
  simp only [requestOp, hchange, heq, beq_self_eq_true]
  rfl

theorem requestOp_host_of_other {target : Fin 5} (hchange : s.power.change = none) (hne : minPoint target (highestAllowed s) ≠ s.power.opForce) :
    requestOp s target .host
      = { s with power := { s.power with change := some ⟨.deferred, s.power.opForce, minPoint target (highestAllowed s), now s, false⟩ } } := by
  simp only [requestOp, hchange, beq_eq_false_iff_ne.2 hne, waitsForGap, Bool.false_and, Bool.false_eq_true, if_false, if_true]
  rfl

/-- What OP_SET answers with (R616). -/
def opAnswer (n : Fin 5) (p : Power) : Nat :=
  put 8 1 n.1 + put 9 1 p.opForce.1 + put 10 1 (b2n (match p.change with | some c => c.phase == .deferred | none => false))

theorem exec_opSet_of_good (h : Accepted s m 0x32) {n : Fin 5} (hn : arg m 8 1 = n.1) (hle : n.1 ≤ 3) : exec (.opSet m) s
    = .next (complete (requestOp (withBase s n) (wantedPoint (withBase s n)) .host) m .ok
      (opAnswer n (requestOp (withBase s n) (wantedPoint (withBase s n)) .host).power)) := by
  have hbase : (⟨n.1 % 5, Nat.mod_lt _ (by decide)⟩ : Fin 5) = n := Fin.ext (Nat.mod_eq_of_lt n.2)
  change execOpSet m s = _
  simp only [execOpSet, onMail_of_accepted h, reserved_of_accepted h, hn, hbase, Nat.not_lt.2 hle, decide_false, Bool.or_false, Bool.false_eq_true,
    if_false]
  rfl

theorem wantedPoint_of_no_boost (h : boostActive s = false) (n : Fin 5) : wantedPoint (withBase s n) = n := by
  have hboost : boostActive (withBase s n) = false := h
  rw [wantedPoint, hboost, if_neg Bool.false_ne_true, withBase]

end

/-- Settles O17. -/
theorem powerCommandsAct : Obligations.PowerCommandsAct := by
  refine ⟨fun m s h hpos hcap => exec_pwrCapSet_of_bad h hpos hcap, ?cap, ?begins, ?opBad, ?op⟩
  case cap =>
    intro m s h hcap
    refine ⟨_, _, exec_pwrCapSet_of_good h hcap, rfl, rfl, ?_, ?_, ?_, fun a => ?_⟩
    · rw [complete_power, limitCheck_hostCap]
      simp [hostCapped]
    · rw [complete_power, limitCheck_stewardCap]
      rfl
    · rw [capInForce_complete, capInForce_limitCheck, capInForce, hostCapped]
      by_cases h0 : arg m 8 4 = 0 <;> simp [h0]
    · rw [complete_mem, limitCheck_mem]
      rfl
  case begins =>
    intro m s u h hlo hhi hstreams hchange hu habove
    have hne : (arg m 8 4 == 0) = false := by
      rw [beq_eq_false_iff_ne]
      omega
    have hcapped : hostCapped s (arg m 8 4) = u := by rw [hostCapped, hne, hu]; rfl
    have hrun := exec_pwrCapSet_of_good h (.inr ⟨hlo, hhi⟩)
    rw [hcapped] at hrun
    have hstreams' : u.streams = [] := by rw [hu]; exact hstreams
    have hchange' : u.power.change = none := by rw [hu]; exact hchange
    have hforce : u.power.opForce = s.power.opForce := by rw [hu]
    have hramp : rampingDown u = rampingDown s := by rw [hu]; rfl
    refine ⟨_, begun (noted u) (minPoint (minPoint (wantedPoint (noted u)) (highestAllowed u)) (highestAllowed u)) false, hrun, ?_, ?_, minPoint_le_right .., ?_⟩
    · rw [complete_power, limitCheck_begins hstreams' hchange' (by rw [hforce]; exact habove)]
    · rw [begun, rampingDown_noted, hramp]
    · rw [begun, noted_opForce, hforce]
  case opBad =>
    intro m s h hbad
    change execOpSet m s = _
    simp [execOpSet, onMail_of_accepted h, show 3 < arg m 8 1 from hbad]
  case op =>
    intro m s n h hn hle hboost hchange
    have hrun := exec_opSet_of_good h hn hle
    rw [wantedPoint_of_no_boost hboost] at hrun
    have hzero : put 10 1 0 = 0 := rfl
    refine ⟨fun hne => ?_, fun heq => ?_⟩
    · rw [hrun, requestOp_host_of_other (s := withBase s n) hchange hne]
      rfl
    · rw [hrun, requestOp_host_of_same (s := withBase s n) hchange heq, opAnswer]
      simp only [withBase, hchange, b2n, Bool.false_eq_true, if_false, hzero, Nat.add_zero]

end Sys2Proof.Proofs
end

section
/-! PROOFS. Messages between dies, the time tree and route sets. -/

namespace Sys2Proof.Proofs

open Sys2Proof Sys2Proof.Machine Sys2Proof.Safety Sys2Proof.Laws

set_option Elab.async false

/-! ## What messages and the time tree touch -/

/-- Only the time view, the host interface, what leaves the die, and of the fabric the ports, the credits and the requests for them may differ. -/
def OnlyTalk (s t : State) : Prop := t = { s with
  time := t.time, host := t.host, out := t.out, free := t.free
  fabric := { s.fabric with
    ports := t.fabric.ports, relayHeld := t.fabric.relayHeld, relayWait := t.fabric.relayWait, relayAsked := t.fabric.relayAsked } }

theorem OnlyTalk.refl (s : State) : OnlyTalk s s := rfl

theorem OnlyTalk.trans {s t u : State} (hst : OnlyTalk s t) (htu : OnlyTalk t u) : OnlyTalk s u := by
  rw [OnlyTalk] at *
  rw [hst] at htu
  exact htu

theorem OnlyTalk.ite {s t u : State} {c : Prop} {_ : Decidable c} (ht : OnlyTalk s t) (hu : OnlyTalk s u) : OnlyTalk s (if c then t else u) := by
  split
  · exact ht
  · exact hu

theorem OnlyTalk.foldl {α : Type} {f : State → α → State} (hf : ∀ t a, OnlyTalk t (f t a)) (l : List α) (s : State) : OnlyTalk s (l.foldl f s) :=
  List.foldlRecOn (motive := OnlyTalk s) l f (.refl s) fun t ht a _ => ht.trans (hf t a)

theorem OnlyQueues.talk {s t : State} (h : OnlyQueues s t) : OnlyTalk s t := by
  rw [OnlyQueues] at h
  rw [h]
  rfl

section
variable {s t : State} (h : OnlyTalk s t)
include h

theorem OnlyTalk.mem : t.mem = s.mem := by rw [h]
theorem OnlyTalk.streams : t.streams = s.streams := by rw [h]
theorem OnlyTalk.fw : t.fw = s.fw := by rw [h]
theorem OnlyTalk.fuses : t.fuses = s.fuses := by rw [h]
theorem OnlyTalk.outstanding : t.fabric.outstanding = s.fabric.outstanding := by rw [h]
theorem OnlyTalk.guests : t.fabric.guests = s.fabric.guests := by rw [h]
theorem OnlyTalk.lost : t.fabric.lost = s.fabric.lost := by rw [h]
theorem OnlyTalk.pins : t.fabric.pins = s.fabric.pins := by rw [h]
theorem OnlyTalk.gen : t.fabric.gen = s.fabric.gen := by rw [h]
theorem OnlyTalk.ring : t.fabric.ring = s.fabric.ring := by rw [h]

end

theorem postEvent_talk (s : State) (code payload : Nat) : OnlyTalk s (postEvent s code payload) := rfl

theorem sendMgmt_talk (s : State) (d : FabId) (k : Mgmt) : OnlyTalk s (sendMgmt s d k) := by
  have h := sendMgmt_sends s d k
  rw [Sends] at h
  rw [h]
  rfl

/-- A packet over one link waits in that link's queue. -/
theorem linkPacket_onlyQueues (s : State) (p : PortId) (k : Packet) : OnlyQueues s (linkPacket s p k) := enqueue_onlyQueues ..

theorem sendLink_talk (s : State) (p : PortId) (k : Mgmt) : OnlyTalk s (sendLink s p k) := by
  have h := linkPacket_onlyQueues (mgmtPacket s (s.fabric.ports.get p).peer k).2 p (mgmtPacket s (s.fabric.ports.get p).peer k).1
  have hfab : (linkPacket (mgmtPacket s (s.fabric.ports.get p).peer k).2 p (mgmtPacket s (s.fabric.ports.get p).peer k).1).fabric
      = { s.fabric with
          ports := (sendLink s p k).fabric.ports, relayHeld := (sendLink s p k).fabric.relayHeld, relayWait := (sendLink s p k).fabric.relayWait } := by
    rw [h]
    rfl
  have hasked : (sendLink s p k).fabric.relayAsked = s.fabric.relayAsked := by
    have h := congrArg Fabric.relayAsked hfab
    exact h
  rw [OnlyTalk, hasked]
  exact congrArg (fun f => { s with
    fabric := f, free := (mgmtPacket s (s.fabric.ports.get p).peer k).2.free, out := s.out ++ [Out.mgmt (s.fabric.ports.get p).peer k] }) hfab

theorem sendNeighbours_talk (s : State) (k : Mgmt) : OnlyTalk s (sendNeighbours s k) := .foldl (fun t p => sendLink_talk t p k) _ _

theorem askCredits_talk (s : State) (via : FabId) : OnlyTalk s (askCredits s via) := by
  refine .ite (.refl s) (.trans ?_ (sendMgmt_talk _ _ _))
  rfl

theorem resendWaiting_talk (s : State) : OnlyTalk s (resendWaiting s) := by
  refine .foldl (fun t k => .trans ?_ (sendPacket_onlyQueues _ _).talk) _ _
  rfl

theorem askRole_talk (s : State) (p : PortId) : OnlyTalk s (askRole s p) := by
  refine .ite (.refl s) (.trans ?_ (sendLink_talk _ _ _))
  rfl

theorem enterTime_talk (s : State) (x : TimeState) : OnlyTalk s (enterTime s x) := .ite rfl rfl

theorem takeLeader_talk (s : State) (p : PortId) (tell : Bool) : OnlyTalk s (takeLeader s p tell) := .ite rfl rfl

/-- The time tree with its root and the hops to it known. -/
def rooted (s : State) : State := { s with time := { s.time with rootId := rootOf s, hops := (hopsTo (timeView s) (rootOf s)).getD 0 } }

/-- A change of the root posted, where the census is closed. -/
def rootTold (s : State) : State :=
  if isRoot s != (rootOf s == s.fabric.id) && s.fw.censusClosed then
    postEvent (rooted s) 0x33 (put 16 1 1 + put 18 1 (b2n (rootOf s == s.fabric.id)) + put 20 2 (rootOf s).toNat)
  else rooted s

/-- The root has no leader; another die has the one its way to the root begins with. -/
def leadered (is : Bool) (s : State) : State :=
  if is then
    (if linked s then { s with time := { s.time with leader := none, exchOut := none, state := if s.time.state == .holdover then .aligned else s.time.state } }
     else loseLeader s)
  else match leaderHop s with
    | none => loseLeader s
    | some p =>
      if s.time.leader == some p then s
      else if (s.fabric.ports.get p).leads then { s with time := { s.time with leader := none, exchOut := none } }
      else takeLeader s p (s.fw.censusClosed && timeBase s != .unaligned)

/-- The time tree formed again, before roles are asked for. -/
def retimed (s : State) : State :=
  leadered (rootOf s == s.fabric.id)
    (if timeBase (rootTold s) == .standalone && linked (rootTold s) then enterTime (rootTold s) .aligned else rootTold s)

theorem retime_eq (s : State) : retime s = (shapePorts (retimed s)).foldl askRole (retimed s) := by
  unfold retime retimed leadered rootTold rooted
  rfl

theorem leadered_talk (is : Bool) (s : State) : OnlyTalk s (leadered is s) := by
  unfold leadered
  split
  · exact .ite rfl rfl
  · split
    · rfl
    · exact .ite (.refl s) (.ite rfl (takeLeader_talk ..))

theorem retime_talk (s : State) : OnlyTalk s (retime s) := by
  have htold : OnlyTalk s (rootTold s) := .ite rfl rfl
  have hretimed : OnlyTalk s (retimed s) := (htold.trans (.ite (enterTime_talk ..) (.refl _))).trans (leadered_talk ..)
  rw [retime_eq]
  exact hretimed.trans (.foldl askRole_talk _ _)

/-! ## Route sets (R399) -/

/-- The state with a route set of the tables the view gives, under the next GEN. -/
def routed (s : State) : State :=
  { s with
    fabric := { s.fabric with ring := (routesOf s.fabric).1, relay := (routesOf s.fabric).2, routeLost := s.fabric.lost, gen := s.fabric.gen + 1 }
    fw := { s.fw with routeInstalled := true } }

/-- The route set told to the host and to the neighbours, and what waits sent again. -/
def routeTold (s : State) (cause : Nat) : State :=
  resendWaiting (((routesOf s.fabric).2.map (·.2)).eraseDups.foldl askCredits (sendNeighbours (postEvent (routed s) 0x32
    (put 16 4 (routed s).fabric.gen.toNat + put 20 2 s.fabric.lost.length + put 22 2 s.fabric.downLinks.length
      + put 24 2 (routed s).fabric.relay.length + put 26 1 cause)) (.genNotice (routed s).fabric.gen)))

theorem routeTold_talk (s : State) (cause : Nat) : OnlyTalk (routed s) (routeTold s cause) :=
  (((postEvent_talk ..).trans (sendNeighbours_talk ..)).trans (.foldl askCredits_talk _ _)).trans (resendWaiting_talk _)

/-- Where nothing is lent and nothing under way, a route set takes nothing back and ends no request. -/
theorem installRoutes_of_idle {s : State} {cause : Nat} (hlent : s.mem.lent = []) (hmoves : s.mem.moves = []) (hout : s.fabric.outstanding = []) :
    installRoutes s cause = retime (dropLostGuests (routeTold s cause)) := by
  have htalk := routeTold_talk s cause
  have hlent' : (routeTold s cause).mem.lent = [] := by rw [htalk.mem]; exact hlent
  have hmoves' : (routeTold s cause).mem.moves = [] := by rw [htalk.mem]; exact hmoves
  have hout' : (routeTold s cause).fabric.outstanding = [] := by rw [htalk.outstanding]; exact hout
  change (let s4 := routeTold s cause
    let gone := (s4.mem.lent.filter fun l => s.fabric.lost.contains l.borrower)
    let s5 := gone.foldl (fun x l => takeBack x l.borrower l.base) s4
    let s6 := if gone.isEmpty then s5 else retryAll s5
    let out := ((s6.mem.moves.flatMap fun m => [gid m.src, gid m.dst]) ++ s6.fabric.outstanding.map (·.dest)).eraseDups.filter fun d => !reachable s6 d
    retime (dropLostGuests (out.foldl endRequestsTo s6))) = _
  simp only [hlent', List.filter_nil, List.foldl_nil, List.isEmpty_nil, if_true, hmoves', hout', List.flatMap_nil, List.map_nil, List.append_nil,
    List.eraseDups_nil]

/-- Without work of a lost die's streams nothing is dropped. -/
theorem dropLostGuests_of_none {s : State} (h : ∀ g ∈ s.fabric.guests, s.fabric.lost.contains g.home = false) : dropLostGuests s = s := by
  have hnone : (s.fabric.guests.filter fun g => s.fabric.lost.contains g.home) = [] :=
    List.filter_eq_nil_iff.2 fun g hg => by rw [h g hg]; exact Bool.false_ne_true
  rw [dropLostGuests, hnone, List.foldl_nil]

theorem installRoutes_talk {s : State} {cause : Nat} (hlent : s.mem.lent = []) (hmoves : s.mem.moves = []) (hout : s.fabric.outstanding = [])
    (hguests : ∀ g ∈ s.fabric.guests, s.fabric.lost.contains g.home = false) : OnlyTalk (routed s) (installRoutes s cause) := by
  have htalk := routeTold_talk s cause
  have hguests' : ∀ g ∈ (routeTold s cause).fabric.guests, (routeTold s cause).fabric.lost.contains g.home = false := by
    rw [htalk.guests, htalk.lost]
    exact hguests
  rw [installRoutes_of_idle hlent hmoves hout, dropLostGuests_of_none hguests']
  exact htalk.trans (retime_talk _)

/-! ## FAB_ROUTE_SET and FAB_ISOLATE -/

section
variable {s : State} {m : MailCmd}

theorem exec_fabRouteSet_of_bad (h : Accepted s m 0x41) (hfabric : hasFabric s.fuses.variant = true)
    (hbad : badPin m = true ∨ pinsAfter s.fabric m = none) : exec (.fabRouteSet m) s = .next (complete s m .badArgument 0) := by
  change execFabRouteSet m s = _
  rw [execFabRouteSet, onMail_of_accepted h]
  rcases hbad with hb | hb <;> simp [hb, hfabric]

theorem exec_fabRouteSet_of_good (h : Accepted s m 0x41) (hfabric : hasFabric s.fuses.variant = true) {pins : List Pin}
    (hpins : pinsAfter s.fabric m = some pins) (hgood : badPin m = false) (hroom : s.fabric.relay.length < 256) : exec (.fabRouteSet m) s
      = .next (complete (installRoutes { s with fabric := { s.fabric with pins := pins } } 3) m .ok
        (put 8 4 (installRoutes { s with fabric := { s.fabric with pins := pins } } 3).fabric.gen.toNat)) := by
  have hfew : (s.fabric.relay.filter fun r => r.1 != BitVec.ofNat 16 (arg m 12 2)).length < 256 := (List.length_filter_le ..).trans_lt hroom
  change execFabRouteSet m s = _
  rw [execFabRouteSet, onMail_of_accepted h]
  simp [hpins, hgood, hfabric, reserved_of_accepted h, Nat.not_le.2 hfew]

theorem exec_fabIsolate_of_unconfirmed (h : Accepted s m 0x42) (hconfirm : arg m 8 1 ≠ 0x5A) :
    exec (.fabIsolate m) s = .next (complete s m .badArgument 0) := by
  change execFabIsolate m s = _
  rw [execFabIsolate, onMail_of_accepted h]
  simp [hconfirm]

theorem exec_fabIsolate_of_isolated (h : Accepted s m 0x42) (hconfirm : arg m 8 1 = 0x5A) (hfabric : hasFabric s.fuses.variant = true) {t : Tick}
    (hisolated : s.fabric.isolatedAt = some t) : exec (.fabIsolate m) s = .next (complete s m .ok (put 16 8 t)) := by
  change execFabIsolate m s = _
  rw [execFabIsolate, onMail_of_accepted h]
  simp [hconfirm, hfabric, reserved_of_accepted h, hisolated]

theorem exec_fabIsolate_of_connected (h : Accepted s m 0x42) (hconfirm : arg m 8 1 = 0x5A) (hfabric : hasFabric s.fuses.variant = true)
    (hisolated : s.fabric.isolatedAt = none) (hisolating : s.fabric.isolating = none) :
    exec (.fabIsolate m) s = .next (startIsolate (hold s m) [m]) := by
  change execFabIsolate m s = _
  rw [execFabIsolate, onMail_of_accepted h]
  simp [hconfirm, hfabric, reserved_of_accepted h, hisolated, hisolating]

/-- A die with nothing lent or borrowed has nothing to recall or to serve as it starts to leave the fabric. -/
theorem startIsolate_of_no_loans (hlent : s.mem.lent = []) (hloans : s.mem.loans = []) (cmds : List MailCmd) :
    (startIsolate s cmds).fabric = { s.fabric with isolating := some (now s, cmds), recalledN := 0, returnedN := 0 }
    ∧ (startIsolate s cmds).host = s.host := by
  simp only [startIsolate, sendRecalls, markDue, hlent, hloans, List.map_nil, List.foldl_nil, List.filter_nil, modMem_mem]
  exact ⟨rfl, rfl⟩

end

/-- Settles O18. -/
theorem fabricCommandsAct : Obligations.FabricCommandsAct := by
  refine ⟨fun m s h hfabric hbad => exec_fabRouteSet_of_bad h hfabric hbad, ?route, fun m s h hconfirm => exec_fabIsolate_of_unconfirmed h hconfirm,
    fun m s t h hconfirm hfabric hisolated => exec_fabIsolate_of_isolated h hconfirm hfabric hisolated, ?isolate⟩
  case route =>
    intro m s pins h hfabric hpins hgood hguests hroom hlent hmoves hout
    have htalk := installRoutes_talk (s := { s with fabric := { s.fabric with pins := pins } }) (cause := 3) hlent hmoves hout hguests
    have hrun := exec_fabRouteSet_of_good h hfabric hpins hgood hroom
    generalize installRoutes { s with fabric := { s.fabric with pins := pins } } 3 = u at htalk hrun
    have hgen : u.fabric.gen = s.fabric.gen + 1 := htalk.gen
    rw [hgen] at hrun
    refine ⟨_, u, hrun, rfl, htalk.pins, hgen, ?_, htalk.ring, htalk.streams, htalk.mem⟩
    rw [complete_fw, htalk.fw, routed]
  case isolate =>
    intro m s h hconfirm hfabric hisolated hisolating hlent hloans
    obtain ⟨hfab, hhost⟩ := startIsolate_of_no_loans (s := hold s m) hlent hloans [m]
    refine ⟨_, exec_fabIsolate_of_connected h hconfirm hfabric hisolated hisolating, ?_⟩
    rw [hfab, hhost]
    exact ⟨rfl, rfl, List.mem_append.2 (.inr (List.mem_singleton.2 rfl))⟩

end Sys2Proof.Proofs
end

section
/-! PROOFS. What the fault of an engine leaves as it was. -/

namespace Sys2Proof.Proofs

open Sys2Proof Sys2Proof.Machine Sys2Proof.Safety Sys2Proof.Laws

set_option Elab.async false

/-- Moves queued, issued and ended and frames ended leave the governor, the bytes, the record and the engines' lives alone. -/
structure Undisturbed (s₀ s : State) : Prop where
  power : s.power = s₀.power
  cells : s.mem.cells = s₀.mem.cells
  island : s.island = s₀.island
  life : ∀ e, (s.engines.get e).life = (s₀.engines.get e).life
  partner : ∀ e, (s.engines.get e).partner = (s₀.engines.get e).partner

section
variable {s₀ s : State}

theorem Undisturbed.refl (s : State) : Undisturbed s s := ⟨rfl, rfl, rfl, fun _ => rfl, fun _ => rfl⟩

theorem Undisturbed.trans {t : State} (hs : Undisturbed s₀ s) (ht : Undisturbed s t) : Undisturbed s₀ t :=
  ⟨ht.power.trans hs.power, ht.cells.trans hs.cells, ht.island.trans hs.island, fun e => (ht.life e).trans (hs.life e),
    fun e => (ht.partner e).trans (hs.partner e)⟩

theorem Undisturbed.ite {t : State} {c : Prop} {_ : Decidable c} (hs : Undisturbed s₀ s) (ht : Undisturbed s₀ t) :
    Undisturbed s₀ (if c then s else t) := by
  split
  · exact hs
  · exact ht

theorem Undisturbed.foldl {α : Type} {f : State → α → State} (hs : Undisturbed s₀ s) (hf : ∀ t a, Undisturbed t (f t a)) (l : List α) :
    Undisturbed s₀ (l.foldl f s) :=
  List.foldlRecOn (motive := Undisturbed s₀) l f hs fun t ht a _ => ht.trans (hf t a)

theorem OnlyQueues.undisturbed {t : State} (h : OnlyQueues s t) : Undisturbed s t := by
  rw [OnlyQueues] at h
  rw [h]
  exact ⟨rfl, rfl, rfl, fun _ => rfl, fun _ => rfl⟩

theorem postEvent_undisturbed (s : State) (code payload : Nat) : Undisturbed s (postEvent s code payload) := ⟨rfl, rfl, rfl, fun _ => rfl, fun _ => rfl⟩

theorem logDie_undisturbed (s : State) (code unit sev data : Nat) : Undisturbed s (logDie s code unit sev data) :=
  ⟨rfl, rfl, rfl, fun _ => rfl, fun _ => rfl⟩

theorem clearStream_undisturbed (s : State) (h : Nat) : Undisturbed s (clearStream s h) :=
  ⟨rfl, rfl, rfl, fun e => by simp [clearStream, modEngines], fun e => by simp [clearStream, modEngines]⟩

theorem putMove_undisturbed (s : State) (m : Move) : Undisturbed s (putMove s m) := ⟨rfl, rfl, rfl, fun _ => rfl, fun _ => rfl⟩

theorem refetch_undisturbed (s : State) (h : Nat) (items : List (Nat × Nat)) : Undisturbed s (refetch s h items) := by
  refine (Undisturbed.refl s).foldl (fun t x => ?_) _
  split
  · exact putMove_undisturbed ..
  · exact .refl t

/-- The frame of a stream marked as ended by a fault, and its engines cleared. -/
theorem faultFrame_undisturbed (s : State) (h : Nat) (f : Frame → Frame) : Undisturbed s (clearStream (modFrame s h f) h) :=
  .trans (s := modFrame s h f) ⟨rfl, rfl, rfl, fun _ => rfl, fun _ => rfl⟩ (clearStream_undisturbed _ h)

theorem staging_undisturbed (s : State) (moves : List Move) (staged : List Staged) :
    Undisturbed s { s with mem := { s.mem with moves := moves, staged := staged } } := ⟨rfl, rfl, rfl, fun _ => rfl, fun _ => rfl⟩

theorem dropOutstanding_undisturbed (s : State) (move : Nat) : Undisturbed s (dropOutstanding s move) := ⟨rfl, rfl, rfl, fun _ => rfl, fun _ => rfl⟩

theorem endFrame_undisturbed (s : State) (h : Nat) (st : Status) (tier kind : Nat) (info : W64) : Undisturbed s (endFrame s h st tier kind info) := by
  unfold endFrame
  split
  · simp only
    exact .ite (.refl s) (.trans (.foldl ((faultFrame_undisturbed s h _).trans (staging_undisturbed ..))
      (fun t _ => dropOutstanding_undisturbed t _) _) (refetch_undisturbed ..))
  · exact .refl s

theorem endOnMove_undisturbed (s : State) (h : Nat) (m : Move) (st : Status) (tier : Nat) : Undisturbed s (endOnMove s h m st tier) := by
  unfold endOnMove
  split
  · exact .refl s
  · exact .ite (.refl s) ((endFrame_undisturbed ..).trans (logDie_undisturbed ..))

theorem readRemote_undisturbed (s : State) (move addr len : Nat) : Undisturbed s (readRemote s move addr len) := by
  refine .trans ?_ (askPackets_onlyQueues _ _ _ _ _ _ _).undisturbed
  exact ⟨rfl, rfl, rfl, fun _ => rfl, fun _ => rfl⟩

theorem startRead_undisturbed (s : State) (h : Nat) (m : Move) : Undisturbed s (startRead s h m) :=
  .ite (.ite (.refl s) (endOnMove_undisturbed ..)) (.ite (.ite (readRemote_undisturbed ..) (endOnMove_undisturbed ..)) (.refl s))

theorem issueMove_undisturbed (s : State) (h : Nat) (m : Move) : Undisturbed s (issueMove s h m) := by
  refine .trans ?_ (startRead_undisturbed _ _ _)
  exact ⟨rfl, rfl, rfl, fun _ => rfl, fun _ => rfl⟩

theorem queueMove_undisturbed (s : State) (it : Itin) (h : Nat) (m : Move) (may : Bool) : Undisturbed s (queueMove s it h m may) :=
  .ite ((putMove_undisturbed s m).trans (issueMove_undisturbed _ h m)) (putMove_undisturbed s m)

theorem moveToT0_undisturbed (s : State) (st : Stream) (it : Itin) (layer item lastUse : Nat) (pin : Bool) (e : EngineId) :
    Undisturbed s (moveToT0 s st it layer item lastUse pin e) :=
  .trans (.ite (.refl s) (queueMove_undisturbed ..)) (queueMove_undisturbed ..)

theorem restage_undisturbed (s : State) (e : EngineId) (h : Nat) (old : List EngineId) : Undisturbed s (restage s e h old) := by
  unfold restage
  split
  · split
    · exact .refl s
    · exact .ite (.refl s) (.ite (staging_undisturbed ..) (.foldl (staging_undisturbed ..) (fun _ _ => moveToT0_undisturbed ..) _))
  · exact .refl s

theorem restageAll_undisturbed (before s : State) (e : EngineId) : Undisturbed s (restageAll before s e) :=
  (Undisturbed.refl s).foldl (fun _ _ => restage_undisturbed ..) _

theorem moveMapping_undisturbed (s : State) (e : EngineId) : Undisturbed s (moveMapping s e) := ⟨rfl, rfl, rfl, fun _ => rfl, fun _ => rfl⟩

theorem applyRetest_undisturbed (s : State) (e : EngineId) (kept : List (Nat × List EngineId)) (demoted : List Nat) :
    Undisturbed s (applyRetest s e kept demoted) := ⟨rfl, rfl, rfl, fun _ => rfl, fun _ => rfl⟩

theorem capacityReduced_undisturbed (s : State) (e : EngineId) (demoted : List Nat) : Undisturbed s (capacityReduced s e demoted) :=
  (Undisturbed.refl s).foldl (fun _ _ => postEvent_undisturbed ..) _

theorem endAllInternal_undisturbed (s : State) : Undisturbed s (endAllInternal s) :=
  .ite (.refl s) ((Undisturbed.refl s).foldl (fun _ _ => endFrame_undisturbed ..) _)

/-! ## The fault of an engine (R756, R757) -/

/-- Whether E6 is free to take an engine's place. -/
def e6Free (s : State) (e : EngineId) : Bool := e != 6 && (s.engines.get 6).life == .laybyFree

/-- The state with an engine retired and its work in flight queued again. -/
def retiredState (s : State) (e : EngineId) : State :=
  modEngine { (inFlight (s.engines.get e)).foldl queueReplay s with
      power := { ((inFlight (s.engines.get e)).foldl queueReplay s).power with unshaped := true } } e fun en =>
    { emptied en with life := .retired, windows := [], partner := if e6Free s e then some 6 else en.partner }

/-- The fault logged, recorded and posted. -/
def faultTold (s : State) (e : EngineId) (cause : Nat) : State :=
  postEvent (faultStanding ((inFlight (s.engines.get e)).foldl (fun t x => logDie t 0x0101 e.1 2 (put 0 4 (segNumber x.2) + put 4 1 cause)) (retiredState s e))
      0x0701 e.1 (put 0 1 e.1 + put 1 1 cause + put 2 1 (if e6Free s e then 6 else 0xFF)))
    0x01 (put 16 1 e.1 + put 17 1 cause + put 18 2 (inFlight (s.engines.get e)).length + put 20 8 (now s))

/-- E6 in an engine's place. -/
def engaged (s : State) (e : EngineId) : State := modEngine s 6 fun x => { x with life := .laybyEngaged, partner := some e, selfTest := none }

theorem engineFault_eq (s : State) (e : EngineId) (cause : Nat) : engineFault s e cause
    = if (s.engines.get e).life == .retired || !hasEngine s.fuses.variant e.1 then s
      else if e6Free s e then
        postEvent (restageAll (faultTold s e cause) (moveMapping (engaged (faultTold s e cause) e) e) e) 0x02
          (put 16 1 6 + put 17 1 e.1 + put 18 2 (mappedTo (faultTold s e cause) e).length)
      else
        endAllInternal (capacityReduced (restageAll (faultTold s e cause)
          (applyRetest (faultTold s e cause) e (retest (faultTold s e cause) e).1 (retest (faultTold s e cause) e).2) e) e
            (retest (faultTold s e cause) e).2) := rfl

theorem queueReplay_engines (l : List (Nat × Seg)) (s : State) : (l.foldl queueReplay s).engines = s.engines :=
  List.foldlRecOn (motive := fun t : State => t.engines = s.engines) l queueReplay rfl fun _ ht _ _ => ht

theorem queueReplay_power (l : List (Nat × Seg)) (s : State) : (l.foldl queueReplay s).power = s.power :=
  List.foldlRecOn (motive := fun t : State => t.power = s.power) l queueReplay rfl fun _ ht _ _ => ht

theorem faultTold_engines (s : State) (e : EngineId) (cause : Nat) : (faultTold s e cause).engines = (retiredState s e).engines := by
  rw [faultTold, postEvent, postEventAt, faultStanding_only]
  exact List.foldlRecOn (motive := fun t : State => t.engines = (retiredState s e).engines) (inFlight (s.engines.get e))
    (fun t x => logDie t 0x0101 e.1 2 (put 0 4 (segNumber x.2) + put 4 1 cause)) rfl fun _ ht _ _ => ht

theorem faultTold_power (s : State) (e : EngineId) (cause : Nat) : (faultTold s e cause).power = { s.power with unshaped := true } := by
  rw [faultTold, postEvent, postEventAt, faultStanding_only]
  refine List.foldlRecOn (motive := fun t : State => t.power = { s.power with unshaped := true }) (inFlight (s.engines.get e))
    (fun t x => logDie t 0x0101 e.1 2 (put 0 4 (segNumber x.2) + put 4 1 cause)) ?_ fun _ ht _ _ => ht
  simp only [retiredState, modEngine, queueReplay_power]

theorem faultTold_get (s : State) (e d : EngineId) (cause : Nat) : (faultTold s e cause).engines.get d
    = if d = e then { emptied (s.engines.get e) with
        life := .retired, windows := [], partner := if e6Free s e then some 6 else (s.engines.get e).partner } else s.engines.get d := by
  rw [faultTold_engines, retiredState, modEngine, vget_vmod, queueReplay_engines]

/-- The fault of an engine in service with E6 free: the engine is retired, and E6 takes its place. -/
theorem engineFault_of_free {e : EngineId} (cause : Nat) (hlife : (s.engines.get e).life ≠ .retired) (hhas : hasEngine s.fuses.variant e.1 = true)
    (hne : e ≠ 6) (hfree : (s.engines.get 6).life = .laybyFree) :
    ((engineFault s e cause).engines.get e).life = .retired ∧ ((engineFault s e cause).engines.get 6).life = .laybyEngaged
      ∧ ((engineFault s e cause).engines.get 6).partner = some e := by
  have he6 : e6Free s e = true := by simp [e6Free, hne, hfree]
  have heq := engineFault_eq s e cause
  rw [beq_eq_false_iff_ne.2 hlife, hhas, he6] at heq
  simp only [Bool.not_true, Bool.or_self, Bool.false_eq_true, if_false, if_true] at heq
  have hafter : Undisturbed (engaged (faultTold s e cause) e) (engineFault s e cause) := by
    rw [heq]
    exact ((moveMapping_undisturbed _ e).trans (restageAll_undisturbed ..)).trans (postEvent_undisturbed ..)
  refine ⟨(hafter.life e).trans ?_, (hafter.life 6).trans ?_, (hafter.partner 6).trans ?_⟩
  · rw [engaged, modEngine, vget_vmod_other _ _ hne, faultTold_get, if_pos rfl]
  · rw [engaged, modEngine, vget_vmod_same]
  · rw [engaged, modEngine, vget_vmod_same]

/-- The fault of an engine retires it; without a free E6 no other engine changes its life. -/
theorem engineFault_of_taken {e : EngineId} (cause : Nat) (hlife : (s.engines.get e).life ≠ .retired) (hhas : hasEngine s.fuses.variant e.1 = true)
    (hfree : (s.engines.get 6).life ≠ .laybyFree) :
    ((engineFault s e cause).engines.get e).life = .retired ∧ (engineFault s e cause).power = { s.power with unshaped := true }
      ∧ ∀ d, d ≠ e → ((engineFault s e cause).engines.get d).life = (s.engines.get d).life := by
  have he6 : e6Free s e = false := by simp [e6Free, hfree]
  have heq := engineFault_eq s e cause
  rw [beq_eq_false_iff_ne.2 hlife, hhas, he6] at heq
  simp only [Bool.not_true, Bool.or_self, Bool.false_eq_true, if_false] at heq
  have hafter : Undisturbed (faultTold s e cause) (engineFault s e cause) := by
    rw [heq]
    exact (((applyRetest_undisturbed ..).trans (restageAll_undisturbed ..)).trans (capacityReduced_undisturbed ..)).trans (endAllInternal_undisturbed _)
  refine ⟨(hafter.life e).trans ?_, hafter.power.trans (faultTold_power ..), fun d hd => (hafter.life d).trans ?_⟩
  · rw [faultTold_get, if_pos rfl]
  · rw [faultTold_get, if_neg hd]

/-- An engine in service is retired by its fault, whether or not E6 is free. -/
theorem engineFault_retires {e : EngineId} (cause : Nat) (hlife : (s.engines.get e).life ≠ .retired) (hhas : hasEngine s.fuses.variant e.1 = true)
    (hne : e ≠ 6) : ((engineFault s e cause).engines.get e).life = .retired := by
  by_cases hfree : (s.engines.get 6).life = .laybyFree
  · obtain ⟨hretired, -, -⟩ := engineFault_of_free cause hlife hhas hne hfree
    exact hretired
  · obtain ⟨hretired, -, -⟩ := engineFault_of_taken cause hlife hhas hfree
    exact hretired

end

end Sys2Proof.Proofs
end

section
/-! PROOFS. DEV_RESET and DIAG_RUN. -/

namespace Sys2Proof.Proofs

open Sys2Proof Sys2Proof.Machine Sys2Proof.Safety Sys2Proof.Laws

set_option Elab.async false

/-! ## The completions written before a restart (R589) -/

/-- Only the host interface and what leaves the die may differ. -/
def Delivers (s t : State) : Prop := t = { s with host := t.host, out := t.out }

theorem Delivers.refl (s : State) : Delivers s s := rfl

theorem Delivers.trans {s t u : State} (hst : Delivers s t) (htu : Delivers t u) : Delivers s u := by
  rw [Delivers] at *
  rw [hst] at htu
  exact htu

theorem Delivers.ite {s t u : State} {c : Prop} {_ : Decidable c} (ht : Delivers s t) (hu : Delivers s u) : Delivers s (if c then t else u) := by
  split
  · exact ht
  · exact hu

theorem raiseIrq_delivers (s : State) (b : Nat) : Delivers s (raiseIrq s b) := by
  rw [raiseIrq_only]
  rfl

theorem countCmp_delivers (s : State) (ch : ChanId) : Delivers s (countCmp s ch) := .ite (.trans (t := modChan s ch _) rfl (raiseIrq_delivers _ _)) rfl

theorem ringWrite_delivers (s : State) (p : Post) (fromLog : Bool) : Delivers s (ringWrite s p fromLog) := by
  unfold ringWrite
  simp only
  refine .ite (.trans ?_ (raiseIrq_delivers _ _)) (.ite (.trans ?_ (countCmp_delivers _ _)) ?_)
  · rfl
  · rfl
  · rfl

theorem logPost_delivers (s : State) (p : Post) : Delivers s (logPost s p) := by
  have hevent (t : State) (r : Fin 17) (kind : Nat) : Delivers t (overflowEvent t r kind) := rfl
  have hraised (t : State) (b : Nat) (h : Delivers s t) : Delivers s (raiseIrq t b) := h.trans (raiseIrq_delivers t b)
  unfold logPost
  simp only
  refine .ite (.ite (.trans (hraised _ _ ?_) (hevent ..)) (hraised _ _ ?_)) (.ite (.trans (hraised _ _ ?_) (hevent ..)) (hraised _ _ ?_)) <;> rfl

theorem deliver_delivers (s : State) (p : Post) : Delivers s (deliver s p) := by
  refine .ite (.trans ?_ (ringWrite_delivers _ _ _)) (logPost_delivers s p)
  rfl

theorem flushOutbox_delivers (s : State) : Delivers s (flushOutbox s) :=
  List.foldlRecOn (motive := Delivers s) s.host.outbox deliver rfl fun t ht p _ => ht.trans (deliver_delivers t p)

/-! ## What a forced restart drops -/

/-- The neighbours, the identity and the bytes stay. -/
structure SameLinks (s t : State) : Prop where
  neighbours : neighbours t = neighbours s
  id : t.fabric.id = s.fabric.id
  cells : t.mem.cells = s.mem.cells
  flash : t.flash = s.flash

theorem SameLinks.refl (s : State) : SameLinks s s := ⟨rfl, rfl, rfl, rfl⟩

theorem SameLinks.trans {s t u : State} (hst : SameLinks s t) (htu : SameLinks t u) : SameLinks s u :=
  ⟨htu.neighbours.trans hst.neighbours, htu.id.trans hst.id, htu.cells.trans hst.cells, htu.flash.trans hst.flash⟩

theorem SameLinks.ite {s t u : State} {c : Prop} {_ : Decidable c} (ht : SameLinks s t) (hu : SameLinks s u) : SameLinks s (if c then t else u) := by
  split
  · exact ht
  · exact hu

/-- A change of a port that keeps its state and its peer keeps the neighbours. -/
theorem modPort_sameLinks {s : State} {p : PortId} {f : Port → Port} (hst : ∀ q, (f q).st = q.st) (hpeer : ∀ q, (f q).peer = q.peer) :
    SameLinks s (modPort s p f) := by
  have hget (q : PortId) : ((modPort s p f).fabric.ports.get q).st = (s.fabric.ports.get q).st
      ∧ ((modPort s p f).fabric.ports.get q).peer = (s.fabric.ports.get q).peer := by
    by_cases hq : q = p
    · subst hq; simp [hst, hpeer]
    · simp [vget_vmod_other _ _ hq]
  refine ⟨?_, rfl, rfl, rfl⟩
  simp only [neighbours, fun q => (hget q).1, fun q => (hget q).2]

theorem enqueue_sameLinks (s : State) (p : PortId) (vc : Fin 4) (cls : Fin 2) (k : Packet) : SameLinks s (enqueue s p vc cls k) :=
  .ite (modPort_sameLinks (fun _ => rfl) fun _ => rfl) (modPort_sameLinks (fun _ => rfl) fun _ => rfl)

theorem forward_sameLinks (s : State) (k : Packet) (came : Option (Nat × Fin 2)) : SameLinks s (forward s k came) := by
  unfold forward
  split
  · exact enqueue_sameLinks ..
  · exact .refl s

theorem sendPacket_sameLinks (s : State) (k : Packet) : SameLinks s (sendPacket s k) := by
  unfold sendPacket
  split
  · refine .ite (.trans ?_ (forward_sameLinks _ _ _)) ?_
    · exact ⟨rfl, rfl, rfl, rfl⟩
    · exact ⟨rfl, rfl, rfl, rfl⟩
  · exact forward_sameLinks ..

theorem sendMgmt_sameLinks (s : State) (d : FabId) (k : Mgmt) : SameLinks s (sendMgmt s d k) := by
  have h := sendPacket_sameLinks (mgmtPacket s d k).2 (mgmtPacket s d k).1
  exact ⟨h.neighbours, h.id, rfl, rfl⟩

theorem releaseAll_sameLinks (s : State) (o : Owner) : SameLinks s (releaseAll s o) := by
  have hloan (t : State) (r : Resv) : SameLinks t (match r.base with
      | none => t
      | some b =>
        let t1 := modMem t fun m => { m with loans := m.loans.filter fun l => !(l.lender == gid b && l.base == b) }
        if t.mem.loans.any (fun l => l.base == b) then sendMgmt t1 (gid b) (.loanReturn (glocal b)) else t1) := by
    split
    · exact .refl t
    · refine .ite (.trans ?_ (sendMgmt_sameLinks _ _ _)) ?_
      · exact ⟨rfl, rfl, rfl, rfl⟩
      · exact ⟨rfl, rfl, rfl, rfl⟩
  have hreturned : SameLinks s (returnLoans s o) :=
    List.foldlRecOn (motive := SameLinks s) _ _ (.refl s) fun t ht r _ => ht.trans (hloan t r)
  exact hreturned.trans ⟨rfl, rfl, rfl, rfl⟩

theorem dropAll_sameLinks (s : State) : SameLinks s (dropAll s) := by
  have hreleased : SameLinks s (((s.mem.reserved.map (·.owner)).eraseDups).foldl releaseAll s) :=
    List.foldlRecOn (motive := SameLinks s) _ releaseAll (.refl s) fun t ht o _ => ht.trans (releaseAll_sameLinks t o)
  exact hreleased.trans ⟨rfl, rfl, rfl, rfl⟩

/-! ## DEV_RESET -/

section
variable {s : State} {m : MailCmd}

theorem exec_devReset_of_busy (h : Accepted s m 0x03) (hscope : arg m 8 1 ≤ 1) (hforce : arg m 9 1 = 0) (hbusy : s.streams ≠ [] ∨ s.itins ≠ []) :
    exec (.devReset m) s = .next (complete s m .busy 0) := by
  have hsome : (s.streams.isEmpty && s.itins.isEmpty) = false := by
    rcases hbusy with hb | hb <;> simp [hb]
  change execDevReset m s = _
  rw [execDevReset, onMail_of_accepted h]
  simp [reserved_of_accepted h, Nat.not_lt.2 hscope, hforce, hsome]

/-- The state in which a restart begins: its completion is written, and with FORCE everything is dropped. -/
def toRestart (s : State) (m : MailCmd) : State := flushOutbox (complete (if arg m 9 1 == 1 then dropAll s else s) m .ok 0)

theorem exec_devReset_of_free (h : Accepted s m 0x03) (hscope : arg m 8 1 ≤ 1) (hfree : arg m 9 1 = 1 ∨ (s.streams = [] ∧ s.itins = []))
    (hrestart : s.fw.restart = none) (hrunning : ((toRestart s m).flash.select.get 1).next.1 = (toRestart s m).flash.islandRunning) :
    exec (.devReset m) s = .next (if arg m 8 1 == 0 then restartWarm (toRestart s m) else requestOff (modSeq (toRestart s m) fun q => { q with cold := true })) := by
  have hnot : ((!(arg m 9 1 == 1) && !(s.streams.isEmpty && s.itins.isEmpty)) || s.fw.restart.isSome) = false := by
    rcases hfree with hforce | ⟨hstreams, hitins⟩
    · simp [hforce, hrestart]
    · simp [hstreams, hitins, hrestart]
  have hsame : (((toRestart s m).flash.select.get 1).next.1 != (toRestart s m).flash.islandRunning) = false := by simp [hrunning]
  change execDevReset m s = _
  rw [execDevReset, onMail_of_accepted h]
  simp only [reserved_of_accepted h, Nat.not_lt.2 hscope, decide_false, Bool.or_self, Bool.false_eq_true, if_false, hnot]
  rw [toRestart] at hsame ⊢
  simp only [hsame, Bool.false_and, Bool.false_eq_true, if_false]

theorem toRestart_sameLinks (s : State) (m : MailCmd) : SameLinks s (toRestart s m) := by
  have hflush := flushOutbox_delivers (complete (if arg m 9 1 == 1 then dropAll s else s) m .ok 0)
  have hdropped : SameLinks s (if arg m 9 1 == 1 then dropAll s else s) := .ite (dropAll_sameLinks s) (.refl s)
  rw [Delivers] at hflush
  rw [toRestart, hflush]
  exact ⟨hdropped.neighbours, hdropped.id, hdropped.cells, hdropped.flash⟩

/-- Without neighbours a WARM restart is at once. -/
theorem restartWarm_of_alone (halone : neighbours s = []) : restartWarm s = warmRestart s := by simp [restartWarm, halone]

theorem setFw_channels (s : State) (st : FwState) : (setFw s st).host.channels = s.host.channels := by
  unfold setFw
  split
  · rfl
  · simp

theorem setFw_log (s : State) (st : FwState) : (setFw s st).host.log = s.host.log := by
  unfold setFw
  split
  · rfl
  · simp

/-- The state of a WARM restart before FW_STATE changes. -/
def warmCleared (s : State) : State :=
  { clearFirmware (resetHostIf s) with
    fw := { (clearFirmware (resetHostIf s)).fw with stage := stageLoad, fault := 0 }, seq := { (clearFirmware (resetHostIf s)).seq with state := .s5 } }

theorem warmRestart_eq (s : State) : warmRestart s
    = { setFw (warmCleared s) .loading with fw := { (setFw (warmCleared s) .loading).fw with s5At := now s } } := rfl

/-- What a WARM restart leaves. -/
theorem warmRestart_state (s : State) : (warmRestart s).fw.state = .loading ∧ (warmRestart s).seq.state = .s5 ∧ (warmRestart s).streams = []
    ∧ (warmRestart s).itins = [] ∧ (warmRestart s).mem.reserved = [] ∧ (warmRestart s).mem.cells = s.mem.cells
    ∧ (∀ ch, ((warmRestart s).host.channels.get ch).st = .disabled) ∧ (warmRestart s).host.log = [] ∧ (warmRestart s).fabric.id = s.fabric.id := by
  have hset := setFw_only (warmCleared s) .loading
  have hchannels (ch : ChanId) : ((warmCleared s).host.channels.get ch).st = .disabled := by
    simp [warmCleared, clearFirmware, freshHost]
  rw [warmRestart_eq]
  simp only [setFw_fw, setFw_mem, setFw_streams, setFw_channels, setFw_log]
  rw [hset]
  exact ⟨trivial, rfl, rfl, rfl, rfl, rfl, hchannels, rfl, rfl⟩

end

/-! ## DIAG_RUN -/

section
variable {s : State} {m : MailCmd}

theorem exec_diagRun_of_accepted (h : Accepted s m 0x60) : exec (.diagRun m) s
    = .next (match diagRefusal s (arg m 8 1) (arg m 9 1) with | some st => complete s m st 0 | none => hold s m) := by
  change execDiagRun m s = _
  rw [execDiagRun, onMail_of_accepted h]
  simp [reserved_of_accepted h] <;> rfl

/-- What a diagnostic answers with (R614). -/
def diagAnswer (pass : Bool) (detail : Byte) (corrected duration : Nat) : Nat :=
  put 8 1 (b2n pass) + put 9 1 detail.toNat + put 12 4 (satTo 32 corrected) + put 16 4 (satTo 32 duration)

theorem exec_diagRunComplete_of_harmless (hfind : s.host.running.find? (fun m => mailOpcode m == 0x60) = some m) {pass : Bool}
    (hharmless : pass = true ∨ arg m 8 1 ≠ 1) (detail : Byte) (corrected duration : Nat) :
    exec (.diagRunComplete pass detail corrected duration) s = .next (complete s m .ok (diagAnswer pass detail corrected duration)) := by
  have hno : (arg m 8 1 == 1 && !pass) = false := by
    rcases hharmless with hp | hp <;> simp [hp]
  change execDiagRunComplete pass detail corrected duration s = _
  simp only [execDiagRunComplete, hfind, hno, Bool.false_eq_true, if_false]
  split <;> rfl

theorem exec_diagRunComplete_of_failed (hfind : s.host.running.find? (fun m => mailOpcode m == 0x60) = some m) {e : EngineId}
    (htest : arg m 8 1 = 1) (hunit : arg m 9 1 = e.1) (hlife : (s.engines.get e).life = .inService) (detail : Byte) (corrected duration : Nat) :
    exec (.diagRunComplete false detail corrected duration) s
      = .next (complete (engineFault s e 5) m .ok (diagAnswer false detail corrected duration)) := by
  have hfins : (fins 7)[e.1]? = some e := by
    fin_cases e <;> rfl
  change execDiagRunComplete false detail corrected duration s = _
  simp [execDiagRunComplete, hfind, hunit, hfins, htest, failEngine, hlife, diagAnswer]

end

/-- Settles O20. -/
theorem resetAndDiagnosticCommands : Obligations.ResetAndDiagnosticCommands := by
  refine ⟨fun m s h hscope hforce hbusy => exec_devReset_of_busy h hscope hforce hbusy, ?warm, ?cold, fun m s h => exec_diagRun_of_accepted h,
    fun pass detail corrected duration s m hfind hharmless => exec_diagRunComplete_of_harmless hfind hharmless detail corrected duration, ?failed⟩
  case warm =>
    intro m s h hscope hfree hrestart halone hrunning
    have hlinks := toRestart_sameLinks s m
    have hrun := exec_devReset_of_free h (by omega) hfree hrestart (by rw [hlinks.flash]; exact hrunning)
    rw [hscope, beq_self_eq_true, if_pos rfl, restartWarm_of_alone (hlinks.neighbours.trans halone)] at hrun
    obtain ⟨hstate, hseq, hstreams, hitins, hreserved, hcells, hchannels, hlog, hid⟩ := warmRestart_state (toRestart s m)
    exact ⟨_, hrun, hstate, hseq, hstreams, hitins, hreserved, fun a => by rw [hcells, hlinks.cells], hchannels, hlog, hid.trans hlinks.id⟩
  case cold =>
    intro m s h hscope hforce hstreams hitins hrestart hstate hstep haon hrunning
    have hlinks := toRestart_sameLinks s m
    have hrun := exec_devReset_of_free h (by omega) (.inr ⟨hstreams, hitins⟩) hrestart (by rw [hlinks.flash]; exact hrunning)
    have hflush : toRestart s m = { s with host := (toRestart s m).host, out := (toRestart s m).out } := by
      have hdelivers := flushOutbox_delivers (complete s m .ok 0)
      have hwhole : toRestart s m = flushOutbox (complete s m .ok 0) := by simp [toRestart, hforce]
      rw [hwhole]
      rw [Delivers] at hdelivers
      exact hdelivers
    rw [hscope, hflush] at hrun
    have hoff := requestOff_of_s6 (s := modSeq { s with host := (toRestart s m).host, out := (toRestart s m).out } fun q => { q with cold := true })
      haon hstate hstep
    rw [hoff] at hrun
    exact ⟨_, hrun, rfl, rfl, fun _ => rfl⟩
  case failed =>
    intro detail corrected duration s m e hfind htest hunit hne hhas hlife hfree
    have hserving : (s.engines.get e).life ≠ .retired := by rw [hlife]; decide
    obtain ⟨hretired, hengaged, hpartner⟩ := engineFault_of_free 5 hserving hhas hne hfree
    exact ⟨_, exec_diagRunComplete_of_failed hfind htest hunit hlife detail corrected duration, hretired, hengaged, hpartner⟩

end Sys2Proof.Proofs
end

section
/-! PROOFS. Audio ports configured, bound and unbound. -/

namespace Sys2Proof.Proofs

open Sys2Proof Sys2Proof.Machine Sys2Proof.Safety Sys2Proof.Laws

set_option Elab.async false

section
variable {s : State} {m : MailCmd} {st : Stream}

theorem exec_audioConfig_of_bad (h : Accepted s m 0x71) (hbad : apOk (apArgs m) = false) :
    exec (.audioConfig m) s = .next (complete s m .badArgument 0) := by
  change execAudioConfig m s = _
  rw [execAudioConfig, onMail_of_accepted h]
  simp [hbad]

/-- The first frame of a master's grid (R482). -/
def configAnchor (s : State) (c : ApCfg) : Nat := if c.slave then 0 else 81920 * cdiv (now s + 1024) 81920

theorem exec_audioConfig_of_good (h : Accepted s m 0x71) {p : ApId} (hp : arg m 8 1 = p.1) (hok : apOk (apArgs m) = true) (hhere : portHere s p.1 = true)
    (hbinds : ∀ b ∈ (s.audio.get p).binds, bindKeeps s p (apArgs m) b = true ∧
      ∀ st, streamOf s b.stream = some st → st.st ≠ .running ∧ st.st ≠ .draining ∧ st.st ≠ .resuming) : exec (.audioConfig m) s
    = .next (complete (modAp s p fun a => { a with
        cfg := some (apArgs m), anchor := configAnchor s (apArgs m), clockValid := !(apArgs m).slave, corr := [] }) m .ok
        (put 8 8 (configAnchor s (apArgs m)) + put 16 1 (b2n (!(apArgs m).slave)))) := by
  have hport : (⟨p.1 % 2, Nat.mod_lt _ (by decide)⟩ : ApId) = p := Fin.ext (Nat.mod_eq_of_lt p.2)
  have hlt : ¬ 2 ≤ p.1 := by omega
  have hkeeps : (s.audio.get p).binds.all (bindKeeps s p (apArgs m)) = true := List.all_eq_true.2 fun b hb => (hbinds b hb).1
  change execAudioConfig m s = _
  rw [execAudioConfig, onMail_of_accepted h]
  simp only [reserved_of_accepted h, hp, hlt, hok, hhere, hport, hkeeps, decide_false, Bool.not_true, Bool.or_false, Bool.or_self, Bool.false_eq_true,
    if_false]
  refine congrArg Host.Outcome.next (if_neg ?_)
  rw [Bool.not_eq_true, List.any_eq_false]
  intro b hb
  obtain ⟨-, hst⟩ := hbinds b hb
  split
  · next st hof =>
    obtain ⟨hrunning, hdraining, hresuming⟩ := hst st hof
    simp [hrunning, hdraining, hresuming]
  · exact Bool.false_ne_true

/-! ## AUDIO_BIND -/

/-- The bytes of T1 the bindings of a command need (R489). -/
def bindNeed (m : MailCmd) : Need := ⟨1, none, granules (total ((bindArgs m).map bindBytes)), true, false⟩

/-- The bindings a command adds, with their granules and fill channels. -/
def newBinds (m : MailCmd) : List Bind :=
  (bindArgs m).map fun b => { b with
    granules := if b.dirOut then granules (total (((bindArgs m).filter (·.dirOut)).map bindBytes))
      else granules (total ((bindArgs m).map bindBytes)) - granules (total (((bindArgs m).filter (·.dirOut)).map bindBytes))
    fillCh := List.replicate (if b.dirOut then popcount b.outMask else 0) ⟨0, 0⟩ }

theorem of_mem_ite_singleton {α : Type} {c : Bool} {a b : α} (h : b ∈ if c then [a] else []) : b = a := by
  cases c
  · exact absurd h (List.not_mem_nil)
  · exact List.mem_singleton.1 h

/-- The bindings of a command name its stream and its block, and have no first frame yet. -/
theorem bindArgs_fields {b : Bind} (hb : b ∈ bindArgs m) : b.stream = arg m 8 2 ∧ b.block = arg m 16 2 ∧ b.j0 = none := by
  rcases List.mem_append.1 hb with hin | hout
  · rw [of_mem_ite_singleton hin]
    exact ⟨rfl, rfl, rfl⟩
  · rw [of_mem_ite_singleton hout]
    exact ⟨rfl, rfl, rfl⟩

theorem newBinds_fields (m : MailCmd) : (newBinds m).map (fun b => (b.stream, b.dirIn, b.dirOut, b.block, b.j0))
    = (bindArgs m).map (fun b => (arg m 8 2, b.dirIn, b.dirOut, arg m 16 2, none)) := by
  rw [newBinds, List.map_map]
  refine List.map_congr_left fun b hb => ?_
  obtain ⟨hstream, hblock, hj0⟩ := bindArgs_fields hb
  simp [hstream, hblock, hj0]

/-- The state with a command's bindings added to a port. -/
def boundTo (s : State) (p : ApId) (m : MailCmd) : State := modAp s p fun a => { a with binds := a.binds ++ newBinds m }

/-- The reservations of a request made those of its binding. -/
def bindOwned (s : State) (w : Owner) (p : ApId) (h : Nat) : State :=
  modMem s fun x => { x with reserved := x.reserved.map fun r => if r.owner == w then { r with owner := .bind p h } else r }

theorem exec_audioBind_of_room (h : Accepted s m 0x70) (hn : Names s m (arg m 8 2) st) (hst : st.st = .opened) (hbind : bit (arg m 11 1) 7 = false)
    (hrange : bindRangeBad m = false) {p : ApId} (hp : arg m 10 1 = p.1) (hhere : portHere s p.1 = true) {c : ApCfg}
    (hcfg : (s.audio.get p).cfg = some c) {it : Itin} (hit : itinOf s st.itin = some it) (hfits : (bindArgs m).all (bindFits c st it) = true)
    (hslots : arg m 12 2 % 65536 ||| arg m 14 2 < 2 ^ c.slots) (hfree : ∀ d, bindOf s (arg m 8 2) d = none)
    (hquota : needsOverQuota s (mailTenant s m) [bindNeed m] 0 = false) (hrecalls : withRecalls s s.mem.reqNext [bindNeed m] = true)
    (hbusy : bindBusy (s.audio.get p) (arg m 8 2) (bindArgs m) = false) (hwait : waitOf s m = none) {s1 : State}
    (htake : takeAll (addWaiting s (some m) 0 0xFFFF none [bindNeed m]).1 (.wait s.mem.reqNext) (mailTenant s m) [bindNeed m] = some s1) :
    ∃ r, exec (.audioBind m) s
      = .next (complete (boundTo (bindOwned (dropWaiting s1 s.mem.reqNext) (.wait s.mem.reqNext) p st.handle) p m) m .ok r) := by
  have hport : (⟨p.1 % 2, Nat.mod_lt _ (by decide)⟩ : ApId) = p := Fin.ext (Nat.mod_eq_of_lt p.2)
  obtain ⟨-, hhandle⟩ := handle_of_names hn
  have hnone : ((bindArgs m).any fun b => (bindOf s (arg m 8 2) b.dirIn).isSome) = false := by simp [hfree]
  have hheld : heldLoans s m = 0 := by simp [heldLoans, hwait]
  have hreq : reqFor s m = s.mem.reqNext := by simp [reqFor, hwait]
  have hmasks : ¬ 2 ^ c.slots ≤ (BitVec.ofNat 16 (arg m 12 2)).toNat ||| arg m 14 2 := by
    rw [BitVec.toNat_ofNat]
    exact Nat.not_le.2 hslots
  change ∃ r, execAudioBind m s = _
  rw [execAudioBind, onMail_of_accepted h, onStream_of_names hn]
  have hall : ((bindArgs m).all fun _ => true) = true := by simp
  have hacquire := acquire_of_taken hwait hquota hrecalls rfl htake
  rw [bindNeed] at hquota hrecalls
  simp only [hst, hbind, bindStream, hrange, hp, hhere, hport, hcfg, hit, hfits, hmasks, hhandle, hnone, hbusy, hreq, hquota, hrecalls]
  simp only [hfree, hall, bne_self_eq_false, Bool.false_eq_true, if_false, Bool.not_true, decide_false, Bool.or_self]
  refine ⟨_, congrArg Host.Outcome.next (hacquire _)⟩

theorem exec_audioBind_of_unbind (h : Accepted s m 0x70) (hn : Names s m (arg m 8 2) st) (hst : st.st = .opened) {p : ApId} {b : Bind} {d : Bool}
    (hdir : (arg m 11 1 = 0x81 ∧ d = true) ∨ (arg m 11 1 = 0x82 ∧ d = false)) (hport : arg m 10 1 = 0) (hrest : arg m 12 10 = 0)
    (hbound : bindOf s (arg m 8 2) d = some (p, b)) : exec (.audioBind m) s
      = .next (complete (modAp (shrink s (.bind p (arg m 8 2)) b.granules) p fun a =>
          { a with binds := a.binds.filter fun x => !(x.stream == arg m 8 2 && x.dirIn == b.dirIn) }) m .ok 0) := by
  obtain ⟨-, hhandle⟩ := handle_of_names hn
  have hdirs : ((if bit (arg m 11 1) 0 then [true] else []) ++ if bit (arg m 11 1) 1 then [false] else []) = [d] := by
    rcases hdir with ⟨harg, rfl⟩ | ⟨harg, rfl⟩ <;> rw [harg] <;> rfl
  have hunbind : bit (arg m 11 1) 7 = true := by
    rcases hdir with ⟨harg, -⟩ | ⟨harg, -⟩ <;> rw [harg] <;> rfl
  change execAudioBind m s = _
  rw [execAudioBind, onMail_of_accepted h, onStream_of_names hn]
  simp [hst, hunbind, reserved_of_accepted h, unbind, hdirs, hhandle, hport, hrest, hbound]

end

/-- Settles O21. -/
theorem audioConfigAndBind : Obligations.AudioConfigAndBind := by
  refine ⟨fun m s h hbad => exec_audioConfig_of_bad h hbad, ?config, ?bind, ?unbind⟩
  case config =>
    intro m s p h hp hok hhere hbinds
    exact ⟨_, rfl, exec_audioConfig_of_good h hp hok hhere hbinds⟩
  case bind =>
    intro m s s1 st p c it h hn hst hbind hrange hp hhere hcfg hit hfits hslots hfree hquota hrecalls hbusy hwait htake
    obtain ⟨r, hrun⟩ := exec_audioBind_of_room h hn hst hbind hrange hp hhere hcfg hit hfits hslots hfree hquota hrecalls hbusy hwait htake
    obtain ⟨l, -, hserved⟩ := dropWaiting_of_taken htake
    rw [hserved] at hrun
    refine ⟨_, newBinds m, hrun, ?_, rfl, fun q hq => ?_, newBinds_fields m⟩
    · simp [boundTo, bindOwned, served]
    · simp [boundTo, bindOwned, served, vget_vmod_other _ _ hq]
  case unbind =>
    intro m s st p b d h hn hst hdir hport hrest hbound
    refine ⟨_, exec_audioBind_of_unbind h hn hst hdir hport hrest hbound, ?_, rfl⟩
    simp [shrink]

end Sys2Proof.Proofs
end

section
/-! PROOFS. The tick of the reference and the time tree. -/

namespace Sys2Proof.Proofs

open Sys2Proof Sys2Proof.Machine Sys2Proof.Safety Sys2Proof.Laws

set_option Elab.async false

/-! ## The tick (R63 to R69) -/

section
variable {s : State}

theorem mscAdd_one (a : Nat) : mscAdd a 1 = (a + 1) % 2 ^ 64 := by
  have h : ((((a : Nat) : Int) + 1) % (2 ^ 64 : Int)).toNat = (a + 1) % 2 ^ 64 := by omega
  exact h

theorem mscAdd_zero {a : Nat} (h : a < 2 ^ 64) : mscAdd a 0 = a := by
  have h : ((((a : Nat) : Int) + 0) % (2 ^ 64 : Int)).toNat = a := by omega
  exact h

theorem mscAdd_two {a : Nat} (h : a + 2 < 2 ^ 64) : mscAdd a 2 = a + 2 := by
  have h : ((((a : Nat) : Int) + 2) % (2 ^ 64 : Int)).toNat = a + 2 := by omega
  exact h

/-- The time state after a tick that counts by `d`, outside the internal reset. -/
def ticked (s : State) (d : Int) : State :=
  { s with
    time := { s.time with
      msc := mscAdd s.time.msc d, replica := mscAdd s.time.msc d, corr := s.time.corr - (d - 1)
      lastCorr := if d == 1 then s.time.lastCorr else mscAdd s.time.msc d }
    audio := if d == 1 then s.audio else vmap (noteCorrection (mscAdd s.time.msc d) (d - 1)) s.audio }

theorem exec_mscTick_of_running (haon : s.seq.aonRst = false) (hreset : s.seq.internalReset = false) : exec .mscTick s
    = .next (if s.time.replica == s.time.msc then ticked s (tickStep s) else faultHistory (ticked s (tickStep s)) 0x0301 0xFF (put 0 8 s.time.replica)) := by
  change execMscTick s = _
  simp only [execMscTick, haon, hreset, Bool.false_eq_true, if_false]
  rfl

theorem tickStep_of_no_corr (h : s.time.corr = 0) : tickStep s = 1 := by simp [tickStep, h]

theorem tickStep_of_due (hstate : s.time.state = .aligned) (hpassed : passed s s.time.lastCorr 4096 = true) (hcorr : s.time.corr ≠ 0) :
    tickStep s = if s.time.corr > 0 then 2 else 0 := by
  simp [tickStep, corrGap, hstate, hpassed, hcorr]

/-- A tick that counts by 1 corrects nothing. -/
theorem ticked_one (s : State) : ticked s 1
    = { s with time := { s.time with msc := (s.time.msc + 1) % 2 ^ 64, replica := (s.time.msc + 1) % 2 ^ 64 } } := by
  simp [ticked, mscAdd_one]

end

/-- Settles O22. -/
theorem tickCountsMsc : Obligations.TickCountsMsc := by
  refine ⟨?low, ?plain, ?reset, ?corrected, ?differs⟩
  case low =>
    intro s haon
    change execMscTick s = _
    rw [execMscTick, if_pos haon]
  case plain =>
    intro s haon hreset hreplica hcorr
    rw [exec_mscTick_of_running haon hreset, hreplica, tickStep_of_no_corr hcorr, ticked_one]
    simp
  case reset =>
    intro s haon hreset hcorr
    change execMscTick s = _
    simp [execMscTick, haon, hreset, tickStep_of_no_corr hcorr, mscAdd_one]
  case corrected =>
    intro s haon hreset hreplica hstate hpassed hroom
    have hrun := exec_mscTick_of_running haon hreset
    rw [hreplica, beq_self_eq_true, if_pos rfl] at hrun
    refine ⟨_, hrun, rfl, rfl, fun hpos => ?_, fun hneg => ?_⟩
    · rw [tickStep_of_due hstate hpassed (by omega), if_pos hpos]
      exact ⟨mscAdd_two hroom, rfl, rfl, rfl⟩
    · rw [tickStep_of_due hstate hpassed (by omega), if_neg (by omega)]
      have hcorr : s.time.corr - (0 - 1) = s.time.corr + 1 := by omega
      exact ⟨mscAdd_zero (Nat.lt_of_le_of_lt (Nat.le_add_right _ 2) hroom), hcorr, rfl, rfl⟩
  case differs =>
    intro s haon hreset hreplica hrecord
    have hne : (s.time.replica == s.time.msc) = false := by simpa using hreplica
    have hrun := exec_mscTick_of_running haon hreset
    rw [hne, if_neg Bool.false_ne_true] at hrun
    exact ⟨_, hrun, rfl, rfl, _, faultHistory_mem (s := ticked s (tickStep s)) hrecord _ _ _, rfl, rfl, rfl⟩

/-! ## Alignment -/

section
variable {s : State}

theorem askRole_time (s : State) (p : PortId) : (askRole s p).time = s.time := by
  unfold askRole
  simp only
  split
  · rfl
  · exact sendLink_time ..

/-- Roles are asked for over the fabric alone. -/
theorem askRole_only (s : State) (p : PortId) : askRole s p = { s with fabric := (askRole s p).fabric, free := (askRole s p).free, out := (askRole s p).out } := by
  unfold askRole
  simp only
  split
  · rfl
  · rfl

theorem foldl_askRole_only (l : List PortId) (s : State) : l.foldl askRole s
    = { s with fabric := (l.foldl askRole s).fabric, free := (l.foldl askRole s).free, out := (l.foldl askRole s).out } := by
  refine List.foldlRecOn (motive := fun t : State => t = { s with fabric := t.fabric, free := t.free, out := t.out }) l askRole rfl fun t ht p _ => ?_
  rw [askRole_only, ht]

theorem retime_time (s : State) : (retime s).time = (retimed s).time := by
  rw [retime_eq, foldl_askRole_only]

theorem retime_only (s : State) : retime s = { retimed s with fabric := (retime s).fabric, free := (retime s).free, out := (retime s).out } := by
  rw [retime_eq]
  exact foldl_askRole_only ..

theorem takeLeader_time (s : State) (p : PortId) (tell : Bool) : (takeLeader s p tell).time = { s.time with
    leader := some p, nextExch := now s, exchOut := none, exchanges := if timeBase s == .unaligned then 0 else s.time.exchanges
    bestRtt := if timeBase s == .unaligned then none else s.time.bestRtt } := by
  unfold takeLeader
  cases tell <;> rfl

/-- The counters of the time state are as they were. -/
def SameClock (t u : Time) : Prop := u.msc = t.msc ∧ u.replica = t.replica ∧ (t.exchanges = 0 → u.exchanges = 0)

theorem SameClock.refl (t : Time) : SameClock t t := ⟨rfl, rfl, id⟩

theorem SameClock.trans {t u v : Time} (htu : SameClock t u) (huv : SameClock u v) : SameClock t v := by
  obtain ⟨hmsc, hreplica, hexch⟩ := htu
  obtain ⟨hmsc', hreplica', hexch'⟩ := huv
  exact ⟨hmsc'.trans hmsc, hreplica'.trans hreplica, fun h => hexch' (hexch h)⟩

theorem takeLeader_clock (s : State) (p : PortId) (tell : Bool) : SameClock s.time (takeLeader s p tell).time := by
  rw [takeLeader_time]
  exact ⟨rfl, rfl, fun h => by simp [h]⟩

/-- A leader found or lost leaves the counters of the time state. -/
theorem leadered_clock (is : Bool) (s : State) : SameClock s.time (leadered is s).time := by
  unfold leadered
  split
  · split <;> exact ⟨rfl, rfl, id⟩
  · split
    · exact ⟨rfl, rfl, id⟩
    · split
      · exact .refl _
      · split
        · exact ⟨rfl, rfl, id⟩
        · exact takeLeader_clock ..

theorem rootTold_time (s : State) : (rootTold s).time = (rooted s).time := by
  unfold rootTold
  split <;> rfl

theorem retime_clock (s : State) : SameClock s.time (retime s).time := by
  have htold : SameClock s.time (rootTold s).time := by
    rw [rootTold_time]
    exact ⟨rfl, rfl, id⟩
  have hentered : SameClock (rootTold s).time
      (if timeBase (rootTold s) == .standalone && linked (rootTold s) then enterTime (rootTold s) .aligned else rootTold s).time := by
    split
    · unfold enterTime
      split <;> exact ⟨rfl, rfl, id⟩
    · exact .refl _
  rw [retime_time]
  exact (htold.trans hentered).trans (leadered_clock ..)

/-- The root of an ALIGNED time tree with a link that holds has no leader, and tells no one of a change. -/
theorem retime_of_root (hstate : s.time.state = .aligned) (hroot : isRoot s = true) (hof : rootOf s = s.fabric.id) (hlinked : linked s = true) :
    ∃ hops, retime s = { s with
      time := { s.time with rootId := s.fabric.id, hops := hops, leader := none, exchOut := none }
      fabric := (retime s).fabric, free := (retime s).free, out := (retime s).out } := by
  have htold : rootTold s = { s with time := { s.time with rootId := s.fabric.id, hops := (hopsTo (timeView s) s.fabric.id).getD 0 } } := by
    simp [rootTold, hroot, hof, rooted]
  have hlinked' : linked (rootTold s) = true := by rw [htold]; exact hlinked
  have haligned : (rootTold s).time.state = .aligned := by rw [htold]; exact hstate
  have hbase : timeBase (rootTold s) = .aligned := by simp [timeBase, haligned]
  have hretimed : retimed s = { rootTold s with time := { (rootTold s).time with leader := none, exchOut := none } } := by
    simp [retimed, hof, hbase, leadered, hlinked', haligned]
  refine ⟨(hopsTo (timeView s) s.fabric.id).getD 0, ?_⟩
  conv_lhs => rw [retime_only, hretimed, htold]

/-- A follower keeps the leader that its way to the root begins with. -/
theorem retime_of_follower {p : PortId} (hstate : s.time.state = .aligned) (hroot : rootOf s ≠ s.fabric.id) (hhop : leaderHop s = some p)
    (hleader : s.time.leader = some p) : (retime s).time.state = .aligned ∧ (retime s).time.leader = some p := by
  have htime := rootTold_time s
  have haligned : (rootTold s).time.state = .aligned := by rw [htime]; exact hstate
  have hleader' : (rootTold s).time.leader = some p := by rw [htime]; exact hleader
  have hbase : timeBase (rootTold s) = .aligned := by simp [timeBase, haligned]
  have hhop' : leaderHop (rootTold s) = some p := by
    unfold rootTold
    split <;> exact hhop
  have hnot : (rootOf s == s.fabric.id) = false := by simpa using hroot
  have hretimed : retimed s = rootTold s := by
    simp [retimed, hnot, hbase, leadered, hhop', hleader']
  rw [retime_time, hretimed]
  exact ⟨haligned, hleader'⟩

theorem linked_of_neighbours (h : neighbours s ≠ []) : linked s = true := by
  obtain ⟨d, hd⟩ := List.exists_mem_of_ne_nil _ h
  obtain ⟨p, hp, -⟩ := List.mem_map.1 hd
  obtain ⟨hmem, hactive⟩ := List.mem_filter.1 hp
  exact List.any_eq_true.2 ⟨p, hmem, by simp [linkHolds, hactive]⟩

end

/-! ## Exchanges -/

section
variable {s : State} {p : PortId}

theorem sendLink_only (s : State) (p : PortId) (k : Mgmt) : sendLink s p k
    = { s with fabric := (sendLink s p k).fabric, free := (sendLink s p k).free, out := s.out ++ [.mgmt (s.fabric.ports.get p).peer k] } := rfl

theorem sendExchange_of_mayAsk {gap : Nat} (hask : mayAsk { s with time := { s.time with exchOut := none } } (s.fabric.ports.get p).peer = true) :
    ∃ f, sendExchange s p gap = { s with
      time := { s.time with exchOut := some (capture s f), nextExch := now s + gap }
      fabric := (sendExchange s p gap).fabric, free := (sendExchange s p gap).free
      out := s.out ++ [.mgmt (s.fabric.ports.get p).peer (.timeRequest (capture s f))] } := by
  refine ⟨(takeFree s).1, ?_⟩
  simp only [sendExchange, hask, Bool.not_true, Bool.false_eq_true, if_false]
  rfl

theorem leaderPort_leader (h : leaderPort s = some p) : s.time.leader = some p := by
  obtain ⟨hleader, -⟩ := Option.filter_eq_some_iff.1 h
  exact hleader

/-- The state with the best offset stepped over, and the exchanges started again (R79). -/
def stepped (s : State) : State :=
  { s with time := { s.time with
    msc := mscAdd s.time.msc (ticksOf64 s.time.bestOffset), replica := mscAdd s.time.msc (ticksOf64 s.time.bestOffset), state := .aligned
    exchanges := 0, bestRtt := none, exchOut := none, nextExch := mscAdd s.time.msc (ticksOf64 s.time.bestOffset) + 65536
    lastCorr := mscAdd s.time.msc (ticksOf64 s.time.bestOffset), corr := 0 } }

theorem exec_alignExchangeTimer_of_unaligned (hstate : s.time.state = .unaligned) (hstreams : s.streams = []) : exec .alignExchangeTimer s
    = .next (if isRoot s then (if (neighbours s).isEmpty then s else retime { s with time := { s.time with state := .aligned, hops := 0 } })
      else match leaderPort s with
        | none => s
        | some p =>
          if 16 ≤ s.time.exchanges then
            retime (stepped s)
          else if !reached s s.time.nextExch then s else sendExchange s p 256) := by
  change execAlignExchangeTimer s = _
  simp only [execAlignExchangeTimer, stepped, hstate, hstreams, bne_self_eq_false, List.isEmpty_nil, Bool.not_true, Bool.or_self, Bool.false_eq_true, if_false] <;> rfl

theorem notify_keeps_out (s : State) (code slot data : Nat) : notify s code slot data
    = { s with island := (notify s code slot data).island, host := (notify s code slot data).host } := by
  unfold notify
  simp only []
  split <;> split <;> rfl

end

/-- Settles O23. -/
theorem timeAlignment : Obligations.TimeAlignment := by
  refine ⟨?root, ?ask, ?step, ?discipline, ?request, ?reply, ?lost, ?back⟩
  case root =>
    intro s u hstate hstreams hroot hnear hu hof
    have hrun := exec_alignExchangeTimer_of_unaligned hstate hstreams
    have hsome : (neighbours s).isEmpty = false := by simpa using hnear
    rw [hroot, if_pos rfl, hsome, if_neg Bool.false_ne_true, ← hu] at hrun
    have hid : u.fabric.id = s.fabric.id := by rw [hu]
    have hroot' : isRoot u = true := by rw [hu]; exact hroot
    have hlinked : linked u = true := by
      rw [hu]
      exact linked_of_neighbours hnear
    obtain ⟨hops, heq⟩ := retime_of_root (s := u) (by rw [hu]) hroot' (hof.trans hid.symm) hlinked
    generalize retime u = t at hrun heq
    refine ⟨t, hrun, ?_, ?_, ?_, ?_, ?_⟩
    · rw [heq, hu]
    · rw [heq, hu]
    · rw [heq, hu]
    · rw [heq, hu]
    · rw [heq]
  case ask =>
    intro s p hstate hstreams hroot hport hfew hdue hask
    have hrun := exec_alignExchangeTimer_of_unaligned hstate hstreams
    rw [hroot, hport, hdue] at hrun
    simp only [Bool.false_eq_true, if_false, Nat.not_le.2 hfew, Bool.not_true] at hrun
    obtain ⟨f, heq⟩ := sendExchange_of_mayAsk (gap := 256) hask
    generalize sendExchange s p 256 = t at hrun heq
    refine ⟨t, f, hrun, ?_, ?_, ?_⟩
    · rw [heq]
    · rw [heq]
    · rw [heq]
  case step =>
    intro s u p hstate hstreams hroot hport hmany hu
    have hrun := exec_alignExchangeTimer_of_unaligned hstate hstreams
    rw [hroot, hport] at hrun
    simp only [Bool.false_eq_true, if_false, hmany, if_true] at hrun
    have hof : rootOf (stepped s) = rootOf u := by rw [hu]; rfl
    have hhop' : leaderHop (stepped s) = leaderHop u := by rw [hu]; rfl
    obtain ⟨hmsc, hreplica, hexch⟩ := retime_clock (stepped s)
    refine ⟨retime (stepped s), hrun, hmsc, hreplica.trans hmsc.symm, hexch rfl, fun hroot' hhop => ?_⟩
    exact retime_of_follower (s := stepped s) rfl (by rw [hof]; exact hroot') (by rw [hhop', hhop]) (leaderPort_leader hport)
  case discipline =>
    intro s p hstate hdue hport hask
    obtain ⟨f, heq⟩ := sendExchange_of_mayAsk (gap := 65536) hask
    have hrun : exec .disciplineExchangeTimer s = .next (sendExchange s p 65536) := by
      change execDisciplineExchangeTimer s = _
      simp [execDisciplineExchangeTimer, timeBase, hstate, hdue, hport]
    generalize sendExchange s p 65536 = t at hrun heq
    refine ⟨t, f, hrun, ?_, ?_, ?_⟩
    · rw [heq]
    · rw [heq]
    · rw [heq]
  case request =>
    intro p t1 frac s hactive hleads hstate
    have hanswers : (s.time.state == .aligned || (s.time.state == .refLost && s.time.before == .aligned)) = true := by
      rcases hstate with hst | ⟨hst, hbefore⟩
      · simp [hst]
      · simp [hst, hbefore]
    have hrun : exec (.timeExchange p ⟨.request t1, frac⟩) s
        = .next (sendLink (takeFree s).2 p (.timeReply t1 (capture s frac.1) (capture s (takeFree s).1))) := by
      change execTimeExchange p ⟨.request t1, frac⟩ s = _
      simp only [execTimeExchange, hactive, hleads, hanswers, bne_self_eq_false, Bool.false_eq_true, if_false, Bool.and_self, if_true]
    exact ⟨_, (takeFree s).1, hrun, rfl, rfl⟩
  case reply =>
    intro p t1 t2 t3 t4 frac off s hactive hleader hout hstate hbest ht4 hoff
    change execTimeExchange p ⟨.reply t1 t2 t3, frac⟩ s = _
    simp [execTimeExchange, hactive, hleader, hout, takeOffset, timeBase, hstate, hbest, exchangeResult, ← ht4, hoff]
  case lost =>
    intro s href haon
    have hrun : exec .refclkLost s = .next (notify { s with time := { s.time with refPresent := false, before := s.time.state, state := .refLost } } 0x01
        (slotByte s) (put 20 8 (now s))) := by
      change execRefclkLost s = _
      simp [execRefclkLost, href, haon]
    refine ⟨_, hrun, ?_, ?_⟩
    · rw [notify_keeps_out]
    · rw [notify_keeps_out]
  case back =>
    intro s href haon
    have hrun : exec .refclkReturn s = .next (notify { s with time := { s.time with refPresent := true, state := stateOnReturn s } } 0x02
        (slotByte s) (put 20 8 (now s))) := by
      change execRefclkReturn s = _
      simp [execRefclkReturn, href, haon]
    refine ⟨_, hrun, ?_, ?_, fun hbefore hroot hhop => ?_, fun hbefore => ?_⟩
    · rw [notify_keeps_out]
    · rw [notify_keeps_out]
    · rw [notify_keeps_out]
      simp [stateOnReturn, hbefore, hroot, hhop]
    · rw [notify_keeps_out]
      rcases hbefore with hb | hb <;> simp [stateOnReturn, hb]

end Sys2Proof.Proofs
end

section
/-! PROOFS. Link training. -/

namespace Sys2Proof.Proofs

open Sys2Proof Sys2Proof.Machine Sys2Proof.Safety Sys2Proof.Laws

set_option Elab.async false

section
variable {s : State} {p : PortId}

/-! ## Changes of one port -/

theorem port_modPort_same (s : State) (p : PortId) (f : Port → Port) : (modPort s p f).fabric.ports.get p = f (s.fabric.ports.get p) := vget_vmod_same ..

theorem port_modPort_other (s : State) {p q : PortId} (f : Port → Port) (hq : q ≠ p) : (modPort s p f).fabric.ports.get q = s.fabric.ports.get q :=
  vget_vmod_other _ _ hq

/-- A change of a port depends on what it makes of that port alone. -/
theorem modPort_congr {f g : Port → Port} (h : f (s.fabric.ports.get p) = g (s.fabric.ports.get p)) : modPort s p f = modPort s p g := by
  have hports : vmod s.fabric.ports p f = vmod s.fabric.ports p g := by
    unfold vmod
    rw [h]
  rw [modPort, hports, modPort]

/-! ## What messages leave of a port -/

/-- Of every port only the output queue, the count of discards and the request for a role may differ. -/
def SameTraining (s t : State) : Prop := ∀ q, t.fabric.ports.get q = { s.fabric.ports.get q with
  tx := (t.fabric.ports.get q).tx, discards := (t.fabric.ports.get q).discards, roleReq := (t.fabric.ports.get q).roleReq }

theorem SameTraining.refl (s : State) : SameTraining s s := fun _ => rfl

theorem SameTraining.trans {s t u : State} (hst : SameTraining s t) (htu : SameTraining t u) : SameTraining s u := by
  intro q
  have h := htu q
  rw [hst q] at h
  exact h

theorem SameTraining.ite {s t u : State} {c : Prop} {_ : Decidable c} (ht : SameTraining s t) (hu : SameTraining s u) :
    SameTraining s (if c then t else u) := by
  split
  · exact ht
  · exact hu

theorem SameTraining.foldl {α : Type} {f : State → α → State} (hf : ∀ t a, SameTraining t (f t a)) (l : List α) (s : State) :
    SameTraining s (l.foldl f s) :=
  List.foldlRecOn (motive := SameTraining s) l f (.refl s) fun t ht a _ => ht.trans (hf t a)

/-- A state with the same ports. -/
theorem SameTraining.of_ports {s t : State} (h : t.fabric.ports = s.fabric.ports) : SameTraining s t := fun q => by rw [h]

theorem modPort_sameTraining (s : State) (p : PortId) {f : Port → Port}
    (hf : ∀ q, f q = { q with tx := (f q).tx, discards := (f q).discards, roleReq := (f q).roleReq }) : SameTraining s (modPort s p f) := by
  intro q
  by_cases hq : q = p
  · subst hq
    rw [port_modPort_same]
    exact hf _
  · rw [port_modPort_other s f hq]

theorem enqueue_sameTraining (s : State) (p : PortId) (vc : Fin 4) (cls : Fin 2) (k : Packet) : SameTraining s (enqueue s p vc cls k) :=
  .ite (modPort_sameTraining _ _ fun _ => rfl) (modPort_sameTraining _ _ fun _ => rfl)

theorem sendLink_sameTraining (s : State) (p : PortId) (k : Mgmt) : SameTraining s (sendLink s p k) :=
  enqueue_sameTraining (mgmtPacket s (s.fabric.ports.get p).peer k).2 _ _ _ _

theorem sendNeighbours_sameTraining (s : State) (k : Mgmt) : SameTraining s (sendNeighbours s k) := .foldl (fun t p => sendLink_sameTraining t p k) _ _

theorem askRole_sameTraining (s : State) (p : PortId) : SameTraining s (askRole s p) :=
  .ite (.refl s) ((modPort_sameTraining s p fun _ => rfl).trans (sendLink_sameTraining _ _ _))

theorem tellRejoin_sameTraining (s : State) (p : PortId) : SameTraining s (tellRejoin s p) := .ite (sendLink_sameTraining _ _ _) (.refl s)

theorem leadered_ports (is : Bool) (s : State) : (leadered is s).fabric = s.fabric := by
  unfold leadered
  split
  · split <;> rfl
  · split
    · rfl
    · split
      · rfl
      · split
        · rfl
        · unfold takeLeader
          simp only
          split <;> rfl

theorem retimed_fabric (s : State) : (retimed s).fabric = s.fabric := by
  have htold : (rootTold s).fabric = s.fabric := by
    unfold rootTold
    split <;> rfl
  have hentered : (enterTime (rootTold s) .aligned).fabric = (rootTold s).fabric := by
    unfold enterTime
    split <;> rfl
  rw [retimed, leadered_ports]
  split
  · rw [hentered, htold]
  · exact htold

theorem retime_sameTraining (s : State) : SameTraining s (retime s) := by
  rw [retime_eq]
  exact (SameTraining.of_ports (congrArg Fabric.ports (retimed_fabric s))).trans (.foldl askRole_sameTraining _ _)

/-! ## A link that becomes ACTIVE (R337) -/

/-- A port ACTIVE at a width, with its delays. -/
def activated (s : State) (width tx rx flight : Nat) (q : Port) : Port :=
  { q with
    st := .active, width := width, trying := false, pauseUntil := none, consec := 0, settled := true, activeAt := now s
    txDelay := tx, rxDelay := rx, flight := flight, usable := !(q.wasDown || s.fabric.lost.contains q.peer || s.fw.rejoined), wasDown := false
    leads := if q.activeAt == 0 then decide (s.fabric.id.toNat < q.peer.toNat) else q.leads
    credits := fullCredits, toReturn := Vector.replicate 8 0, txSeq := 0, rxSeq := 0, rx := [], nakSent := false }

/-- The link told to the host, and to the neighbour where it may rejoin. -/
def linkTold (s : State) (p : PortId) (width tx rx flight : Nat) : State :=
  tellRejoin (postEvent (modPort s p (activated s width tx rx flight)) 0x31
    (put 16 1 p.1 + put 17 1 width + put 18 2 (s.fabric.ports.get p).peer.toNat + put 20 4 (elapsed s (s.fabric.ports.get p).trainAt)
      + put 24 1 (b2n (s.fabric.ports.get p).wasDown))) p

/-- What an ACTIVE link brings with it: roles asked for, and the die told of during the census. -/
def linkJoined (s₀ s : State) (p : PortId) : State :=
  if !ready s then s
  else if s.fw.censusClosed then (if provisional s then retime s else askRole s p)
  else sendNeighbours (retime (if timeBase s == .standalone && s.streams.isEmpty then unalign s else s)) (.presentNotice s₀.fabric.id s₀.fuses.variant)

theorem linkActive_of_training (hst : (s.fabric.ports.get p).st = .training) (hswap : (s.fabric.ports.get p).swapAt = none)
    (width tx rx flight : Nat) : linkActive s p width tx rx flight = linkJoined s (linkTold s p width tx rx flight) p := by
  have hagain : ((s.fabric.ports.get p).st == PortSt.retraining) = false := by rw [hst]; rfl
  have hport : modPort s p (activated s width tx rx flight) = modPort s p fun q => { q with
      st := .active, width := width, trying := false, pauseUntil := none, consec := 0, settled := true, activeAt := now s
      txDelay := tx, rxDelay := rx, flight := flight
      usable := !((s.fabric.ports.get p).wasDown || s.fabric.lost.contains (s.fabric.ports.get p).peer || s.fw.rejoined), wasDown := false
      leads := if q.activeAt == 0 then decide (s.fabric.id.toNat < q.peer.toNat) else q.leads
      credits := fullCredits, toReturn := Vector.replicate 8 0, txSeq := 0, rxSeq := 0, rx := [], nakSent := false } := modPort_congr rfl
  simp only [linkActive, hagain, Bool.false_eq_true, if_false, Bool.false_and, hswap, linkTold, hport, linkJoined]

theorem linkJoined_sameTraining (s₀ s : State) (p : PortId) : SameTraining s (linkJoined s₀ s p) := by
  have hunalign : SameTraining s (if timeBase s == .standalone && s.streams.isEmpty then unalign s else s) := by
    refine .ite (.of_ports ?_) (.refl s)
    unfold unalign enterTime
    split <;> rfl
  exact .ite (.refl s) (.ite (.ite (retime_sameTraining s) (askRole_sameTraining s p))
    ((hunalign.trans (retime_sameTraining _)).trans (sendNeighbours_sameTraining _ _)))

theorem linkActive_port (hst : (s.fabric.ports.get p).st = .training) (hswap : (s.fabric.ports.get p).swapAt = none) (width tx rx flight : Nat) :
    ∃ q : Port, (linkActive s p width tx rx flight).fabric.ports.get p = { activated s width tx rx flight (s.fabric.ports.get p) with
      tx := q.tx, discards := q.discards, roleReq := q.roleReq } := by
  have htold : SameTraining (modPort s p (activated s width tx rx flight)) (linkTold s p width tx rx flight) :=
    (SameTraining.of_ports rfl).trans (tellRejoin_sameTraining _ p)
  have hall := (htold.trans (linkJoined_sameTraining s _ p)) p
  rw [← linkActive_of_training hst hswap, port_modPort_same] at hall
  exact ⟨_, hall⟩

end

section
variable {s : State} {p : PortId}

theorem exec_linkTrainingComplete_of_ready {lanes : BitVec 4} {tx rx fl : Nat} (htrying : (s.fabric.ports.get p).trying = true)
    (hfck : (s.fabric.ports.get p).fckSeen = true) (hset : (s.fabric.ports.get p).setOk = true) (hheld : (s.fabric.ports.get p).heldAt5 = false)
    (hst : (s.fabric.ports.get p).st = .training) (htime : passed s ((s.fabric.ports.get p).trainAt) 10241 = false) :
    exec (.linkTrainingComplete p lanes tx rx fl) s
      = .next (if widthOf lanes == 0 then failAttempt s p else linkActive s p (widthOf lanes) tx rx fl) := by
  change execLinkTrainingComplete p lanes tx rx fl s = _
  simp [execLinkTrainingComplete, htrying, hfck, hset, hheld, hst, htime]

theorem widthOf_two : ∀ lanes : BitVec 4, lanes ≠ 0xF → (lanes &&& 3 = 3 ∨ lanes &&& 0xC = 0xC) → widthOf lanes = 2 := by decide

theorem widthOf_zero : ∀ lanes : BitVec 4, lanes &&& 3 ≠ 3 → lanes &&& 0xC ≠ 0xC → widthOf lanes = 0 := by decide

/-- The state with a set that fits taken: the peer and its GEN recorded, the attempt held where it is a lost peer's that does not ask to join. -/
def setTaken (s : State) (p : PortId) (t : TrainSet) (held : Bool) : State :=
  modPort { s with fabric := { s.fabric with neighbourGens := assocSet t.id t.gen s.fabric.neighbourGens } } p fun q => { q with
    peer := t.id, peerPart := t.part, setOk := !held, heldAt5 := held, trainAt := if (s.fabric.ports.get p).heldAt5 && !held then now s else q.trainAt }

theorem exec_trainingSet_of_fits {t : TrainSet} (htrying : (s.fabric.ports.get p).trying = true) (hfck : (s.fabric.ports.get p).fckSeen = true)
    (hst : (s.fabric.ports.get p).st = .training) (hdup : duplicate s p t = false) (hfits : setFits s p t = true) :
    exec (.trainingSet p t) s = .next (setTaken s p t (s.fabric.lost.contains t.id && !t.joinReady)) := by
  have hactive : ((s.fabric.ports.get p).st == .active) = false := by rw [hst]; rfl
  change execTrainingSet p t s = _
  simp only [execTrainingSet, htrying, hfck, hactive, hdup, hfits, Bool.not_true, Bool.or_self, Bool.false_eq_true, if_false, setTaken]
  exact congrArg Host.Outcome.next (modPort_congr rfl)

end

/-- Settles O24. -/
theorem linkTrainingEnds : Obligations.LinkTrainingEnds := by
  refine ⟨?start, ?seen, ?set, ?complete, ?timeout, ?retry, ?wander, ?settle⟩
  case start =>
    intro p s hmay htrying hpause hst
    have hrun : exec (.linkTrainingStart p) s = .next (emit (modPort s p fun q => { q with
        trying := true, trainAt := now s, heldAt5 := false, setOk := false, st := if q.st == .idle && q.fckSeen then .training else q.st }) (.train p)) := by
      change execLinkTrainingStart p s = _
      simp [execLinkTrainingStart, hmay, htrying, hpause, hst]
    refine ⟨_, hrun, rfl, fun q hq => port_modPort_other s _ hq, rfl, ?_, ?_, ?_⟩
    all_goals simp only [emit_fabric, port_modPort_same]
    simp [hst]
  case seen =>
    intro p s hmay hfck hst htrying
    change execPeerFckSeen p s = _
    simp only [execPeerFckSeen, hmay, hfck, hst]
    exact congrArg Host.Outcome.next (modPort_congr (by simp [hst, htrying]))
  case set =>
    intro p t s htrying hfck hst hdup
    refine ⟨fun hfits => ?_, fun hfits hlost => ?_, fun hfits hlost hjoin => ?_⟩
    · change execTrainingSet p t s = _
      simp [execTrainingSet, htrying, hfck, hst, hdup, hfits]
    · have hrun := exec_trainingSet_of_fits htrying hfck hst hdup hfits
      rw [hlost, Bool.false_and] at hrun
      refine ⟨_, hrun, rfl, fun q hq => vget_vmod_other _ _ hq, ?_, ?_, lookup_assocSet ..⟩
      · simp [setTaken]
      · simp [setTaken]
    · have hrun := exec_trainingSet_of_fits htrying hfck hst hdup hfits
      rw [hlost, hjoin] at hrun
      refine ⟨_, hrun, ?_, ?_⟩
      · simp [setTaken]
      · simp [setTaken]
  case complete =>
    intro p lanes tx rx fl s htrying hfck hset hheld hst htime hswap
    refine ⟨_, exec_linkTrainingComplete_of_ready htrying hfck hset hheld hst htime, fun hall => ?_, fun hne hpair => ?_, fun hlow hhigh => ?_⟩
    · subst hall
      obtain ⟨q, hq⟩ := linkActive_port hst hswap 4 tx rx fl
      have hwidth : widthOf 0xF = 4 := rfl
      simp only [hwidth]
      simp [hq, activated]
    · obtain ⟨q, hq⟩ := linkActive_port hst hswap 2 tx rx fl
      simp [widthOf_two lanes hne hpair, hq, activated]
    · simp [widthOf_zero lanes hlow hhigh]
  case timeout =>
    intro p s htrying hfck hheld hst htime
    have hrun : exec (.linkTrainingTimeout p) s = .next (failAttempt s p) := by
      change execLinkTrainingTimeout p s = _
      simp [execLinkTrainingTimeout, htrying, hfck, hheld, hst, htime]
    refine ⟨_, hrun, rfl, fun q hq => port_modPort_other s _ hq, ?_, ?_, fun hfew => ?_, fun hmany => ?_⟩
    all_goals simp only [failAttempt, port_modPort_same]
    · simp [hst, hfew]
    · simp [hst, hmany]
  case retry =>
    intro p s t hpause hmay htime hmis hiso
    change execLinkTrainingRetry p s = _
    simp only [execLinkTrainingRetry, hpause, hmay, htime]
    simp [hmis, hiso, emit]
  case wander =>
    intro p s hst
    have hrun : exec (.phaseWanderRetrain p) s = .next (leaveActive s p) := by
      change execPhaseWanderRetrain p s = _
      simp [execPhaseWanderRetrain, hst]
    refine ⟨_, hrun, rfl, fun q hq => port_modPort_other s _ hq, ?_, ?_, ?_, ?_⟩
    all_goals simp only [leaveActive, port_modPort_same]
  case settle =>
    intro p s hup hst htime
    change execPortSettleTimeout p s = _
    simp [execPortSettleTimeout, hup, hst, htime]

end Sys2Proof.Proofs
end

section
/-! PROOFS. Flits and packets. -/

namespace Sys2Proof.Proofs

open Sys2Proof Sys2Proof.Machine Sys2Proof.Safety Sys2Proof.Laws

set_option Elab.async false

section
variable {s : State} {p : PortId}

/-! ## FLIT_RECEIVE -/

theorem exec_flitReceive_of_active (hst : (s.fabric.ports.get p).st = .active) (f : BitVec 576) : exec (.flitReceive p f) s
    = .next (if !flitOk f then sendNak s p true
      else if bits f.toNat 20 2 == 0 then modPort s p fun q => ackCredit q f.toNat
      else if flitSeq f != (s.fabric.ports.get p).rxSeq then sendNak s p false
      else modPort s p fun q => bufferFlit { ackCredit q f.toNat with rxSeq := q.rxSeq + 1, nakSent := false } (bits f.toNat 20 2)
        ⟨bits f.toNat 22 2 % 4, Nat.mod_lt _ (by decide)⟩ ⟨bits f.toNat 24 1 % 2, Nat.mod_lt _ (by decide)⟩ (BitVec.ofNat 512 (f.toNat >>> 32))) := by
  change execFlitReceive p f s = _
  simp only [execFlitReceive, hst, bne_self_eq_false, Bool.false_eq_true, if_false]

/-- The state with a NAK of the SEQ expected sent. -/
def naked (s : State) (p : PortId) : State :=
  { modPort s p fun q => { q with nakSent := true } with out := s.out ++ [.nak p (s.fabric.ports.get p).rxSeq] }

theorem sendNak_of_due {again : Bool} (h : again = true ∨ (s.fabric.ports.get p).nakSent = false) : sendNak s p again = naked s p := by
  have hdue : ((s.fabric.ports.get p).nakSent && !again) = false := by
    rcases h with h | h <;> simp [h]
  simp [sendNak, hdue, naked, emit]

theorem bits_lt (v off len : Nat) : bits v off len < 2 ^ len := Nat.mod_lt _ (Nat.two_pow_pos len)

/-- A head flit joins the receive buffer. -/
theorem bufferFlit_head {fk : Nat} (hfk : fk ≠ 2) (q : Port) (vc : Fin 4) (cls : Fin 2) (payload : BitVec 512) : bufferFlit q fk vc cls payload
    = { q with rx := q.rx ++ [⟨vc, cls, packetOf payload, if fk = 3 then 0 else bodyFlits (packetOf payload)⟩] } := by
  simp [bufferFlit, hfk]

/-! ## LINK_OUTPUT_ARBITRATE -/

/-- A packet that may be sent is at the head of its class, and its pair has the credits for it. -/
theorem canSend_credits {q : Port} {vc : Fin 4} {cls : Fin 2} {x : Queued} (h : canSend q vc cls = some x) :
    flitCount x.pkt ≤ q.credits.get (pairOf x.vc x.cls) := by
  obtain ⟨hhead, hfits⟩ := Option.filter_eq_some_iff.1 h
  have hpair := List.find?_some hhead
  simp only [Bool.and_eq_true, beq_iff_eq] at hpair
  obtain ⟨rfl, rfl⟩ := hpair
  simp only [Bool.and_eq_true, decide_eq_true_eq] at hfits
  exact hfits.1

theorem choose_credits {q : Port} {x : Queued} (h : choose q = some x) : flitCount x.pkt ≤ q.credits.get (pairOf x.vc x.cls) := by
  unfold choose at h
  split at h
  · next y hy =>
    obtain rfl : y = x := by simpa using h
    obtain ⟨v, -, hv⟩ := List.exists_of_findSome?_eq_some hy
    split at hv
    · exact canSend_credits hv
    · simp at hv
  · obtain ⟨v, -, hv⟩ := List.exists_of_findSome?_eq_some h
    simp only at hv
    split at hv
    · next y hy =>
      obtain rfl : y = x := by simpa using hv
      exact canSend_credits hy
    · exact canSend_credits hv

/-- A flit pushed moves the SEQ on and is kept in the replay buffer. -/
structure Pushed (a b : Port × List (BitVec 576)) (n : Nat) : Prop where
  flits : ∃ fs, b.2 = a.2 ++ fs ∧ fs.length = n ∧ b.1.replay = a.1.replay ++ fs
  seq : b.1.txSeq = a.1.txSeq + BitVec.ofNat 10 n
  tx : b.1.tx = a.1.tx
  credits : b.1.credits = a.1.credits

theorem pushFlit_pushed (fk vc cls : Nat) (a : Port × List (BitVec 576)) (payload : BitVec 512) : Pushed a (pushFlit fk vc cls a payload true) 1 :=
  ⟨⟨_, rfl, rfl, rfl⟩, rfl, rfl, rfl⟩

theorem Pushed.trans {a b c : Port × List (BitVec 576)} {m n : Nat} (hab : Pushed a b m) (hbc : Pushed b c n) : Pushed a c (m + n) := by
  obtain ⟨⟨fs, hfs, hlen, hreplay⟩, hseq, htx, hcredits⟩ := hab
  obtain ⟨⟨gs, hgs, hlen', hreplay'⟩, hseq', htx', hcredits'⟩ := hbc
  refine ⟨⟨fs ++ gs, ?_, ?_, ?_⟩, ?_, htx'.trans htx, hcredits'.trans hcredits⟩
  · rw [hgs, hfs, List.append_assoc]
  · rw [List.length_append, hlen, hlen']
  · rw [hreplay', hreplay, List.append_assoc]
  · rw [hseq', hseq, BitVec.ofNat_add, BitVec.add_assoc]

theorem foldl_pushFlit_pushed (fk vc cls : Nat) (body : List (BitVec 512)) (a : Port × List (BitVec 576)) :
    Pushed a (body.foldl (fun a b => pushFlit fk vc cls a b true) a) body.length := by
  induction body generalizing a with
  | nil => exact ⟨⟨[], by simp, rfl, by simp⟩, by simp, rfl, rfl⟩
  | cons b body ih =>
    have h := (pushFlit_pushed fk vc cls a b).trans (ih (pushFlit fk vc cls a b true))
    rwa [Nat.add_comm 1] at h

/-- A packet is sent in one flit for its header and one for each body flit. -/
theorem packetFlits_pushed (q : Port) (x : Queued) (hbody : x.pkt.body.length = bodyFlits x.pkt) : Pushed (q, []) (packetFlits q x) (flitCount x.pkt) := by
  have hlen : (x.pkt.body.take (bodyFlits x.pkt)).length = bodyFlits x.pkt := by rw [List.length_take, hbody, Nat.min_self]
  have h := (pushFlit_pushed (if (x.pkt.body.take (bodyFlits x.pkt)).isEmpty then 3 else 1) x.vc.1 x.cls.1 (q, []) (headerOf x.pkt)).trans
    (foldl_pushFlit_pushed 2 x.vc.1 x.cls.1 (x.pkt.body.take (bodyFlits x.pkt)) _)
  rw [hlen] at h
  exact h

/-- The port with a packet chosen taken from its queue and from its credits. -/
def chosen (q : Port) (x : Queued) : Port :=
  { q with
    tx := dropFirst (· == x) q.tx
    credits := vmapIdx (fun i c => if i == (pairOf x.vc x.cls).1 then c - flitCount x.pkt else c) q.credits
    lastCls := vmod q.lastCls x.vc fun _ => x.cls
    passed := vmapIdx (fun i c => if i == (pairOf x.vc x.cls).1 then 0
      else if (allPairs.filter fun y => !(y.1 == x.vc && y.2 == x.cls) && (canSend q y.1 y.2).isSome).any fun y => (pairOf y.1 y.2).1 == i then
        c + flitCount x.pkt
      else 0) q.passed }

theorem exec_linkOutputArbitrate_of_chosen {x : Queued} (hst : (s.fabric.ports.get p).st = .active) (hx : choose (s.fabric.ports.get p) = some x) :
    exec (.linkOutputArbitrate p) s = .next (emit (modPort s p fun _ => (packetFlits (chosen (s.fabric.ports.get p) x) x).1)
      (.flits p (packetFlits (chosen (s.fabric.ports.get p) x) x).2)) := by
  change execLinkOutputArbitrate p s = _
  simp only [execLinkOutputArbitrate, hst, hx, bne_self_eq_false, Bool.false_eq_true, if_false, chosen]

theorem exec_linkOutputArbitrate_of_none (hst : (s.fabric.ports.get p).st = .active) (hx : choose (s.fabric.ports.get p) = none)
    (hdue : (nextReturn (s.fabric.ports.get p).toReturn).2 ≠ 0) : exec (.linkOutputArbitrate p) s
      = .next (emit (modPort s p fun _ => (pushFlit 0 0 0 (s.fabric.ports.get p, []) 0 false).1)
        (.flits p (pushFlit 0 0 0 (s.fabric.ports.get p, []) 0 false).2)) := by
  change execLinkOutputArbitrate p s = _
  simp only [execLinkOutputArbitrate, hst, hx, bne_self_eq_false, Bool.false_eq_true, if_false, beq_false_of_ne hdue]

/-! ## PACKET_FORWARD -/

theorem exec_packetForward_of_way {vc : Fin 4} {cls c : Fin 2} {x : Queued} {o : PortId} {k : Packet} (harrived : arrived s p vc cls = some x)
    (hrelay : (x.pkt.rly && x.pkt.via == s.fabric.id) = false) (hsink : (!x.pkt.rly && x.pkt.dest == s.fabric.id) = false)
    (hway : wayOf s x.pkt (some (portDim p, cls)) = some (o, k, c)) (hst : (s.fabric.ports.get o).st = .active) :
    exec (.packetForward p vc cls) s = .next (enqueue (takeRx s p x) o vc c k) := by
  change execPacketForward p vc cls s = _
  simp only [execPacketForward, harrived, hrelay, hsink, hway, hst, Bool.false_eq_true, if_false]
  rfl

end

/-- Settles O25. -/
theorem flitsAndPackets : Obligations.FlitsAndPackets := by
  refine ⟨?bad, ?control, ?head, ?nak, ?limit, ?send, ?returns, ?forward⟩
  case bad =>
    intro p f s hst hbad
    have hrun : exec (.flitReceive p f) s = .next (naked s p) := by
      rw [exec_flitReceive_of_active hst]
      by_cases hok : flitOk f = true
      · rcases hbad with hno | ⟨hnak, hkind, hseq⟩
        · rw [hok] at hno
          exact absurd hno (by decide)
        · rw [sendNak_of_due (again := false) (.inr hnak)]
          simp [hok, hkind, hseq]
      · rw [sendNak_of_due (.inl rfl)]
        simp [hok]
    exact ⟨_, hrun, rfl, fun q hq => port_modPort_other s _ hq, rfl, port_modPort_same ..⟩
  case control =>
    intro p f s hst hok hkind
    rw [exec_flitReceive_of_active hst, hok, hkind]
    rfl
  case head =>
    intro p f s hst hok hkind hseq
    have h0 : (bits f.toNat 20 2 == 0) = false := by rcases hkind with h | h <;> simp [h]
    have h2 : bits f.toNat 20 2 ≠ 2 := by omega
    have hvc : bits f.toNat 22 2 % 4 = bits f.toNat 22 2 := Nat.mod_eq_of_lt (bits_lt ..)
    have hcls : bits f.toNat 24 1 % 2 = bits f.toNat 24 1 := Nat.mod_eq_of_lt (bits_lt ..)
    have hrun := exec_flitReceive_of_active hst f
    rw [hok, h0, hseq] at hrun
    simp only [Bool.not_true, Bool.false_eq_true, if_false, bne_self_eq_false, bufferFlit_head h2] at hrun
    refine ⟨_, ⟨⟨bits f.toNat 22 2 % 4, Nat.mod_lt _ (by decide)⟩, ⟨bits f.toNat 24 1 % 2, Nat.mod_lt _ (by decide)⟩,
      packetOf (BitVec.ofNat 512 (f.toNat >>> 32)), if bits f.toNat 20 2 = 3 then 0 else bodyFlits (packetOf (BitVec.ofNat 512 (f.toNat >>> 32)))⟩, hrun, rfl, fun q hq => port_modPort_other s _ hq, rfl, ?_, ?_, rfl, hvc, hcls, rfl⟩
    · rw [port_modPort_same]
    · rw [port_modPort_same]
      rfl
  case nak =>
    intro p seq s l hst hl hne
    subst hl
    have hsome : ((s.fabric.ports.get p).replay.dropWhile fun f => flitSeq f != seq).isEmpty = false := by simpa using hne
    have hrun : exec (.nakReceive p seq) s = .next (emit (modPort s p fun q => { q with
        replay := (s.fabric.ports.get p).replay.dropWhile fun f => flitSeq f != seq, replays := q.replays + 1
        replayTicks := (q.replayTicks.filter fun t => !passed s t 24576) ++ [now s] })
        (.flits p ((s.fabric.ports.get p).replay.dropWhile fun f => flitSeq f != seq))) := by
      change execNakReceive p seq s = _
      simp only [execNakReceive, hst, hsome, bne_self_eq_false, Bool.false_and, Bool.or_self, Bool.false_eq_true, if_false]
    refine ⟨_, hrun, rfl, fun q hq => port_modPort_other s _ hq, rfl, ?_, ?_⟩
    · rw [emit_fabric, port_modPort_same]
    · rw [emit_fabric, port_modPort_same]
  case limit =>
    intro p s hst hmany
    have hrun : exec (.linkReplayLimit p) s = .next (leaveActive s p) := by
      change execLinkReplayLimit p s = _
      simp only [execLinkReplayLimit, hst, Nat.not_le.2 hmany, bne_self_eq_false, decide_false, Bool.or_self, Bool.false_eq_true, if_false]
    refine ⟨_, hrun, rfl, fun q hq => port_modPort_other s _ hq, ?_⟩
    rw [leaveActive, port_modPort_same]
  case send =>
    intro p s x hst hx hbody
    obtain ⟨⟨fs, hfs, hlen, hreplay⟩, hseq, htx, hcredits⟩ := packetFlits_pushed (chosen (s.fabric.ports.get p) x) x hbody
    have hroom := choose_credits hx
    refine ⟨_, fs, exec_linkOutputArbitrate_of_chosen hst hx, rfl, fun q hq => port_modPort_other s _ hq, ?_, hlen, ?_, ?_, ?_, ?_⟩
    · rw [emit, hfs]
      rfl
    all_goals rw [emit_fabric, port_modPort_same]
    · exact hreplay
    · rw [hseq, hlen]
      rfl
    · exact htx
    · rw [hcredits]
      simp [chosen, vget_vmapIdx]
      omega
  case returns =>
    intro p s hst hx hdue
    refine ⟨_, _, exec_linkOutputArbitrate_of_none hst hx hdue, rfl, fun q hq => port_modPort_other s _ hq, rfl, ?_, ?_⟩
    · rw [emit_fabric, port_modPort_same]
      rfl
    · rw [emit_fabric, port_modPort_same]
      rfl
  case forward =>
    intro p o vc cls c s x k harrived hrelay hsink hway hst hne
    have hother : (takeRx s p x).fabric.ports.get o = s.fabric.ports.get o := port_modPort_other s _ hne
    have hrun := exec_packetForward_of_way harrived hrelay hsink hway hst
    have hqueue : enqueue (takeRx s p x) o vc c k = modPort (takeRx s p x) o fun q => { q with tx := q.tx ++ [⟨vc, c, k, 0⟩] } := by
      simp [enqueue, hother, hst]
    rw [hqueue] at hrun
    refine ⟨_, hrun, rfl, ?_, ?_, ?_⟩
    · rw [port_modPort_same, hother]
    · rw [port_modPort_other _ _ hne.symm, takeRx, port_modPort_same]
    · rw [port_modPort_other _ _ hne.symm, takeRx, port_modPort_same]

end Sys2Proof.Proofs
end

section
/-! PROOFS. Loans granted, given back and recalled. -/

namespace Sys2Proof.Proofs

open Sys2Proof Sys2Proof.Machine Sys2Proof.Safety Sys2Proof.Laws

set_option Elab.async false

section
variable {s : State} {p : PortId}

/-! ## Loans given -/

theorem exec_loanRequest_of_heard {src : FabId} (hheard : heard s p src = true) (req tier n : Nat) : exec (.loanRequest p src req tier n) s
    = .next (match lendPlace s tier n with
      | none => sendMgmt s src (.loanRefused req)
      | some b => sendMgmt { s with
          mem := { s.mem with lent := s.mem.lent ++ [⟨src, tier, b, n, s.mem.lentNext, false, none⟩], lentNext := s.mem.lentNext + 1 } }
          src (.loanGrant req tier b n)) := by
  change execLoanRequest p src req tier n s = _
  simp only [execLoanRequest, hheard, Bool.not_true, Bool.false_eq_true, if_false]
  rfl

/-- The state with the loan at a base off the list of those given. -/
def unlent (s : State) (b : FabId) (base : Nat) : State :=
  { s with mem := { s.mem with lent := s.mem.lent.filter fun l => !(l.borrower == b && glocal l.base == glocal base) } }

/-- Nothing is recalled where no loan given is due back. -/
theorem sendRecalls_of_none_due (h : ∀ l ∈ s.mem.lent, l.due = false) : sendRecalls s = s := by
  have hnone : nextRecall s = none := by
    have hfilter : (s.mem.lent.filter fun l => l.due && l.recallAt.isNone && !recallOut s l.borrower) = [] :=
      List.filter_eq_nil_iff.2 fun l hl => by simp [h l hl]
    rw [nextRecall, hfilter, List.foldl_nil]
  refine List.foldlRecOn (motive := fun t : State => t = s) s.mem.lent _ rfl fun t ht l _ => ?_
  subst ht
  simp only [hnone]

/-- Where no other loan is due back and no request waits, a loan given back is off the list and nothing else changes. -/
theorem retryAll_takeBack {b : FabId} {base : Nat} (hwait : s.mem.waiting = [])
    (hdue : ∀ l ∈ s.mem.lent, l.due = true → l.borrower = b ∧ glocal l.base = glocal base) : retryAll (takeBack s b base) = unlent s b base := by
  have hwait' : (unlent s b base).mem.waiting = [] := hwait
  have hnone : ∀ l ∈ (unlent s b base).mem.lent, l.due = false := by
    intro l hl
    obtain ⟨hmem, hother⟩ := List.mem_filter.1 hl
    by_contra hd
    obtain ⟨hb, hbase⟩ := hdue l hmem (by simpa using hd)
    simp [hb, hbase] at hother
  have htake : takeBack s b base = unlent s b base := by
    change finishLimits (sendRecalls (unlent s b base)) = _
    rw [sendRecalls_of_none_due hnone, finishLimits, hwait', List.filter_nil, List.foldl_nil, ite_self]
  rw [htake, retryAll, hwait', List.map_nil, List.foldl_nil]

theorem exec_loanReturn_of_given {b : FabId} {base : Nat} (hheard : heard s p b = true)
    (hany : (s.mem.lent.any fun l => l.borrower == b && glocal l.base == glocal base) = true) :
    exec (.loanReturn p b base) s = .next (retryAll (takeBack s b base)) := by
  change execLoanReturn p b base s = _
  simp only [execLoanReturn, hheard, hany, Bool.not_true, Bool.or_self, Bool.false_eq_true, if_false]

theorem exec_recallNoticeExpiry_of_lender {b : FabId} {base : Nat} (hready : ready s = true) (hb : b ≠ s.fabric.id)
    (hany : (s.mem.lent.any fun l => l.borrower == b && glocal l.base == glocal base
      && (match l.recallAt with | some t => passed s t noticeTicks | none => false)) = true) :
    exec (.recallNoticeExpiry b base) s = .next (retryAll (takeBack s b base)) := by
  change execRecallNoticeExpiry b base s = _
  simp only [execRecallNoticeExpiry, hready, beq_false_of_ne hb, Bool.not_true, Bool.false_eq_true, if_false]
  exact congrArg Host.Outcome.next (if_pos hany)

/-! ## Loans taken -/

/-- A request that asks no one asks the first of its lenders that may be asked. -/
theorem askLender_of_lender {w : Waiting} {d : FabId} {r : List FabId} (hwait : s.mem.waiting = [w]) (hask : w.ask = none)
    (hlenders : lenders s w = d :: r) (hmay : mayAsk s d = true) : askLender s w.req
      = (sendMgmt { s with mem := { s.mem with waiting := [{ w with ask := some d }] } } d
          (.loanRequest w.req (if w.tried.contains d then 1 else 2) (min 128 w.need)), true) := by
  have hfind : s.mem.waiting.find? (·.req == w.req) = some w := by simp [hwait]
  have hmod : modWait s w.req (fun w => { w with ask := some d }) = { s with mem := { s.mem with waiting := [{ w with ask := some d }] } } := by
    simp [modWait, modMem, hwait]
  simp only [askLender, hfind, hask, hlenders, hmay, Option.isSome_none, Bool.false_eq_true, if_false, Bool.not_true, hmod]

theorem askLender_of_none {w : Waiting} (hwait : s.mem.waiting = [w]) (hask : w.ask = none) (hlenders : lenders s w = []) :
    askLender s w.req = (s, false) := by
  have hfind : s.mem.waiting.find? (·.req == w.req) = some w := by simp [hwait]
  simp [askLender, hfind, hask, hlenders]

/-- Where the one request has asked, no other is asked for. -/
theorem askAll_of_asked {w : Waiting} (hwait : s.mem.waiting = [w]) (hask : w.ask.isSome = true) : askAll s = s := by
  have hnone : w.ask.isNone = false := by simpa using hask
  simp [askAll, hwait, hnone]

/-- What a loan taken changes: the loan and its reservation added, the request's need less by its granules. -/
theorem takeLoan_of_one {w : Waiting} (hwait : s.mem.waiting = [w]) (tenant : Nat) (l : FabId) (base n : Nat) :
    (takeLoan s w tenant l base n).mem.waiting = [{ w with need := w.need - n, ask := none }]
    ∧ (takeLoan s w tenant l base n).mem.loans = s.mem.loans ++ [⟨l, l.toNat * 2 ^ 48 + glocal base, n, onlyCopyWait w, none, none⟩]
    ∧ (takeLoan s w tenant l base n).mem.reserved = s.mem.reserved ++ [⟨.wait w.req, tenant, 3, 0, n, some (l.toNat * 2 ^ 48 + glocal base)⟩]
    ∧ (takeLoan s w tenant l base n).mem.cells = s.mem.cells := by
  have hassign (t : State) : ∃ rooms, assignRoom t l = { t with mem := { t.mem with rooms := rooms } } := by
    unfold assignRoom
    split
    · exact ⟨_, rfl⟩
    · split <;> exact ⟨_, rfl⟩
  have hmod (t : State) (ht : t.mem.waiting = [w]) : (modWait t w.req fun w => { w with need := w.need - n, ask := none }).mem.waiting
      = [{ w with need := w.need - n, ask := none }] := by simp [modWait, ht]
  unfold takeLoan
  simp only
  split
  · obtain ⟨rooms, heq⟩ := hassign (modMem (reserve s (.wait w.req) tenant 3 0 n (some (l.toNat * 2 ^ 48 + glocal base))) fun m => { m with
      loans := m.loans ++ [{ lender := l, base := l.toNat * 2 ^ 48 + glocal base, granules := n, onlyCopies := onlyCopyWait w }] })
    rw [heq]
    exact ⟨hmod _ hwait, rfl, rfl, rfl⟩
  · exact ⟨hmod _ hwait, rfl, rfl, rfl⟩

theorem goOn_of_lender {w : Waiting} {d : FabId} {r : List FabId} (hwait : s.mem.waiting = [w]) (hask : w.ask = none) (hneed : w.need ≠ 0)
    (hlenders : lenders s w = d :: r) (hmay : mayAsk s d = true) : goOn s w.req = (askLender s w.req).1 := by
  have hfind : s.mem.waiting.find? (·.req == w.req) = some w := by simp [hwait]
  have hasked := askLender_of_lender hwait hask hlenders hmay
  have hneed' : (w.need != 0) = true := by simpa using hneed
  simp only [goOn, hfind, hask, hneed', Option.isSome_none, Bool.false_eq_true, if_false, if_true, hasked]

theorem exec_loanGrant_of_waiting {l : FabId} {w : Waiting} {tier : Nat} (hheard : heard s p l = true) (hfits : loanFits s w l = true)
    (hwait : s.mem.waiting = [w]) (hask : w.ask = some l) (htier : tier = 1 ∨ tier = 2) (base : Nat) :
    exec (.loanGrant p l w.req tier base (min 128 w.need)) s
      = .next (askAll (goOn (takeLoan s w ((w.cmd.map (mailTenant s)).getD 0) l base (min 128 w.need)) w.req)) := by
  have hfind : s.mem.waiting.find? (fun x => x.req == w.req && x.ask == some l) = some w := by simp [hwait, hask]
  have htier' : (tier == 1 || tier == 2) = true := by rcases htier with h | h <;> simp [h]
  change execLoanGrant p l w.req tier base (min 128 w.need) s = _
  simp only [execLoanGrant, hheard, hfind, htier', hfits, bne_self_eq_false, Bool.not_true, Bool.or_self, Bool.false_eq_true, if_false]
  cases w.cmd <;> rfl

end

/-- Settles O27. -/
theorem loansGrantedAndReturned : Obligations.LoansGrantedAndReturned := by
  refine ⟨?granted, ?refused, ?unwanted, ?returned, ?taken⟩
  case granted =>
    intro p src req tier n b s hheard hplace
    have hrun := exec_loanRequest_of_heard hheard req tier n
    rw [hplace] at hrun
    exact ⟨_, hrun, sendMgmt_sends ..⟩
  case refused =>
    intro p src req tier n s hheard hplace
    have hrun := exec_loanRequest_of_heard hheard req tier n
    rw [hplace] at hrun
    exact ⟨_, hrun, sendMgmt_sends ..⟩
  case unwanted =>
    intro p l req tier base n s hheard hfind
    refine ⟨_, ?_, sendMgmt_sends ..⟩
    change execLoanGrant p l req tier base n s = _
    simp only [execLoanGrant, hheard, hfind, Bool.not_true, Bool.false_eq_true, if_false]
  case returned =>
    intro p b base s hheard hwait hany hdue
    rw [exec_loanReturn_of_given hheard hany, retryAll_takeBack hwait hdue]
    rfl
  case taken =>
    intro p l req tier base n s w d r hheard hfits hwait hreq hask hn hless htier hlenders hmay
    subst hreq hn
    have hrun := exec_loanGrant_of_waiting hheard hfits hwait hask htier base
    obtain ⟨hwaiting, hloans, hreserved, hcells⟩ := takeLoan_of_one hwait ((w.cmd.map (mailTenant s)).getD 0) l base (min 128 w.need)
    generalize takeLoan s w ((w.cmd.map (mailTenant s)).getD 0) l base (min 128 w.need) = u at hrun hwaiting hloans hreserved hcells hlenders hmay
    have hneed : w.need - min 128 w.need ≠ 0 := by omega
    have hgo := goOn_of_lender hwaiting rfl hneed hlenders hmay
    have hasked := askLender_of_lender hwaiting rfl hlenders hmay
    simp only at hgo hasked
    rw [hgo, hasked, askAll_of_asked (w := { w with need := w.need - min 128 w.need, ask := some d }) rfl rfl] at hrun
    exact ⟨_, hrun, fun a => congrArg (readByte · a) hcells, rfl, hloans, hreserved⟩

end Sys2Proof.Proofs
end

section
/-! PROOFS. Recalls. -/

namespace Sys2Proof.Proofs

open Sys2Proof Sys2Proof.Machine Sys2Proof.Safety Sys2Proof.Laws

set_option Elab.async false

section
variable {s : State} {p : PortId} {l : FabId} {base : Nat} {x : Loan}

/-! ## The notice -/

theorem exec_recallNotice_of_loan (hheard : heard s p l = true) (hloan : loanAt s l base = some x) (hrecalled : x.recalled = none) :
    exec (.recallNotice p l base) s = .next (serveRecall s x) := by
  change execRecallNotice p l base s = _
  simp only [execRecallNotice, hheard, hloan, hrecalled, Bool.not_true, Option.isSome_none, Bool.false_eq_true, if_false]

/-- The state in which a loan is held as recalled now. -/
def recalledNow (s : State) (x : Loan) : State :=
  { s with mem := { s.mem with loans := s.mem.loans.map fun y => if y.base == x.base then { y with recalled := some (now s) } else y } }

theorem serveRecall_of_no_copies (honly : holdsOnly s x = false) : serveRecall s x = endLoan (recalledNow s x) x := by
  simp only [serveRecall, honly, Bool.not_false, if_true]
  rfl

theorem serveRecall_of_copies (honly : holdsOnly s x = true) (hwait : s.mem.waiting = []) : serveRecall s x = leaveLoan (recalledNow s x) x := by
  simp only [serveRecall, honly, hwait, Bool.not_true, Bool.false_eq_true, if_false, List.filter_nil, List.foldl_nil]
  rfl

/-! ## The search for another lender -/

/-- The state with one request more, the only one, for granules of a lender's recall room. -/
def sought (s : State) (l : FabId) (n : Nat) (ask : Option FabId) : State :=
  { s with mem := { s.mem with waiting := [⟨none, s.mem.reqNext, n, ask, [], l, none, []⟩], reqNext := s.mem.reqNext + 1 } }

theorem addWaiting_of_none_waiting (hwait : s.mem.waiting = []) (l : FabId) (n : Nat) :
    addWaiting s none n l none [] = (sought s l n none, s.mem.reqNext) := by
  simp only [addWaiting, modMem, hwait, List.nil_append]
  rfl

/-- A request that has asked no one is no request unanswered. -/
theorem mayAsk_sought (hwait : s.mem.waiting = []) (l : FabId) (n : Nat) (d : FabId) : mayAsk (sought s l n none) d = mayAsk s d := by
  have hcount : ((sought s l n none).mem.waiting.filter (·.ask == some d)).length = (s.mem.waiting.filter (·.ask == some d)).length := by
    simp [sought, hwait]
  simp only [mayAsk, unanswered, hcount]
  rfl

theorem seekFor_of_lender {n : Nat} {d : FabId} {r : List FabId} (hwait : s.mem.waiting = [])
    (hlenders : lenders (sought s l n none) ⟨none, s.mem.reqNext, n, none, [], l, none, []⟩ = d :: r) (hmay : mayAsk s d = true) :
    seekFor s l n = (sendMgmt (sought s l n (some d)) d (.loanRequest s.mem.reqNext 2 (min 128 n)), true) := by
  have hasked := askLender_of_lender (w := ⟨none, s.mem.reqNext, n, none, [], l, none, []⟩) (s := sought s l n none) rfl rfl hlenders
    ((mayAsk_sought hwait l n d).trans hmay)
  simp only [seekFor, hwait, List.any_nil, Bool.false_eq_true, if_false, addWaiting_of_none_waiting hwait]
  simp only at hasked
  rw [hasked]
  rfl

theorem seekFor_of_none {n : Nat} (hwait : s.mem.waiting = [])
    (hlenders : lenders (sought s l n none) ⟨none, s.mem.reqNext, n, none, [], l, none, []⟩ = []) :
    seekFor s l n = ({ s with mem := { s.mem with reqNext := s.mem.reqNext + 1 } }, false) := by
  have hasked := askLender_of_none (w := ⟨none, s.mem.reqNext, n, none, [], l, none, []⟩) (s := sought s l n none) rfl rfl hlenders
  simp only [seekFor, hwait, List.any_nil, Bool.false_eq_true, if_false, addWaiting_of_none_waiting hwait]
  simp only at hasked
  rw [hasked]
  simp [dropWaiting, modMem, sought]

/-! ## The recall room -/

/-- The state in which a loan's only copies hold a room. -/
def roomed (s : State) (x : Loan) (i : Fin 8) : State :=
  { s with mem := { s.mem with
      roomUsed := s.mem.roomUsed ++ [(x.lender, x.granules)]
      loans := s.mem.loans.map fun y => if y.base == x.base then { y with room := some i.1 } else y } }

theorem copyToRoom_of_free {i : Fin 8} (harea : s.mem.fwArea.isSome = true) (hroom : roomOf s x.lender = some i) (hfree : roomTaken s x.lender = false) :
    copyToRoom s x = recallMove (roomed s x i) x.lender x.base 2 (gaddr s (roomBase s i)) x.granules := by
  obtain ⟨a, ha⟩ := Option.isSome_iff_exists.1 harea
  simp only [copyToRoom, ha, hroom, hfree]
  rfl

/-- With another recall's move under way, the only copies of a loan wait for theirs, with the room taken. -/
theorem copyToRoom_holds_move {i : Fin 8} (harea : s.mem.fwArea.isSome = true) (hroom : roomOf s x.lender = some i) (hfree : roomTaken s x.lender = false)
    (hbusy : recallBusy s = true) : SameBytes s (copyToRoom s x) ∧ roomTaken (copyToRoom s x) x.lender = true
      ∧ ∃ v, (copyToRoom s x).mem.moves = s.mem.moves ++ [v] ∧ v.purpose = .recall x.lender ∧ v.src = x.base
        ∧ v.dst = gaddr s (roomBase s i) ∧ v.len = x.granules * 65536 ∧ v.issued = none := by
  have hbusy' : recallBusy (roomed s x i) = true := hbusy
  rw [copyToRoom_of_free harea hroom hfree]
  simp only [recallMove, hbusy', Bool.not_true, Bool.false_and, Bool.false_eq_true, if_false]
  refine ⟨fun _ => rfl, ?_, _, rfl, rfl, rfl, rfl, rfl, rfl⟩
  simp [roomTaken, modMem, roomed]

/-- The state with another number for the next request. -/
def renumbered (s : State) (n : Nat) : State := { s with mem := { s.mem with reqNext := n } }

theorem leaveLoan_of_isolating (hisolating : s.fabric.isolating.isSome = true) : leaveLoan s x = copyToRoom (renumbered s s.mem.reqNext) x := by
  rw [leaveLoan, if_pos hisolating]
  rfl

theorem leaveLoan_of_no_lender (hisolating : s.fabric.isolating = none) (hwait : s.mem.waiting = [])
    (hlenders : lenders (sought s x.lender x.granules none) ⟨none, s.mem.reqNext, x.granules, none, [], x.lender, none, []⟩ = []) :
    leaveLoan s x = copyToRoom (renumbered s (s.mem.reqNext + 1)) x := by
  simp only [leaveLoan, hisolating, Option.isSome_none, Bool.false_eq_true, if_false, seekFor_of_none hwait hlenders]
  rfl

theorem leaveLoan_of_lender {t : State} (hisolating : s.fabric.isolating = none) (hseek : seekFor s x.lender x.granules = (t, true)) :
    leaveLoan s x = t := by
  simp only [leaveLoan, hisolating, Option.isSome_none, Bool.false_eq_true, if_false, hseek, if_true]

/-! ## The end of notice at the borrower -/

theorem exec_recallNoticeExpiry_of_borrower {t0 : Tick} (hready : ready s = true) (hloans : s.mem.loans = [x]) (hrecalled : x.recalled = some t0)
    (hover : passed s t0 noticeTicks = true) : exec (.recallNoticeExpiry s.fabric.id x.base) s = .next (loseLoan false s x) := by
  have hfind : (s.mem.loans.find? fun y => y.base == x.base && noticeOver s y) = some x := by simp [hloans, noticeOver, hrecalled, hover]
  change execRecallNoticeExpiry s.fabric.id x.base s = _
  simp only [execRecallNoticeExpiry, hready, hfind, Bool.not_true, Bool.false_eq_true, if_false, beq_self_eq_true, if_true]

theorem nextRecallMove_of_no_moves (hmoves : s.mem.moves = []) : nextRecallMove s = s := by
  simp [nextRecallMove, hmoves]

theorem damaged_of_modPages {lost : Bool} {l : Loan} {st : Stream}
    (hst : st ∈ (modPages s fun p => if p.tier == 3 && inRange p.addr l.base l.granules then { p with damaged := true, lostHome := lost } else p).streams)
    {k : KvPage} (hk : k ∈ st.pages) (htier : k.tier = 3) (hrange : inRange k.addr l.base l.granules = true) : k.damaged = true := by
  obtain ⟨st0, -, rfl⟩ := List.mem_map.1 hst
  obtain ⟨k0, -, rfl⟩ := List.mem_map.1 hk
  by_cases hlies : (k0.tier == 3 && inRange k0.addr l.base l.granules) = true
  · simp only [if_pos hlies]
  · simp only [if_neg hlies] at htier hrange
    simp [htier, hrange] at hlies

theorem loseLoan_of_one (hloans : s.mem.loans = [x]) (hmoves : s.mem.moves = []) (lost : Bool) : SameBytes s (loseLoan lost s x)
    ∧ (loseLoan lost s x).mem.loans = []
    ∧ (loseLoan lost s x).streams
      = (modPages s fun p => if p.tier == 3 && inRange p.addr x.base x.granules then { p with damaged := true, lostHome := lost } else p).streams := by
  simp only [loseLoan, hmoves, List.filter_nil, List.foldl_nil]
  rw [nextRecallMove_of_no_moves (by simp [freeRooms, modMem, modPages, hmoves])]
  exact ⟨fun _ => rfl, by simp [freeRooms, modMem, modPages, hloans], rfl⟩

end

/-- Settles O28. -/
theorem recallsServed : Obligations.RecallsServed := by
  refine ⟨?returned, ?roomed, ?sought, ?lender, ?borrower, ?restored⟩
  case returned =>
    intro p l base s x hheard hloan hrecalled honly
    refine ⟨_, exec_recallNotice_of_loan hheard hloan hrecalled, ?_⟩
    rw [serveRecall_of_no_copies honly]
    refine ⟨fun _ => ?_, ?_, fun y hy => ?_, ?_⟩
    · simp [endLoan, freeRooms, modMem, recalledNow]
    · simp [endLoan, freeRooms, modMem, recalledNow]
    · simp only [endLoan, freeRooms, modMem, sendMgmt_mem] at hy
      simpa using (List.mem_filter.1 hy).2
    · simp [endLoan, freeRooms, modMem, recalledNow]
  case roomed =>
    intro p l base s x i hheard hloan hrecalled honly harea hroom hfree hbusy hwait hleft
    have hleave : ∃ n, leaveLoan (recalledNow s x) x = copyToRoom (renumbered (recalledNow s x) n) x := by
      rcases hleft with hisolating | hlenders
      · exact ⟨_, leaveLoan_of_isolating hisolating⟩
      · cases hisolating : s.fabric.isolating with
        | some c => exact ⟨_, leaveLoan_of_isolating (by rw [recalledNow, hisolating, Option.isSome_some])⟩
        | none => exact ⟨_, leaveLoan_of_no_lender hisolating hwait hlenders⟩
    obtain ⟨n, hn⟩ := hleave
    obtain ⟨hbytes, htaken, v, hmoves, hpurpose, hsrc, hdst, hlen, hissued⟩ :=
      copyToRoom_holds_move (s := renumbered (recalledNow s x) n) harea hroom hfree hbusy
    rw [← hn, ← serveRecall_of_copies honly hwait] at hbytes htaken hmoves
    exact ⟨_, v, exec_recallNotice_of_loan hheard hloan hrecalled, hbytes, hmoves, hpurpose, hsrc, hdst, hlen, hissued, htaken⟩
  case sought =>
    intro p l d base s x r hheard hloan hrecalled honly hisolating hwait hlenders hmay
    refine ⟨_, exec_recallNotice_of_loan hheard hloan hrecalled, ?_⟩
    have hseek := seekFor_of_lender (s := recalledNow s x) hwait hlenders hmay
    rw [serveRecall_of_copies honly hwait, leaveLoan_of_lender (s := recalledNow s x) hisolating hseek]
    refine ⟨fun _ => ?_, ?_, ?_⟩ <;> simp [sought, recalledNow]
  case lender =>
    intro b base s hready hb hwait hany hdue
    rw [exec_recallNoticeExpiry_of_lender hready hb hany, retryAll_takeBack hwait hdue]
    rfl
  case borrower =>
    intro base s l t0 hready hloans hbase hrecalled hover hmoves
    subst hbase
    refine ⟨_, exec_recallNoticeExpiry_of_borrower hready hloans hrecalled hover, ?_⟩
    obtain ⟨hbytes, hnone, hstreams⟩ := loseLoan_of_one hloans hmoves false
    exact ⟨hbytes, hnone, fun st hst k hk => damaged_of_modPages (hstreams ▸ hst) hk⟩
  case restored =>
    intro l d s n r hready hroom hused hmoves hwait hlenders hmay
    rw [addWaiting_of_none_waiting hwait] at hlenders
    refine ⟨sendMgmt (sought s l n (some d)) d (.loanRequest s.mem.reqNext 2 (min 128 n)), ?_, fun _ => ?_, ?_, ?_⟩
    · have hany : (s.mem.loans.any fun y => y.lender == l && y.room.isSome) = false := List.any_eq_false.2 fun y hy h => by
        simp only [Bool.and_eq_true, beq_iff_eq] at h
        simp [hroom y hy h.1] at h
      change execRecallRoomRestore l s = _
      simp only [execRecallRoomRestore, hready, hany, hused, hmoves, seekFor_of_lender hwait hlenders hmay, Bool.not_true, Bool.or_self,
        Bool.false_eq_true, if_false, List.any_nil]
    · simp [sought]
    · simp [sought]
    · simp [sought]

end Sys2Proof.Proofs
end

section
/-! PROOFS. Links and dies lost, and the route sets that follow. -/

namespace Sys2Proof.Proofs

open Sys2Proof Sys2Proof.Machine Sys2Proof.Safety Sys2Proof.Laws

set_option Elab.async false

section
variable {s : State} {p : PortId}

/-! ## Ports over which nothing is sent -/

theorem sendLink_port_other (s : State) (k : Mgmt) {p q : PortId} (hq : q ≠ p) :
    (sendLink s p k).fabric.ports.get q = s.fabric.ports.get q := by
  change (enqueue (mgmtPacket s (s.fabric.ports.get p).peer k).2 p _ _ _).fabric.ports.get q = _
  unfold enqueue
  simp only
  split
  · exact port_modPort_other (mgmtPacket s (s.fabric.ports.get p).peer k).2 _ hq
  · exact port_modPort_other (mgmtPacket s (s.fabric.ports.get p).peer k).2 _ hq

/-- Every port stays as it was that is not ACTIVE. -/
theorem sendNeighbours_port_idle (s : State) (k : Mgmt) (h : (s.fabric.ports.get p).st ≠ .active) :
    (sendNeighbours s k).fabric.ports.get p = s.fabric.ports.get p := by
  refine List.foldlRecOn (motive := fun t : State => t.fabric.ports.get p = s.fabric.ports.get p) _ _ rfl fun t ht o ho => ?_
  have hactive : (s.fabric.ports.get o).st = .active := by simpa using (List.mem_filter.1 ho).2
  exact (sendLink_port_other t k (p := o) fun hpo => h (by rw [hpo]; exact hactive)).trans ht

theorem askRole_port_idle (s : State) (o : PortId) (h : (s.fabric.ports.get p).st ≠ .active) :
    (askRole s o).fabric.ports.get p = s.fabric.ports.get p := by
  by_cases ho : p = o
  · subst ho
    have hidle : ((s.fabric.ports.get p).st != .active) = true := by simpa using h
    simp only [askRole, hidle, Bool.true_or, if_true]
  · unfold askRole
    simp only
    split
    · rfl
    · rw [sendLink_port_other _ _ ho, port_modPort_other s _ ho]

theorem retime_port_idle (h : (s.fabric.ports.get p).st ≠ .active) : (retime s).fabric.ports.get p = s.fabric.ports.get p := by
  rw [retime_eq]
  refine List.foldlRecOn (motive := fun t : State => t.fabric.ports.get p = s.fabric.ports.get p) _ _ (by rw [retimed_fabric]) fun t ht o _ => ?_
  rw [askRole_port_idle t o (by rw [ht]; exact h), ht]

theorem leaderLost_port_idle (o : PortId) (h : (s.fabric.ports.get p).st ≠ .active) : (leaderLost s o).fabric.ports.get p = s.fabric.ports.get p := by
  unfold leaderLost
  split
  · exact retime_port_idle h
  · split <;> rfl

theorem leaderLost_talk (s : State) (p : PortId) : OnlyTalk s (leaderLost s p) := .ite (retime_talk s) (.ite rfl (.refl s))

/-! ## A link that goes down -/

/-- Where no die of the census is cut off, none is lost. -/
theorem loseCutOff_of_none (h : ∀ d ∈ allDies s.fabric, s.fabric.census.contains d = true → cutOff s.fabric d = false) : loseCutOff s = s := by
  refine List.foldlRecOn (motive := fun t : State => t = s) _ _ rfl fun t ht d hd => ?_
  subst ht
  cases hcensus : t.fabric.census.contains d with
  | true => simp only [h d hd hcensus, Bool.false_and, Bool.false_eq_true, if_false]
  | false => simp only [Bool.and_false, Bool.false_eq_true, if_false]

/-- The state with a port out of use, and a notice of its link numbered. -/
def outOfUse (s : State) (p : PortId) (reason : Nat) : State :=
  let q := s.fabric.ports.get p
  let left := if q.st == .active then now s else q.leftAt
  let s1 := modPort s p fun q => { q with
    st := .down, replay := [], tx := [], discards := q.discards + q.tx.length, roleReq := none, usable := false, wasDown := true, leftAt := left
    trying := PortSt.down == .down && q.trying, passed := Vector.replicate 8 0 }
  let s2 := postEvent s1 0x30 (put 16 1 p.1 + put 17 1 reason + put 18 2 q.peer.toNat + put 20 8 left)
  { s2 with fabric := { s2.fabric with
      serial := s.fabric.serial + 1, seen := s.fabric.seen ++ [(0, (linkOf s.fabric p).1, (linkOf s.fabric p).2, s.fabric.serial)] } }

/-- The state with a link among those down. -/
def withDown (s : State) (l : FabId × FabId) : State := { s with fabric := { s.fabric with downLinks := s.fabric.downLinks ++ [l] } }

theorem linkDown_of_new {l : FabId × FabId} (h : l ∉ s.fabric.downLinks) : linkDown s l = withDown s l := by
  rw [linkDown, if_neg (by rw [List.contains_iff_mem]; exact h), withDown]

/-- The state with a port out of use and its link among those down. -/
def downed (s : State) (p : PortId) (reason : Nat) : State := withDown (outOfUse s p reason) (linkOf s.fabric p)

theorem downed_port (s : State) (p : PortId) (reason : Nat) : ((downed s p reason).fabric.ports.get p).st = .down
    ∧ ((downed s p reason).fabric.ports.get p).replay = [] ∧ ((downed s p reason).fabric.ports.get p).tx = [] := by
  change ((modPort s p _).fabric.ports.get p).st = .down ∧ ((modPort s p _).fabric.ports.get p).replay = []
    ∧ ((modPort s p _).fabric.ports.get p).tx = []
  simp only [port_modPort_same, and_self]

theorem declareDown_of_no_cut {reason : Nat} (hnew : linkOf s.fabric p ∉ s.fabric.downLinks)
    (hcut : ∀ d ∈ allDies s.fabric, s.fabric.census.contains d = true →
      cutOff { s.fabric with downLinks := s.fabric.downLinks ++ [linkOf s.fabric p] } d = false) :
    declareDown s p .down reason
      = leaderLost (sendNeighbours (downed s p reason) (.linkNotice (linkOf s.fabric p).1 (linkOf s.fabric p).2 s.fabric.serial)) p := by
  have htalk := sendNeighbours_talk (downed s p reason) (.linkNotice (linkOf s.fabric p).1 (linkOf s.fabric p).2 s.fabric.serial)
  have hkeep := loseCutOff_of_none (s := sendNeighbours (downed s p reason) (.linkNotice (linkOf s.fabric p).1 (linkOf s.fabric p).2 s.fabric.serial))
    (by rw [htalk]; exact hcut)
  have hdown : linkDown (outOfUse s p reason) (linkOf s.fabric p) = downed s p reason := linkDown_of_new hnew
  change leaderLost (loseCutOff (sendNeighbours (linkDown (outOfUse s p reason) (linkOf s.fabric p)) _)) p = _
  rw [hdown]
  exact congrArg (leaderLost · p) hkeep

/-! ## Notices -/

/-- The state with a notice among those seen. -/
def seenAlso (s : State) (key : Nat × FabId × FabId × Nat) : State := { s with fabric := { s.fabric with seen := s.fabric.seen ++ [key] } }

theorem passOn_of_new {k : Mgmt} {key : Nat × FabId × FabId × Nat} (h : s.fabric.seen.contains key = false) :
    passOn s key k = some (sendNeighbours (seenAlso s key) k) := by
  rw [passOn, h, if_neg Bool.false_ne_true, seenAlso]

theorem sendNeighbours_out_eq (s : State) (k : Mgmt) : (sendNeighbours s k).out = s.out ++ (neighbours s).map fun d => .mgmt d k := by
  have hgen : ∀ (l : List PortId) (t : State), SameTraining s t →
      (l.foldl (fun t p => sendLink t p k) t).out = t.out ++ l.map fun p => Out.mgmt (s.fabric.ports.get p).peer k := by
    intro l
    induction l with
    | nil => simp
    | cons o r ih =>
      intro t ht
      have hpeer : (t.fabric.ports.get o).peer = (s.fabric.ports.get o).peer := by rw [ht o]
      rw [List.foldl_cons, ih _ (ht.trans (sendLink_sameTraining t o k)), List.map_cons]
      simp [sendLink, hpeer]
  rw [sendNeighbours, hgen _ _ (.refl s)]
  simp [neighbours, activePorts]

/-- The state with a die on the lost list, nothing outstanding to it, and a notice of it numbered. -/
def dieGone (s : State) (d : FabId) : State :=
  { s with fabric := { s.fabric with
      lost := (s.fabric.lost ++ [d]).take 1024, returning := s.fabric.returning.filter (· != d)
      outstanding := s.fabric.outstanding.filter fun o => o.dest != d
      serial := s.fabric.serial + 1, seen := s.fabric.seen ++ [(1, d, d, s.fabric.serial)]
      relayGranted := s.fabric.relayGranted.filter (· != d)
      relayHeld := s.fabric.relayHeld.filter (·.1 != d), relayAsked := s.fabric.relayAsked.filter (· != d) } }

theorem loseDie_of_idle {d : FabId} (hlost : s.fabric.lost.contains d = false) (hd : d ≠ s.fabric.id) (hmoves : s.mem.moves = [])
    (hwait : s.mem.waiting = []) (hloans : s.mem.loans = []) (hstreams : s.streams = []) :
    loseDie s d = sendNeighbours (dieGone s d) (.dieNotice d s.fabric.serial) := by
  simp only [loseDie, endRequestsTo, hlost, beq_false_of_ne hd, hmoves, hwait, hloans, hstreams, Bool.or_self, Bool.false_eq_true, if_false,
    List.filter_nil, List.foldl_nil, List.map_nil, dieGone]

/-! ## Route sets -/

theorem exec_routeSetInstall_of_other_cause {cause : Fin 5} (hready : ready s = true) (hclosed : s.fw.censusClosed = true) (hcause : cause ≠ 4) :
    exec (.routeSetInstall cause) s = .next (if routesNew s then installRoutes s cause.1 else s) := by
  have hcause' : (cause == 4) = false := beq_false_of_ne hcause
  change execRouteSetInstall cause s = _
  simp only [execRouteSetInstall, hready, hclosed, hcause', Bool.not_true, Bool.or_self, Bool.false_eq_true, if_false, List.append_nil,
    List.map_id', List.contains_nil, Bool.not_false, List.filter_true, List.filter_nil, List.isEmpty_nil, Bool.or_false]

/-- What the host is owed grows with an event, and by nothing else here. -/
def OwesMore (s t : State) : Prop := s.host.outbox.length ≤ t.host.outbox.length

theorem OwesMore.refl (s : State) : OwesMore s s := Nat.le_refl _

theorem OwesMore.trans {s t u : State} (hst : OwesMore s t) (htu : OwesMore t u) : OwesMore s u := Nat.le_trans hst htu

theorem OwesMore.of_host {s t : State} (h : t.host = s.host) : OwesMore s t := Nat.le_of_eq (by rw [h])

theorem OwesMore.ite {s t u : State} {c : Prop} {_ : Decidable c} (ht : OwesMore s t) (hu : OwesMore s u) : OwesMore s (if c then t else u) := by
  split
  · exact ht
  · exact hu

theorem postEvent_owesMore (s : State) (code payload : Nat) : OwesMore s (postEvent s code payload) := by
  rw [OwesMore, postEvent_outbox_length]
  exact Nat.le_succ _

theorem leadered_owesMore (is : Bool) (s : State) : OwesMore s (leadered is s) := by
  unfold leadered
  split
  · exact .ite (.of_host rfl) (.of_host rfl)
  · split
    · exact .of_host rfl
    · exact .ite (.refl s) (.ite (.of_host rfl) (.ite (.trans (.of_host rfl) (postEvent_owesMore ..)) (.of_host rfl)))

theorem retime_owesMore (s : State) : OwesMore s (retime s) := by
  have htold : OwesMore s (rootTold s) := by
    unfold rootTold
    exact .ite (.trans (t := rooted s) (.of_host rfl) (postEvent_owesMore (rooted s) _ _)) (.of_host rfl)
  have hentered : OwesMore (rootTold s) (enterTime (rootTold s) .aligned) := by
    unfold enterTime
    exact .ite (.of_host rfl) (.of_host rfl)
  have hretimed : OwesMore s (retimed s) := (htold.trans (.ite hentered (.refl _))).trans (leadered_owesMore ..)
  exact hretimed.trans (.of_host (by rw [retime_only]))

theorem askCredits_host (s : State) (via : FabId) : (askCredits s via).host = s.host := by
  unfold askCredits
  split
  · rfl
  · simp

theorem resendWaiting_host (s : State) : (resendWaiting s).host = s.host :=
  List.foldlRecOn (motive := fun t : State => t.host = s.host) _ _ rfl fun _ ht _ _ => (sendPacket_onlyQueues _ _).host.trans ht

/-- A route set is told to the host. -/
theorem routeTold_outbox (s : State) (cause : Nat) : s.host.outbox.length < (routeTold s cause).host.outbox.length := by
  have hcredits (l : List FabId) (t : State) : (l.foldl askCredits t).host = t.host :=
    List.foldlRecOn (motive := fun u : State => u.host = t.host) l _ rfl fun u hu v _ => (askCredits_host u v).trans hu
  rw [routeTold, resendWaiting_host, hcredits, sendNeighbours_host, postEvent_outbox_length]
  exact Nat.lt_succ_self _

/-! ## The work of a lost die's streams -/

theorem dropLostGuests_of_one {g : Guest} (hguests : s.fabric.guests = [g]) (hlost : s.fabric.lost.contains g.home = true) :
    dropLostGuests s = faultHistory (dropGuest s g.home g.handle) 0x0720 0xFF (put 0 2 g.handle + put 2 2 g.home.toNat) := by
  simp only [dropLostGuests, hguests, List.filter_cons, hlost, if_true, List.filter_nil, List.foldl_cons, List.foldl_nil]

/-- What messages leave of a die's record of faults and of the work it holds for others. -/
theorem releaseAll_keeps (s : State) (o : Owner) : (releaseAll s o).island = s.island ∧ (releaseAll s o).fabric.guests = s.fabric.guests := by
  refine List.foldlRecOn (motive := fun t : State => t.island = s.island ∧ t.fabric.guests = s.fabric.guests)
    (s.mem.reserved.filter fun r => r.owner == o && r.tier == 3) _ ⟨rfl, rfl⟩ fun t ht r _ => ?_
  split
  · exact ht
  · simp only
    split
    · rw [sendMgmt_island, (sendMgmt_talk _ _ _).guests]
      exact ht
    · exact ht

theorem dropGuest_keeps {g : Guest} (hguests : s.fabric.guests = [g]) : (dropGuest s g.home g.handle).island = s.island
    ∧ (dropGuest s g.home g.handle).fabric.guests = [] := by
  obtain ⟨hisland, hg⟩ := releaseAll_keeps (modGuests s fun l => l.filter fun x => !(x.home == g.home && x.handle == g.handle)) (.guest g.home g.handle)
  refine ⟨hisland, hg.trans ?_⟩
  simp [modGuests, hguests]

theorem OnlyTalk.island {s t : State} (h : OnlyTalk s t) : t.island = s.island := by rw [h]

end

/-- Settles O29. -/
theorem lossesAndRoutesTakeEffect : Obligations.LossesAndRoutesTakeEffect := by
  refine ⟨?signal, ?down, ?link, ?die, ?gen, ?usable, ?routes, ?guests⟩
  case signal =>
    intro p s hactive
    have hrun : exec (.linkSignalLoss p) s = .next (leaveActive s p) := by
      change execLinkSignalLoss p s = _
      simp only [execLinkSignalLoss, hactive, bne_self_eq_false, Bool.false_eq_true, if_false]
    refine ⟨_, hrun, rfl, fun q hq => port_modPort_other s _ hq, ?_⟩
    simp only [leaveActive, port_modPort_same, and_self]
  case down =>
    intro p s hretraining hpassed hnew hcut
    have hrun : exec (.linkDownTimeout p) s = .next (declareDown s p .down 0) := by
      change execLinkDownTimeout p s = _
      simp only [execLinkDownTimeout, hretraining, hpassed, bne_self_eq_false, Bool.not_true, Bool.or_self, Bool.false_eq_true, if_false]
    rw [declareDown_of_no_cut hnew hcut] at hrun
    obtain ⟨hst, hreplay, htx⟩ := downed_port s p 0
    have hidle : ((downed s p 0).fabric.ports.get p).st ≠ .active := by rw [hst]; exact PortSt.noConfusion
    have hsent := sendNeighbours_port_idle (downed s p 0) (.linkNotice (linkOf s.fabric p).1 (linkOf s.fabric p).2 s.fabric.serial) hidle
    have hport := (leaderLost_port_idle p (by rw [hsent]; exact hidle)).trans hsent
    have htalk := (sendNeighbours_talk (downed s p 0) (.linkNotice (linkOf s.fabric p).1 (linkOf s.fabric p).2 s.fabric.serial)).trans (leaderLost_talk _ p)
    refine ⟨_, hrun, ?_, ?_, ?_, ?_, htalk.streams, htalk.mem, htalk.lost⟩
    · rw [hport, hst]
    · rw [hport, hreplay]
    · rw [hport, htx]
    · rw [htalk]
      rfl
  case link =>
    intro p a b n s hready hactive
    have hrun : exec (.linkNotice p a b n) s = .next (match passOn s (0, a, b, n) (.linkNotice a b n) with
        | none => s
        | some s1 =>
          match (shapePorts s1).find? fun o => linkOf s1.fabric o == (a, b) && ((s1.fabric.ports.get o).st == .active || (s1.fabric.ports.get o).st == .retraining) with
          | some o => declareDown s1 o .down 1
          | none => loseCutOff (linkDown s1 (a, b))) := by
      change execLinkNotice p a b n s = _
      simp only [execLinkNotice, hready, hactive, bne_self_eq_false, Bool.not_true, Bool.or_self, Bool.false_eq_true, if_false] <;> rfl
    refine ⟨fun hseen => ?_, fun hseen hnew hown hcut => ?_⟩
    · rw [hrun, passOn, if_pos hseen]
    · rw [passOn_of_new hseen] at hrun
      have honly := sendNeighbours_only (seenAlso s (0, a, b, n)) (.linkNotice a b n)
      have htalk := sendNeighbours_talk (seenAlso s (0, a, b, n)) (.linkNotice a b n)
      have hsame := sendNeighbours_sameTraining (seenAlso s (0, a, b, n)) (.linkNotice a b n)
      have hout := sendNeighbours_out_eq (seenAlso s (0, a, b, n)) (.linkNotice a b n)
      generalize sendNeighbours (seenAlso s (0, a, b, n)) (.linkNotice a b n) = u at hrun honly htalk hsame hout
      have hlink : ∀ o, linkOf u.fabric o = linkOf s.fabric o := fun o => by rw [htalk]; rfl
      have hst : ∀ o, (u.fabric.ports.get o).st = (s.fabric.ports.get o).st := fun o => by rw [hsame o]; rfl
      have hdown : u.fabric.downLinks = s.fabric.downLinks := by rw [htalk]; rfl
      have hnone : ((shapePorts u).find? fun o =>
          linkOf u.fabric o == (a, b) && ((u.fabric.ports.get o).st == .active || (u.fabric.ports.get o).st == .retraining)) = none := by
        refine List.find?_eq_none.2 fun o _ h => ?_
        rw [hlink, hst, Bool.and_eq_true, Bool.or_eq_true, beq_iff_eq, beq_iff_eq, beq_iff_eq] at h
        obtain ⟨hactive', hretraining⟩ := hown o h.1
        exact h.2.elim hactive' hretraining
      have hkeep := loseCutOff_of_none (s := withDown u (a, b)) (by rw [withDown, htalk]; exact hcut)
      simp only [hnone, linkDown_of_new (by rw [hdown]; exact hnew), hkeep] at hrun
      refine ⟨_, hrun, ?_, ?_, ?_, hout⟩
      · conv_lhs => rw [withDown, honly]
        rfl
      · rw [withDown, hdown]
      · rw [withDown, htalk]
        exact List.mem_append_right _ (List.mem_singleton_self _)
  case die =>
    intro p d n s hready hactive hseen hd hlost hroom hpeer hmoves hwait hloans hstreams
    have hrun : exec (.dieNotice p d n) s = .next (match passOn s (1, d, d, n) (.dieNotice d n) with
        | none => s
        | some s1 =>
          if d == s.fabric.id then s1
          else
            let mine := (shapePorts s1).filter fun o =>
              (s1.fabric.ports.get o).peer == d && ((s1.fabric.ports.get o).st == .active || (s1.fabric.ports.get o).st == .retraining)
            loseDie (mine.foldl (fun t o => declareDown t o .down 3) s1) d) := by
      change execDieNotice p d n s = _
      simp only [execDieNotice, hready, hactive, bne_self_eq_false, Bool.not_true, Bool.or_self, Bool.false_eq_true, if_false] <;> rfl
    rw [passOn_of_new hseen] at hrun
    have hsame := sendNeighbours_sameTraining (seenAlso s (1, d, d, n)) (.dieNotice d n)
    have htalk := sendNeighbours_talk (seenAlso s (1, d, d, n)) (.dieNotice d n)
    generalize sendNeighbours (seenAlso s (1, d, d, n)) (.dieNotice d n) = u at hrun hsame htalk
    have hmine : ((shapePorts u).filter fun o =>
        (u.fabric.ports.get o).peer == d && ((u.fabric.ports.get o).st == .active || (u.fabric.ports.get o).st == .retraining)) = [] := by
      refine List.filter_eq_nil_iff.2 fun o _ h => hpeer o ?_
      have hp : (u.fabric.ports.get o).peer = (s.fabric.ports.get o).peer := by rw [hsame o]; rfl
      rw [← hp]
      exact eq_of_beq (Bool.and_eq_true_iff.1 h).1
    have hmem : u.mem = s.mem := htalk.mem
    have hlost' : u.fabric.lost = s.fabric.lost := htalk.lost
    have hid : u.fabric.id = s.fabric.id := by rw [htalk]; rfl
    have hlose := loseDie_of_idle (s := u) (d := d) (by rw [hlost']; exact hlost) (by rw [hid]; exact hd) (by rw [hmem]; exact hmoves)
      (by rw [hmem]; exact hwait) (by rw [hmem]; exact hloans) (htalk.streams.trans hstreams)
    simp only [beq_false_of_ne hd, Bool.false_eq_true, if_false, hmine, List.foldl_nil, hlose] at hrun
    have htalk' := sendNeighbours_talk (dieGone u d) (.dieNotice d u.fabric.serial)
    have hsame' := sendNeighbours_sameTraining (dieGone u d) (.dieNotice d u.fabric.serial)
    generalize sendNeighbours (dieGone u d) (.dieNotice d u.fabric.serial) = t at hrun htalk' hsame'
    refine ⟨t, hrun, ?_, ?_, ?_, ?_, fun o => ?_⟩
    · rw [htalk'.lost, dieGone, hlost', List.take_of_length_le]
      rw [List.length_append, List.length_singleton]
      exact hroom
    · rw [htalk', dieGone, htalk]
      exact List.mem_append_left _ (List.mem_append_right _ (List.mem_singleton_self _))
    · rw [htalk'.outstanding]
      intro o ho
      simpa using (List.mem_filter.1 ho).2
    · exact htalk'.mem.trans hmem
    · rw [hsame' o]
      change (u.fabric.ports.get o).st = _
      rw [hsame o]
      rfl
  case gen =>
    intro p src g s hready hactive
    change execRouteGenerationNotice p src g s = _
    simp only [execRouteGenerationNotice, hready, hactive, bne_self_eq_false, Bool.not_true, Bool.or_self, Bool.false_eq_true, if_false]
  case usable =>
    intro p s hactive husable hpassed
    have hrun : ∃ t, exec (.linkUsabilityHoldExpiry p) s = .next t
        ∧ t = { s with fabric := t.fabric, fw := t.fw } ∧ t.fabric.ports = (modPort s p fun q => { q with usable := true }).fabric.ports
        ∧ t.fabric.downLinks = s.fabric.downLinks.filter (· != linkOf s.fabric p) := by
      change ∃ t, execLinkUsabilityHoldExpiry p s = .next t ∧ _
      simp only [execLinkUsabilityHoldExpiry, hactive, husable, hpassed, bne_self_eq_false, Bool.not_true, Bool.or_self, Bool.false_eq_true, if_false]
      exact ⟨_, rfl, rfl, rfl, rfl⟩
    obtain ⟨t, hrun, hframe, hports, hdown⟩ := hrun
    refine ⟨t, hrun, fun q hq => ?_, ?_, hdown, ?_, ?_⟩
    · rw [hports, port_modPort_other s _ hq]
    · rw [hports, port_modPort_same]
    · rw [hframe]
    · rw [hframe]
  case routes =>
    intro cause s hready hclosed hcause
    have hrun := exec_routeSetInstall_of_other_cause hready hclosed hcause
    refine ⟨fun hold => ?_, fun hnew hlent hmoves hout hguests => ?_⟩
    · rw [hrun, hold, if_neg Bool.false_ne_true]
    · rw [hnew, if_pos rfl] at hrun
      have htalk := installRoutes_talk (cause := cause.1) hlent hmoves hout hguests
      have howed : s.host.outbox.length < (installRoutes s cause.1).host.outbox.length := by
        rw [installRoutes_of_idle hlent hmoves hout, dropLostGuests_of_none (by rw [(routeTold_talk s cause.1).guests, (routeTold_talk s cause.1).lost]; exact hguests)]
        exact (routeTold_outbox s cause.1).trans_le (retime_owesMore _)
      refine ⟨_, hrun, ?_, htalk.gen, ?_, htalk.mem, htalk.streams, howed⟩
      · rw [htalk]
        rfl
      · rw [htalk.fw, routed]
  case guests =>
    intro cause g s hok hready hclosed hcause hnew hlent hmoves hout hguests hlost
    have hrun := exec_routeSetInstall_of_other_cause hready hclosed hcause
    rw [hnew, if_pos rfl, installRoutes_of_idle hlent hmoves hout] at hrun
    have htalk := routeTold_talk s cause.1
    have hisland : (routeTold s cause.1).island = s.island := htalk.island
    generalize routeTold s cause.1 = u at hrun htalk hisland
    have hguests' : u.fabric.guests = [g] := htalk.guests.trans hguests
    rw [dropLostGuests_of_one hguests' (by rw [htalk.lost]; exact hlost)] at hrun
    obtain ⟨hkept, hgone⟩ := dropGuest_keeps hguests'
    have howner : ∀ r ∈ (dropGuest u g.home g.handle).mem.reserved, r.owner ≠ .guest g.home g.handle := releaseAll_owner
    generalize dropGuest u g.home g.handle = v at hrun hkept hgone howner
    have hok' : RecordOk v := by
      unfold RecordOk
      rw [hkept, hisland]
      exact hok
    have hmem := faultHistory_mem hok' 0x0720 0xFF (put 0 2 g.handle + put 2 2 g.home.toNat)
    refine ⟨_, hrun, ?_, ?_, ⟨_, by rw [(retime_talk _).island]; exact hmem, rfl⟩⟩
    · rw [(retime_talk _).guests]
      exact hgone
    · rw [(retime_talk _).mem]
      exact howner

end Sys2Proof.Proofs
end

section
/-! PROOFS. Roles of links, messages from other dies, and the die that leaves the fabric. -/

namespace Sys2Proof.Proofs

open Sys2Proof Sys2Proof.Machine Sys2Proof.Safety Sys2Proof.Laws

set_option Elab.async false

section
variable {s : State} {p : PortId}

/-! ## The routes do not depend on what the ports hold -/

/-- A fabric with other ports. -/
def withPorts (f : Fabric) (x : Vector Port 8) : Fabric := { f with ports := x }

section
variable (f : Fabric) (x : Vector Port 8)

theorem pathOk_withPorts (id : FabId) (d : Nat) (plus : Bool) (c k a : Nat) : pathOk (withPorts f x) id d plus c k a = pathOk f id d plus c k a := by
  induction k generalizing a with
  | zero => rfl
  | succ k ih =>
    have hnext : nextCoord (withPorts f x) d plus a = nextCoord f d plus a := rfl
    simp only [pathOk, hnext, ih]
    rfl

theorem ringEntry_withPorts (id : FabId) (d c : Nat) : ringEntry (withPorts f x) id d c = ringEntry f id d c := by
  simp only [ringEntry, pathOk_withPorts]
  rfl

theorem hopsFrom_withPorts (dest : FabId) (l : List Nat) (cur : FabId) : hopsFrom (withPorts f x) dest l cur = hopsFrom f dest l cur := by
  induction l generalizing cur with
  | nil => rfl
  | cons d r ih =>
    have hdir (a c : Nat) (y : Dir) : dirOf (withPorts f x) d a c y = dirOf f d a c y := by cases y <;> rfl
    have hlinks (a c : Nat) (q : Bool) : linksTo (withPorts f x) d a c q = linksTo f d a c q := rfl
    simp only [hopsFrom, ringEntry_withPorts, hdir, hlinks, ih]

theorem hops_withPorts (a b : FabId) : hops (withPorts f x) a b = hops f a b := hopsFrom_withPorts ..

theorem viaOf_withPorts (dest : FabId) : viaOf (withPorts f x) dest = viaOf f dest := by
  simp only [viaOf, hops_withPorts]
  rfl

theorem ringTable_withPorts : ringTable (withPorts f x) = ringTable f := by
  simp only [ringTable, ringEntry_withPorts]
  rfl

theorem relayTable_withPorts : relayTable (withPorts f x) = relayTable f := by
  simp only [relayTable, hops_withPorts, viaOf_withPorts]
  rfl

theorem hopsTo_withPorts (dest : FabId) : hopsTo (withPorts f x) dest = hopsTo f dest := by
  have hdir (d a c : Nat) (y : Dir) : dirOf (withPorts f x) d a c y = dirOf f d a c y := by cases y <;> rfl
  have hlinks (d a c : Nat) (q : Bool) : linksTo (withPorts f x) d a c q = linksTo f d a c q := rfl
  have hout (target : FabId) : hopsOut (withPorts f x) target = hopsOut f target := by
    simp only [hopsOut, hopsFrom_withPorts, hdir, hlinks]
    rfl
  simp only [hopsTo, hout, hops_withPorts]
  rfl

theorem hopsOf_withPorts (d dest : FabId) : hopsOf (withPorts f x) d dest = hopsOf f d dest := by
  have hid : ({ withPorts f x with id := d } : Fabric) = withPorts { f with id := d } x := rfl
  simp only [hopsOf, hops_withPorts, hid, viaOf_withPorts]

/-- The view with the links of some ports up and of others down. -/
def asIfDown (f : Fabric) (up off : List PortId) : Fabric :=
  let g := { f with downLinks := (f.downLinks.filter fun l => !up.any fun p => linkOf f p == l) ++ off.map (linkOf f) }
  { g with ring := ringTable g, relay := relayTable g }

theorem asIfDown_withPorts (up off : List PortId) : asIfDown (withPorts f x) up off = withPorts (asIfDown f up off) x := by
  have hview : ({ withPorts f x with downLinks :=
      ((withPorts f x).downLinks.filter fun l => !up.any fun p => linkOf (withPorts f x) p == l) ++ off.map (linkOf (withPorts f x)) } : Fabric)
      = withPorts { f with downLinks := (f.downLinks.filter fun l => !up.any fun p => linkOf f p == l) ++ off.map (linkOf f) } x := rfl
  simp only [asIfDown, hview, ringTable_withPorts, relayTable_withPorts]
  rfl

end

/-! ## Roles -/

theorem sendLink_sends (s : State) (p : PortId) (k : Mgmt) : Sends s (sendLink s p k) (s.fabric.ports.get p).peer k := by
  have h := linkPacket_onlyQueues (mgmtPacket s (s.fabric.ports.get p).peer k).2 p (mgmtPacket s (s.fabric.ports.get p).peer k).1
  have hfab : (linkPacket (mgmtPacket s (s.fabric.ports.get p).peer k).2 p (mgmtPacket s (s.fabric.ports.get p).peer k).1).fabric
      = { s.fabric with
          ports := (sendLink s p k).fabric.ports, relayHeld := (sendLink s p k).fabric.relayHeld, relayWait := (sendLink s p k).fabric.relayWait } := by
    rw [h]
    rfl
  exact congrArg (fun f => { s with
    fabric := f, free := (mgmtPacket s (s.fabric.ports.get p).peer k).2.free, out := s.out ++ [Out.mgmt (s.fabric.ports.get p).peer k] }) hfab

/-- A change of a port that keeps its state and its peer. -/
structure KeepsLink (s : State) (p : PortId) (f : Port → Port) : Prop where
  st : (f (s.fabric.ports.get p)).st = (s.fabric.ports.get p).st
  peer : (f (s.fabric.ports.get p)).peer = (s.fabric.ports.get p).peer

theorem KeepsLink.st_eq {f : Port → Port} (h : KeepsLink s p f) (o : PortId) :
    ((modPort s p f).fabric.ports.get o).st = (s.fabric.ports.get o).st := by
  by_cases ho : o = p
  · subst ho
    rw [port_modPort_same, h.st]
  · rw [port_modPort_other s f ho]

theorem KeepsLink.peer_eq {f : Port → Port} (h : KeepsLink s p f) (o : PortId) :
    ((modPort s p f).fabric.ports.get o).peer = (s.fabric.ports.get o).peer := by
  by_cases ho : o = p
  · subst ho
    rw [port_modPort_same, h.peer]
  · rw [port_modPort_other s f ho]

theorem KeepsLink.timeView {f : Port → Port} (h : KeepsLink s p f) :
    timeView (modPort s p f) = withPorts (Machine.timeView s) (modPort s p f).fabric.ports := by
  have hup : (fun o => ((modPort s p f).fabric.ports.get o).st == .active) = fun o => (s.fabric.ports.get o).st == .active :=
    funext fun o => by rw [h.st_eq]
  have hoff : (fun o => ((modPort s p f).fabric.ports.get o).st != .active) = fun o => (s.fabric.ports.get o).st != .active :=
    funext fun o => by rw [h.st_eq]
  change (if provisional s then asIfDown (modPort s p f).fabric ((shapePorts s).filter fun o => ((modPort s p f).fabric.ports.get o).st == .active)
    ((shapePorts s).filter fun o => ((modPort s p f).fabric.ports.get o).st != .active) else (modPort s p f).fabric) = _
  rw [hup, hoff]
  change (if _ then asIfDown (withPorts s.fabric _) _ _ else withPorts s.fabric _) = withPorts (if _ then asIfDown s.fabric _ _ else s.fabric) _
  split
  · exact asIfDown_withPorts ..
  · rfl

theorem KeepsLink.shouldLead {f : Port → Port} (h : KeepsLink s p f) (o : PortId) : shouldLead (modPort s p f) o = shouldLead s o := by
  have hroot : rootOf (modPort s p f) = rootOf s := rfl
  have hid : (modPort s p f).fabric.id = s.fabric.id := rfl
  simp only [Machine.shouldLead, h.timeView, hopsTo_withPorts, hopsOf_withPorts, h.peer_eq, hroot, hid]

theorem KeepsLink.mayAsk {f : Port → Port} (h : KeepsLink s p f) (hreq : (f (s.fabric.ports.get p)).roleReq = (s.fabric.ports.get p).roleReq) (d : FabId) :
    mayAsk (modPort s p f) d = mayAsk s d := by
  have hreq' (o : PortId) : ((modPort s p f).fabric.ports.get o).roleReq = (s.fabric.ports.get o).roleReq := by
    by_cases ho : o = p
    · subst ho
      rw [port_modPort_same, hreq]
    · rw [port_modPort_other s f ho]
  have hactive : activePorts (modPort s p f) = activePorts s := by simp only [activePorts, h.st_eq]
  simp only [Machine.mayAsk, unanswered, hactive, h.peer_eq, hreq']
  rfl

theorem modPort_modPort (s : State) (p : PortId) (f g : Port → Port) : modPort (modPort s p f) p g = modPort s p fun q => g (f q) := by
  have hports : vmod (vmod s.fabric.ports p f) p g = vmod s.fabric.ports p fun q => g (f q) := by
    have hget : (vmod s.fabric.ports p f).get p = f (s.fabric.ports.get p) := vget_vmod_same ..
    rw [vmod, hget]
    exact Vector.set_set ..
  exact congrArg (fun x => { s with fabric := { s.fabric with ports := x } }) hports

theorem askRole_of_may (hactive : (s.fabric.ports.get p).st = .active) (hleads : (s.fabric.ports.get p).leads = false)
    (hreq : (s.fabric.ports.get p).roleReq = none) (hswap : (s.fabric.ports.get p).swapAt = none)
    (hhold : reached s (s.fabric.ports.get p).noReqUntil = true) (htime : s.time.state = .aligned) (hlead : shouldLead s p = true)
    (hmay : mayAsk s (s.fabric.ports.get p).peer = true) :
    askRole s p = sendLink (modPort s p fun q => { q with roleReq := some (now s) }) p .roleRequest := by
  simp [askRole, hactive, hleads, hreq, hswap, hhold, htime, hlead, hmay, timeBase]

/-- The state in which a port has given its hold up. -/
def unheld (s : State) (p : PortId) : State := modPort s p fun q => { q with holdoff := false }

theorem askRole_unheld (hactive : (s.fabric.ports.get p).st = .active) (hleads : (s.fabric.ports.get p).leads = false)
    (hreq : (s.fabric.ports.get p).roleReq = none) (hswap : (s.fabric.ports.get p).swapAt = none)
    (hhold : reached s (s.fabric.ports.get p).noReqUntil = true) (htime : s.time.state = .aligned) (hlead : shouldLead s p = true)
    (hmay : mayAsk s (s.fabric.ports.get p).peer = true) :
    askRole (unheld s p) p = sendLink (modPort s p fun q => { q with holdoff := false, roleReq := some (now s) }) p .roleRequest := by
  have hport : (unheld s p).fabric.ports.get p = { s.fabric.ports.get p with holdoff := false } := port_modPort_same ..
  have hkeeps : KeepsLink s p fun q => { q with holdoff := false } := ⟨rfl, rfl⟩
  have hmod : modPort (unheld s p) p (fun q => { q with roleReq := some (now s) })
      = modPort s p fun q => { q with holdoff := false, roleReq := some (now s) } := modPort_modPort ..
  rw [askRole_of_may (s := unheld s p) (by rw [hport]; exact hactive) (by rw [hport]; exact hleads) (by rw [hport]; exact hreq)
    (by rw [hport]; exact hswap) (by rw [hport]; exact hhold) htime ((hkeeps.shouldLead p).trans hlead)
    (by rw [hport]; exact (hkeeps.mayAsk rfl _).trans hmay)]
  exact congrArg (sendLink · p .roleRequest) hmod

theorem exec_roleSwapTick_of_reached {t0 : Tick} (hactive : (s.fabric.ports.get p).st = .active) (hswap : (s.fabric.ports.get p).swapAt = some t0)
    (hreached : reached s t0 = true) : exec (.roleSwapTick p) s = .next (swapRoles s p) := by
  change execRoleSwapTick p s = _
  simp only [execRoleSwapTick, hactive, hswap, hreached, bne_self_eq_false, Bool.not_true, Bool.or_self, Bool.false_eq_true, if_false]

/-- The change of a role is posted; only the leader kept for time may follow it. -/
theorem swapRoles_eq : ∃ x, swapRoles s p
    = { linkRoleEvent (modPort s p fun q => { q with leads := !q.leads, swapAt := none }) p (!(s.fabric.ports.get p).leads) with time := x } := by
  unfold swapRoles
  simp only
  generalize linkRoleEvent (modPort s p fun q => { q with leads := !q.leads, swapAt := none }) p (!(s.fabric.ports.get p).leads) = u
  split
  · split
    · exact ⟨(takeLeader u p false).time, rfl⟩
    · exact ⟨u.time, rfl⟩
  · split
    · exact ⟨{ u.time with leader := none, exchOut := none }, rfl⟩
    · exact ⟨u.time, rfl⟩

/-! ## Messages and requests -/

theorem exec_remoteRequestTimeout_of_due {tag : BitVec 16} {o : Outstanding} (hfind : s.fabric.outstanding.find? (·.tag == tag) = some o)
    (hready : ready s = true) (htiered : o.tiered = false) (hpassed : passed s o.issued 49152 = true) (hmove : o.move = none) :
    exec (.remoteRequestTimeout tag) s = .next (modOut s tag fun _ => none) := by
  change execRemoteRequestTimeout tag s = _
  simp only [execRemoteRequestTimeout, hfind, hready, htiered, hpassed, hmove, Bool.not_true, Bool.or_self, Bool.false_eq_true, if_false, Option.bind_none]

theorem modOut_none (tag : BitVec 16) : modOut s tag (fun _ => none)
    = { s with fabric := { s.fabric with outstanding := s.fabric.outstanding.filter fun y => y.tag != tag } } := by
  have hfilter : (s.fabric.outstanding.filterMap fun o => if o.tag == tag then none else some o) = s.fabric.outstanding.filter fun y => y.tag != tag := by
    rw [← List.filterMap_eq_filter]
    refine congrArg (List.filterMap · _) (funext fun o => ?_)
    by_cases h : o.tag = tag <;> simp [h, Option.guard]
  rw [modOut, hfilter]

theorem exec_mgmt_relayRequest {src : FabId} (hheard : heard s p src = true) (hnew : s.fabric.relayGranted.contains src = false) :
    exec (.mgmt p src .relayRequest) s = .next (if relayOrigins ≤ s.fabric.relayGranted.length then sendMgmt s src .relayRefused
      else sendMgmt { s with fabric := { s.fabric with relayGranted := s.fabric.relayGranted ++ [src] } } src (.relayGrant relaySlots)) := by
  change execMgmt p src .relayRequest s = _
  simp only [execMgmt, hheard, hnew, Bool.not_true, Bool.false_eq_true, if_false]

/-! ## Isolation -/

/-- What the last messages of a die that leaves keep. -/
structure KeepsWork (s t : State) : Prop where
  mem : t.mem = s.mem
  outstanding : t.fabric.outstanding = s.fabric.outstanding

theorem KeepsWork.refl (s : State) : KeepsWork s s := ⟨rfl, rfl⟩

theorem KeepsWork.trans {s t u : State} (hst : KeepsWork s t) (htu : KeepsWork t u) : KeepsWork s u :=
  ⟨htu.mem.trans hst.mem, htu.outstanding.trans hst.outstanding⟩

theorem KeepsWork.foldl {α : Type} {f : State → α → State} (hf : ∀ t a, KeepsWork t (f t a)) (l : List α) (s : State) : KeepsWork s (l.foldl f s) :=
  List.foldlRecOn (motive := KeepsWork s) l f (.refl s) fun t ht a _ => ht.trans (hf t a)

theorem isolatePorts_keepsWork (s : State) : KeepsWork s (isolatePorts s) := by
  unfold isolatePorts
  refine .trans (.trans (.foldl (fun t o => ?_) _ _) (.foldl (fun t o => ?_) _ _)) (.foldl (fun t o => ?_) _ _)
  rotate_left
  · exact ⟨rfl, rfl⟩
  · exact ⟨rfl, rfl⟩
  have htalk := sendNeighbours_talk { t with fabric := { t.fabric with
    serial := t.fabric.serial + 1, seen := t.fabric.seen ++ [(0, (linkOf t.fabric o).1, (linkOf t.fabric o).2, t.fabric.serial)] } }
    (.linkNotice (linkOf t.fabric o).1 (linkOf t.fabric o).2 t.fabric.serial)
  exact ⟨htalk.mem, htalk.outstanding⟩

theorem st_foldl_modPort {x : PortSt} {f : Port → Port} (hf : ∀ q, (f q).st = x) (l : List PortId) (s : State)
    (h : p ∈ l ∨ (s.fabric.ports.get p).st = x) : ((l.foldl (fun t o => modPort t o f) s).fabric.ports.get p).st = x := by
  induction l generalizing s with
  | nil => exact h.resolve_left List.not_mem_nil
  | cons o r ih =>
    refine ih _ ?_
    by_cases ho : p = o
    · subst ho
      exact .inr (by rw [port_modPort_same, hf])
    · rw [port_modPort_other s f ho]
      exact h.imp_left fun hmem => (List.mem_cons.1 hmem).resolve_left ho

theorem isolatePorts_isolated (h : hasPort s.fuses.variant p.1 = true) : ((isolatePorts s).fabric.ports.get p).st = .isolated :=
  st_foldl_modPort (f := fun q => { q with
    st := .isolated, discards := q.discards + q.tx.length, tx := [], rx := [], replay := [], trying := false, pauseUntil := none, roleReq := none
    swapAt := none, usable := false, wasDown := true }) (fun _ => rfl) _ _ (.inl (List.mem_filter (p := fun p => hasPort s.fuses.variant p.1).2 ⟨mem_fins p, h⟩))

/-- The state of a die that has left the fabric, before the time tree is formed again. -/
def isolatedNow (s : State) : State :=
  { isolatePorts s with fabric := { (isolatePorts s).fabric with isolating := none, isolatedAt := some (now s) } }

theorem exec_isolateDrainEnd_of_idle {t0 : Tick} {l : List MailCmd} (hready : ready s = true) (hisolating : s.fabric.isolating = some (t0, l))
    (hdue : drained s = true ∨ passed s t0 24576 = true) (hloans : s.mem.loans = []) (hmoves : s.mem.moves = []) (hout : s.fabric.outstanding = [])
    (hrestart : s.fw.restart = none) : exec .isolateDrainEnd s = .next (l.foldl (fun x m => complete x m .ok
      (put 8 4 s.fabric.recalledN + put 12 4 s.fabric.returnedN + put 16 8 (now s))) (retime (isolatedNow s))) := by
  have hdue' : (!drained s && !passed s t0 24576) = false := by rcases hdue with h | h <;> simp [h]
  have hkept := isolatePorts_keepsWork s
  have hloans' : (isolatedNow s).mem.loans = [] := (congrArg Mem.loans hkept.mem).trans hloans
  have hmoves' : (isolatedNow s).mem.moves = [] := (congrArg Mem.moves hkept.mem).trans hmoves
  have hout' : (isolatedNow s).fabric.outstanding = [] := hkept.outstanding.trans hout
  have hrun : execIsolateDrainEnd s = .next (
      let s3 := (isolatedNow s).mem.loans.foldl (loseLoan true) (isolatedNow s)
      let dests := ((s3.mem.moves.flatMap fun m => [gid m.src, gid m.dst]) ++ s3.fabric.outstanding.map (·.dest)).eraseDups.filter (· != s3.fabric.id)
      let s5 := l.foldl (fun x m => complete x m .ok (put 8 4 s.fabric.recalledN + put 12 4 s.fabric.returnedN + put 16 8 (now s)))
        (retime (dests.foldl endRequestsTo s3))
      if s.fw.restart.isSome then warmRestart s5 else s5) := by
    unfold execIsolateDrainEnd
    simp only [hisolating, hready, hdue', Bool.not_true, Bool.or_self, Bool.false_eq_true, if_false, isolatedNow]
  change execIsolateDrainEnd s = _
  simp only [hrun, hloans', hmoves', hout', hrestart, List.foldl_nil, List.flatMap_nil, List.map_nil, List.append_nil, List.eraseDups_nil,
    List.filter_nil, Option.isSome_none, Bool.false_eq_true, if_false]

theorem foldl_complete_keeps (l : List MailCmd) (result : Nat) (s : State) : (l.foldl (fun x m => complete x m .ok result) s).fabric = s.fabric
    ∧ (l.foldl (fun x m => complete x m .ok result) s).mem = s.mem :=
  List.foldlRecOn (motive := fun t : State => t.fabric = s.fabric ∧ t.mem = s.mem) l _ ⟨rfl, rfl⟩ fun _ ht _ _ => ht

end

/-- Settles O30. -/
theorem linkRolesAndRemoteEnds : Obligations.LinkRolesAndRemoteEnds := by
  refine ⟨?request, ?crossed, ?accept, ?swap, ?timeout, ?again, ?remote, ?relay, ?dest, ?event, ?isolate⟩
  case request =>
    intro p s hactive hreq
    have h := sendLink_sends (modPort s p fun q => { q with swapAt := some (now s + 64) }) p (.roleAccept (now s + 64))
    rw [port_modPort_same] at h
    refine ⟨_, ?_, h⟩
    change execRoleRequest p s = _
    simp only [execRoleRequest, hactive, hreq, bne_self_eq_false, Bool.false_eq_true, if_false, Option.isSome_none]
  case crossed =>
    intro p s hactive hreq
    have hrun : exec (.roleRequest p) s = .next (modPort s p fun q => { q with
        roleReq := none, holdoff := decide (s.fabric.id.toNat < (s.fabric.ports.get p).peer.toNat)
        noReqUntil := now s + if decide (s.fabric.id.toNat < (s.fabric.ports.get p).peer.toNat) then 24576 else 49152 }) := by
      change execRoleRequest p s = _
      simp only [execRoleRequest, hactive, hreq, bne_self_eq_false, Bool.false_eq_true, if_false, if_true]
    refine ⟨_, hrun, rfl, fun q hq => port_modPort_other s _ hq, ?_, rfl, fun hlow => ?_, fun hhigh => ?_⟩
    · rw [port_modPort_same]
    · rw [port_modPort_same]
      simp [hlow]
    · rw [port_modPort_same]
      simp [Nat.not_lt.2 hhigh]
  case accept =>
    intro p swap s hactive hreq
    obtain ⟨t0, ht0⟩ := Option.isSome_iff_exists.1 hreq
    change execRoleAccept p swap s = _
    simp only [execRoleAccept, hactive, ht0, bne_self_eq_false, Option.isNone_some, Bool.or_self, Bool.false_eq_true, if_false]
  case swap =>
    intro p s t0 hactive hswap hreached
    obtain ⟨x, hx⟩ := swapRoles_eq (s := s) (p := p)
    have hrun := exec_roleSwapTick_of_reached hactive hswap hreached
    rw [hx] at hrun
    refine ⟨_, hrun, fun q hq => port_modPort_other s _ hq, ?_, ?_, ?_, rfl⟩
    · exact congrArg Port.leads (port_modPort_same ..)
    · exact congrArg Port.swapAt (port_modPort_same ..)
    · change s.host.outbox.length < (postEvent _ _ _).host.outbox.length
      rw [postEvent_outbox_length]
      exact Nat.lt_succ_self _
  case timeout =>
    intro p s t0 hreq hpassed
    change execRoleRequestTimeout p s = _
    simp only [execRoleRequestTimeout, hreq, hpassed, Bool.not_true, Bool.false_eq_true, if_false]
  case again =>
    intro p s hhold hreached hactive hleads hreq hswap htime hlead hmay
    have hrun : exec (.roleHoldoffExpiry p) s = .next (askRole (unheld s p) p) := by
      change execRoleHoldoffExpiry p s = _
      simp only [execRoleHoldoffExpiry, hhold, hreached, Bool.not_true, Bool.or_self, Bool.false_eq_true, if_false]
      rfl
    rw [askRole_unheld hactive hleads hreq hswap hreached htime hlead hmay] at hrun
    refine ⟨_, hrun, ?_⟩
    have h := sendLink_sends (modPort s p fun q => { q with holdoff := false, roleReq := some (now s) }) p .roleRequest
    rw [port_modPort_same] at h
    exact h
  case remote =>
    intro tag s o hfind hready htiered hpassed hmove
    rw [exec_remoteRequestTimeout_of_due hfind hready htiered hpassed hmove, modOut_none]
  case relay =>
    intro p src s hheard hnew
    refine ⟨_, exec_mgmt_relayRequest hheard hnew, fun hfew => ?_, fun hmany => ?_⟩
    · rw [if_neg (show ¬relayOrigins ≤ s.fabric.relayGranted.length from Nat.not_le.2 hfew)]
      exact sendMgmt_sends ..
    · rw [if_pos (show relayOrigins ≤ s.fabric.relayGranted.length from hmany)]
      exact sendMgmt_sends ..
  case dest =>
    intro p src base n s hheard hrange hnew
    change execMgmt p src (.moveDest base n) s = _
    simp only [execMgmt, hheard, hrange, hnew, Bool.not_true, Bool.not_false, Bool.and_self, Bool.false_eq_true, if_false, if_true]
  case event =>
    intro p src code stamp pay s hheard
    change execMgmt p src (.event code stamp pay) s = _
    simp only [execMgmt, hheard, Bool.not_true, Bool.false_eq_true, if_false]
  case isolate =>
    intro s t0 l hready hisolating hdue hloans hmoves hout hrestart
    obtain ⟨hfabric, hmem⟩ := foldl_complete_keeps l (put 8 4 s.fabric.recalledN + put 12 4 s.fabric.returnedN + put 16 8 (now s)) (retime (isolatedNow s))
    have htalk := retime_talk (isolatedNow s)
    refine ⟨_, exec_isolateDrainEnd_of_idle hready hisolating hdue hloans hmoves hout hrestart, ?_, ?_, ?_, fun p hp => ?_⟩
    · rw [hfabric, htalk]
      rfl
    · rw [hfabric, htalk]
      rfl
    · exact (hmem.trans htalk.mem).trans (isolatePorts_keepsWork s).mem
    · rw [hfabric, retime_sameTraining (isolatedNow s) p]
      exact isolatePorts_isolated hp

end Sys2Proof.Proofs
end

section
/-! PROOFS. Rate windows, the pacer and wavefronts. -/

namespace Sys2Proof.Proofs

open Sys2Proof Sys2Proof.Machine Sys2Proof.Safety Sys2Proof.Laws

set_option Elab.async false

section
variable {s : State} {e : EngineId}

theorem modEngine_onlyEngine (f : Engine → Engine) : OnlyEngine s (modEngine s e f) e := ⟨rfl, fun _ hd => vget_vmod_other _ f hd⟩

theorem engine_modEngine (f : Engine → Engine) : (modEngine s e f).engines.get e = f (s.engines.get e) := vget_vmod_same ..

/-! ## Rate windows -/

/-- The engine with a window closed (R74, R79). -/
def windowClosed (s : State) (chain : Nat) (en₀ en : Engine) : Engine :=
  { en with
    rateWinAt := now s
    windows := lastN 24 (en.windows ++ [⟨s.power.opForce, chain * en₀.calib / 65536, en₀.productive, en₀.ballast⟩])
    calib := calibration en chain
    rateAt := vmod en.rateAt s.power.opForce fun _ => some (chain * en₀.calib / 65536)
    lowWindows := if belowMinimum (chain * en₀.calib / 65536) s.power.opForce then en.lowWindows + 1 else 0
    productive := 0, ballast := 0, unpaced := 0, unpacedIssued := 0, unpacedMark := 0 }

theorem exec_rateWindowClose_of_due {chain : Nat} (hreports : reports s e = true) (hdue : passed s (s.engines.get e).rateWinAt 1024 = true) :
    exec (.rateWindowClose e chain) s = .next (modEngine s e (windowClosed s chain (s.engines.get e))) := by
  change execRateWindowClose e chain s = _
  simp only [execRateWindowClose, hreports, hdue, Bool.not_true, Bool.or_self, Bool.false_eq_true, if_false]
  rfl

/-- The data of the record of low windows: the last window's rate, and the point in force. -/
def lowRateData (s : State) (e : EngineId) : Nat :=
  put 0 4 (match (s.engines.get e).windows.getLast? with | some w => w.rate | none => 0) + put 4 1 s.power.opForce.1

theorem exec_rateBelowMinimum_of_low (hreports : reports s e = true) (hlow : 24 ≤ (s.engines.get e).lowWindows) (htrim : s.power.trimRun = none) :
    exec (.rateBelowMinimum e) s = .next { modEngine (logDie s 0x0201 e.1 1 (lowRateData s e)) e (fun en => { en with lowWindows := 0 }) with
      power := { s.power with ageing := true } } := by
  have hnone : s.power.trimRun.isSome = false := by rw [htrim, Option.isSome_none]
  change execRateBelowMinimum e s = _
  simp only [execRateBelowMinimum, hreports, decide_eq_false (Nat.not_lt.2 hlow), hnone, Bool.not_true, Bool.or_self, Bool.false_eq_true, if_false]
  rfl

/-! ## The pacer (R83) -/

theorem credit_eq (tokens lim : Nat) : credit tokens lim = if lim = 65535 then 65536 else min 65536 (tokens + lim) := by
  simp [credit]

theorem credit_le (tokens lim : Nat) : credit tokens lim ≤ 65536 := by
  rw [credit_eq]
  split
  · exact Nat.le_refl _
  · exact Nat.min_le_left ..

theorem exec_pacerTokenCredit_of_new_tick (hhas : hasEngine s.fuses.variant e.1 = true) (htick : (s.engines.get e).creditAt ≠ some (now s)) :
    ∃ unheld : Engine → Nat, exec (.pacerTokenCredit e) s = .next (modEngine s e fun en => { en with
      creditAt := some (now s), limitNow := limitOf (s.engines.get e).limits, tokens := credit en.tokens (limitOf (s.engines.get e).limits)
      attnTokens := credit en.attnTokens (limitOf (s.engines.get e).limits)
      unpaced := if en.unpacedMark < en.unpacedIssued then en.unpaced + 1 else en.unpaced, unpacedMark := en.unpacedIssued, unheld := unheld en }) := by
  have htick' : ((s.engines.get e).creditAt == some (now s)) = false := beq_false_of_ne htick
  change ∃ unheld : Engine → Nat, execPacerTokenCredit e s = _
  simp only [execPacerTokenCredit, hhas, htick', Bool.not_true, Bool.or_self, Bool.false_eq_true, if_false]
  exact ⟨_, rfl⟩

/-! ## Wavefronts -/

theorem countUnpaced_only (en : Engine) : countUnpaced en = { en with unpacedIssued := (countUnpaced en).unpacedIssued } := by
  unfold countUnpaced
  split <;> rfl

theorem exec_wavefrontIssue_of_ballast {h : Option PatrolHit} (hmay : mayIssue s e (s.engines.get e).tokens = true)
    (hfield : (s.engines.get e).field = none) (hidle : nextSeg s e .field = none ∨ s.power.change.isSome = true) :
    exec (.wavefrontIssue e ⟨true, h⟩) s = .next (modEngine s e fun en => { countUnpaced en with
      tokens := spend en.limitNow en.tokens, ballast := en.ballast + 1, estBallast := en.estBallast + 1 }) := by
  have hready : ((nextSeg s e .field).isSome && s.power.change.isNone) = false := by
    rcases hidle with hn | hc
    · rw [hn, Option.isSome_none, Bool.false_and]
    · rw [Option.isSome_iff_exists] at hc
      obtain ⟨c, hc⟩ := hc
      rw [hc, Option.isNone_some, Bool.and_false]
  change execWavefrontIssue e ⟨true, h⟩ s = _
  simp only [execWavefrontIssue, issueWave, hmay, hfield, hready, Bool.not_true, Bool.false_eq_true, if_false, if_true, Option.isSome_none,
    Bool.false_and, Bool.or_self]

theorem exec_wavefrontIssue_of_step {f : FieldRun} {it : Itin} {fr : Frame} {b : LayerBody} {w : List Byte} {blk : Block} {d : StepData}
    (hmay : mayIssue s e (s.engines.get e).tokens = true) (hfield : (s.engines.get e).field = some f) (hswap : f.swapWanted = false)
    (htile : f.tile < f.seg.t0 + f.seg.tn) (hdata : cursorData s f f.tile = some (it, fr, b, w, blk, d)) (hstep : (advance d f).2 = false) :
    exec (.wavefrontIssue e ⟨false, none⟩) s = .next (modEngine s e fun en => { countUnpaced en with
      acc := waveData d f.pass f.run f.inStep f.bit en.acc, check := waveCheck d f.pass f.run f.inStep f.bit en.check
      field := some (advance d f).1, tokens := spend en.limitNow en.tokens
      productive := en.productive + 1, estProductive := en.estProductive + 1
      ran := if f.seg.replay then en.ran else ranMore en f.stream }) := by
  have hread : readT0 s e none = (s, true) := rfl
  change execWavefrontIssue e ⟨false, none⟩ s = _
  simp only [execWavefrontIssue, issueWave, hmay, hfield, hswap, hdata, hstep, hread, decide_eq_true htile,
    decide_eq_false (Nat.not_le.2 htile), Bool.not_true, Bool.not_false, Bool.and_self, Bool.or_self, Bool.false_eq_true, if_false, if_true]

theorem exec_attentionStepIssue_of_step {a : AttnRun} (hattn : (s.engines.get e).attn = some a) (hmay : mayIssue s e (s.engines.get e).attnTokens = true)
    (hsteps : a.steps < a.seg.cost) : ∃ rows, exec (.attentionStepIssue e ⟨false, none⟩) s = .next (modEngine s e fun en => { en with
      attn := some { a with steps := a.steps + 1, rows := rows }, attnTokens := spend en.limitNow en.attnTokens
      attnSteps := en.attnSteps + 1, estAttn := en.estAttn + 1
      ran := if a.seg.replay then en.ran else ranMore en a.stream }) := by
  have hread : readT0 s e none = (s, true) := rfl
  change ∃ rows, execAttentionStepIssue e ⟨false, none⟩ s = _
  simp only [execAttentionStepIssue, issueStep, hattn, hmay, hread, decide_eq_false (Nat.not_le.2 hsteps), Bool.not_true, Bool.or_self,
    Bool.false_eq_true, if_false, if_true]
  exact ⟨_, rfl⟩

end

/-- Settles O32. -/
theorem rateWindowsAndWavefronts : Obligations.RateWindowsAndWavefronts := by
  refine ⟨?window, ?early, ?low, ?credit, ?again, ?held, ?ballast, ?step, ?attn⟩
  case window =>
    intro e chain s hreports hdue
    refine ⟨_, exec_rateWindowClose_of_due hreports hdue, modEngine_onlyEngine _, ?_⟩
    rw [engine_modEngine]
    exact ⟨rfl, rfl, rfl, rfl, vget_vmod_same ..⟩
  case early =>
    intro e chain s hearly
    change execRateWindowClose e chain s = _
    simp only [execRateWindowClose, hearly, Bool.not_false, Bool.or_true, if_true]
  case low =>
    intro e s hreports hlow htrim
    refine ⟨_, exec_rateBelowMinimum_of_low hreports hlow htrim, rfl, ?_, ?_⟩
    · exact congrArg Engine.lowWindows (vget_vmod_same ..)
    · simp [logDie]
  case credit =>
    intro e s hhas htick
    obtain ⟨unheld, hrun⟩ := exec_pacerTokenCredit_of_new_tick hhas htick
    refine ⟨_, hrun, modEngine_onlyEngine _, ?_⟩
    rw [engine_modEngine]
    exact ⟨rfl, credit_eq .., credit_le ..⟩
  case again =>
    intro e s htick
    change execPacerTokenCredit e s = _
    simp only [execPacerTokenCredit, htick, beq_self_eq_true, Bool.or_true, if_true]
  case held =>
    intro e b h s hmay
    change execWavefrontIssue e ⟨b, h⟩ s = _
    simp only [execWavefrontIssue, hmay, Bool.not_false, if_true]
  case ballast =>
    intro e h s hmay hfield hidle
    exact ⟨_, exec_wavefrontIssue_of_ballast hmay hfield hidle, modEngine_onlyEngine _, engine_modEngine _⟩
  case step =>
    intro e s f it fr b w blk d hmay hfield hswap htile hdata hstep
    refine ⟨_, exec_wavefrontIssue_of_step hmay hfield hswap htile hdata hstep, modEngine_onlyEngine _, ?_⟩
    rw [engine_modEngine, countUnpaced_only]
    exact ⟨rfl, rfl, rfl, rfl, rfl, rfl⟩
  case attn =>
    intro e s a hattn hmay hsteps
    obtain ⟨rows, hrun⟩ := exec_attentionStepIssue_of_step hattn hmay hsteps
    refine ⟨_, rows, hrun, modEngine_onlyEngine _, ?_⟩
    rw [engine_modEngine]
    exact ⟨rfl, rfl, rfl, rfl⟩

end Sys2Proof.Proofs
end

section
/-! PROOFS. Bank drains and the commit of a segment. -/

namespace Sys2Proof.Proofs

open Sys2Proof Sys2Proof.Machine Sys2Proof.Safety Sys2Proof.Laws

set_option Elab.async false

/-! ## What a commit keeps of its stream and its frame -/

/-- A commit keeps the stream's handle and itinerary, and the frame's segments and the tick of its last commit. -/
structure KeepsMarks (st : Stream) (fr : Frame) (r : Stream × Frame) : Prop where
  handle : r.1.handle = st.handle
  itin : r.1.itin = st.itin
  segs : r.2.segs = fr.segs
  lastCommit : r.2.lastCommit = fr.lastCommit

section
variable {st : Stream} {fr : Frame}

theorem KeepsMarks.trans {r u : Stream × Frame} (hr : KeepsMarks st fr r) (hu : KeepsMarks r.1 r.2 u) : KeepsMarks st fr u :=
  ⟨hu.handle.trans hr.handle, hu.itin.trans hr.itin, hu.segs.trans hr.segs, hu.lastCommit.trans hr.lastCommit⟩

theorem KeepsMarks.refl (r : Stream × Frame) : KeepsMarks r.1 r.2 r := ⟨rfl, rfl, rfl, rfl⟩

theorem KeepsMarks.foldl {α : Type} {f : Stream × Frame → α → Stream × Frame} (hf : ∀ x a, KeepsMarks x.1 x.2 (f x a)) (l : List α)
    (r : Stream × Frame) : KeepsMarks r.1 r.2 (l.foldl f r) :=
  List.foldlRecOn (motive := KeepsMarks r.1 r.2) l f (.refl r) fun x hx a _ => hx.trans (hf x a)

/-- The stream is as it was but for its statistics. -/
def OnlyStats (st u : Stream) : Prop := u.handle = st.handle ∧ u.itin = st.itin

theorem OnlyStats.ite {c : Prop} {_ : Decidable c} {u v : Stream} (hu : OnlyStats st u) (hv : OnlyStats st v) : OnlyStats st (if c then u else v) := by
  split
  · exact hu
  · exact hv

theorem putStats_onlyStats (st : Stream) (x : LayerStats) : OnlyStats st (putStats st x) := ⟨rfl, rfl⟩

theorem countInvalid_onlyStats (st : Stream) (it : Itin) (l unit : Nat) (ly : Layer) (b : LayerBody) (inv : List Nat) :
    OnlyStats st (countInvalid st it l unit ly b inv) := .ite (putStats_onlyStats ..) ⟨rfl, rfl⟩

theorem countAppend_onlyStats (st : Stream) (fr : Frame) (l : Nat) (ly : Layer) (a : AttnDecl) (d : Desc) (blocks : List Nat) (ys : List (List F32)) :
    OnlyStats st (countAppend st fr l ly a d blocks ys) :=
  .ite (List.foldlRecOn (motive := OnlyStats st) blocks _ ⟨rfl, rfl⟩ fun _ ht _ _ => ht) ⟨rfl, rfl⟩

theorem commitWrite_keepsMarks (st : Stream) (it : Itin) (fr : Frame) (l t off : Nat) (ly : Layer) (b : LayerBody) (ys : List (List F32)) :
    KeepsMarks st fr (commitWrite st it fr l t off ly b ys) := by
  unfold commitWrite
  simp only
  split
  · exact ⟨rfl, rfl, rfl, rfl⟩
  · exact ⟨rfl, rfl, rfl, rfl⟩

theorem countPart_keepsMarks (st : Stream) (fr : Frame) (l : Nat) (ly : Layer) (d : Desc) (base : Nat) (ys : List (List F32)) :
    KeepsMarks st fr (countPart st fr l ly d base ys) := by
  have hstats : OnlyStats st (countPart st fr l ly d base ys).1 := .ite (putStats_onlyStats ..) ⟨rfl, rfl⟩
  obtain ⟨hhandle, hitin⟩ := hstats
  refine ⟨hhandle, hitin, ?_, ?_⟩
  · unfold countPart
    simp only
    split <;> rfl
  · unfold countPart
    simp only
    split <;> rfl

theorem commitTile_keepsMarks (st : Stream) (it : Itin) (fr : Frame) (l t : Nat) (ly : Layer) (b : LayerBody) (ys : List (List F32)) (tick : Tick) :
    KeepsMarks st fr (commitTile st it fr l t ly b ys tick) := by
  obtain ⟨hhandle, hitin, hsegs, hlast⟩ :=
    countPart_keepsMarks st (makeBlock st it fr l t ly b ys tick) l ly (desc b.desc) (tileBase it.img ly b t) ys
  exact ⟨hhandle, hitin, hsegs, hlast⟩

theorem endInvocation_keepsMarks (st : Stream) (fr : Frame) (ly : Layer) (l : Nat) (d : Desc) (tick : Tick) :
    KeepsMarks st fr (endInvocation st fr ly l d tick) := by
  have hstats : OnlyStats st (endInvocation st fr ly l d tick).1 := .ite (putStats_onlyStats ..) ⟨rfl, rfl⟩
  obtain ⟨hhandle, hitin⟩ := hstats
  exact ⟨hhandle, hitin, rfl, rfl⟩

theorem commitStaged_keepsMarks (st : Stream) (it : Itin) (fr : Frame) (l t : Nat) (ly : Layer) (b : LayerBody) (ys : List (List F32)) (blocks : List Nat) :
    KeepsMarks st fr (commitStaged st it fr l t ly b ys blocks) := by
  unfold commitStaged
  split
  · obtain ⟨hhandle, hitin⟩ := countAppend_onlyStats st fr l ly ‹_› (desc b.desc) blocks ys
    exact ⟨hhandle, hitin, rfl, rfl⟩
  · exact commitWrite_keepsMarks ..
  · exact ⟨rfl, rfl, rfl, rfl⟩

/-- The rows of a layer that is done, normalised where it asks for it. -/
def doneRows (it : Itin) (fr : Frame) (l : Nat) (ly : Layer) (b : LayerBody) : List (List F32) :=
  (stagedRows it.img fr l ly b).map fun row => match b.norm with
    | some x => if bypassed b 7 then row else normalise x row
    | none => row

/-- A layer that is done, its rows appended, made blocks or written. -/
def placed (st : Stream) (it : Itin) (fr : Frame) (home : FabId) (l : Nat) (ly : Layer) (b : LayerBody) (done : Bool) (tick : Tick) : Stream × Frame :=
  let ys := doneRows it fr l ly b
  let part (t : Nat) := ys.map fun row => slice row (tileBase it.img ly b t) (tileWidth it.img ly b t)
  match appendFor it fr ly, ly.writes with
    | some (al, isV, a), _ =>
      (if done then st else countAppend st fr l ly a (desc b.desc) (List.range (ly.width / 32)) ys, commitAppend st fr home ly a al isV ys)
    | none, [] => (List.range (tileCount ly b)).foldl (fun (x : Stream × Frame) t =>
        if done then (x.1, makeBlock x.1 it x.2 l t ly b (part t) tick) else commitTile x.1 it x.2 l t ly b (part t) tick) (st, fr)
    | none, _ => if done then (st, fr) else
        (List.range (tileCount ly b)).foldl (fun (x : Stream × Frame) t => commitStaged x.1 it x.2 l t ly b ys []) (st, fr)

theorem finishLayer_eq (st : Stream) (it : Itin) (fr : Frame) (home : FabId) (l : Nat) (ly : Layer) (b : LayerBody) (done : Bool) (tick : Tick) :
    finishLayer st it fr home l ly b done tick = endInvocation (placed st it fr home l ly b done tick).1
      { (placed st it fr home l ly b done tick).2 with
        staging := (placed st it fr home l ly b done tick).2.staging.filter fun x => x.1.1 != l } ly l (desc b.desc) tick := rfl

theorem placed_keepsMarks (st : Stream) (it : Itin) (fr : Frame) (home : FabId) (l : Nat) (ly : Layer) (b : LayerBody) (done : Bool) (tick : Tick) :
    KeepsMarks st fr (placed st it fr home l ly b done tick) := by
  unfold placed
  simp only
  split
  · have hstats : OnlyStats st (if done then st else countAppend st fr l ly ‹_› (desc b.desc) (List.range (ly.width / 32)) (doneRows it fr l ly b)) :=
      .ite ⟨rfl, rfl⟩ (countAppend_onlyStats ..)
    obtain ⟨hhandle, hitin⟩ := hstats
    exact ⟨hhandle, hitin, rfl, rfl⟩
  · refine KeepsMarks.foldl (fun x t => ?_) _ (st, fr)
    split
    · exact ⟨rfl, rfl, rfl, rfl⟩
    · exact commitTile_keepsMarks ..
  · split
    · exact ⟨rfl, rfl, rfl, rfl⟩
    · exact KeepsMarks.foldl (fun x t => commitStaged_keepsMarks ..) _ (st, fr)

theorem finishLayer_keepsMarks (st : Stream) (it : Itin) (fr : Frame) (home : FabId) (l : Nat) (ly : Layer) (b : LayerBody) (done : Bool) (tick : Tick) :
    KeepsMarks st fr (finishLayer st it fr home l ly b done tick) := by
  rw [finishLayer_eq]
  obtain ⟨hhandle, hitin, hsegs, hlast⟩ := placed_keepsMarks st it fr home l ly b done tick
  generalize placed st it fr home l ly b done tick = r at hhandle hitin hsegs hlast
  obtain ⟨hhandle', hitin', hsegs', hlast'⟩ :=
    endInvocation_keepsMarks r.1 { r.2 with staging := r.2.staging.filter fun x => x.1.1 != l } ly l (desc b.desc) tick
  exact ⟨hhandle'.trans hhandle, hitin'.trans hitin, hsegs'.trans hsegs, hlast'.trans hlast⟩

theorem commitField_keepsMarks (st : Stream) (it : Itin) (fr : Frame) (home : FabId) (sg : Seg) (ch : Chain) (tick : Tick) :
    KeepsMarks st (markCommitted fr sg tick) (commitField st it fr home sg ch tick) := by
  unfold commitField
  simp only
  split
  next => exact ⟨rfl, rfl, rfl, rfl⟩
  next ly _ =>
    obtain ⟨hhandle, hitin⟩ := countInvalid_onlyStats st it sg.layer sg.unit ly (bodyOf ly fr.lean) ch.invalid
    generalize countInvalid st it sg.layer sg.unit ly (bodyOf ly fr.lean) ch.invalid = st1 at hhandle hitin
    have hbase (fr1 : Frame) (hsegs : fr1.segs = (markCommitted fr sg tick).segs) (hlast : fr1.lastCommit = (markCommitted fr sg tick).lastCommit) :
        KeepsMarks st (markCommitted fr sg tick) (st1, fr1) := ⟨hhandle, hitin, hsegs, hlast⟩
    split
    · exact hbase _ rfl rfl
    · split
      · exact hbase _ rfl rfl
      · split
        · have hstaged (fr3 : Frame) (hsegs : fr3.segs = (markCommitted fr sg tick).segs) (hlast : fr3.lastCommit = (markCommitted fr sg tick).lastCommit)
              (c : Bool) (ys : List (List F32)) (blocks : List Nat) : KeepsMarks st (markCommitted fr sg tick)
                (if c then (st1, fr3) else commitStaged st1 it fr3 sg.layer sg.unit ly (bodyOf ly fr.lean) ys blocks) := by
            split
            · exact hbase _ hsegs hlast
            · exact (hbase fr3 hsegs hlast).trans (commitStaged_keepsMarks ..)
          split
          · refine KeepsMarks.trans ?_ (finishLayer_keepsMarks _ _ _ _ _ _ _ _ _)
            refine hstaged _ ?_ ?_ _ _ _ <;> rfl
          · refine hstaged _ ?_ ?_ _ _ _ <;> rfl
        · have htile (fr2 : Frame) (hsegs : fr2.segs = (markCommitted fr sg tick).segs) (hlast : fr2.lastCommit = (markCommitted fr sg tick).lastCommit)
              (ys : List (List F32)) : KeepsMarks st (markCommitted fr sg tick)
                (commitTile st1 it fr2 sg.layer sg.unit ly (bodyOf ly fr.lean) ys tick) :=
            (hbase fr2 hsegs hlast).trans (commitTile_keepsMarks _ _ _ _ _ _ _ _ _)
          split
          · refine KeepsMarks.trans ?_ (endInvocation_keepsMarks _ _ _ _ _ _)
            refine htile _ ?_ ?_ _ <;> rfl
          · refine htile _ ?_ ?_ _ <;> rfl

end

section
variable {s : State} {e : EngineId}

/-! ## Drains -/

theorem exec_bankDrainComplete_of_differs {us : List Upset} {dr : Drain} {f : FieldRun} {it : Itin} {fr : Frame} {b : LayerBody} {w : List Byte}
    {blk : Block} {d : StepData} (hdrain : (s.engines.get e).drain = some dr) (hfield : (s.engines.get e).field = some f)
    (hdata : cursorData s f dr.tile = some (it, fr, b, w, blk, d))
    (hbank : bankOk d.k (upset (perRun d) (s.engines.get e).shadow us) (s.engines.get e).shadowCheck = false) :
    exec (.bankDrainComplete e us) s = .next (engineFault s e 0) := by
  change execBankDrainComplete e us s = _
  simp only [execBankDrainComplete, hdrain, hfield, hdata, hbank, Bool.not_false, if_true]

theorem exec_bankDrainComplete_of_agrees {us : List Upset} {dr : Drain} {f : FieldRun} {it : Itin} {fr : Frame} {b : LayerBody} {w : List Byte}
    {blk : Block} {d : StepData} (hdrain : (s.engines.get e).drain = some dr) (hfield : (s.engines.get e).field = some f)
    (hdata : cursorData s f dr.tile = some (it, fr, b, w, blk, d))
    (hbank : bankOk d.k (upset (perRun d) (s.engines.get e).shadow us) (s.engines.get e).shadowCheck = true) (hpasses : d.passes = 1)
    (hswap : f.swapWanted = false) : exec (.bankDrainComplete e us) s = .next (modEngine s e fun en => { en with
      drain := none, shadow := [], shadowCheck := [], high := []
      chain := combineRun it.img fr.replaced b w blk d dr.run en.high (upset (perRun d) (s.engines.get e).shadow us) en.chain }) := by
  have hpass : (d.passes == 2) = false := by rw [hpasses]; rfl
  change execBankDrainComplete e us s = _
  simp only [execBankDrainComplete, hdrain, hfield, hdata, hbank, hpass, hswap, Bool.not_true, Bool.not_false, Bool.false_and, Bool.false_eq_true,
    if_false, if_true]

/-! ## Commits -/

section
variable {f : FieldRun} (hfield : (s.engines.get e).field = some f) (hdrain : (s.engines.get e).drain = none) (hswap : f.swapWanted = false)
  (htile : f.seg.t0 + f.seg.tn ≤ f.tile)
include hfield hdrain hswap htile

theorem exec_waymarkCommit_of_mismatch : exec (.waymarkCommit e .field true) s = .next (engineFault s e 1) := by
  change execWaymarkCommit e .field true s = _
  simp only [execWaymarkCommit, hfield, hdrain, hswap, decide_eq_false (Nat.not_lt.2 htile), Option.isSome_none, Bool.or_self, Bool.false_eq_true,
    if_false, if_true]

theorem exec_waymarkCommit_of_done {st : Stream} {it : Itin} {fr : Frame} (hof : streamOf s f.stream = some st) (hitin : itinOf s st.itin = some it)
    (hframe : st.frame = some fr) (hattn : isAttn it fr f.seg = false) : exec (.waymarkCommit e .field false) s
      = .next (storeCommit (modEngine s e execWaymarkCommit.emptied') f.stream f.seg.layer fr.pages
        (commitField st it fr s.fabric.id f.seg (s.engines.get e).chain (now s))) := by
  change execWaymarkCommit e .field false s = _
  simp only [execWaymarkCommit, hfield, hdrain, hswap, decide_eq_false (Nat.not_lt.2 htile), Option.isSome_none, Bool.or_self, Bool.false_eq_true,
    if_false, hof, hitin, hframe, hattn, Option.bind_some]

end

/-- With KV pages homed in T1 a commit puts the stream and its frame in place, and besides changes the staged copies alone. -/
theorem storeCommit_of_t1 {h layer : Nat} {before : List KvPage} {r : Stream × Frame} {st : Stream} {it : Itin} (hof : streamOf s h = some st)
    (hhandle : r.1.handle = h) (hitin : itinOf s r.1.itin = some it) (hkv : it.img.kvTier < 2) :
    ∃ staged, storeCommit s h layer before r
      = { modStream s h (fun _ => { r.1 with frame := some r.2 }) with mem := { s.mem with staged := staged } } := by
  have hput : streamOf (modStream s h fun _ => { r.1 with frame := some r.2 }) h = some { r.1 with frame := some r.2 } := streamOf_replace hof hhandle
  have hsealed (staged : List Staged) : moveSealed { modStream s h (fun _ => { r.1 with frame := some r.2 }) with
      mem := { s.mem with staged := staged } } h before = { modStream s h (fun _ => { r.1 with frame := some r.2 }) with
      mem := { s.mem with staged := staged } } := by
    have hput' : streamOf { modStream s h (fun _ => { r.1 with frame := some r.2 }) with mem := { s.mem with staged := staged } } h
        = some { r.1 with frame := some r.2 } := hput
    have hitin' : itinOf { modStream s h (fun _ => { r.1 with frame := some r.2 }) with mem := { s.mem with staged := staged } } r.1.itin = some it := hitin
    simp only [moveSealed, hput', hitin', Option.bind_some, hkv, if_true]
  unfold storeCommit
  simp only
  split
  · exact ⟨_, hsealed _⟩
  · exact ⟨_, hsealed s.mem.staged⟩

end

/-- Settles O34. -/
theorem drainsAndCommits : Obligations.DrainsAndCommits := by
  refine ⟨?drain, ?commit, ?mismatch⟩
  case drain =>
    intro e us s dr f it fr b w blk d hdrain hfield hdata
    refine ⟨fun hbank hlife hhas hfree hne => ?_, fun hbank hpasses hswap => ?_⟩
    · obtain ⟨hretired, hengaged, -⟩ := engineFault_of_free 0 (by rw [hlife]; exact Life.noConfusion) hhas hne hfree
      exact ⟨_, exec_bankDrainComplete_of_differs hdrain hfield hdata hbank, hretired, hengaged⟩
    · refine ⟨_, exec_bankDrainComplete_of_agrees hdrain hfield hdata hbank hpasses hswap, modEngine_onlyEngine _, ?_⟩
      rw [engine_modEngine]
      exact ⟨rfl, rfl⟩
  case commit =>
    intro e s f st it fr hfield hdrain hswap htile hof hitin hframe hattn hkv
    have hrun := exec_waymarkCommit_of_done hfield hdrain hswap htile hof hitin hframe hattn
    have hkept := commitField_keepsMarks st it fr s.fabric.id f.seg (s.engines.get e).chain (now s)
    generalize commitField st it fr s.fabric.id f.seg (s.engines.get e).chain (now s) = r at hrun hkept
    obtain ⟨hhandle, hitin', hsegs, hlast⟩ := hkept
    have hhandle' : r.1.handle = f.stream := hhandle.trans (by simpa using List.find?_some hof)
    obtain ⟨staged, heq⟩ := storeCommit_of_t1 (s := modEngine s e execWaymarkCommit.emptied') (layer := f.seg.layer) (before := fr.pages) hof hhandle'
      (by rw [hitin']; exact hitin) hkv
    rw [heq] at hrun
    have hput : streamOf (modStream s f.stream fun _ => { r.1 with frame := some r.2 }) f.stream = some { r.1 with frame := some r.2 } :=
      streamOf_replace hof hhandle'
    refine ⟨_, r.2, hrun, ?_, fun x hx => ?_, fun _ => rfl, ?_, hlast, hsegs⟩
    · exact congrArg Engine.field (engine_modEngine _)
    · exact vget_vmod_other _ _ hx
    · exact congrArg (Option.bind · (·.frame)) hput
  case mismatch =>
    intro e s f hfield hdrain hswap htile hlife hhas hfree hne
    obtain ⟨hretired, -, -⟩ := engineFault_of_free 1 (by rw [hlife]; exact Life.noConfusion) hhas hne hfree
    exact ⟨_, exec_waymarkCommit_of_mismatch hfield hdrain hswap htile, hretired⟩

end Sys2Proof.Proofs
end

section
/-! PROOFS. Segments and frames. -/

namespace Sys2Proof.Proofs

open Sys2Proof Sys2Proof.Machine Sys2Proof.Safety Sys2Proof.Laws

set_option Elab.async false

section
variable {s : State} {st : Stream} {it : Itin}

theorem handle_of_streamOf {h : Nat} (hof : streamOf s h = some st) : st.handle = h := by simpa using List.find?_some hof

/-! ## The start of a segment -/

/-- A field segment that starts, at its first tile step. -/
def startedRun (e : EngineId) (st : Stream) (sg : Seg) : FieldRun :=
  { stream := st.handle, seg := { sg with st := .running, engine := e }, tile := sg.t0, pass := 0, run := 0, inStep := 0, bit := 0, swapWanted := false }

theorem beginSeg_of_field {e : EngineId} {fr : Frame} {sg : Seg} (hres : sg.res = .field) : beginSeg s e st it fr sg
    = modEngine (modFrame s st.handle fun fr => modSeg fr sg fun g => { g with st := .running, engine := e }) e fun en => { en with
        field := some (startedRun e st sg)
        acc := (freshBanks (modFrame s st.handle fun fr => modSeg fr sg fun g => { g with st := .running, engine := e }) (startedRun e st sg)).1
        check := (freshBanks (modFrame s st.handle fun fr => modSeg fr sg fun g => { g with st := .running, engine := e }) (startedRun e st sg)).2
        chain := startChain st it fr sg, high := [] } := by
  unfold beginSeg
  simp only [hres, startedRun]

theorem exec_segmentStart_of_ready {e : EngineId} {sg : Seg} {fr : Frame} (hservice : inService s e = true)
    (hfree : resFree (s.engines.get e) .field = true) (hchange : s.power.change = none) (hnext : nextSeg s e .field = some (st, sg))
    (hof : streamOf s st.handle = some st) (hitin : itinOf s st.itin = some it) (hframe : st.frame = some fr)
    (hstarted : fr.started.contains sg.layer = true) (hfault : fr.fault = none) (hmoves : movesDone s st it fr sg = true)
    (hattn : isAttn it fr sg = false) (hdamaged : damagedItem s it fr sg = none) :
    exec (.segmentStart e .field) s = .next (beginSeg s e st it fr sg) := by
  have hfield : (Res.field == Res.attn) = false := rfl
  change execSegmentStart e .field s = _
  simp only [execSegmentStart, hservice, hfree, hchange, hnext, hof, hitin, hframe, hstarted, hfault, hmoves, hattn, hdamaged, hfield, Option.bind_some,
    Option.isSome_none, Bool.not_true, Bool.or_self, Bool.false_and, Bool.false_eq_true, if_false, if_true]

/-! ## The lay-by engine -/

theorem laybyFailed_keeps (cause : Nat) (detail : Byte) : ((laybyFailed s cause detail).engines.get 6).life = .selfTestFailed
    ∧ (laybyFailed s cause detail).streams = s.streams ∧ ∀ x, x ≠ 6 → (laybyFailed s cause detail).engines.get x = s.engines.get x := by
  have hengines : (laybyFailed s cause detail).engines = vmod s.engines 6 fun en => { emptied en with life := .selfTestFailed, selfTest := none } := by
    rw [laybyFailed, postEvent, postEventAt, faultStanding_only]
    rfl
  have hstreams : (laybyFailed s cause detail).streams = s.streams := by
    rw [laybyFailed, postEvent, postEventAt, faultStanding_only]
    rfl
  rw [hengines]
  exact ⟨congrArg Engine.life (vget_vmod_same ..), hstreams, fun x hx => vget_vmod_other _ _ hx⟩

/-! ## The release of a frame -/

theorem returnBoost_of_none (s : State) : returnBoost s false = s := by simp [returnBoost]

/-- The state in which a stream has no measure in force. -/
def unmeasured (s : State) (h : Nat) : State := modStream s h fun t => { t with active := [] }

/-- Without a measure in force none is dropped. -/
theorem dropMeasures_of_none (hactive : st.active = []) : dropMeasures s st = unmeasured s st.handle := by
  simp only [dropMeasures, hactive, List.filter_nil, List.contains_nil, Bool.false_and, returnBoost_of_none, unmeasured]

theorem exec_frameRelease_of_due {h : Nat} {f : Feed} {fs : List Feed} (hof : streamOf s h = some st) (hitin : itinOf s st.itin = some it)
    (hrelease : st.nextRelease = some (now s)) (hfeeds : st.feeds = f :: fs) (hready : ready s = true) (hframe : st.frame = none) (hlost : st.st ≠ .lost)
    (hresuming : st.st ≠ .resuming) (hpostponed : postponed s st = false) (hback : f.backward = false) :
    exec (.frameRelease h) s = .next (releaseNow s st it f) := by
  have hreached : reached s (now s) = true := by simp [reached, elapsed, apart]
  change execFrameRelease h s = _
  simp only [execFrameRelease, hof, Option.bind_some, hitin, hrelease, hfeeds, hready, hframe, beq_false_of_ne hlost, beq_false_of_ne hresuming,
    hreached, hpostponed, hback, Bool.not_true, Option.isSome_none, Bool.or_self, Bool.false_and, Bool.false_eq_true, if_false, beq_self_eq_true, if_true]

/-- The frame that a feed starts. -/
def releasedFrame (s : State) (st : Stream) (it : Itin) (f : Feed) : Frame :=
  { newFrame s st it f with segs := frameSegs st it (newFrame s st it f) }

/-- A stream that has released its first feed's frame, of a forward step. -/
def withReleased (fr : Frame) (t : Stream) : Stream :=
  { t with feeds := t.feeds.drop 1, nextRelease := none, frame := some fr, rowRecords := [], kept := none, rowsBad := none }

theorem streamOf_unmeasured {h : Nat} (hof : streamOf s h = some st) (hactive : st.active = []) : streamOf (unmeasured s h) h = some st := by
  have hsame : ({ st with active := [] } : Stream) = st := by rw [← hactive]
  have hchanged := streamOf_modStream_same (f := fun t => { t with active := [] }) hof fun _ => rfl
  exact hchanged.trans (congrArg some hsame)

theorem streamOf_unmeasured_other {h k : Nat} (hk : k ≠ h) : streamOf (unmeasured s h) k = streamOf s k := streamOf_modStream_other hk fun _ => rfl

theorem releaseNow_of_forward {f : Feed} {h : Nat} (hof : streamOf s h = some st) (hactive : st.active = []) (hcatchup : st.catchup = false)
    (hback : f.backward = false) (hserving : servingEngines s ≠ []) :
    releaseNow s st it f = modStream (unmeasured s h) h (withReleased (releasedFrame (unmeasured s h) st it f)) := by
  have hhandle := handle_of_streamOf hof
  have hdropped := dropMeasures_of_none (s := s) hactive
  rw [hhandle] at hdropped
  have hof' := streamOf_unmeasured hof hactive
  have hserving' (g : Stream → Stream) : servingEngines (modStream (unmeasured s h) h g) = servingEngines s := rfl
  have hsome : (servingEngines s).isEmpty = false := List.isEmpty_eq_false_iff.2 hserving
  unfold releaseNow
  simp only [hhandle, hdropped, hcatchup, Bool.and_false, Bool.false_and, Bool.false_eq_true, if_false, hof', hback, hserving', hsome]
  rfl

theorem newFrame_of_forward {f : Feed} (hback : f.backward = false) : (releasedFrame s st it f).slot = f.slot ∧ (releasedFrame s st it f).release = now s
    ∧ (releasedFrame s st it f).feed = f ∧ (releasedFrame s st it f).deadline = st.deadline ∧ (releasedFrame s st it f).lengths = st.lengths
    ∧ (releasedFrame s st it f).fault = none := by
  simp [releasedFrame, newFrame, hback]

/-! ## The end of a frame -/

/-- The stream as it was but for the energy it has used. -/
def OnlyEnergy (st u : Stream) : Prop := u = { st with energyPj := u.energyPj, chargePj := u.chargePj }

theorem chargedBy_onlyEnergy (s : State) (pj : Nat) (st : Stream) : OnlyEnergy st (chargedBy s pj st) := by
  unfold chargedBy
  split <;> rfl

/-- What the outputs of a frame written touch: its stream's energy, and what leaves the die. -/
theorem writeOutputs_keeps {h : Nat} {fr : Frame} (hof : streamOf s h = some st) : (writeOutputs s st it fr).mem = s.mem
    ∧ (writeOutputs s st it fr).host = s.host ∧ (writeOutputs s st it fr).audio = s.audio ∧ OtherStreams s (writeOutputs s st it fr) h
    ∧ ∃ u, streamOf (writeOutputs s st it fr) h = some u ∧ OnlyEnergy st u := by
  unfold writeOutputs
  simp only
  split
  · exact ⟨rfl, rfl, rfl, fun _ _ => rfl, st, hof, rfl⟩
  · rw [handle_of_streamOf hof]
    refine ⟨rfl, rfl, rfl, fun k hk => ?_, ?_⟩
    · exact streamOf_chargeStream_other hk
    · exact ⟨_, streamOf_chargeStream hof, chargedBy_onlyEnergy _ _ _⟩

/-- A stream whose frame is over (R213, R225). -/
def afterFrame (it : Itin) (fr : Frame) (t : Stream) : Stream :=
  let a := if fr.fault.isNone then advanceStream it fr t else t
  { a with
    frame := none, finished := t.finished + 1, late := t.late + b2n (fr.deadline != 0 && decide (fr.slot + fr.deadline < fr.lastCommit))
    prevRelease := fr.release, minRelease := fr.lastCommit
    drainedFrames := t.drainedFrames + b2n (t.st == .draining), st := if t.period == 0 && t.st == .running then .drained else t.st }

/-- What an advance leaves of a stream. -/
theorem advanceStream_keeps (it : Itin) (fr : Frame) (t : Stream) : (advanceStream it fr t).handle = t.handle ∧ (advanceStream it fr t).feeds = t.feeds
    ∧ (advanceStream it fr t).snapping = t.snapping ∧ (advanceStream it fr t).advances = t.advances + 1 := by
  unfold advanceStream
  split <;> exact ⟨rfl, rfl, rfl, rfl⟩

theorem afterFrame_keeps (it : Itin) (fr : Frame) (t : Stream) : (afterFrame it fr t).handle = t.handle ∧ (afterFrame it fr t).feeds = t.feeds
    ∧ (afterFrame it fr t).snapping = t.snapping ∧ (fr.fault = none → (afterFrame it fr t).advances = t.advances + 1) := by
  obtain ⟨hhandle, hfeeds, hsnapping, hadvances⟩ := advanceStream_keeps it fr t
  unfold afterFrame
  cases hfault : fr.fault with
  | none => exact ⟨hhandle, hfeeds, hsnapping, fun _ => hadvances⟩
  | some x => exact ⟨rfl, rfl, rfl, fun h => absurd h (Option.some_ne_none x)⟩

theorem completionTag (m : MailCmd) (code opcode result : Nat) : fld (cmpEntry (mailTag m) code opcode 0 result) 0 2 = mailTag m := by
  have htag : mailTag m < 2 ^ 16 := Nat.mod_lt _ (by decide)
  simp only [fld, cmpEntry_toNat, Nat.shiftRight_eq_div_pow]
  omega

theorem completionStatus (m : MailCmd) (code opcode result : Nat) : fld (cmpEntry (mailTag m) code opcode 0 result) 2 1 = code % 256 := by
  have htag : mailTag m < 2 ^ 16 := Nat.mod_lt _ (by decide)
  simp only [fld, cmpEntry_toNat, Nat.shiftRight_eq_div_pow]
  omega

/-- A running stream with no feeds, snapshot or audio output has nothing left to do as its frame ends but to complete its command. -/
theorem exec_frameFinish_of_over {h : Nat} {fr : Frame} {m : MailCmd} {t : State} {u : Stream} (hof : streamOf s h = some st)
    (hitin : itinOf s st.itin = some it) (hframe : st.frame = some fr) (hcmd : fr.feed.cmd = some m) (hready : ready s = true)
    (hover : frameOver fr = true) (hquiet : fr.quiet = false) (hevery : fr.snapEvery = 0) (hcatch : fr.catchH = none)
    (ht : (if fr.fault.isNone then writeOutputs (applyWrites s it fr) st it fr else s) = t) (hu : streamOf t h = some u)
    (hbind : bindOf t h false = none) (hfeeds : u.feeds = []) (hsnapping : u.snapping = none) (hst : u.st = .running) (hperiod : u.period ≠ 0) :
    exec (.frameFinish h) s = .next (completeCode (modStream t h (afterFrame it fr)) m (frameStatus fr) (frameResult st fr)) := by
  have hhandle := handle_of_streamOf hof
  obtain ⟨-, hfeeds', hsnapping', -⟩ := afterFrame_keeps it fr u
  have hrunning : (afterFrame it fr u).st = .running := by simp [afterFrame, hst, hperiod]
  have hafter : streamOf (modStream t h (afterFrame it fr)) h = some (afterFrame it fr u) :=
    streamOf_modStream_same hu fun x => (afterFrame_keeps it fr x).1
  have haudio : audioResult (modStream t h (afterFrame it fr)) st it fr = modStream t h (afterFrame it fr) := by
    have hbind' : bindOf (modStream t h (afterFrame it fr)) st.handle false = none := by rw [hhandle]; exact hbind
    simp only [audioResult, hbind']
  have hcapture (good : Bool) : captureDue (modStream t h (afterFrame it fr)) h good fr.snapEvery fr.snapRegion = modStream t h (afterFrame it fr) := by
    simp [captureDue, hafter, hsnapping', hsnapping, hevery]
  have hfix : tryFix (modStream t h (afterFrame it fr)) h = modStream t h (afterFrame it fr) := tryFix_of_no_feeds hafter (hfeeds'.trans hfeeds)
  have hcomplete : completeFrame (modStream t h (afterFrame it fr)) st fr
      = completeCode (modStream t h (afterFrame it fr)) m (frameStatus fr) (frameResult st fr) := by
    simp only [completeFrame, hquiet, Bool.false_and, Bool.false_eq_true, if_false, completeFeed, hcmd]
  have hdrain : drainCheck (completeCode (modStream t h (afterFrame it fr)) m (frameStatus fr) (frameResult st fr)) h
      = completeCode (modStream t h (afterFrame it fr)) m (frameStatus fr) (frameResult st fr) := by
    have hafter' : streamOf (completeCode (modStream t h (afterFrame it fr)) m (frameStatus fr) (frameResult st fr)) h = some (afterFrame it fr u) := hafter
    simp [drainCheck, hafter', hrunning]
  have hrun : exec (.frameFinish h) s = .next (drainCheck (completeFrame (tryFix (captureDue
      (audioResult (modStream t h (afterFrame it fr)) st it fr) h fr.fault.isNone fr.snapEvery fr.snapRegion) h) st fr) h) := by
    change execFrameFinish h s = _
    simp only [execFrameFinish, hof, Option.bind_some, hitin, hframe, hready, hover, hcatch, Bool.not_true, Bool.or_self, Bool.false_eq_true, if_false, ht]
    rfl
  rw [hrun, haudio, hcapture, hfix, hcomplete, hdrain]

end

/-- Settles O35. -/
theorem segmentsAndFramesRun : Obligations.SegmentsAndFramesRun := by
  refine ⟨?start, ?held, ?test, ?done, ?release, ?early, ?empty, ?finish⟩
  case start =>
    intro e s st sg it fr hservice hfree hchange hnext hres hof hitin hframe hstarted hfault hmoves hattn hdamaged
    have hrun := exec_segmentStart_of_ready hservice hfree hchange hnext hof hitin hframe hstarted hfault hmoves hattn hdamaged
    rw [beginSeg_of_field hres] at hrun
    refine ⟨_, startedRun e st sg, hrun, ?_, rfl, rfl, rfl, fun x hx => vget_vmod_other _ _ hx, rfl, fun k hk => ?_⟩
    · exact congrArg Engine.field (engine_modEngine _)
    · exact streamOf_modStream_other hk fun _ => rfl
  case held =>
    intro e r s c hchange hphase
    have hphase' : (c.phase == .approach || c.phase == .stop) = true := by rcases hphase with h | h <;> rw [h] <;> rfl
    change execSegmentStart e r s = _
    simp only [execSegmentStart, hchange, hphase', Bool.or_true, if_true]
  case test =>
    intro s hlife htest hready hdue
    have hdue' : (s.fw.laybyTested && !passed s (s.engines.get 6).testAt 16777216) = false := by rcases hdue with h | h <;> simp [h]
    change execLaybySelfTest s = _
    simp only [execLaybySelfTest, hlife, htest, hready, hdue', bne_self_eq_false, Option.isSome_none, Bool.not_true, Bool.or_self, Bool.false_eq_true, if_false]
  case done =>
    intro detail s hlife htest
    refine ⟨fun htested => ?_, ?_⟩
    · change execLaybySelfTestDone true detail s = _
      simp only [execLaybySelfTestDone, hlife, htest, htested, bne_self_eq_false, Bool.or_self, Bool.false_eq_true, if_false, if_true]
    · have hrun : exec (.laybySelfTestDone false detail) s
          = .next { laybyFailed s 4 detail with fw := { (laybyFailed s 4 detail).fw with laybyTested := true } } := by
        change execLaybySelfTestDone false detail s = _
        simp only [execLaybySelfTestDone, hlife, htest, bne_self_eq_false, Bool.or_self, Bool.false_eq_true, if_false]
      obtain ⟨hfailed, hstreams, hother⟩ := laybyFailed_keeps (s := s) 4 detail
      exact ⟨_, hrun, hfailed, hstreams, hother, rfl⟩
  case release =>
    intro h s st it f fs hof hitin hrelease hfeeds hready hframe hlost hresuming hpostponed hback hcatchup hactive hserving
    have hrun := exec_frameRelease_of_due hof hitin hrelease hfeeds hready hframe hlost hresuming hpostponed hback
    rw [releaseNow_of_forward hof hactive hcatchup hback hserving] at hrun
    obtain ⟨hslot, hat, hfeed, hdeadline, hlengths, hfault⟩ :=
      newFrame_of_forward (s := unmeasured s h) (st := st) (it := it) hback
    generalize releasedFrame (unmeasured s h) st it f = fr at *
    have hreleased : streamOf (modStream (unmeasured s h) h (withReleased fr)) h = some (withReleased fr st) :=
      streamOf_modStream_same (streamOf_unmeasured hof hactive) fun _ => rfl
    refine ⟨_, fr, _, hrun, rfl, fun k hk => ?_, hreleased, rfl, ?_, rfl, hslot, hat, hfeed, hdeadline, hlengths, hfault⟩
    · exact (streamOf_modStream_other (f := withReleased fr) hk fun _ => rfl).trans (streamOf_unmeasured_other hk)
    · simp [withReleased, hfeeds]
  case early =>
    intro h s st r hof hrelease hearly
    change execFrameRelease h s = _
    cases hitin : itinOf s st.itin with
    | none => simp only [execFrameRelease, hof, Option.bind_some, hitin]
    | some it =>
      cases hfeeds : st.feeds with
      | nil => simp only [execFrameRelease, hof, Option.bind_some, hitin, hrelease, hfeeds]
      | cons f fs =>
        simp only [execFrameRelease, hof, Option.bind_some, hitin, hrelease, hfeeds, hearly, Bool.not_false, Bool.or_true, Bool.true_or, if_true]
  case empty =>
    intro h s st hof hstarted hperiod hfeeds hst hbind hreached
    have hrun : exec (.emptySlot h) s = .next (modStream s h fun x => { x with
        emptySlots := x.emptySlots + 1, prevSlot := some (nextSlot s st st.prevSlot 0) }) := by
      change execEmptySlot h s = _
      simp [execEmptySlot, hof, hstarted, hperiod, hfeeds, hst, hbind, hreached]
    refine ⟨_, hrun, rfl, fun k hk => streamOf_modStream_other hk fun _ => rfl, streamOf_modStream_same hof fun _ => rfl⟩
  case finish =>
    intro h s st it fr m hof hitin hframe hcmd hready hover hquiet hfeeds hsnapping hevery hwrites hbind hcatchup hcatch hst hperiod
    have happly : applyWrites s it fr = s := by simp [applyWrites, hwrites]
    obtain ⟨t, ht, hmem, hhost, haudio, hother, u, hu, henergy⟩ : ∃ t, (if fr.fault.isNone then writeOutputs (applyWrites s it fr) st it fr else s) = t
        ∧ t.mem = s.mem ∧ t.host = s.host ∧ t.audio = s.audio ∧ OtherStreams s t h ∧ ∃ u, streamOf t h = some u ∧ OnlyEnergy st u := by
      rw [happly]
      split
      · exact ⟨_, rfl, writeOutputs_keeps hof⟩
      · exact ⟨_, rfl, rfl, rfl, rfl, fun _ _ => rfl, st, hof, rfl⟩
    have hbind' : bindOf t h false = none := by
      rw [← hbind]
      simp only [bindOf, haudio]
    have hkept : u.feeds = st.feeds ∧ u.snapping = st.snapping ∧ u.st = st.st ∧ u.period = st.period ∧ u.finished = st.finished ∧ u.advances = st.advances := by
      rw [henergy]
      exact ⟨rfl, rfl, rfl, rfl, rfl, rfl⟩
    obtain ⟨hfeeds', hsnapping', hst', hperiod', hfinished, hadvances⟩ := hkept
    obtain ⟨-, -, -, hadvanced⟩ := afterFrame_keeps it fr u
    have hrun := exec_frameFinish_of_over hof hitin hframe hcmd hready hover hquiet hevery hcatch ht hu hbind' (hfeeds'.trans hfeeds)
      (hsnapping'.trans hsnapping) (hst'.trans hst) (by rw [hperiod']; exact hperiod)
    refine ⟨_, afterFrame it fr u, _, hrun, fun k hk => ?_, streamOf_modStream_same hu fun x => (afterFrame_keeps it fr x).1, rfl, ?_, rfl, rfl,
      fun hfault => ?_, congrArg (·.outbox ++ _) hhost, rfl, ?_, ?_, hmem⟩
    · exact (streamOf_modStream_other hk fun x => (afterFrame_keeps it fr x).1).trans (hother k hk)
    · exact congrArg (· + 1) hfinished
    · exact (hadvanced hfault).trans (congrArg (· + 1) hadvances)
    · exact completionTag m _ _ _
    · exact completionStatus m _ _ _

end Sys2Proof.Proofs
end

section
/-! PROOFS. Resumed and lost streams, and the audio ports' blocks, frames and clocks. -/

namespace Sys2Proof.Proofs

open Sys2Proof Sys2Proof.Machine Sys2Proof.Safety Sys2Proof.Laws

set_option Elab.async false

section
variable {s : State} {st : Stream} {it : Itin} {h : Nat}

/-! ## RESUME_COMPLETE -/

/-- A stream that runs again with a snapshot's state. -/
def resumedFrom (s : State) (it : Itin) (x : Snapshot) (y : Stream) : Stream :=
  { restore s it x y with
    st := if y.drainCmd.isSome then .draining else .running, n0 := now s + 1024, debt := 0, prevSlot := none, prevRelease := 0, minRelease := 0
    maxDebt := 0, cuFrames := 0, advances := x.advances }

/-- The state in which a stream without feeds runs again, and the host is told. -/
def resumed (s : State) (h : Nat) (st : Stream) (it : Itin) (x : Snapshot) : State :=
  postEvent (modStream (modStream s h (resumedFrom s it x)) h fun z => { z with feeds := [], prevSlot := none }) 0x41
    (put 16 2 h + put 18 2 s.fabric.id.toNat + put 20 8 x.snapSlot + put 28 8 (now s + 1024) + put 36 4 (st.advances - x.advances))

theorem streamOf_resumed (hof : streamOf s h = some st) (x : Snapshot) : streamOf (resumed s h st it x) h
    = some { resumedFrom s it x st with feeds := [], prevSlot := none } := by
  have hfirst : streamOf (modStream s h (resumedFrom s it x)) h = some (resumedFrom s it x st) := streamOf_modStream_same hof fun _ => rfl
  exact streamOf_modStream_same (f := fun z => { z with feeds := [], prevSlot := none }) hfirst fun _ => rfl

theorem drainCheck_of_running (hof : streamOf s h = some st) (hst : st.st = .running) : drainCheck s h = s := by
  simp [drainCheck, hof, hst]

theorem exec_resumeComplete_of_read {r : Region} {x : Snapshot} (hof : streamOf s h = some st) (hitin : itinOf s st.itin = some it)
    (hst : st.st = .resuming) (hregion : regionOf s st.snapRegion = some r) (hfault : regionFault s r = none)
    (hread : readStatus s (regionAddr s r) r.bytes .ok = none) (hsnap : newestSnap s r.tier (regionAddr s r) = some x)
    (haudio : audioBound s h = false) (hfeeds : st.feeds = []) (hdrain : st.drainCmd = none) :
    exec (.resumeComplete h .ok) s = .next (resumed s h st it x) := by
  have hgrid : gridOf s h = none := by simpa [audioBound] using haudio
  have hfirst : streamOf (modStream s h (resumedFrom s it x)) h = some (resumedFrom s it x st) := streamOf_modStream_same hof fun _ => rfl
  have hassign : assignAll (modStream s h (resumedFrom s it x)) (resumedFrom s it x st) = ([], none) := by
    change List.foldl _ ([], none) st.feeds = _
    rw [hfeeds, List.foldl_nil]
  have hafter := streamOf_resumed (it := it) hof x
  have hfix : tryFix (resumed s h st it x) h = resumed s h st it x := tryFix_of_no_feeds hafter rfl
  have hcheck : drainCheck (resumed s h st it x) h = resumed s h st it x := by
    refine drainCheck_of_running hafter ?_
    simp [resumedFrom, hdrain]
  have hrun : exec (.resumeComplete h .ok) s = .next (drainCheck (tryFix (postEvent (match streamOf (modStream s h (resumedFrom s it x)) h with
      | some y => modStream (modStream s h (resumedFrom s it x)) h fun z => { z with
          feeds := (assignAll (modStream s h (resumedFrom s it x)) y).1, prevSlot := (assignAll (modStream s h (resumedFrom s it x)) y).2 }
      | none => modStream s h (resumedFrom s it x)) 0x41 (put 16 2 h + put 18 2 s.fabric.id.toNat + put 20 8 x.snapSlot
        + put 28 8 (now s + 1024) + put 36 4 (st.advances - x.advances))) h) h) := by
    change execResumeComplete h .ok s = _
    simp only [execResumeComplete, hof, Option.bind_some, hitin, hst, bne_self_eq_false, hregion, Option.filter_some, hfault, hread, Option.isNone_none,
      Bool.and_self, if_true, hsnap, haudio, Bool.false_eq_true, if_false, hgrid] <;> rfl
  rw [hrun, hfirst]
  simp only [hassign]
  change Host.Outcome.next (drainCheck (tryFix (resumed s h st it x) h) h) = _
  rw [hfix, hcheck]

/-! ## The loss of a stream -/

/-- Other streams are as they were, the stream is still there, and the host is owed no less. -/
structure Losing (h : Nat) (s t : State) : Prop where
  others : OtherStreams s t h
  present : (streamOf t h).isSome = (streamOf s h).isSome
  owed : s.host.outbox.length ≤ t.host.outbox.length

theorem Losing.refl (h : Nat) (s : State) : Losing h s s := ⟨fun _ _ => rfl, rfl, Nat.le_refl _⟩

theorem Losing.trans {t u : State} (hst : Losing h s t) (htu : Losing h t u) : Losing h s u :=
  ⟨fun k hk => (htu.others k hk).trans (hst.others k hk), htu.present.trans hst.present, hst.owed.trans htu.owed⟩

theorem Losing.of_same {t : State} (hstreams : t.streams = s.streams) (hhost : t.host = s.host) : Losing h s t :=
  ⟨fun k _ => by rw [streamOf, hstreams]; rfl, by rw [streamOf, hstreams]; rfl, by rw [hhost]⟩

theorem Losing.foldl {α : Type} {f : State → α → State} (hf : ∀ t a, Losing h t (f t a)) (l : List α) (s : State) : Losing h s (l.foldl f s) :=
  List.foldlRecOn (motive := Losing h s) l f (.refl h s) fun t ht a _ => ht.trans (hf t a)

theorem modStream_losing {f : Stream → Stream} (hf : ∀ x, (f x).handle = x.handle) : Losing h s (modStream s h f) := by
  refine ⟨fun k hk => streamOf_modStream_other hk hf, ?_, Nat.le_refl _⟩
  rw [streamOf_modStream _ _ _ _ hf, if_pos rfl, Option.isSome_map]

theorem completeFeed_outbox (s : State) (st : Stream) (f : Feed) (code result : Nat) :
    (completeFeed s st f code result).host.outbox.length = s.host.outbox.length + 1 := by
  unfold completeFeed
  split <;> simp [completeCode_host]

theorem completeFeed_losing (s : State) (st : Stream) (f : Feed) (code result : Nat) : Losing h s (completeFeed s st f code result) := by
  have hstreams : (completeFeed s st f code result).streams = s.streams := by
    unfold completeFeed
    split <;> rfl
  exact ⟨fun k _ => by rw [streamOf, hstreams]; rfl, by rw [streamOf, hstreams]; rfl, by rw [completeFeed_outbox]; exact Nat.le_succ _⟩

theorem completeFeeds_outbox (st : Stream) (code : Nat) (result : Feed → Nat) (l : List Feed) (s : State) :
    (l.foldl (fun x f => completeFeed x st f code (result f)) s).host.outbox.length = s.host.outbox.length + l.length := by
  induction l generalizing s with
  | nil => rfl
  | cons f r ih =>
    rw [List.foldl_cons, ih, completeFeed_outbox, List.length_cons]
    omega

theorem refetch_keeps (items : List (Nat × Nat)) (s : State) : (refetch s h items).streams = s.streams ∧ (refetch s h items).host = s.host := by
  refine List.foldlRecOn (motive := fun t : State => t.streams = s.streams ∧ t.host = s.host) items _ ⟨rfl, rfl⟩ fun t ht x _ => ?_
  split
  · exact ht
  · exact ht

theorem faultFrame_losing (s : State) (h : Nat) (f : Frame → Frame) : Losing h s (clearStream (modFrame s h f) h) :=
  .trans (t := modFrame s h f) (modStream_losing fun _ => rfl) (.of_same rfl rfl)

theorem staging_losing (s : State) (moves : List Move) (staged : List Staged) :
    Losing h s { s with mem := { s.mem with moves := moves, staged := staged } } := .of_same rfl rfl

theorem dropOutstanding_losing (s : State) (move : Nat) : Losing h s (dropOutstanding s move) := .of_same rfl rfl

theorem endFrame_losing (s : State) (h : Nat) (x : Status) (tier kind : Nat) (info : W64) : Losing h s (endFrame s h x tier kind info) := by
  unfold endFrame
  split
  · simp only
    split
    · exact .refl h s
    · refine .trans ?_ (.of_same (refetch_keeps _ _).1 (refetch_keeps _ _).2)
      refine .trans ?_ (.foldl (fun t _ => dropOutstanding_losing t _) _ _)
      exact (faultFrame_losing _ _ _).trans (staging_losing _ _ _)
  · exact .refl h s

theorem cutFrame_losing (s : State) (h : Nat) (x : Status) (tier kind : Nat) (info : W64) : Losing h s (cutFrame s h x tier kind info) := by
  unfold cutFrame
  simp only
  split
  · exact endFrame_losing ..
  · split
    · exact endFrame_losing ..
    · refine .trans (.trans (endFrame_losing s h x tier kind info) ?_) (completeFeed_losing _ _ _ _ _)
      exact modStream_losing fun _ => rfl

theorem complete_losing (s : State) (m : MailCmd) (x : Status) (result : Nat) : Losing h s (complete s m x result) :=
  ⟨fun _ _ => rfl, rfl, by simp [complete, completeCode_host]⟩

/-- A stream that is lost. -/
def asLost (die : FabId) (x : Stream) : Stream :=
  { x with st := .lost, feeds := [], nextRelease := none, drainCmd := none, snapping := none, catchup := false, active := [], used := [], lostDie := die }

/-- A stream that is lost has no feeds, each of them completed, and the host is told. -/
theorem loseStream_of_present {cause tier kind : Nat} {die : FabId} {x : Status} {info : W64} (hof : streamOf s h = some st) (hlost : st.st ≠ .lost) :
    OtherStreams s (loseStream s h cause die x tier kind info) h
    ∧ (∃ u, streamOf (loseStream s h cause die x tier kind info) h = some u ∧ u.st = .lost ∧ u.feeds = [])
    ∧ s.host.outbox.length + st.feeds.length < (loseStream s h cause die x tier kind info).host.outbox.length := by
  unfold loseStream
  simp only [hof, beq_false_of_ne hlost, Bool.false_eq_true, if_false]
  have htold : Losing h s (postEvent s 0x40 (put 16 2 h + put 18 1 cause + put 20 2 die.toNat
      + put 22 2 (st.feeds.length + b2n st.frame.isSome + b2n st.drainCmd.isSome + b2n (st.snapping.bind (·.2)).isSome) + put 24 8 st.lastAdvSlot)) :=
    ⟨fun _ _ => rfl, rfl, postEvent_owesMore _ _ _⟩
  have howed := postEvent_outbox_length s 0x40 (put 16 2 h + put 18 1 cause + put 20 2 die.toNat
      + put 22 2 (st.feeds.length + b2n st.frame.isSome + b2n st.drainCmd.isSome + b2n (st.snapping.bind (·.2)).isSome) + put 24 8 st.lastAdvSlot)
  generalize postEvent s 0x40 _ = s1 at htold howed ⊢
  have hcut := cutFrame_losing s1 h x tier kind info
  generalize cutFrame s1 h x tier kind info = s2 at hcut ⊢
  have hfeeds : Losing h s2 (st.feeds.foldl (fun y f => completeFeed y st f Status.streamLost.code (faultResult f.slot (b2n st.demoted * 8) 0 0 7 0 0)) s2) :=
    .foldl (fun _ _ => completeFeed_losing _ _ _ _ _) _ _
  have hcount := completeFeeds_outbox st Status.streamLost.code (fun f => faultResult f.slot (b2n st.demoted * 8) 0 0 7 0 0) st.feeds s2
  generalize st.feeds.foldl _ s2 = s3 at hfeeds hcount ⊢
  have hdrain : Losing h s3 (st.drainCmd.toList.foldl (fun y m => complete y m .streamLost 0) s3) := .foldl (fun _ _ => complete_losing _ _ _ _) _ _
  generalize st.drainCmd.toList.foldl _ s3 = s4 at hdrain ⊢
  have hsnap : Losing h s4 ((st.snapping.bind (·.2)).toList.foldl (fun y m => complete y m .streamLost 0) s4) :=
    .foldl (fun _ _ => complete_losing _ _ _ _) _ _
  generalize (st.snapping.bind (·.2)).toList.foldl _ s4 = s5 at hsnap ⊢
  have hall := (((htold.trans hcut).trans hfeeds).trans hdrain).trans hsnap
  obtain ⟨u, hu⟩ : ∃ u, streamOf s5 h = some u := by
    rw [← Option.isSome_iff_exists, hall.present, hof]
    rfl
  have hboost (t : State) (had : Bool) : (returnBoost t had).host = t.host := by rw [returnBoost_onlyPower]
  have hlast := hall.trans (modStream_losing (f := asLost die) fun _ => rfl)
  refine ⟨fun k hk => ?_, ⟨asLost die u, ?_, rfl, rfl⟩, ?_⟩
  · rw [streamOf, returnBoost_streams]
    exact hlast.others k hk
  · rw [streamOf, returnBoost_streams]
    exact streamOf_modStream_same (f := asLost die) hu fun _ => rfl
  · rw [hboost]
    have h1 := hcut.owed
    have h2 := hdrain.owed
    have h3 := hsnap.owed
    change _ < s5.host.outbox.length
    omega

theorem exec_resumeComplete_of_unread {r : Region} (hof : streamOf s h = some st) (hitin : itinOf s st.itin = some it)
    (hst : st.st = .resuming) (hregion : regionOf s st.snapRegion = some r) (hread : readStatus s (regionAddr s r) r.bytes .bad ≠ none) :
    exec (.resumeComplete h .bad) s = .next (loseStream s h 1 st.lostDie .neighbourLost 3 0 0) := by
  have hsome : (readStatus s (regionAddr s r) r.bytes .bad).isNone = false := by
    cases hstatus : readStatus s (regionAddr s r) r.bytes .bad with
    | none => exact absurd hstatus hread
    | some _ => rfl
  change execResumeComplete h .bad s = _
  simp only [execResumeComplete, hof, Option.bind_some, hitin, hst, bne_self_eq_false, hregion, Option.filter_some, hsome,
      Bool.and_false, Bool.false_eq_true, if_false, Option.bind_none]

/-! ## Blocks of the audio ports -/

section
variable {p : ApId} {a : AudioPort} {c : ApCfg} {b : Bind}

theorem stamped_binds (a : AudioPort) (j : Int) (stamp : Nat) : (stamped a j stamp).binds = a.binds := by
  unfold stamped
  split_ifs <;> rfl

theorem tryFix_of_frame (hof : streamOf s h = some st) (hframe : st.frame.isSome = true) : tryFix s h = s := by
  simp [tryFix, hof, hframe]

/-- A binding changed is the one a later lookup finds. -/
theorem find_bind_map (l : List Bind) (dir : Bind → Bool) {f : Bind → Bind} (hstream : ∀ b, (f b).stream = b.stream) (hdir : ∀ b, dir (f b) = dir b)
    (hfind : l.find? (fun b => b.stream == h && dir b) = some b) :
    (l.map fun b => if b.stream == h && dir b then f b else b).find? (fun b => b.stream == h && dir b) = some (f b) := by
  have hkeep : ((fun b => b.stream == h && dir b) ∘ fun b => if b.stream == h && dir b then f b else b) = fun b : Bind => b.stream == h && dir b := by
    funext x
    simp only [Function.comp_apply]
    by_cases hx : (x.stream == h && dir x) = true
    · rw [if_pos hx, hstream, hdir]
    · rw [if_neg hx]
  have hb : (b.stream == h && dir b) = true := List.find?_some (p := fun b : Bind => b.stream == h && dir b) hfind
  rw [List.find?_map, hkeep, hfind, Option.map_some, if_pos hb]

/-- The input block counted: the next block, the blocks captured, and those overrun or without a clock. -/
def blockCounted (ovr lost : Bool) (b : Bind) : Bind :=
  let count (i : Nat) (on : Bool) (v : Vector Nat 7) : Vector Nat 7 := vmapIdx (fun j x => if j == i && on then x + 1 else x) v
  { b with nextIn := b.nextIn + 1, captured := b.captured + 1, counts := count 5 ovr (count 4 (lost && !ovr) b.counts) }

/-- The feed that an input block becomes. -/
def blockFeed (s : State) (a : AudioPort) (c : ApCfg) (it : Itin) (b : Bind) (ovr : Bool) (sdi : List (BitVec 513)) : Feed :=
  { cmd := none, accepted := now s, slot := blockEnd a b b.nextIn + 96, inputs := portInputs it (portBlock c it b sdi (now s)), seqs := [], outBuf := 0
    backward := false, inRing := !ovr }

/-- A stream with one more feed, in its slot. -/
def joinedBy (f : Feed) (t : Stream) : Stream := { t with feeds := t.feeds ++ [f], prevSlot := some f.slot }

/-- The state in which an input block has joined its stream's feeds. -/
def blockJoined (s : State) (p : ApId) (h : Nat) (a : AudioPort) (ovr lost : Bool) (f : Feed) : State :=
  modStream (modBind (modAp s p fun _ => a) p h true (blockCounted ovr lost)) h (joinedBy f)

theorem streamOf_blockJoined (hof : streamOf s h = some st) (p : ApId) (a : AudioPort) (ovr lost : Bool) (f : Feed) :
    streamOf (blockJoined s p h a ovr lost f) h = some (joinedBy f st) := streamOf_modStream_same (f := joinedBy f) hof fun _ => rfl

theorem exec_audioBlockEnd_of_ended {x : List (BitVec 513)} {stamp : Nat} (hcfg : (s.audio.get p).cfg = some c)
    (hbind : (s.audio.get p).binds.find? (fun b => b.stream == h && b.dirIn) = some b) (hof : streamOf s h = some st) (hitin : itinOf s st.itin = some it)
    (hready : ready s = true) (hst : st.st = .running) (hgrid : b.j0.isSome = true)
    (ha : a = stamped (s.audio.get p) (b.j0.getD 0 + ((b.nextIn + 1) * b.block : Nat)) stamp) (hreached : reached s (blockEnd a b b.nextIn) = true)
    (hframe : st.frame.isSome = true) : exec (.audioBlockEnd p h ⟨x, stamp⟩) s
      = .next (blockJoined s p h a (decide (b.inDepth ≤ (st.feeds.filter (·.inRing)).length)) (c.slave && !a.clockValid)
        (blockFeed s a c it b (decide (b.inDepth ≤ (st.feeds.filter (·.inRing)).length))
          (if decide (b.inDepth ≤ (st.feeds.filter (·.inRing)).length) || (c.slave && !a.clockValid) then [] else x))) := by
  subst ha
  have hgrid' : b.j0.isNone = false := by
    obtain ⟨j, hj⟩ := Option.isSome_iff_exists.1 hgrid
    rw [hj, Option.isNone_some]
  have hready' : ready (modAp s p fun _ => stamped (s.audio.get p) (b.j0.getD 0 + ((b.nextIn + 1) * b.block : Nat)) stamp) = true := hready
  have hreached' : reached (modAp s p fun _ => stamped (s.audio.get p) (b.j0.getD 0 + ((b.nextIn + 1) * b.block : Nat)) stamp)
    (blockEnd (stamped (s.audio.get p) (b.j0.getD 0 + ((b.nextIn + 1) * b.block : Nat)) stamp) b b.nextIn) = true := hreached
  change execAudioBlockEnd p h ⟨x, stamp⟩ s = _
  simp only [execAudioBlockEnd, hcfg, hbind, hof, Option.bind_some, hitin, hready', hst, hgrid', hreached', bne_self_eq_false, Bool.not_true,
    Bool.or_self, Bool.false_eq_true, if_false]
  exact congrArg Host.Outcome.next (tryFix_of_frame (streamOf_blockJoined hof ..) hframe)

/-- What a block put out is made of: as many sample frames as the binding's block has. -/
theorem playOf_rows (s : State) (c : ApCfg) (a : AudioPort) (b : Bind) (st : Stream) (it : Itin) (k t : Nat) (bad : Bool) :
    (playOf s c a b st it k t bad).1.rows.length = b.block := by
  have hfill (r slot : Nat) : (fillBlock c b r slot (now s)).rows.length = b.block := by simp [fillBlock]
  have hplay (blk : Block) : (playBlock c b blk).rows.length = b.block := by simp [playBlock]
  have hzero : (zeroPlay b).rows.length = b.block := by simp [zeroPlay]
  have hite {c : Bool} {x y : Played × Bool} (hx : x.1.rows.length = b.block) (hy : y.1.rows.length = b.block) :
      (if c then x else y).1.rows.length = b.block := by
    cases c
    · exact hy
    · exact hx
  unfold playOf
  refine hite (hfill ..) (hite (hfill ..) (hite hzero ?_))
  split
  · split
    · exact hfill ..
    · exact hite (hfill ..) (hplay _)
  · exact hite (hfill ..) (hfill ..)

/-- The words of a block put out. -/
def playWords (s : State) (c : ApCfg) (rows : List (List F32)) : List (List (Int × Bool)) :=
  rows.mapIdx fun i r => r.mapIdx fun j v => sampleWord c.word (s.free + i * 16 + j) v

/-- The block put out now. -/
def playNow (s : State) (p : ApId) (c : ApCfg) (a : AudioPort) (b : Bind) (st : Stream) (it : Itin) (bad : Bool) : Played × Bool :=
  playOf (modAp s p fun _ => a) c a b st it b.nextOut (frameStart a (b.j0.getD 0 + ((b.nextOut + 1) * b.block + b.playSamples : Nat))).toNat bad

/-- The binding once a block is put out. -/
def playedBind (s : State) (c : ApCfg) (b : Bind) (x : Played) : Bind :=
  { x.bind with
    nextOut := b.nextOut + 1, outs := b.outs.filter (fun y => decide (b.nextOut < y.1)), fault := b.fault.filter fun y => decide (b.nextOut < y)
    sat := b.sat + total ((playWords s c x.rows).map fun r => (r.filter (·.2)).length) }

/-- The state in which a block is put out. -/
def playing (s : State) (p : ApId) (h : Nat) (c : ApCfg) (a : AudioPort) (b : Bind) (x : Played) : State :=
  emit (modBind { modAp s p (fun _ => a) with free := s.free + 16 * b.block } p h false fun _ => playedBind s c b x)
    (.audio p ((playWords s c x.rows).map fun r => serialFrame c (slotsOf b.outMask)
      ((a.binds.filter fun y => y.dirOut && y.stream != h).flatMap fun y => slotsOf y.outMask) (r.map (·.1))))

theorem exec_audioPlayStart_of_come {stamp : Nat} {bad : Bool} (hcfg : (s.audio.get p).cfg = some c)
    (hbind : (s.audio.get p).binds.find? (fun b => b.stream == h && b.dirOut) = some b) (hof : streamOf s h = some st) (hitin : itinOf s st.itin = some it)
    (hready : ready s = true) (hgrid : b.j0.isSome = true)
    (ha : a = stamped (s.audio.get p) (b.j0.getD 0 + ((b.nextOut + 1) * b.block + b.playSamples : Nat)) stamp)
    (hreached : reached s (frameStart a (b.j0.getD 0 + ((b.nextOut + 1) * b.block + b.playSamples : Nat))).toNat = true)
    (hclock : c.slave = false ∨ a.clockValid = true) : exec (.audioPlayStart p h ⟨bad, stamp⟩) s
      = .next (if (playNow s p c a b st it bad).2 && b.fillRun == 0
        then fillEvent (playing s p h c a b (playNow s p c a b st it bad).1) p (playedBind s c b (playNow s p c a b st it bad).1)
        else playing s p h c a b (playNow s p c a b st it bad).1) := by
  have hgrid' : b.j0.isNone = false := by
    obtain ⟨j, hj⟩ := Option.isSome_iff_exists.1 hgrid
    rw [hj, Option.isNone_some]
  have hclock' : (c.slave && !a.clockValid) = false := by rcases hclock with hc | hc <;> simp [hc]
  have hready' : ready (modAp s p fun _ => a) = true := hready
  have hreached' : reached (modAp s p fun _ => a) (frameStart a (b.j0.getD 0 + ((b.nextOut + 1) * b.block + b.playSamples : Nat))).toNat = true := hreached
  change execAudioPlayStart p h ⟨bad, stamp⟩ s = _
  simp only [execAudioPlayStart, hcfg, hbind, hof, Option.bind_some, hitin, ← ha, hready', hgrid', hreached', hclock', Bool.not_true,
    Bool.or_self, Bool.false_eq_true, if_false]
  rfl

end

/-! ## The bits of a serial frame -/

/-- The bits of the first periods, as a number: each stands where its period says. -/
theorem total_shifted (B : Nat → Bool) (d n : Nat) : total (((List.range n).map (· + d)).map fun i => b2n (B i) <<< i) < 2 ^ (n + d)
    ∧ ∀ j, j < n → (total (((List.range n).map (· + d)).map fun i => b2n (B i) <<< i)).testBit (j + d) = B (j + d) := by
  induction n with
  | zero => exact ⟨Nat.two_pow_pos _, fun j hj => absurd hj (Nat.not_lt_zero _)⟩
  | succ n ih =>
    obtain ⟨hlt, hbits⟩ := ih
    have hsucc : total (((List.range (n + 1)).map (· + d)).map fun i => b2n (B i) <<< i)
        = 2 ^ (n + d) * b2n (B (n + d)) + total (((List.range n).map (· + d)).map fun i => b2n (B i) <<< i) := by
      simp only [List.range_succ, List.map_append, List.map_cons, List.map_nil, total, List.foldl_append, List.foldl_cons, List.foldl_nil,
        Nat.shiftLeft_eq]
      rw [Nat.mul_comm, Nat.add_comm]
    rw [hsucc]
    have hbit : b2n (B (n + d)) ≤ 1 := by cases B (n + d) <;> decide
    refine ⟨?_, fun j hj => ?_⟩
    · have hpow : 2 ^ (n + 1 + d) = 2 ^ (n + d) + 2 ^ (n + d) := by rw [Nat.add_right_comm, Nat.pow_succ]; omega
      have hle : 2 ^ (n + d) * b2n (B (n + d)) ≤ 2 ^ (n + d) * 1 := Nat.mul_le_mul_left _ hbit
      omega
    · rw [Nat.testBit_two_pow_mul_add _ hlt]
      by_cases hjn : j < n
      · rw [if_pos (by omega), hbits j hjn]
      · have hj' : j = n := by omega
        subst hj'
        rw [if_neg (by omega), Nat.sub_self]
        cases B (j + d) <;> rfl

/-- The word and the drive of a period of a serial frame. -/
def periodBit (c : ApCfg) (slots others : List Nat) (words : List Int) (i : Nat) : Bool × Bool :=
  match periodSlot c i with
  | some (k, b) =>
    (match slots.findIdx? (· == k) with
     | some n => (decide (b < c.word) && (BitVec.ofInt 32 (nth words n 0)).getLsbD (c.word - 1 - b), true)
     | none => (false, !others.contains k && !c.unusedHiZ))
  | none => (false, !c.unusedHiZ)

theorem serialFrame_bit {c : ApCfg} (hbits : c.frameBits ≤ 512) (slots others : List Nat) (words : List Int) {j : Nat} (hj : j < c.frameBits) :
    (serialFrame c slots others words).data.getLsbD (j + dataDelay c) = (periodBit c slots others words (j + dataDelay c)).1
    ∧ (serialFrame c slots others words).drive.getLsbD (j + dataDelay c) = (periodBit c slots others words (j + dataDelay c)).2 := by
  have hdelay : dataDelay c ≤ 1 := by
    unfold dataDelay
    split
    · cases c.dataDelay <;> decide
    · exact Nat.le_refl _
  obtain ⟨-, hdata⟩ := total_shifted (fun i => (periodBit c slots others words i).1) (dataDelay c) c.frameBits
  obtain ⟨-, hdrive⟩ := total_shifted (fun i => (periodBit c slots others words i).2) (dataDelay c) c.frameBits
  have hlt : j + dataDelay c < 513 := by omega
  constructor
  · change (BitVec.ofNat 513 (total (((List.range c.frameBits).map (· + dataDelay c)).map fun i => b2n (periodBit c slots others words i).1 <<< i))).getLsbD _ = _
    rw [BitVec.getLsbD_ofNat, hdata j hj, decide_eq_true hlt, Bool.true_and]
  · change (BitVec.ofNat 513 (total (((List.range c.frameBits).map (· + dataDelay c)).map fun i => b2n (periodBit c slots others words i).2 <<< i))).getLsbD _ = _
    rw [BitVec.getLsbD_ofNat, hdrive j hj, decide_eq_true hlt, Bool.true_and]

/-- A port's settings that pass have the words within the slots, and the slots within the frame. -/
theorem apOk_bounds {c : ApCfg} (hok : apOk c = true) : c.frameBits ≤ 512 ∧ c.word ≤ c.slotW ∧ c.slots * c.slotW ≤ c.frameBits := by
  simp only [apOk, Bool.and_eq_true, decide_eq_true_eq] at hok
  obtain ⟨⟨⟨⟨⟨⟨⟨⟨⟨⟨⟨-, -⟩, -⟩, hframe⟩, -⟩, hword⟩, hslots⟩, -⟩, -⟩, -⟩, -⟩, -⟩ := hok
  refine ⟨?_, hword, hslots⟩
  simp only [List.contains_iff_mem, List.mem_cons, List.not_mem_nil, or_false] at hframe
  omega

theorem serialFrame_slot {c : ApCfg} {slots : List Nat} {k n i : Nat} (hok : apOk c = true) (hk : k < c.slots)
    (hn : slots.findIdx? (· == k) = some n) (hi : i < c.word) (others : List Nat) (words : List Int) :
    (serialFrame c slots others words).data.getLsbD (bitPeriod c k i) = (BitVec.ofInt 32 (nth words n 0)).getLsbD (c.word - 1 - i)
    ∧ (serialFrame c slots others words).drive.getLsbD (bitPeriod c k i) = true := by
  obtain ⟨hframe, hword, hslots⟩ := apOk_bounds hok
  have hin : k * c.slotW + i < c.slots * c.slotW := by
    have hle : (k + 1) * c.slotW ≤ c.slots * c.slotW := Nat.mul_le_mul_right _ hk
    rw [Nat.succ_mul] at hle
    omega
  have hmax : max 1 c.slotW = c.slotW := by omega
  have hslot : periodSlot c (bitPeriod c k i) = some (k, i) := by
    have hsub : bitPeriod c k i - dataDelay c = k * c.slotW + i := by unfold bitPeriod; omega
    have hge : ¬bitPeriod c k i < dataDelay c := by unfold bitPeriod; omega
    simp only [periodSlot, if_neg hge, hsub, if_pos hin, hmax, Option.some.injEq, Prod.mk.injEq]
    rw [Nat.mul_comm]
    refine ⟨?_, ?_⟩
    · rw [Nat.mul_add_div (by omega), Nat.div_eq_of_lt (by omega), Nat.add_zero]
    · rw [Nat.mul_add_mod, Nat.mod_eq_of_lt (by omega)]
  have hbit : periodBit c slots others words (bitPeriod c k i)
      = ((BitVec.ofInt 32 (nth words n 0)).getLsbD (c.word - 1 - i), true) := by
    simp only [periodBit, hslot, hn, decide_eq_true hi, Bool.true_and]
  obtain ⟨hdata, hdrive⟩ := serialFrame_bit hframe slots others words (hin.trans_le hslots)
  change (serialFrame c slots others words).data.getLsbD (k * c.slotW + i + dataDelay c) = _ ∧ (serialFrame c slots others words).drive.getLsbD
    (k * c.slotW + i + dataDelay c) = _
  rw [hdata, hdrive]
  change (periodBit c slots others words (bitPeriod c k i)).1 = _ ∧ (periodBit c slots others words (bitPeriod c k i)).2 = _
  rw [hbit]
  exact ⟨rfl, rfl⟩

end

/-- Settles O36. -/
theorem resumesAndAudioPorts : Obligations.ResumesAndAudioPorts := by
  refine ⟨?resumed, ?lost, ?block, ?play, ?bits, ?fill, ?valid, ?gone⟩
  case resumed =>
    intro h s st it r x hof hitin hst hregion hfault hread hsnap haudio hfeeds hdrain
    refine ⟨_, _, exec_resumeComplete_of_read hof hitin hst hregion hfault hread hsnap haudio hfeeds hdrain, rfl, fun k hk => ?_,
      streamOf_resumed hof x, ?_, rfl, rfl, rfl, rfl, rfl, postEvent_outbox_length ..⟩
    · have hfirst : streamOf (modStream s h (resumedFrom s it x)) k = streamOf s k := streamOf_modStream_other hk fun _ => rfl
      exact (streamOf_modStream_other (f := fun z => { z with feeds := [], prevSlot := none }) hk fun _ => rfl).trans hfirst
    · simp [resumedFrom, hdrain]
  case lost =>
    intro h s st it r hof hitin hst hregion _ hread
    obtain ⟨hothers, ⟨u, hu, hlost, hfeeds⟩, howed⟩ := loseStream_of_present (s := s) (cause := 1) (die := st.lostDie) (x := .neighbourLost) (tier := 3)
      (kind := 0) (info := 0) hof (by rw [hst]; exact StState.noConfusion)
    exact ⟨_, u, exec_resumeComplete_of_unread hof hitin hst hregion hread, hothers, hu, hlost, hfeeds, howed⟩
  case block =>
    intro p h stamp x s a c b st it hcfg hbind hof hitin hready hst hgrid ha hreached hframe
    have hrun := exec_audioBlockEnd_of_ended (x := x) hcfg hbind hof hitin hready hst hgrid ha hreached hframe
    refine ⟨_, _, hrun, fun k hk => ?_, congrArg (Option.map (·.feeds)) (streamOf_blockJoined hof ..), rfl, rfl, rfl, ?_, ?_⟩
    · exact streamOf_modStream_other (f := joinedBy _) hk fun _ => rfl
    · change (!decide (b.inDepth ≤ _)) = decide (_ < b.inDepth)
      rw [← decide_not]
      simp only [Nat.not_le]
    · have hfind := find_bind_map (h := h) a.binds (fun b => b.dirIn) (f := blockCounted (decide (b.inDepth ≤ (st.feeds.filter (·.inRing)).length))
        (c.slave && !a.clockValid)) (fun _ => rfl) (fun _ => rfl) (by rw [ha, stamped_binds]; exact hbind)
      have hport : ((blockJoined s p h a (decide (b.inDepth ≤ (st.feeds.filter (·.inRing)).length)) (c.slave && !a.clockValid)
          (blockFeed s a c it b (decide (b.inDepth ≤ (st.feeds.filter (·.inRing)).length))
          (if decide (b.inDepth ≤ (st.feeds.filter (·.inRing)).length) || (c.slave && !a.clockValid) then [] else x))).audio.get p).binds
          = a.binds.map fun y => if y.stream == h && y.dirIn then
            blockCounted (decide (b.inDepth ≤ (st.feeds.filter (·.inRing)).length)) (c.slave && !a.clockValid) y else y := by
        simp [blockJoined, modBind, modAp]
      rw [hport, hfind]
      rfl
  case play =>
    intro p h stamp bad s a c b st it hcfg hbind hof hitin hready hgrid ha hreached hclock
    have hrun := exec_audioPlayStart_of_come (bad := bad) hcfg hbind hof hitin hready hgrid ha hreached hclock
    have hrows := playOf_rows (modAp s p fun _ => a) c a b st it b.nextOut
      (frameStart a (b.j0.getD 0 + ((b.nextOut + 1) * b.block + b.playSamples : Nat))).toNat bad
    change (playNow s p c a b st it bad).1.rows.length = b.block at hrows
    have hhost (fills : Bool) (t : State) (b1 : Bind) : (if fills then fillEvent t p b1 else t)
        = { t with host := (if fills then fillEvent t p b1 else t).host } := by
      cases fills <;> rfl
    generalize playNow s p c a b st it bad = x at hrun hrows
    rw [hhost] at hrun
    refine ⟨_, (playWords s c x.1.rows).map fun r => r.map (·.1), hrun, rfl, ?_, ?_⟩
    · rw [List.map_map]
      rfl
    · simp [playWords, hrows]
  case bits =>
    intro c slots others words k n i hok hk hn hi
    exact serialFrame_slot hok hk hn hi others words
  case fill =>
    intro p h s b hbind hready hfill hpassed
    change execAudioFillRepost p h s = _
    simp [execAudioFillRepost, hbind, hready, hfill, hpassed]
  case valid =>
    intro p start period s c hcfg hslave hclock
    refine ⟨fun hok => ?_, fun hbad => ?_⟩
    · have hrun : ∃ binds : AudioPort → List Bind, exec (.slaveClockValid p start period) s = .next (modAp s p fun a => { a with
          clockValid := true, anchor := cdiv start 64, lastFrame64 := start, lastJ := 0, period64 := period, binds := binds a }) := by
        change ∃ binds : AudioPort → List Bind, execSlaveClockValid p start period s = _
        simp only [execSlaveClockValid, hcfg, hslave, hclock, hok, Bool.not_true, Bool.or_self, Bool.false_eq_true, if_false]
        exact ⟨_, rfl⟩
      obtain ⟨binds, hrun⟩ := hrun
      refine ⟨_, hrun, rfl, ?_, ?_, fun q hq => vget_vmod_other _ _ hq⟩
      · exact congrArg AudioPort.clockValid (vget_vmod_same ..)
      · exact congrArg AudioPort.anchor (vget_vmod_same ..)
    · change execSlaveClockValid p start period s = _
      simp [execSlaveClockValid, hcfg, hbad]
  case gone =>
    intro p s c hcfg hslave hclock
    change execSlaveClockLost p s = _
    simp [execSlaveClockLost, hcfg, hslave, hclock]

end Sys2Proof.Proofs
end

section
/-! PROOFS. Operating-point changes. -/

namespace Sys2Proof.Proofs

open Sys2Proof Sys2Proof.Machine Sys2Proof.Safety Sys2Proof.Laws

set_option Elab.async false

section
variable {s : State} {c : OpChange}

/-! ## Requests -/

theorem exec_opChangeRequest_of_ready {target : Fin 5} {cause : OpCause} (hready : ready s = true) (hcause : cause ≠ .trim) :
    exec (.opChangeRequest target cause) s = .next (requestOp s (minPoint target (wantedPoint s)) cause) := by
  change execOpChangeRequest target cause s = _
  simp only [execOpChangeRequest, hready, beq_false_of_ne hcause, Bool.not_true, Bool.false_eq_true, if_false]

theorem requestOp_of_same {target : Fin 5} {cause : OpCause} (hcause : cause ≠ .trim) (hchange : s.power.change = none)
    (heq : minPoint target (highestAllowed s) = s.power.opForce) : requestOp s target cause = s := by
  simp only [requestOp, hchange, heq, beq_self_eq_true, beq_false_of_ne hcause, Bool.not_false, Bool.and_self, if_true]

theorem requestOp_of_other {target : Fin 5} {cause : OpCause} (hcause : cause ≠ .trim) (hchange : s.power.change = none)
    (hne : minPoint target (highestAllowed s) ≠ s.power.opForce) : requestOp s target cause
      = if waitsForGap cause then
          { s with power := { s.power with change := some ⟨.deferred, s.power.opForce, minPoint target (highestAllowed s), now s, false⟩ } }
        else beginChange s (minPoint target (highestAllowed s)) false := by
  simp only [requestOp, hchange, beq_false_of_ne hne, beq_false_of_ne hcause, Bool.false_and, Bool.false_eq_true, if_false]

theorem requestOp_of_begun {target : Fin 5} {cause : OpCause} (hchange : s.power.change = some c) (hphase : c.phase ≠ .deferred) :
    requestOp s target cause = { s with power := { s.power with latched := some (minPoint target (highestAllowed s)) } } := by
  simp only [requestOp, hchange, bne_iff_ne.2 hphase, if_true]

/-! ## A deferred change -/

/-- A deferred change to an allowed point other than the one in force begins. -/
theorem beginDeferred_of_allowed (hle : c.target.1 ≤ (highestAllowed s).1) (hne : c.target ≠ s.power.opForce) (hramp : rampingDown s = false) :
    beginDeferred s c
      = { s with power := { s.power with change := some ⟨.approach, s.power.opForce, c.target, now s, c.trim⟩, preRamp := none } } := by
  have hmin : minPoint c.target (highestAllowed s) = c.target := if_pos hle
  simp only [beginDeferred, hmin, beq_false_of_ne hne, Bool.false_and, Bool.false_eq_true, if_false, beginChange, hramp]

/-! ## The stop -/

/-- The state in which a change's stop has begun. -/
def stopBegun (s : State) (c : OpChange) : State :=
  emit { modEngines s (fun en => { en with limits := { en.limits with stop := 0 }, droopHold := none }) with
    power := { s.power with
      change := some { c with phase := .stop, since := now s }, masked := true, settled := false, stopSeen := true
      vid := vidCode s c.target, vidTarget := vidCode s c.target, vidOld := s.power.vidTarget } } (.vid (vidCode s c.target))

theorem exec_opStopBegin_of_boundary (hchange : s.power.change = some c) (hphase : c.phase = .approach)
    (hbound : ∀ e, inService s e = true → atBoundary (s.engines.get e) = true) : exec .opStopBegin s = .next (stopBegun s c) := by
  have hall : ((servingEngines s).all fun e => atBoundary (s.engines.get e)) = true :=
    List.all_eq_true.2 fun e he => hbound e (List.mem_filter.1 he).2
  change execOpStopBegin s = _
  simp only [execOpStopBegin, hchange, hphase, hall, bne_self_eq_false, Bool.not_true, Bool.or_self, Bool.false_eq_true, if_false]
  rfl

/-- The governor once a stop has ended at its target. -/
def stoppedPower (s : State) (c : OpChange) (settled : Bool) : Power :=
  { s.power with
    change := none, opForce := c.target, masked := false, settled := settled, opStops := s.power.opStops + 1
    opStopTicks := s.power.opStopTicks + elapsed s c.since, latched := none
    slowRefMv := if settled then none else some (min (vidMv s.power.vidOld) (vidMv s.power.vidTarget)) }

/-- The state in which a stop has ended, before the limits are taken afresh. -/
def stopped (s : State) (c : OpChange) (settled : Bool) : State :=
  { modEngines s (fun en => { en with limits := { en.limits with stop := 65535 } }) with power := stoppedPower s c settled }

theorem endStop_of_unlatched (hlatched : s.power.latched = none) (settled : Bool) : endStop s c settled = freshLimits (stopped s c settled) := by
  unfold endStop
  simp only [hlatched]
  rfl

theorem stopped_get (s : State) (c : OpChange) (settled : Bool) (e : EngineId) :
    (stopped s c settled).engines.get e = { s.engines.get e with limits := { (s.engines.get e).limits with stop := 65535 } } := vget_vmap ..

/-- Fresh limits change the engines alone, and take a fresh chain count of each. -/
theorem freshLimits_only (s : State) : freshLimits s = { s with engines := (freshLimits s).engines, free := s.free + 7 } := rfl

theorem freshLimits_get (s : State) (e : EngineId) : ((freshLimits s).engines.get e).rateAt.get s.power.opForce
      = some (Config.freeNat (s.free + e.1) * (s.engines.get e).calib / 65536)
    ∧ ((freshLimits s).engines.get e).windows = (s.engines.get e).windows
    ∧ ((freshLimits s).engines.get e).limits.stop = (s.engines.get e).limits.stop := by
  simp [freshLimits, applyThermal, applySteward, applyCap, setLimits]

theorem exec_opStopSettled_of_stop (hchange : s.power.change = some c) (hphase : c.phase = .stop) (hmin : passed s c.since 58 = true)
    (hmax : passed s c.since 492 = false) : exec .opStopSettled s = .next (endStop s c true) := by
  change execOpStopSettled s = _
  simp only [execOpStopSettled, hchange, hphase, hmin, hmax, beq_self_eq_true, Bool.not_false, Bool.and_self, if_true]

theorem exec_opStopTimeout_of_stop {short : Nat} (hchange : s.power.change = some c) (hphase : c.phase = .stop) (hdue : passed s c.since 491 = true) :
    exec (.opStopTimeout short) s = .next (logDie { endStop s c false with
      power := { (endStop s c false).power with slowReg := (endStop s c false).power.slowReg + 1 } } 0x0202 0xFF 1 (put 0 2 short)) := by
  change execOpStopTimeout short s = _
  simp only [execOpStopTimeout, hchange, hphase, hdue, bne_self_eq_false, Bool.not_true, Bool.or_self, Bool.false_eq_true, if_false]

/-- The state in which a stop has ended late, the shortfall logged and counted. -/
def lateStop (s : State) (c : OpChange) (short : Nat) : State :=
  { s with
    engines := (freshLimits (stopped s c false)).engines, free := s.free + 7
    power := { stoppedPower s c false with slowReg := s.power.slowReg + 1 }
    fw := { s.fw with
      dieLog := s.fw.dieLog ++ [⟨s.fw.logSeq, now s, 0x0202, 0xFF, 1, BitVec.ofNat 128 (put 0 2 short)⟩], logSeq := s.fw.logSeq + 1 } }

theorem exec_opStopTimeout_of_unlatched {short : Nat} (hchange : s.power.change = some c) (hphase : c.phase = .stop)
    (hlatched : s.power.latched = none) (hdue : passed s c.since 491 = true) : exec (.opStopTimeout short) s = .next (lateStop s c short) := by
  rw [exec_opStopTimeout_of_stop hchange hphase hdue, endStop_of_unlatched hlatched, freshLimits_only]
  rfl

end

/-- Settles O37. -/
theorem operatingPointChanges : Obligations.OperatingPointChanges := by
  refine ⟨?request, ?same, ?latched, ?deferred, ?stop, ?ends, ?late⟩
  case request =>
    intro target cause s hready hchange hcause hne
    have hrun := exec_opChangeRequest_of_ready (target := target) hready hcause
    rw [requestOp_of_other hcause hchange hne] at hrun
    cases hwaits : waitsForGap cause with
    | true =>
      rw [hwaits, if_pos rfl] at hrun
      exact ⟨_, hrun, rfl, rfl, rfl, rfl⟩
    | false =>
      rw [hwaits, if_neg Bool.false_ne_true] at hrun
      exact ⟨_, hrun, rfl, rfl, rfl, rfl⟩
  case same =>
    intro target cause s hready hchange hcause heq
    rw [exec_opChangeRequest_of_ready hready hcause, requestOp_of_same hcause hchange heq]
  case latched =>
    intro target cause s c hready hchange hphase hcause
    rw [exec_opChangeRequest_of_ready hready hcause, requestOp_of_begun hchange hphase]
  case deferred =>
    intro s c hchange hphase hle hne hramp
    refine ⟨_, rfl, fun hgap => ?_, fun hdue => ?_⟩
    · have hall : gap s = true := List.all_eq_true.2 fun st hst => by rw [hgap st hst, Option.isNone_none]
      change execOpChangeGapStart s = _
      simp only [execOpChangeGapStart, hchange, hphase, hall, beq_self_eq_true, Bool.and_self, if_true, beginDeferred_of_allowed hle hne hramp]
    · change execOpChangeDeferTimeout s = _
      simp only [execOpChangeDeferTimeout, hchange, hphase, hdue, beq_self_eq_true, Bool.and_self, if_true, beginDeferred_of_allowed hle hne hramp]
  case stop =>
    intro s c hchange hphase hbound
    refine ⟨_, exec_opStopBegin_of_boundary hchange hphase hbound, rfl, rfl, rfl, fun e => ?_, rfl, rfl⟩
    exact congrArg (fun en : Engine => en.limits.stop) (vget_vmap ..)
  case ends =>
    intro s c hchange hphase hlatched
    have hget (settled : Bool) (e : EngineId) := freshLimits_get (stopped s c settled) e
    refine ⟨fun hmin hmax => ?_, fun short hdue => ?_⟩
    · have hrun := exec_opStopSettled_of_stop hchange hphase hmin hmax
      rw [endStop_of_unlatched hlatched] at hrun
      refine ⟨_, hrun, rfl, rfl, rfl, rfl, rfl, rfl, fun e => ?_, fun e => ?_, rfl, rfl⟩
      · obtain ⟨-, -, hstop⟩ := hget true e
        rw [hstop, stopped_get]
      · obtain ⟨hrate, hwindows, -⟩ := hget true e
        rw [stopped_get] at hrate hwindows
        exact ⟨hrate, hwindows⟩
    · have hrun := exec_opStopTimeout_of_unlatched (short := short) hchange hphase hlatched hdue
      refine ⟨_, hrun, rfl, rfl, rfl, rfl, rfl, rfl, ?_, fun e => ?_, rfl⟩
      · have hput : put 0 2 short = short % 65536 := Nat.shiftLeft_zero ..
        rw [← hput]
        rfl
      · obtain ⟨-, -, hstop⟩ := hget false e
        exact hstop.trans (by rw [stopped_get])
  case late =>
    intro e s c hchange hphase hservice hbound hheld hfree
    obtain ⟨hhas, hlife⟩ : hasEngine s.fuses.variant e.1 = true ∧ (s.engines.get e).life ≠ .retired := by
      simp only [inService, Bool.and_eq_true, Bool.or_eq_true, beq_iff_eq] at hservice
      obtain ⟨hhas, hlife⟩ := hservice
      refine ⟨hhas, ?_⟩
      rcases hlife with hl | hl <;> rw [hl] <;> exact Life.noConfusion
    obtain ⟨hretired, hpower, hothers⟩ := engineFault_of_taken 3 hlife hhas hfree
    refine ⟨_, ?_, hretired, ?_, fun d hd _ => hothers d hd⟩
    · change execApproachTimeout e s = _
      simp [execApproachTimeout, execApproachTimeout.approachingNow, hchange, hphase, hservice, hbound, hheld]
    · rw [hpower]

end Sys2Proof.Proofs
end

section
/-! PROOFS. The governor's timed work. -/

namespace Sys2Proof.Proofs

open Sys2Proof Sys2Proof.Machine Sys2Proof.Safety Sys2Proof.Laws

set_option Elab.async false

section
variable {s t : State}

/-! ## The estimate -/

/-- Memory, the base point and the tick of the window are as before. -/
def KeepsBase (s t : State) : Prop := t.mem = s.mem ∧ t.power.opBase = s.power.opBase ∧ t.power.windowAt = s.power.windowAt

theorem KeepsBase.trans {a b c : State} (h : KeepsBase a b) (g : KeepsBase b c) : KeepsBase a c :=
  ⟨g.1.trans h.1, g.2.1.trans h.2.1, g.2.2.trans h.2.2⟩

theorem KeepsBase.foldl {α : Type} {f : State → α → State} (hf : ∀ s x, KeepsBase s (f s x)) (l : List α) (s : State) : KeepsBase s (l.foldl f s) := by
  induction l generalizing s with
  | nil => exact ⟨rfl, rfl, rfl⟩
  | cons x l ih => exact (hf s x).trans (ih _)

theorem modEpisode_keepsBase (s : State) (r : Fin 6) (f : Episode → Episode) : KeepsBase s (modEpisode s r f) := ⟨rfl, rfl, rfl⟩

theorem postEvent_keepsBase (s : State) (code pay : Nat) : KeepsBase s (postEvent s code pay) := ⟨rfl, rfl, rfl⟩

theorem accountReason_keepsBase (s : State) (r : Fin 6) (ticks : Nat) : KeepsBase s (accountReason s r ticks) := by
  unfold accountReason
  dsimp only
  split
  · exact modEpisode_keepsBase ..
  · split
    · exact modEpisode_keepsBase ..
    · split
      · exact (modEpisode_keepsBase ..).trans (modEpisode_keepsBase ..)
      · exact (modEpisode_keepsBase ..).trans (postEvent_keepsBase ..)

theorem chargeWindow_mem (s : State) (raw : Nat) : (chargeWindow s raw).mem = s.mem := by
  have hcharge : ∀ (l : List (Nat × Nat)) (g : Nat × Nat → Nat) (t : State), (l.foldl (fun t x => chargeStream t x.1 (g x)) t).mem = t.mem := by
    intro l g
    induction l with
    | nil => exact fun _ => rfl
    | cons x l ih => exact fun t => ih _
  have hall : ∀ (l : List EngineId) (ran : EngineId → List (Nat × Nat)) (g : EngineId → Nat × Nat → Nat) (t : State),
      (l.foldl (fun t e => (ran e).foldl (fun t x => chargeStream t x.1 (g e x)) t) t).mem = t.mem := by
    intro l ran g
    induction l with
    | nil => exact fun _ => rfl
    | cons e l ih => exact fun t => (ih _).trans (hcharge (ran e) (g e) t)
  exact hall ..

/-- A window has been opened now: its counts are at zero, the base point and memory are as before. -/
def WindowOpen (s t : State) : Prop :=
  t.power.windowAt = now s ∧ t.power.opBase = s.power.opBase ∧ t.mem = s.mem
    ∧ ∀ e, (t.engines.get e).estProductive = 0 ∧ (t.engines.get e).estBallast = 0 ∧ (t.engines.get e).ran = []

/-- With the counts at zero and the limits set the window stands open. -/
theorem windowOpen_closeWindow {u : State} (ramp : Nat) (hat : t.power.windowAt = now s) (hbase : t.power.opBase = s.power.opBase)
    (hmem : t.mem = s.mem) (hu : KeepsBase t u) : WindowOpen s (applySteward (applyCap (closeWindow u ramp))) := by
  obtain ⟨hkmem, hkbase, hkat⟩ := hu
  refine ⟨hkat.trans hat, hkbase.trans hbase, hkmem.trans hmem, fun e => ?_⟩
  simp only [applySteward, applyCap, setLimits, closeWindow, modEngines_engines, vget_vmapIdx, vget_vmap, and_self]

/-- What a window puts into the power state keeps the base point. -/
theorem opBase_of_window (p : Power) (est : Nat) (hist raws : List Nat) (phi energy rem : Nat) (pre : Option (Nat × Tick)) (at' : Tick) (down : Bool) (ma : Option Nat) :
    ({ p with estMw := est, estHist := hist, calRaw := raws, phi := phi, energyUj := energy, energyRem := rem, preRamp := pre, windowAt := at'
              rampDown := down, lastMa := ma, unshaped := false } : Power).opBase = p.opBase := rfl

theorem WindowOpen.logged (h : WindowOpen s t) (a : Option Tick) (code unit sev data : Nat) :
    WindowOpen s (logDie { t with power := { t.power with floorLogAt := a } } code unit sev data) := h

theorem WindowOpen.withChange (h : WindowOpen s t) (c : Option OpChange) : WindowOpen s { t with power := { t.power with change := c } } := h

theorem estimate_windowOpen (s : State) : WindowOpen s (execEstimateWindow.estimate s) := by
  unfold execEstimateWindow.estimate
  extract_lets p raw pv est hist mean t high phi cur e s1 ballast s2 s3 s4 due pow s5 pow5
  have hmem : s2.mem = s.mem := chargeWindow_mem s raw
  have hbase : s2.power.opBase = s.power.opBase := opBase_of_window p est hist (lastN 1000 (p.calRaw ++ [raw])) phi (p.energyUj + e / 24576)
    (e % 24576) (preRampOf s) (now s) s2.power.rampDown (some cur)
  have h4 : WindowOpen s s4 := windowOpen_closeWindow (t := s2) _ rfl hbase hmem
    (KeepsBase.foldl (fun t r => accountReason_keepsBase t r _) (fins 6) s2)
  have h5 : WindowOpen s s5 := by
    unfold s5
    split
    · exact h4.logged ..
    · exact h4
  split
  · split
    · exact h5.withChange _
    · exact h5
  · exact h5

theorem exec_estimateWindow_of_passed (hready : ready s = true) (hpassed : passed s s.power.windowAt 246 = true) :
    exec .estimateWindow s = .next (execEstimateWindow.estimate (noteTarget s)) := by
  change execEstimateWindow s = _
  simp only [execEstimateWindow, hready, hpassed, Bool.not_true, Bool.or_self, Bool.false_eq_true, if_false]

/-! ## Calibration -/

theorem exec_calibrationUpdate_of_few (hready : ready s = true) (hpassed : passed s s.power.calAt 2457600 = true)
    (hread : (s.power.readings.get 0).stopped = false) (hfew : (s.power.calPairs.filter fun x => !x.2.2).length < 4) :
    exec .calibrationUpdate s = .next { s with power := { s.power with calAt := now s, calPairs := [] } } := by
  change execCalibrationUpdate s = _
  simp only [execCalibrationUpdate, hready, hpassed, hread, List.length_map, hfew, Bool.not_true, Bool.or_self, Bool.false_eq_true, if_false, if_true]

theorem exec_calibrationFreezeGuard_of_lost (hready : ready s = true) (hguard : s.power.guard = false)
    (hstopped : (s.power.readings.get 0).stopped = true) (hpassed : passed s s.power.calOk 12288000 = true) :
    exec .calibrationFreezeGuard s = .next (logDie { s with power := { s.power with guard := true } } 0x0604 0 1 0) := by
  change execCalibrationFreezeGuard s = _
  simp only [execCalibrationFreezeGuard, hready, hguard, hstopped, hpassed, Bool.not_true, Bool.or_self, Bool.false_eq_true, if_false]
  rfl

/-! ## Throttle episodes -/

theorem waitsForInterval_iff (r : Fin 6) : waitsForInterval r = true ↔ r = 2 ∨ r = 5 := by
  simp only [waitsForInterval, rDroop, rRamp, Bool.or_eq_true, beq_iff_eq]

/-- The payload of an episode's end. -/
def endPayload (s : State) (r : Fin 6) (b : Tick) : Nat :=
  put 16 1 r.1 + put 20 8 (usOf ((s.power.episodes.get r).lastActive - b)) + put 28 8 (usOf (s.power.episodes.get r).ticks)

theorem exec_throttleEnd_of_inactive {r : Fin 6} {b : Tick} (hready : ready s = true) (hopen : (s.power.episodes.get r).openAt = some b)
    (hactive : (s.power.episodes.get r).active = false) (hpassed : passed s (s.power.episodes.get r).lastActive 2048 = true) :
    exec (.throttleEnd r) s = .next (if waitsForInterval r
      then modEpisode (modEpisode s r fun e => { e with openAt := none }) r fun e => { e with heldEnd := some (endPayload s r b) }
      else postEvent (modEpisode s r fun e => { e with openAt := none }) 0x21 (endPayload s r b)) := by
  change execThrottleEnd r s = _
  simp only [execThrottleEnd, hopen, hready, hactive, hpassed, Bool.not_true, Bool.or_self, Bool.false_eq_true, if_false]
  rfl

theorem foldl_postEvent_power (l : List (Nat × Nat)) (s : State) : (l.foldl (fun t x => postEvent t x.1 x.2) s).power = s.power := by
  induction l generalizing s with
  | nil => rfl
  | cons x l ih => exact ih _

theorem foldl_postEvent_outbox_length (l : List (Nat × Nat)) (s : State) :
    (l.foldl (fun t x => postEvent t x.1 x.2) s).host.outbox.length = s.host.outbox.length + l.length := by
  induction l generalizing s with
  | nil => rfl
  | cons x l ih => rw [List.foldl_cons, ih, postEvent_outbox_length, List.length_cons]; omega

theorem closeInterval_power (s : State) (r : Fin 6) : (closeInterval s r).power
    = { s.power with episodes := vmod s.power.episodes r fun e => { e with heldBegin := none, heldEnd := none } } :=
  foldl_postEvent_power _ _

theorem closeInterval_outbox_length (s : State) (r : Fin 6) : (closeInterval s r).host.outbox.length
    = s.host.outbox.length + ((s.power.episodes.get r).heldBegin.toList.length + (s.power.episodes.get r).heldEnd.toList.length) := by
  rw [closeInterval, foldl_postEvent_outbox_length]
  refine congrArg (s.host.outbox.length + ·) ?_
  split <;> simp only [List.length_append, List.length_map]
  exact Nat.add_comm ..

theorem exec_throttleEventIntervalClose_of_passed (hready : ready s = true) (hpassed : passed s s.power.throttleAt 24576 = true) :
    exec .throttleEventIntervalClose s = .next (closeInterval (closeInterval { s with power := { s.power with throttleAt := now s } } 2) 5) := by
  change execThrottleEventIntervalClose s = _
  simp only [execThrottleEventIntervalClose, hready, hpassed, Bool.not_true, Bool.or_self, Bool.false_eq_true, if_false]
  rfl

/-! ## The return to a higher point -/

/-- The last of the five points that passes a test. -/
theorem filter_fins_getLast {p : Fin 5 → Bool} {n : Fin 5} (hn : p n = true) (hlater : ∀ k : Fin 5, n.1 < k.1 → p k = false) :
    ((fins 5).filter p).getLast? = some n := by
  have hsplit : ∀ n : Fin 5, fins 5 = (fins 5).take n.1 ++ n :: (fins 5).drop (n.1 + 1) := by decide
  have hpost : ∀ n : Fin 5, ∀ k ∈ (fins 5).drop (n.1 + 1), n.1 < k.1 := by decide
  have hnone : ((fins 5).drop (n.1 + 1)).filter p = [] :=
    List.filter_eq_nil_iff.2 fun k hk => Bool.eq_false_iff.1 (hlater k (hpost n k hk))
  rw [hsplit n, List.filter_append, List.filter_cons_of_pos hn, hnone, List.getLast?_append, List.getLast?_singleton, Option.some_or]

/-- A point that is wanted, allowed, above the one in force, and that stayed allowed for a second. -/
def returnsTo (s : State) (n : Fin 5) : Bool := match s.power.allowedAt.get n with
  | some t => decide (n.1 ≤ (wantedPoint s).1) && decide (n.1 ≤ (highestAllowed s).1) && decide (s.power.opForce.1 < n.1) && passed s t 24576000
  | none => false

theorem exec_opReturnHoldExpiry_of_last {n : Fin 5} (hready : ready s = true) (hchange : s.power.change = none)
    (hlast : ((fins 5).filter (returnsTo s)).getLast? = some n) : exec .opReturnHoldExpiry s = .next (requestOp s n .limit) := by
  change Host.Outcome.next (if _ then s else match ((fins 5).filter (returnsTo s)).getLast? with | some n => requestOp s n .limit | none => s) = _
  simp only [hready, hchange, hlast, Option.isSome_none, Bool.not_true, Bool.or_self, Bool.false_eq_true, if_false]

theorem returnsTo_of_held {n : Fin 5} {b : Tick} (hforce : s.power.opForce.1 < n.1) (hwant : n.1 ≤ (wantedPoint s).1)
    (hallow : n.1 ≤ (highestAllowed s).1) (hat : s.power.allowedAt.get n = some b) (hpassed : passed s b 24576000 = true) : returnsTo s n = true := by
  simp only [returnsTo, hat, hforce, hwant, hallow, hpassed, decide_true, Bool.and_self]

theorem not_returnsTo {n k : Fin 5} (hlt : n.1 < k.1) (hlater : ∀ k : Fin 5, n.1 < k.1 → k.1 ≤ (wantedPoint s).1 → k.1 ≤ (highestAllowed s).1 →
    ∀ x, s.power.allowedAt.get k = some x → passed s x 24576000 = false) : returnsTo s k = false := by
  unfold returnsTo
  split
  next x hx =>
    by_cases hwant : k.1 ≤ (wantedPoint s).1
    · by_cases hallow : k.1 ≤ (highestAllowed s).1
      · rw [hlater k hlt hwant hallow x hx, Bool.and_false]
      · rw [decide_eq_false hallow, Bool.and_false, Bool.false_and, Bool.false_and]
    · rw [decide_eq_false hwant, Bool.false_and, Bool.false_and, Bool.false_and]
  next => rfl

theorem requestOp_to_held {n : Fin 5} (hchange : s.power.change = none) (hforce : s.power.opForce.1 < n.1) (hallow : n.1 ≤ (highestAllowed s).1)
    (hramp : rampingDown s = false) : requestOp s n .limit
      = { s with power := { s.power with change := some ⟨.approach, s.power.opForce, n, now s, false⟩, preRamp := none } } := by
  have hmin : minPoint n (highestAllowed s) = n := if_pos hallow
  have hne : n ≠ s.power.opForce := fun h => Nat.lt_irrefl _ (h ▸ hforce)
  rw [requestOp_of_other OpCause.noConfusion hchange (hmin.symm ▸ hne), hmin]
  simp only [waitsForGap, beginChange, hramp, Bool.false_eq_true, if_false]

/-! ## Energy charges -/

/-- A stream's home is sent what its work used, in whole microjoules. -/
def sendCharge (t : State) (st : Machine.Stream) : State :=
  sendMgmt (modStream t st.handle fun x => { x with chargePj := x.chargePj % 1000000 }) st.home (.energyCharge st.handle (st.chargePj / 1000000))

theorem foldl_sendCharge_keeps (l : List Machine.Stream) (s : State) : (l.foldl sendCharge s).power = s.power
    ∧ (l.foldl sendCharge s).streams.length = s.streams.length ∧ (l.foldl sendCharge s).mem = s.mem := by
  induction l generalizing s with
  | nil => exact ⟨rfl, rfl, rfl⟩
  | cons st l ih =>
    obtain ⟨hpower, hlength, hmem⟩ := ih (sendCharge s st)
    exact ⟨hpower, hlength.trans (List.length_map _), hmem⟩

theorem foldl_sendCharge_out (l : List Machine.Stream) (s : State) : (l.foldl sendCharge s).out
    = s.out ++ l.map fun st => .mgmt st.home (.energyCharge st.handle (st.chargePj / 1000000)) := by
  induction l generalizing s with
  | nil => exact (List.append_nil _).symm
  | cons st l ih =>
    rw [List.foldl_cons, ih, List.map_cons, List.append_cons]
    rfl

/-- The streams whose home is owed a charge. -/
def owed (s : State) : List Machine.Stream := s.streams.filter fun st => st.home != s.fabric.id && decide (1000000 ≤ st.chargePj)

theorem exec_energyChargeSend_of_passed (hready : ready s = true) (hpassed : passed s s.power.chargeAt 2457600 = true) :
    exec .energyChargeSend s = .next { (owed s).foldl sendCharge s with
      power := { ((owed s).foldl sendCharge s).power with chargeAt := now s } } := by
  change execEnergyChargeSend s = _
  simp only [execEnergyChargeSend, hready, hpassed, Bool.not_true, Bool.or_self, Bool.false_eq_true, if_false]
  rfl

/-- What a stream at home makes of a charge heard. -/
def heard (s : State) (uj : Nat) (st : Machine.Stream) : Machine.Stream :=
  if st.home == s.fabric.id then { st with energyPj := st.energyPj + uj * 1000000 } else st

theorem heard_handle (s : State) (uj : Nat) (st : Machine.Stream) : (heard s uj st).handle = st.handle := by
  unfold heard
  split <;> rfl

theorem exec_energyChargeReceive_of_active {p : PortId} (h uj : Nat) (hactive : (s.fabric.ports.get p).st = .active) :
    exec (.energyChargeReceive p h uj) s = .next (modStream s h (heard s uj)) := by
  change execEnergyChargeReceive p h uj s = _
  simp only [execEnergyChargeReceive, hactive, bne_self_eq_false, Bool.false_eq_true, if_false]
  rfl

end

/-- Settles O38. -/
theorem governorTimersAct : Obligations.GovernorTimersAct := by
  unfold Obligations.GovernorTimersAct
  refine ⟨?_, ?_, ?_, ?_, ?_, ?_, ?_, ?_, ?_⟩
  · intro s hready hpassed
    obtain ⟨target, targetAt, htarget⟩ := noteTarget_power s
    obtain ⟨hat, hbase, hmem, hcounts⟩ := estimate_windowOpen (noteTarget s)
    rw [exec_estimateWindow_of_passed hready hpassed]
    refine ⟨_, rfl, hat.trans ?_, hbase.trans ?_, hmem.trans ?_, hcounts⟩ <;> rw [htarget]
    rfl
  · exact fun s hready hpassed hread hfew => exec_calibrationUpdate_of_few hready hpassed hread hfew
  · intro s hready hguard hstopped hpassed
    rw [exec_calibrationFreezeGuard_of_lost hready hguard hstopped hpassed]
    exact ⟨_, rfl, rfl, rfl, rfl⟩
  · intro r s b hready hopen hactive hpassed
    rw [exec_throttleEnd_of_inactive hready hopen hactive hpassed]
    simp only [waitsForInterval_iff]
    by_cases hwait : r = 2 ∨ r = 5
    · simp only [if_pos hwait]
      refine ⟨_, rfl, ?_, ?_, rfl, fun q hq => (vget_vmod_other _ _ hq).trans (vget_vmod_other _ _ hq)⟩ <;>
        simp only [modEpisode, vget_vmod_same]
    · simp only [if_neg hwait]
      refine ⟨_, rfl, ?_, ?_, postEvent_outbox_length _ _ _, fun q hq => vget_vmod_other _ _ hq⟩ <;>
        simp only [postEvent_power, modEpisode, vget_vmod_same]
  · intro s hready hpassed
    rw [exec_throttleEventIntervalClose_of_passed hready hpassed]
    refine ⟨_, rfl, ?_, ?_, ?_⟩
    · simp only [closeInterval_power]
    · rintro r (rfl | rfl) <;> simp only [closeInterval_power, vget_vmod] <;> exact ⟨rfl, rfl⟩
    · rw [closeInterval_outbox_length, closeInterval_outbox_length, closeInterval_power, vget_vmod_other _ _ (by decide)]
      simp only [Nat.add_assoc]
  · intro s n b hready hchange hforce hwant hallow hramp hat hpassed hlater
    rw [exec_opReturnHoldExpiry_of_last hready hchange
      (filter_fins_getLast (returnsTo_of_held hforce hwant hallow hat hpassed) fun k hk => not_returnsTo hk hlater),
      requestOp_to_held hchange hforce hallow hramp]
  · intro s hready hpassed
    rw [exec_energyChargeSend_of_passed hready hpassed]
    obtain ⟨hpower, hlength, hmem⟩ := foldl_sendCharge_keeps (owed s) s
    refine ⟨_, rfl, ?_, hlength, hmem, fun st hst hhome hcharge => ?_⟩
    · dsimp only
      rw [hpower]
    · have howed : st ∈ owed s := List.mem_filter.2 ⟨hst, by simp only [bne_iff_ne.2 hhome, hcharge, decide_true, Bool.and_self]⟩
      dsimp only
      rw [foldl_sendCharge_out]
      exact List.mem_append_right _ (List.mem_map_of_mem howed)
  · intro p h uj s st hactive hof hhome
    rw [exec_energyChargeReceive_of_active h uj hactive]
    refine ⟨_, _, rfl, streamOf_modStream_same hof (heard_handle s uj), ?_, fun k hk => streamOf_modStream_other hk (heard_handle s uj), rfl⟩
    exact if_pos (beq_iff_eq.2 hhome)
  · intro s old
    simp only [slopeKept, Nat.le_refl, decide_true, Bool.true_and, Bool.and_eq_true, Bool.or_eq_true, decide_eq_true_eq, Bool.and_eq_false_iff,
      decide_eq_false_iff_not]
    exact ⟨Or.inr (by omega), ⟨by omega, by simp⟩, Or.inl (by omega)⟩

end Sys2Proof.Proofs
end

section
/-! PROOFS. The reset pins. -/

namespace Sys2Proof.Proofs

open Sys2Proof Sys2Proof.Machine Sys2Proof.Safety Sys2Proof.Laws

set_option Elab.async false

section
variable {s : State}

theorem assertReset_fuses (s : State) : (assertReset s).fuses = s.fuses := by
  obtain ⟨n, hn⟩ := s6Counted_only s
  have hfuses : (assertReset s).fuses = (cutSlotWrite (s6Counted s)).fuses := rfl
  rw [hfuses, cutSlotWrite_only, hn]

/-- The sequencer as AON_RST_N low leaves it. -/
def aonLow (q : Seqr) : Seqr :=
  { (({} : Seqr)) with pdn := vmap storedPdn q.pdn, shut := q.shut, sysRst := q.sysRst, perst := q.perst, s6Ticks := q.s6Ticks }

theorem exec_aonReset_leaves (s : State) : ∃ t, exec .aonReset s = .next t ∧ t.seq = aonLow (assertReset s).seq
    ∧ t.island = islandStored (assertReset s).island ∧ t.mem.cells = [] ∧ t.streams = [] ∧ t.power.stewardCap = none ∧ t.fuses = (assertReset s).fuses :=
  ⟨_, rfl, rfl, rfl, rfl, rfl, rfl, rfl⟩

theorem exec_aonResetRelease_of_low (trayEn auto : Bool) (slot : SlotId) (hlow : s.seq.aonRst = true) :
    exec (.aonResetRelease trayEn slot auto) s = .next { s with
      time := { s.time with msc := 0, replica := 0, hiSnap := 0, lastCorr := 0, nextExch := 0 }
      seq := { s.seq with aonRst := false, pwrAuto := auto }
      island := { s.island with trayEn := trayEn, slot := slot, startAt := 0 } } := by
  change execAonResetRelease trayEn slot auto s = _
  simp only [execAonResetRelease, hlow, Bool.not_true, Bool.false_eq_true, if_false]

/-- The state with SYS_RST_N low noted. -/
def sysLow (s : State) : State := { s with seq := { s.seq with sysRst := true } }

theorem exec_sysResetAssert_of_on (hstate : s.seq.state = .s5 ∨ s.seq.state = .s6) (hrequest : s.seq.request ≠ some false) (hdown : goingDown s = false) :
    exec .sysResetAssert s = .next (assertReset (sysLow s)) := by
  have hon : (s.seq.state == .s5 || s.seq.state == .s6) = true := by rcases hstate with h | h <;> rw [h] <;> rfl
  have hgoing : goingDown (sysLow s) = false := hdown
  change Host.Outcome.next (if (s.seq.state == .s5 || s.seq.state == .s6) = true then
    (if goingDown (sysLow s) = true then _ else if (s.seq.request == some false) = true then _ else assertReset (sysLow s)) else _) = _
  rw [if_pos hon, hgoing, if_neg Bool.false_ne_true, beq_false_of_ne hrequest, if_neg Bool.false_ne_true]

theorem exec_sysResetRelease_of_s4 (hstate : s.seq.state = .s4) (hstep : s.seq.step = none) :
    exec .sysResetRelease s = .next { s with seq := { s.seq with sysRst := false, step := some ⟨true, 7, now s⟩ } } := by
  change execSysResetRelease s = _
  simp only [execSysResetRelease, modSeq, hstate, hstep, beq_self_eq_true, Option.isNone_none, Bool.and_self, if_true]
  rfl

end

/-- Settles O41. -/
theorem resetPinsAct : Obligations.ResetPinsAct := by
  refine ⟨fun s => ?_, fun trayEn auto slot s hlow => ?_, fun s hstate hrequest hdown => ?_, fun s hstate hstep => exec_sysResetRelease_of_s4 hstate hstep⟩
  · obtain ⟨n, hseq⟩ := assertReset_seq s
    obtain ⟨t, hrun, htseq, htisland, hcells, hstreams, hcap, hfuses⟩ := exec_aonReset_leaves s
    rw [hseq] at htseq
    rw [assertReset_island] at htisland
    rw [assertReset_fuses] at hfuses
    refine ⟨t, hrun, ?_, ?_, ?_, ?_, ?_, ?_, ?_, ?_, hcells, hstreams, ?_, ?_, ?_, ?_, fun d => ?_, ?_, hcap, hfuses⟩ <;>
      simp only [htseq, htisland, aonLow, islandStored, storedPdn, vget_vmap]
  · rw [exec_aonResetRelease_of_low trayEn auto slot hlow]
    exact ⟨_, rfl, rfl, rfl, rfl, rfl, rfl⟩
  · obtain ⟨n, hseq⟩ := assertReset_seq (sysLow s)
    refine ⟨_, exec_sysResetAssert_of_on hstate hrequest hdown, congrArg Seqr.sysRst hseq, congrArg Seqr.internalReset hseq, congrArg Seqr.state hseq,
      congrArg Seqr.step hseq, (congrArg Seqr.vlog hseq).trans rfl, (congrArg Seqr.vmem hseq).trans rfl, rfl, rfl, rfl, rfl, fun a => ?_⟩
    exact congrArg (readByte · a) (assertReset_cells (sysLow s))

end Sys2Proof.Proofs
end

section
/-! PROOFS. STAT lines and the roles in a tray. -/

namespace Sys2Proof.Proofs

open Sys2Proof Sys2Proof.Machine Sys2Proof.Safety Sys2Proof.Laws

set_option Elab.async false

section
variable {s : State}

theorem islandRuns_of_inTray (h : inTray s = true) : islandRuns s = true := (Bool.and_eq_true_iff.1 h).1

/-- A message with a good PEC that reaches an island of a tray is carried out. -/
theorem onTray_of_good {h : TrayHead} (htray : inTray s = true) (hpec : h.pecOk = true) (kind : Nat) (f : State → State) : onTray s h kind f = f s := by
  simp only [onTray, htray, hpec, Bool.not_true, Bool.false_eq_true, if_false]

/-! ## STAT lines -/

theorem statSample_level (t : Tick) (x : StatIn) (lv : Bool) : (statSample t x lv).level = lv := by
  unfold statSample
  by_cases h : x.level = lv
  · simp only [h, beq_self_eq_true, if_true]
  · simp only [beq_false_of_ne h, Bool.false_eq_true, if_false]

theorem statSample_since_of_change (t : Tick) {x : StatIn} {lv : Bool} (h : x.level ≠ lv) : (statSample t x lv).since = t := by
  simp only [statSample, beq_false_of_ne h, Bool.false_eq_true, if_false]

/-- An input unchanged for 300 ms without a rising edge is hung where it is high and in error where it is low. -/
theorem statSample_cls_of_still {t : Tick} {x : StatIn} {lv : Bool} (h : x.level = lv) (hrise : x.rise = none) (hlong : 7372800 ≤ apart x.since t) :
    (statSample t x lv).cls = if lv then .hung else .error := by
  simp only [statSample, h, hrise, hlong, beq_self_eq_true, if_true, Bool.false_and, Bool.false_eq_true, if_false]

theorem apart_self (t : Tick) : apart t t = 0 := by
  unfold apart
  omega

/-- An input that changes 150 ms or less after its last opposite edge is healthy. -/
theorem statSample_cls_of_edges {t b : Tick} {x : StatIn} {lv : Bool} (h : x.level ≠ lv) (hedge : (if lv then x.fall else x.rise) = some b)
    (hshort : apart b t ≤ 3686400) : (statSample t x lv).cls = .healthy := by
  cases lv with
  | true =>
    rw [if_pos rfl] at hedge
    simp [statSample, h, hedge, hshort, apart_self]
  | false =>
    rw [if_neg Bool.false_ne_true] at hedge
    simp [statSample, h, hedge, hshort, apart_self]

theorem exec_statInSample_of_inTray (levels : BitVec 16) (htray : inTray s = true) : exec (.statInSample levels) s
    = .next { s with island := { s.island with statIn := vmapIdx (fun n x => statSample (now s) x (levels.getLsbD n)) s.island.statIn } } := by
  change execStatInSample levels s = _
  simp only [execStatInSample, htray, Bool.not_true, Bool.false_eq_true, if_false]
  rfl

theorem exec_statWatchdogExpiry_of_passed (hrun : islandRuns s = true) (hpassed : passed s s.island.statKick 4915200 = true) :
    exec .statWatchdogExpiry s = .next { s with island := { s.island with statOut := .high } } := by
  change execStatWatchdogExpiry s = _
  simp only [execStatWatchdogExpiry, hrun, hpassed, Bool.not_true, Bool.or_self, Bool.false_eq_true, if_false]
  rfl

/-- The island with a late kick of the watchdog noted. -/
def kickNoted (s : State) : State := if passed s s.island.statKick 2457601 then modIsland s fun i => { i with trialAt := now s } else s

theorem kickNoted_is (s : State) : ∃ a, kickNoted s = { s with island := { s.island with trialAt := a } } := by
  unfold kickNoted
  split
  · exact ⟨_, rfl⟩
  · exact ⟨s.island.trialAt, rfl⟩

/-- STAT_OUT driven, the watchdog kicked. -/
def driven (s : State) (o : StatOut) : State := modIsland s fun i => { i with statOut := o, statKick := now s }

/-- STAT_TOGGLE leaves the output driven so. -/
def Drives (s : State) (o : StatOut) (t : State) : Prop := t.island.statOut = o ∧ t.island.statKick = now s ∧ OnlyIsland s t

theorem driven_drives (s : State) (o : StatOut) : Drives s o (driven s o) := ⟨rfl, rfl, rfl⟩

theorem requestRole_drives (s : State) (o : StatOut) (d : SlotId) : Drives s o (requestRole (driven s o) d) := ⟨rfl, rfl, rfl⟩

theorem exec_statToggle_drives (hrun : islandRuns s = true) (hat : now s % 1228800 = 0) : ∃ t, exec .statToggle s = .next t
    ∧ Drives (kickNoted s) (if statError (kickNoted s) then .low else .wave (now (kickNoted s) / 1228800 % 2 == 1)) t := by
  have hkick : (if passed s s.island.statKick 2457601 then modIsland s fun i => { i with trialAt := now s } else s) = kickNoted s := rfl
  change ∃ t, execStatToggle s = _ ∧ _
  unfold execStatToggle
  rw [hkick, hrun, hat, if_neg (by decide)]
  generalize kickNoted s = k
  dsimp only
  cases statError k with
  | true =>
    rw [if_pos rfl, if_pos rfl]
    split
    · split
      · exact ⟨_, rfl, requestRole_drives ..⟩
      · exact ⟨_, rfl, driven_drives ..⟩
    · exact ⟨_, rfl, driven_drives ..⟩
  | false =>
    rw [if_neg Bool.false_ne_true, if_neg Bool.false_ne_true]
    exact ⟨_, rfl, driven_drives ..⟩

/-! ## Roles -/

/-- The island is as before but for its role, what a primary keeps, and the log. -/
def OnlyRole (i j : Island) : Prop := j = { i with
  role := j.role, coolArmed := j.coolArmed, coolKick := j.coolKick, coolMax := j.coolMax, beatAt := j.beatAt, tray := j.tray, pushes := j.pushes
  capAt := j.capAt, counted := j.counted, caps := j.caps, log := j.log, logSeq := j.logSeq }

theorem takeRole_onlyIsland (s : State) (r : Role) (cause peer : Nat) :
    takeRole s r cause peer = { s with island := (takeRole s r cause peer).island } := by
  unfold takeRole
  split
  · rfl
  · dsimp only
    split <;> rfl

theorem takeRole_onlyRole (s : State) (r : Role) (cause peer : Nat) : OnlyRole s.island (takeRole s r cause peer).island := by
  unfold takeRole
  split
  · rfl
  · dsimp only
    split <;> rfl

theorem takeRole_role (s : State) (r : Role) (cause peer : Nat) : (takeRole s r cause peer).island.role = r := by
  unfold takeRole
  split
  next h => exact eq_of_beq h
  next => rfl

theorem takeRole_mem (s : State) (r : Role) (cause peer : Nat) : (takeRole s r cause peer).mem = s.mem := by rw [takeRole_onlyIsland]

/-- The island that takes over as primary. -/
theorem takeRole_primary (cause peer : Nat) (hrole : s.island.role ≠ .primary) : takeRole s .primary cause peer
    = logRole (modIsland (startPrimary s cause peer) fun i => { i with
        role := .primary, coolArmed := true, coolKick := now s, coolMax := i.coolMax, beatAt := now s + 2 ^ 64 - 2457600 }) .primary cause peer := by
  simp only [takeRole, beq_false_of_ne hrole, beq_self_eq_true, Bool.false_eq_true, if_false, if_true]

/-- A new primary that goes on from an old one counts every slot that is not in error, with the cap it holds itself. -/
theorem startPrimary_counts {n : SlotId} {mw : Nat} (hcap : s.power.stewardCap = some mw) (hn : n ≠ s.island.slot) (hcls : (s.island.statIn.get n).cls ≠ .error)
    (peer : Nat) : n ∈ (startPrimary s 2 peer).island.counted ∧ (startPrimary s 2 peer).island.caps.get n = mw := by
  refine ⟨List.mem_filter.2 ⟨mem_fins n, by simp [hn, hcls]⟩, ?_⟩
  have hany : ((fins 16).any fun k => k.1 == n.1 && (true && if k == s.island.slot then s.seq.state != .s0 && s.seq.state != .s1
      else k.1 == peer || (s.island.statIn.get k).cls != .error)) = true := List.any_eq_true.2 ⟨n, mem_fins n, by simp [hn, hcls]⟩
  simp only [startPrimary, modIsland, vget_vmapIdx, hcap, Option.getD_some]
  exact if_pos hany

theorem admitAlone_island_mem (s : State) : (∃ a, (admitAlone s).island = { s.island with admitted := a }) ∧ (admitAlone s).mem = s.mem := by
  unfold admitAlone
  split
  · exact ⟨⟨_, rfl⟩, rfl⟩
  · exact ⟨⟨s.island.admitted, rfl⟩, rfl⟩

theorem tryAscend_island_mem (s : State) : (∃ a, (tryAscend s).island = { s.island with admitted := a }) ∧ (tryAscend s).mem = s.mem := by
  unfold tryAscend
  dsimp only
  split
  · rw [ascend_island, ascend_mem]
    exact admitAlone_island_mem s
  · exact admitAlone_island_mem s

/-- The role the election gives: primary to the first slot eligible, standby to the next. -/
def electedRole (s : State) : Role :=
  if (eligible s).head? == some s.island.slot then .primary else if ((eligible s).drop 1).head? == some s.island.slot then .standby else .none

/-- The island with the election's outcome. -/
def electedIsland (s : State) : State :=
  modIsland s fun i => { i with elected := true, primary := (eligible s).head?, standby := ((eligible s).drop 1).head? }

theorem exec_election_of_due (htray : inTray s = true) (helected : s.island.elected = false) (hseen : s.island.beatSeen = false)
    (hpassed : passed s s.island.startAt 24576000 = true) : exec .election s = .next (tryAscend (takeRole (electedIsland s) (electedRole s) 0
      (if electedRole s == .primary then slotOr ((eligible s).drop 1).head? else slotOr (eligible s).head?))) := by
  change execElection s = _
  simp only [execElection, htray, helected, hseen, hpassed, Bool.not_true, Bool.or_self, Bool.false_eq_true, if_false]
  rfl

/-! ## Takeover and standby -/

theorem nameStandby_onlyIsland (s : State) (n : Option SlotId) : OnlyIsland s (nameStandby s n)
    ∧ (nameStandby s n).island = { s.island with standby := n, txSeq := (nameStandby s n).island.txSeq } := by
  cases n <;> exact ⟨rfl, rfl⟩

theorem roleEvent_only (s : State) (r : Role) (peer : Nat) : roleEvent s r peer = { s with host := (roleEvent s r peer).host } := by
  unfold roleEvent
  split <;> rfl

theorem roleEvent_island (s : State) (r : Role) (peer : Nat) : (roleEvent s r peer).island = s.island := by rw [roleEvent_only]

/-- The island whose primary's place is vacant, before it takes the role. -/
def vacated (s : State) : State := modIsland s fun i => { i with roleReq := none, swapAt := none, primary := some i.slot }

/-- The island that has taken the primary's place. -/
def takenOver (s : State) : State := sendBeat (takeRole (vacated s) .primary 2 (slotOr s.island.primary))

/-- The new primary has named a standby. -/
def standbyNamed (s : State) : State := nameStandby (takenOver s) ((eligible (takenOver s)).filter (· != (takenOver s).island.slot)).head?

theorem exec_primaryVacant_of_silent (htray : inTray s = true) (hrole : s.island.role = .standby) (hpassed : passed s s.island.lastBeat 12288000 = true) :
    exec .primaryVacant s = .next (notify (roleEvent (standbyNamed s) .primary (slotOr s.island.primary)) 0x07 (slotByte (standbyNamed s))
      (put 20 1 (standbyNamed s).island.slot.1)) := by
  change execPrimaryVacant s = _
  simp only [execPrimaryVacant, htray, hrole, hpassed, Bool.true_or, Bool.not_true, bne_self_eq_false, Bool.or_self, Bool.false_eq_true, if_false]
  rfl

theorem takenOver_onlyIsland (s : State) : OnlyIsland s (takenOver s) := by
  unfold takenOver sendBeat
  rw [takeRole_onlyIsland]
  rfl

/-- What the takeover puts into the island. -/
def HoldsPlace (s : State) (i : Island) : Prop := i.role = .primary ∧ i.primary = some s.island.slot ∧ i.coolArmed = true ∧ i.lastBeat = now s
  ∧ ∀ (mw : Nat) (n : SlotId), s.power.stewardCap = some mw → n ≠ s.island.slot → (s.island.statIn.get n).cls ≠ .error → n ∈ i.counted ∧ i.caps.get n = mw

theorem takenOver_holdsPlace (hrole : s.island.role ≠ .primary) : HoldsPlace s (takenOver s).island := by
  have hcounts (mw : Nat) (n : SlotId) (hcap : s.power.stewardCap = some mw) (hn : n ≠ s.island.slot) (hcls : (s.island.statIn.get n).cls ≠ .error) :=
    startPrimary_counts (s := vacated s) hcap hn hcls (slotOr s.island.primary)
  have hprimary : (startPrimary (vacated s) 2 (slotOr s.island.primary)).island.primary = some s.island.slot := rfl
  have hnow : now (startPrimary (vacated s) 2 (slotOr s.island.primary)) = now s := rfl
  unfold takenOver
  rw [takeRole_primary (s := vacated s) 2 _ hrole]
  generalize startPrimary (vacated s) 2 (slotOr s.island.primary) = u at *
  exact ⟨rfl, hprimary, rfl, hnow, hcounts⟩

theorem standbyNamed_holdsPlace (hrole : s.island.role ≠ .primary) : HoldsPlace s (standbyNamed s).island := by
  obtain ⟨-, hisland⟩ := nameStandby_onlyIsland (takenOver s) ((eligible (takenOver s)).filter (· != (takenOver s).island.slot)).head?
  unfold standbyNamed
  rw [hisland]
  exact takenOver_holdsPlace hrole

theorem HoldsPlace.of_noticesOnly {i j : Island} (h : HoldsPlace s i) (honly : NoticesOnly i j) : HoldsPlace s j := by
  rw [honly]
  exact h

theorem exec_primaryRerank_of_vacant {d : SlotId} (htray : inTray s = true) (hrole : s.island.role = .primary) (hnone : s.island.standby = none)
    (hnext : ((eligible s).filter (· != s.island.slot)).head? = some d) : exec .primaryRerank s = .next (nameStandby s (some d)) := by
  change execPrimaryRerank s = _
  simp only [execPrimaryRerank, htray, hrole, hnone, hnext, beq_self_eq_true, Bool.not_true, Bool.false_eq_true, if_false, if_true]

theorem exec_standbyNamed_of_good {h : TrayHead} (n : SlotId) (htray : inTray s = true) (hpec : h.pecOk = true) : exec (.standbyNamed h n) s = .next (
    if n == s.island.slot then takeRole (modIsland s fun i => { i with standby := some n }) .standby 0 h.src.1
    else if s.island.role == .standby then takeRole (modIsland s fun i => { i with standby := some n }) .none 0 h.src.1
    else modIsland s fun i => { i with standby := some n }) := by
  change execStandbyNamed h n s = _
  rw [execStandbyNamed, onTray_of_good htray hpec]

end

/-- Settles O43. -/
theorem statLinesAndElection : Obligations.StatLinesAndElection := by
  refine ⟨?toggle, ?watchdog, ?sample, ?election, ?takeover, ?rerank, ?named⟩
  case toggle =>
    intro s hrun hat
    obtain ⟨a, ha⟩ := kickNoted_is s
    have hnow : now (kickNoted s) = now s := by rw [ha]; rfl
    have herror : statError (kickNoted s) = statError s := by rw [ha]; rfl
    obtain ⟨t, hrun', hout, hkick, honly⟩ := exec_statToggle_drives hrun hat
    rw [hnow, herror] at hout
    exact ⟨t, hrun', hout, hkick.trans hnow, honly.trans (by rw [ha])⟩
  case watchdog => exact fun s hrun hpassed => exec_statWatchdogExpiry_of_passed hrun hpassed
  case sample =>
    intro lv s htray
    refine ⟨_, exec_statInSample_of_inTray lv htray, rfl, fun n => ?_⟩
    simp only [vget_vmapIdx]
    refine ⟨statSample_level .., statSample_since_of_change _, fun hlevel hrise hlong => ?_, fun hlevel b hedge hshort => ?_⟩
    · exact statSample_cls_of_still hlevel hrise (of_decide_eq_true hlong)
    · have hlt : ¬ 3686401 ≤ apart b (now s) := of_decide_eq_false hshort
      exact statSample_cls_of_edges hlevel hedge (by omega)
  case election =>
    intro s htray helected hseen hpassed
    rw [exec_election_of_due htray helected hseen hpassed]
    generalize (if electedRole s == .primary then slotOr ((eligible s).drop 1).head? else slotOr (eligible s).head?) = peer
    obtain ⟨⟨a, ha⟩, hmem⟩ := tryAscend_island_mem (takeRole (electedIsland s) (electedRole s) 0 peer)
    have hkeeps := takeRole_onlyRole (electedIsland s) (electedRole s) 0 peer
    refine ⟨_, rfl, ?_, ?_, ?_, ?_, hmem.trans (takeRole_mem ..)⟩
    · rw [ha, hkeeps]
      rfl
    · rw [ha, hkeeps]
      rfl
    · rw [ha, hkeeps, ← List.drop_one]
      rfl
    · rw [ha, ← List.drop_one]
      refine (takeRole_role ..).trans ?_
      simp only [electedRole, beq_iff_eq]
  case takeover =>
    intro s htray hrole hpassed
    have hne : s.island.role ≠ .primary := by rw [hrole]; exact Role.noConfusion
    have hplace : HoldsPlace s (roleEvent (standbyNamed s) .primary (slotOr s.island.primary)).island := by
      rw [roleEvent_island]
      exact standbyNamed_holdsPlace hne
    obtain ⟨hprimary, hslot, harmed, hbeat, hcounts⟩ := hplace.of_noticesOnly (notify_noticesOnly _ 0x07 (slotByte (standbyNamed s))
      (put 20 1 (standbyNamed s).island.slot.1))
    refine ⟨_, exec_primaryVacant_of_silent htray hrole hpassed, hprimary, hslot, harmed, hbeat, ?_, ?_, hcounts⟩
    · rw [notify_only, roleEvent_only, standbyNamed, (nameStandby_onlyIsland ..).1, takenOver_onlyIsland]
    · rw [notify_only, roleEvent_only, standbyNamed, (nameStandby_onlyIsland ..).1, takenOver_onlyIsland]
  case rerank =>
    intro s d htray hrole hnone hnext
    exact ⟨_, exec_primaryRerank_of_vacant htray hrole hnone hnext, rfl, rfl, rfl⟩
  case named =>
    intro h n s htray hpec
    rw [exec_standbyNamed_of_good n htray hpec]
    have htaken (r : Role) (cause peer : Nat) : let t := takeRole (modIsland s fun i => { i with standby := some n }) r cause peer
        OnlyIsland s t ∧ t.island.standby = some n ∧ t.island.role = r := by
      refine ⟨?_, ?_, takeRole_role ..⟩
      · rw [takeRole_onlyIsland]
        rfl
      · rw [takeRole_onlyRole]
        rfl
    by_cases hslot : n = s.island.slot
    · simp only [hslot, beq_self_eq_true, if_true] at htaken ⊢
      exact ⟨_, rfl, htaken ..⟩
    · simp only [beq_false_of_ne hslot, hslot, Bool.false_eq_true, if_false, beq_iff_eq]
      by_cases hrole : s.island.role = .standby
      · simp only [if_pos hrole]
        exact ⟨_, rfl, htaken ..⟩
      · simp only [if_neg hrole]
        exact ⟨_, rfl, rfl, rfl, rfl⟩

end Sys2Proof.Proofs
end

section
/-! PROOFS. HEARTBEAT, STATE and CAP on the tray bus. -/

namespace Sys2Proof.Proofs

open Sys2Proof Sys2Proof.Machine Sys2Proof.Safety Sys2Proof.Laws

set_option Elab.async false

section
variable {s t u : State} {i j k : Island}

/-! ## What admitting a die leaves of its island -/

/-- The island is as before but for its notices, its log and the admission of its die. -/
def OnlyAdmits (i j : Island) : Prop := j = { i with
  notices := j.notices, noticesLost := j.noticesLost, log := j.log, logSeq := j.logSeq, admitted := j.admitted, capAfterRequest := j.capAfterRequest }

/-- A die may have been admitted: memory is as before, the island but for that, and no record of its log is lost. -/
structure Admits (s t : State) : Prop where
  mem : t.mem = s.mem
  island : OnlyAdmits s.island t.island
  log : s.island.log <+: t.island.log

theorem OnlyAdmits.trans (hij : OnlyAdmits i j) (hjk : OnlyAdmits j k) : OnlyAdmits i k := by
  unfold OnlyAdmits at *
  rw [hjk, hij]

theorem Admits.trans (hst : Admits s t) (htu : Admits t u) : Admits s u :=
  ⟨htu.mem.trans hst.mem, hst.island.trans htu.island, hst.log.trans htu.log⟩

theorem Admits.of_admitted (hmem : t.mem = s.mem) {a c : Bool} (h : t.island = { s.island with admitted := a, capAfterRequest := c }) : Admits s t := by
  refine ⟨hmem, ?_, ?_⟩
  · rw [h]
    rfl
  · rw [h]

theorem Admits.of_same (hmem : t.mem = s.mem) (h : t.island = s.island) : Admits s t := .of_admitted hmem (a := s.island.admitted) (c := s.island.capAfterRequest) h

theorem notify_admits (s : State) (code slot data : Nat) : Admits s (notify s code slot data) := by
  refine ⟨by rw [notify_only], ?_, log_prefix_notify ..⟩
  unfold notify
  dsimp only
  split_ifs <;> rfl

theorem applyOwnCap_admits (s : State) (mw : Nat) : Admits s (applyOwnCap s mw) := by
  have hcheck : Admits s (limitCheck { s with power := { s.power with stewardCap := some mw } }) := .of_same (limitCheck_mem _) (by rw [limitCheck_onlyGovernor])
  unfold applyOwnCap
  generalize limitCheck { s with power := { s.power with stewardCap := some mw } } = u at hcheck
  exact hcheck.trans (notify_admits ..)

theorem tryAscend_admits (s : State) : Admits s (tryAscend s) := by
  obtain ⟨⟨a, ha⟩, hmem⟩ := tryAscend_island_mem s
  exact .of_admitted hmem (c := s.island.capAfterRequest) ha

theorem admitted_admits (s : State) : Admits s (modIsland s fun i => { i with admitted := true, capAfterRequest := false }) := .of_admitted rfl rfl

theorem capAdmits_admits (s : State) : Admits s (capAdmits s) := by
  unfold capAdmits
  split
  · exact (admitted_admits s).trans (tryAscend_admits _)
  · exact .of_admitted (a := s.island.admitted) (c := true) rfl rfl

theorem requestOn_admits (s : State) : Admits s (requestOn s) := by
  unfold requestOn
  split
  · exact .of_same rfl rfl
  · split
    · exact ⟨rfl, rfl, List.prefix_append ..⟩
    · split
      · exact .of_same rfl rfl
      · have hnoted : Admits s (onNoted s) := .of_same rfl rfl
        exact hnoted.trans (tryAscend_admits _)

theorem powerOnHere_admits (s : State) : Admits s (powerOnHere s) := by
  unfold powerOnHere
  dsimp only
  split
  · exact (admitted_admits s).trans (requestOn_admits _)
  · exact requestOn_admits s

/-! ## Pushes -/

/-- What a push of caps keeps: memory, the states known, the slots counted, the generation, the tray's cap
and its ticks, and every record of the log. -/
structure KeepsTray (s t : State) : Prop where
  mem : t.mem = s.mem
  tray : t.island.tray = s.island.tray
  counted : t.island.counted = s.island.counted
  gen : t.island.gen = s.island.gen
  capAt : t.island.capAt = s.island.capAt
  nextPower : t.island.nextPower = s.island.nextPower
  cap : t.island.trayCapW = s.island.trayCapW
  demand : t.island.demand = s.island.demand
  log : s.island.log <+: t.island.log

theorem KeepsTray.refl (s : State) : KeepsTray s s := ⟨rfl, rfl, rfl, rfl, rfl, rfl, rfl, rfl, List.prefix_rfl⟩

theorem KeepsTray.trans (hst : KeepsTray s t) (htu : KeepsTray t u) : KeepsTray s u :=
  ⟨htu.mem.trans hst.mem, htu.tray.trans hst.tray, htu.counted.trans hst.counted, htu.gen.trans hst.gen, htu.capAt.trans hst.capAt,
    htu.nextPower.trans hst.nextPower, htu.cap.trans hst.cap, htu.demand.trans hst.demand, hst.log.trans htu.log⟩

/-- A slot's cap and push are as before. -/
def KeepsSlot (n : SlotId) (s t : State) : Prop := t.island.caps.get n = s.island.caps.get n ∧ t.island.pushes.get n = s.island.pushes.get n

theorem KeepsSlot.trans {n : SlotId} (hst : KeepsSlot n s t) (htu : KeepsSlot n t u) : KeepsSlot n s u := ⟨htu.1.trans hst.1, htu.2.trans hst.2⟩

theorem Admits.keepsTray (h : Admits s t) : KeepsTray s t := by
  obtain ⟨hmem, hisland, hlog⟩ := h
  refine ⟨hmem, ?_, ?_, ?_, ?_, ?_, ?_, ?_, hlog⟩ <;> rw [hisland]

theorem Admits.keepsSlot (h : Admits s t) (n : SlotId) : KeepsSlot n s t := by
  constructor <;> rw [h.island]

/-- A slot's cap noted as in force. -/
def capNoted (s : State) (n : SlotId) (p : CapPush) : State :=
  modIsland s fun i => { i with caps := vmod i.caps n fun _ => p.cap, pushes := vmod i.pushes n fun _ => none }

theorem capNoted_keepsTray (s : State) (n : SlotId) (p : CapPush) : KeepsTray s (capNoted s n p) := ⟨rfl, rfl, rfl, rfl, rfl, rfl, rfl, rfl, List.prefix_rfl⟩

theorem capNoted_keepsSlot {n m : SlotId} (h : m ≠ n) (s : State) (p : CapPush) : KeepsSlot m s (capNoted s n p) :=
  ⟨vget_vmod_other _ _ h, vget_vmod_other _ _ h⟩

theorem capInPlace_keeps (s : State) (n : SlotId) (p : CapPush) : KeepsTray (capNoted s n p) (capInPlace s n p)
    ∧ ∀ m, KeepsSlot m (capNoted s n p) (capInPlace s n p) := by
  unfold capInPlace
  dsimp only
  split
  · exact ⟨.refl _, fun m => ⟨rfl, rfl⟩⟩
  · split
    · exact ⟨(powerOnHere_admits (capNoted s n p)).keepsTray, (powerOnHere_admits (capNoted s n p)).keepsSlot⟩
    · exact ⟨⟨rfl, rfl, rfl, rfl, rfl, rfl, rfl, rfl, List.prefix_rfl⟩, fun m => ⟨rfl, rfl⟩⟩

theorem sendCap_keepsTray (s : State) (n : SlotId) (p : CapPush) : KeepsTray s (sendCap s n p) := by
  unfold sendCap
  split
  · have hheld : Admits s (capAdmits (applyOwnCap s p.cap)) := (applyOwnCap_admits s p.cap).trans (capAdmits_admits _)
    exact hheld.keepsTray.trans ((capNoted_keepsTray _ n p).trans (capInPlace_keeps _ n p).1)
  · exact ⟨rfl, rfl, rfl, rfl, rfl, rfl, rfl, rfl, List.prefix_rfl⟩

theorem sendCap_keepsSlot {n m : SlotId} (h : m ≠ n) (s : State) (p : CapPush) : KeepsSlot m s (sendCap s n p) := by
  unfold sendCap
  split
  · have hheld : Admits s (capAdmits (applyOwnCap s p.cap)) := (applyOwnCap_admits s p.cap).trans (capAdmits_admits _)
    exact (hheld.keepsSlot m).trans ((capNoted_keepsSlot h _ p).trans ((capInPlace_keeps _ n p).2 m))
  · exact ⟨rfl, vget_vmod_other _ _ h⟩

theorem foldl_sendCap_keepsTray (l : List (SlotId × CapPush)) (s : State) : KeepsTray s (l.foldl (fun t x => sendCap t x.1 x.2) s) := by
  induction l generalizing s with
  | nil => exact .refl s
  | cons x l ih => exact (sendCap_keepsTray s x.1 x.2).trans (ih _)

theorem foldl_sendCap_keepsSlot {m : SlotId} {l : List (SlotId × CapPush)} (h : ∀ x ∈ l, m ≠ x.1) (s : State) :
    KeepsSlot m s (l.foldl (fun t x => sendCap t x.1 x.2) s) := by
  induction l generalizing s with
  | nil => exact ⟨rfl, rfl⟩
  | cons x l ih => exact (sendCap_keepsSlot (h x List.mem_cons_self) s x.2).trans (ih (fun y hy => h y (List.mem_cons_of_mem _ hy)) _)

theorem sendDue_keepsTray (s : State) : KeepsTray s (sendDue s) := foldl_sendCap_keepsTray _ s

/-- What is sent is sent of open pushes. -/
theorem mem_openPushes_of_due {l : List (SlotId × CapPush)} {x : SlotId × CapPush}
    (h : x ∈ (if !(l.filter fun x => decide (x.2.cap < x.2.old)).isEmpty then l.filter fun x => decide (x.2.cap < x.2.old)
      else if !(l.filter fun x => decide (x.2.old ≤ x.2.cap) && x.2.old != 0).isEmpty then l.filter fun x => decide (x.2.old ≤ x.2.cap) && x.2.old != 0
      else l).filter fun x => x.2.sentAt.isNone) : x ∈ l := by
  have hx := (List.mem_filter.1 h).1
  split at hx
  · exact (List.mem_filter.1 hx).1
  · split at hx
    · exact (List.mem_filter.1 hx).1
    · exact hx

/-- A slot without an open push keeps its cap and its push. -/
theorem sendDue_keepsSlot {m : SlotId} (h : s.island.pushes.get m = none ∨ gaveUp s m = true) : KeepsSlot m s (sendDue s) := by
  refine foldl_sendCap_keepsSlot (fun x hx hm => ?_) s
  obtain ⟨n, -, hn⟩ := List.mem_filterMap.1 (mem_openPushes_of_due hx)
  split at hn
  next p hp =>
    split at hn
    · contradiction
    next hopen =>
      obtain rfl := Option.some.inj hn
      dsimp only at hm
      subst hm
      rcases h with h | h
      · rw [hp] at h
        contradiction
      · exact hopen h
  next => contradiction

/-! ## Caps computed and queued -/

theorem mem_of_mem_shave {l : List SlotId} (k : Nat) {c : List (SlotId × Nat)} (h : ∀ x ∈ c, x.1 ∈ l) : ∀ x ∈ shave k c, x.1 ∈ l := by
  induction k generalizing c with
  | zero => exact h
  | succ k ih =>
    unfold shave
    dsimp only
    split
    · refine ih fun y hy => ?_
      obtain ⟨z, hz, rfl⟩ := List.mem_map.1 hy
      split
      · exact h z hz
      · exact h z hz
    · exact h

theorem mem_of_mem_map_caps {l : List SlotId} {g : SlotId → Nat} {x : SlotId × Nat} (h : x ∈ l.map fun n => (n, g n)) : x.1 ∈ l := by
  obtain ⟨n, hn, rfl⟩ := List.mem_map.1 h
  exact hn

/-- A cap is computed for no slot but those that share. -/
theorem mem_of_mem_shareCaps {mw : Option Nat} {l : List SlotId} {x : SlotId × Nat} (h : x ∈ shareCaps s mw l) : x.1 ∈ l := by
  unfold shareCaps at h
  split at h
  · exact mem_of_mem_map_caps h
  · split at h
    · exact mem_of_mem_map_caps h
    · exact mem_of_mem_shave _ (fun y hy => mem_of_mem_map_caps hy) x h

/-- No cap is computed for a slot whose push was given up. -/
theorem not_gaveUp_of_mem_computeCaps {x : SlotId × Nat} (h : x ∈ computeCaps s) : gaveUp s x.1 = false := by
  have hmem := (List.mem_insertionSort _).1 (mem_of_mem_shareCaps h)
  exact Eq.mp (Bool.not_eq_true' _) (List.mem_filter.1 hmem).2

theorem foldl_queue_is (q : SlotId → Nat → CapPush) (l : List (SlotId × Nat)) (t : State) :
    ∃ v, l.foldl (fun t x => modIsland t fun i => { i with pushes := vmod i.pushes x.1 fun _ => some (q x.1 x.2) }) t
        = { t with island := { t.island with pushes := v } }
      ∧ ∀ m, (∀ x ∈ l, m ≠ x.1) → v.get m = t.island.pushes.get m := by
  induction l generalizing t with
  | nil => exact ⟨t.island.pushes, rfl, fun _ _ => rfl⟩
  | cons x l ih =>
    obtain ⟨v, hv, hget⟩ := ih (modIsland t fun i => { i with pushes := vmod i.pushes x.1 fun _ => some (q x.1 x.2) })
    refine ⟨v, hv, fun m hm => (hget m fun y hy => hm y (List.mem_cons_of_mem _ hy)).trans ?_⟩
    exact vget_vmod_other _ _ (hm x List.mem_cons_self)

/-- The state with a new generation of pushes queued. -/
def queued (s : State) (v : Vector (Option CapPush) 16) : State := { s with island := { s.island with gen := s.island.gen + 1, pushes := v } }

/-- A new generation of caps: what changes is queued, and what may be sent is sent. A push given up stays. -/
theorem pushCaps_is (s : State) (powerOn : Option SlotId) : ∃ v, pushCaps s powerOn = sendDue (queued s v)
    ∧ ∀ m, gaveUp s m = true → v.get m = s.island.pushes.get m := by
  obtain ⟨v, hv, hget⟩ := foldl_queue_is (newPush s (s.island.gen + 1) powerOn)
    ((computeCaps s).filter fun x => x.2 != slotCap s x.1 || powerOn == some x.1) (modIsland s fun i => { i with gen := s.island.gen + 1 })
  refine ⟨v, congrArg sendDue hv, fun m hm => hget m fun x hx hmx => ?_⟩
  rw [hmx, not_gaveUp_of_mem_computeCaps (List.mem_filter.1 hx).1] at hm
  contradiction

/-- A new generation keeps what a push of caps keeps but for the generation's number. -/
theorem pushCaps_keeps (s : State) (powerOn : Option SlotId) :
    KeepsTray { s with island := { s.island with gen := s.island.gen + 1 } } (pushCaps s powerOn) := by
  obtain ⟨v, hv, -⟩ := pushCaps_is s powerOn
  have hqueued : KeepsTray { s with island := { s.island with gen := s.island.gen + 1 } } (queued s v) := ⟨rfl, rfl, rfl, rfl, rfl, rfl, rfl, rfl, List.prefix_rfl⟩
  rw [hv]
  exact hqueued.trans (sendDue_keepsTray _)

/-- A push that was given up stays so in a new generation. -/
theorem pushCaps_keepsSlot {m : SlotId} (h : gaveUp s m = true) (powerOn : Option SlotId) : KeepsSlot m s (pushCaps s powerOn) := by
  obtain ⟨v, hv, hget⟩ := pushCaps_is s powerOn
  have hqueued : KeepsSlot m s (queued s v) := ⟨rfl, hget m h⟩
  have hgave : gaveUp (queued s v) m = true := by
    unfold gaveUp at h ⊢
    rw [hqueued.2]
    exact h
  rw [hv]
  exact hqueued.trans (sendDue_keepsSlot (.inr hgave))

/-! ## HEARTBEAT and STATE -/

theorem exec_heartbeatSend_of_due (htray : inTray s = true) (hrole : s.island.role = .primary) (hpassed : passed s s.island.beatAt 2457600 = true) :
    exec .heartbeatSend s = .next (sendBeat s) := by
  change execHeartbeatSend s = _
  simp only [execHeartbeatSend, htray, hrole, hpassed, bne_self_eq_false, Bool.not_true, Bool.or_self, Bool.false_eq_true, if_false]

/-- The island with a HEARTBEAT's values. -/
def beatTaken (s : State) (b : Beat) : State :=
  modIsland s fun i => { i with
    primary := some b.primary, standby := b.standby, trayCapW := b.trayCapW, demand := b.demand, gen := max i.gen b.gen
    seqMark := max i.seqMark b.seqMark, seqFloor := if i.seqMark < b.seqMark then floorAbove i.seqFloor b.seqMark else i.seqFloor
    lastBeat := now s, beatSeen := true, shutdownAt := none, shutDone := false }

/-- The role a HEARTBEAT gives the slot that takes it. -/
def beatRole (s : State) (b : Beat) : Role := if b.primary == s.island.slot then .primary else if b.standby == some s.island.slot then .standby else .none

theorem exec_trayHeartbeat_of_taken {h : TrayHead} (b : Beat) (htray : inTray s = true) (hpec : h.pecOk = true)
    (hrole : s.island.role = .primary → h.src.1 ≤ s.island.slot.1) : exec (.trayHeartbeat h b) s
      = .next (stewardValues (takeRole (beatTaken s b) (beatRole s b) 0 b.primary.1) b.slope #v[b.warnOff, b.throttleOff, b.criticalOff] b.stewardHalf) := by
  have hgoes : (s.island.role == .primary && decide (s.island.slot.1 < h.src.1)) = false := by
    by_cases hprimary : s.island.role = .primary
    · rw [decide_eq_false (by have := hrole hprimary; omega), Bool.and_false]
    · rw [beq_false_of_ne hprimary, Bool.false_and]
  change execTrayHeartbeat h b s = _
  rw [execTrayHeartbeat, onTray_of_good htray hpec]
  simp only [hgoes, Bool.false_eq_true, if_false]
  rfl

/-- The values the primary sets are put in force here, the island and memory as before. -/
theorem stewardValues_sets (s : State) (slope : Nat) (off : Vector Nat 3) (half : Bool) : let t := stewardValues s slope off half
    t.power.slope = slope ∧ t.power.entryOff = off ∧ t.power.stewardHalf = half ∧ t.mem = s.mem ∧ t.island = s.island := by
  unfold stewardValues
  refine ⟨?_, ?_, ?_, limitCheck_mem _, ?_⟩
  · rw [limitCheck_onlyPoints]
    rfl
  · rw [limitCheck_onlyPoints]
    rfl
  · rw [limitCheck_onlyPoints]
    rfl
  · rw [limitCheck_onlyGovernor]
    rfl

theorem exec_stateSend_of_due (htray : inTray s = true) (hrole : s.island.role ≠ .primary) (hpassed : passed s s.island.stateAt 2457600 = true) :
    exec .stateSend s = .next (sendTray (modIsland s fun i => { i with stateAt := now s }) s.island.primary (.state (stateOfDie s))) := by
  change execStateSend s = _
  simp only [execStateSend, htray, hpassed, beq_false_of_ne hrole, Bool.true_or, Bool.not_true, Bool.or_self, Bool.false_eq_true, if_false]

theorem exec_trayState_of_primary {h : TrayHead} (b : TrayStateBody) (htray : inTray s = true) (hpec : h.pecOk = true) (hrole : s.island.role = .primary) :
    exec (.trayState h b) s = .next (takeState s h.src b) := by
  change execTrayState h b s = _
  rw [execTrayState, onTray_of_good htray hpec]
  simp only [hrole, bne_self_eq_false, Bool.false_eq_true, if_false]

/-! ## CAP -/

theorem exec_trayCap_of_good {h : TrayHead} (mw g : Nat) (htray : inTray s = true) (hpec : h.pecOk = true) :
    exec (.trayCap h mw g) s = .next (capAdmits (sendTray (applyOwnCap s mw) (some h.src) (.capAck g))) := by
  change execTrayCap h mw g s = _
  rw [execTrayCap, onTray_of_good htray hpec]

theorem exec_trayCap_of_bad {h : TrayHead} (mw g : Nat) (htray : inTray s = true) (hpec : h.pecOk = false) :
    exec (.trayCap h mw g) s = .next (dropBadPec s 0x03) := by
  change execTrayCap h mw g s = _
  simp only [execTrayCap, onTray, htray, hpec, Bool.not_true, Bool.not_false, Bool.false_eq_true, if_false, if_true]

theorem exec_capAck_of_sent {h : TrayHead} {g : Nat} {p : CapPush} (htray : inTray s = true) (hpec : h.pecOk = true) (hrole : s.island.role = .primary)
    (hpush : s.island.pushes.get h.src = some p) (hgen : p.gen = g) : exec (.capAck h g) s = .next (sendDue (capInPlace s h.src p)) := by
  change execCapAck h g s = _
  rw [execCapAck, onTray_of_good htray hpec]
  simp only [hpush, hrole, hgen, beq_self_eq_true, Bool.and_self, if_true]

section
variable {n : SlotId} {p : CapPush} {b : Tick}

/-- The given-up push of a slot, counted with the higher cap, is logged. -/
def capGivenUp (s : State) (n : SlotId) (p : CapPush) : State :=
  logIsland (modIsland s fun i => { i with
    caps := vmod i.caps n fun _ => max p.cap p.old, pushes := vmod i.pushes n fun _ => some { p with sentAt := none } })
    0x0506 0xFF 1 (put 0 1 n.1 + put 4 4 p.cap)

theorem exec_capResend_of_due (htray : inTray s = true) (hrole : s.island.role = .primary) (hpush : s.island.pushes.get n = some p)
    (hsent : p.sentAt = some b) (hpassed : passed s b 245760 = true) :
    exec (.capResend n) s = .next (if p.tries < 4 then sendCap s n p else pushCaps (capGivenUp s n p) none) := by
  change execCapResend n s = _
  simp only [execCapResend, htray, hrole, hpush, hsent, hpassed, bne_self_eq_false, Bool.not_true, Bool.or_self, Bool.false_eq_true, if_false]
  rfl

theorem sendCap_of_other (hn : n ≠ s.island.slot) : sendCap s n p
    = sendTray (modIsland s fun i => { i with pushes := vmod i.pushes n fun _ => some { p with tries := p.tries + 1, sentAt := some (now s) } })
        (some n) (.cap p.cap p.gen) := by
  simp only [sendCap, beq_false_of_ne hn, Bool.false_eq_true, if_false]

theorem gaveUp_capGivenUp (htries : 4 ≤ p.tries) : gaveUp (capGivenUp s n p) n = true := by
  have hpush : (capGivenUp s n p).island.pushes.get n = some { p with sentAt := none } := vget_vmod_same ..
  simp only [gaveUp, hpush, htries, decide_true, Option.isNone_none, Bool.and_self]

end

theorem exec_capRecompute_of_due (htray : inTray s = true) (hrole : s.island.role = .primary) (hdemand : s.island.demand = true)
    (hpassed : passed s s.island.capAt 2457600 = true) : exec .capRecompute s = .next (pushCaps (modIsland s fun i => { i with capAt := now s }) none) := by
  change execCapRecompute s = _
  simp only [execCapRecompute, htray, hrole, hdemand, hpassed, bne_self_eq_false, Bool.not_true, Bool.or_self, Bool.false_eq_true, if_false]

/-- A CAP admits where a request waits, and stands ahead of one else; it sends nothing and keeps the cap it brought. -/
theorem capAdmits_admitted {mw : Nat} (hcap : s.power.stewardCap = some mw) : (capAdmits s).power.stewardCap = some mw ∧ (capAdmits s).out = s.out
    ∧ (s.seq.request = some true → (capAdmits s).island.admitted = true) ∧ (s.seq.request ≠ some true → (capAdmits s).island.capAfterRequest = true) := by
  by_cases hrequest : s.seq.request = some true
  · have hadmit : capAdmits s = tryAscend (modIsland s fun i => { i with admitted := true, capAfterRequest := false }) := by
      simp only [capAdmits, hrequest, beq_self_eq_true, if_true]
    have halone : admitAlone (modIsland s fun i => { i with admitted := true, capAfterRequest := false })
        = modIsland s fun i => { i with admitted := true, capAfterRequest := false } := by
      simp only [admitAlone, modIsland, Bool.not_true, Bool.and_false, Bool.false_and, Bool.false_eq_true, if_false]
    rw [hadmit, tryAscend, halone]
    refine ⟨?_, ?_, fun _ => ?_, fun h => absurd hrequest h⟩
    · split
      · exact hcap
      · exact hcap
    · split
      · rfl
      · rfl
    · split
      · rw [ascend_island]
        rfl
      · rfl
  · have hadmit : capAdmits s = modIsland s fun i => { i with capAfterRequest := true } := by
      simp only [capAdmits, beq_false_of_ne hrequest, Bool.false_eq_true, if_false]
    rw [hadmit]
    exact ⟨hcap, rfl, fun h => absurd h hrequest, fun _ => rfl⟩

theorem applyOwnCap_seq (s : State) (mw : Nat) : (applyOwnCap s mw).seq = s.seq := by
  unfold applyOwnCap
  rw [notify_only]
  exact limitCheck_seq _

theorem applyOwnCap_txSeq (s : State) (mw : Nat) : (applyOwnCap s mw).island.txSeq = s.island.txSeq := by
  rw [(applyOwnCap_admits s mw).island]

/-! ## A STATE taken -/

section
variable {n : SlotId} {b : TrayStateBody}

/-- The STATE of a slot noted. -/
def stateNoted (s : State) (n : SlotId) (b : TrayStateBody) : State := modIsland s fun i => { i with tray := vmod i.tray n fun _ => some b }

/-- A slot counted no longer. -/
def uncounted (s : State) (n : SlotId) : State :=
  modIsland s fun i => { i with counted := i.counted.filter (· != n), caps := vmod i.caps n fun _ => 0, pushes := vmod i.pushes n fun _ => none }

/-- A slot counted with the cap it holds. -/
def countedAs (s : State) (n : SlotId) (mw : Nat) : State :=
  modIsland s fun i => { i with counted := if s.island.counted.contains n then i.counted else i.counted ++ [n], caps := vmod i.caps n fun _ => mw }

/-- The states and counts of a tray are those of another island of it, memory too. -/
def SameCounts (s t : State) : Prop := t.mem = s.mem ∧ t.island.tray = s.island.tray ∧ t.island.counted = s.island.counted

theorem pushCaps_sameCounts (s : State) (powerOn : Option SlotId) : SameCounts s (pushCaps s powerOn) := by
  obtain ⟨hmem, htray, hcounted, -, -, -, -, -, -⟩ := pushCaps_keeps s powerOn
  exact ⟨hmem, htray, hcounted⟩

theorem sameCounts_pushed (p : Bool) (s : State) : SameCounts s (if p then pushCaps s none else s) := by
  cases p with
  | true => exact pushCaps_sameCounts s none
  | false => exact ⟨rfl, rfl, rfl⟩

theorem takeState_of_pending (hnone : s.island.pushes.get n = none) (hpending : b.onPending = true) :
    takeState s n b = countSlot (modIsland (stateNoted s n b) fun i => { i with caps := vmod i.caps n fun _ => 0 }) n false := by
  simp only [takeState, pushing, hnone, hpending, Option.isSome_none, Bool.false_and, Bool.false_eq_true, if_false, if_true]
  rfl

theorem takeState_of_off (hnone : s.island.pushes.get n = none) (hpending : b.onPending = false) (hoff : b.seqState ≤ 1) : ∃ p : Bool,
    takeState s n b = if p then pushCaps (uncounted (stateNoted s n b) n) none else uncounted (stateNoted s n b) n := by
  simp only [takeState, pushing, hnone, hpending, hoff, Option.isSome_none, Bool.false_and, Bool.false_eq_true, if_false, if_true]
  exact ⟨_, rfl⟩

theorem takeState_of_on (hnone : s.island.pushes.get n = none) (hpending : b.onPending = false) (hon : 2 ≤ b.seqState) :
    takeState s n b = if (s.island.counted.contains n != true || !allKnown s) && allKnown (countedAs (stateNoted s n b) n (b.capMw.getD 130000))
      then pushCaps (countedAs (stateNoted s n b) n (b.capMw.getD 130000)) none else countedAs (stateNoted s n b) n (b.capMw.getD 130000) := by
  have hle : ¬ b.seqState ≤ 1 := by omega
  have hlt : 1 < b.seqState := hon
  simp only [takeState, pushing, gaveUp, hnone, hpending, hle, hlt, Option.isSome_none, Bool.false_and, Bool.false_eq_true, if_false, decide_true]
  rfl

theorem mem_counted (l : List SlotId) (n : SlotId) : n ∈ (if l.contains n then l else l ++ [n]) := by
  split
  next h => exact List.contains_iff_mem.1 h
  next => exact List.mem_append_right _ List.mem_cons_self

/-- A STATE taken is kept, and its slot counted where its die waits or runs, and not in S1. -/
theorem takeState_counts (hnone : s.island.pushes.get n = none) : (takeState s n b).mem = s.mem ∧ (takeState s n b).island.tray = (stateNoted s n b).island.tray
    ∧ ((b.onPending = true ∨ 2 ≤ b.seqState) → n ∈ (takeState s n b).island.counted)
    ∧ (b.onPending = false → b.seqState ≤ 1 → n ∉ (takeState s n b).island.counted) := by
  cases hpending : b.onPending with
  | true =>
    rw [takeState_of_pending hnone hpending]
    obtain ⟨hmem, htray, hcounted⟩ := pushCaps_sameCounts (modIsland (modIsland (stateNoted s n b) fun i => { i with caps := vmod i.caps n fun _ => 0 })
      fun i => { i with
        counted := if i.counted.contains n then i.counted else i.counted ++ [n]
        pushes := vmod i.pushes n fun p => if gaveUp (modIsland (stateNoted s n b) fun i => { i with caps := vmod i.caps n fun _ => 0 }) n then none else p }) none
    refine ⟨hmem, htray, fun _ => ?_, fun h => absurd h Bool.noConfusion⟩
    exact hcounted.symm ▸ mem_counted s.island.counted n
  | false =>
    rcases Nat.lt_or_ge 1 b.seqState with hon | hoff
    · rw [takeState_of_on hnone hpending hon]
      obtain ⟨hmem, htray, hcounted⟩ := sameCounts_pushed ((s.island.counted.contains n != true || !allKnown s)
        && allKnown (countedAs (stateNoted s n b) n (b.capMw.getD 130000))) (countedAs (stateNoted s n b) n (b.capMw.getD 130000))
      refine ⟨hmem, htray, fun _ => ?_, fun _ h => absurd h (by omega)⟩
      exact hcounted.symm ▸ mem_counted s.island.counted n
    · obtain ⟨p, hp⟩ := takeState_of_off (s := s) (n := n) hnone hpending hoff
      obtain ⟨hmem, htray, hcounted⟩ := sameCounts_pushed p (uncounted (stateNoted s n b) n)
      rw [hp]
      refine ⟨hmem, htray, fun h => absurd h (by simp; omega), fun _ _ hin => ?_⟩
      rw [hcounted] at hin
      exact bne_iff_ne.1 (List.mem_filter.1 hin).2 rfl

end

end

/-- Settles O44. -/
theorem beatsStatesAndCaps : Obligations.BeatsStatesAndCaps := by
  refine ⟨?beat, ?beatTaken, ?state, ?stateTaken, ?cap, ?ack, ?resend, ?recompute, ?bad⟩
  case beat => exact fun s htray hrole hpassed => ⟨_, exec_heartbeatSend_of_due htray hrole hpassed, rfl, rfl, rfl⟩
  case beatTaken =>
    intro h b s htray hpec hrole
    have honly := takeRole_onlyRole (beatTaken s b) (beatRole s b) 0 b.primary.1
    have hrolenew := takeRole_role (beatTaken s b) (beatRole s b) 0 b.primary.1
    have hmem := takeRole_mem (beatTaken s b) (beatRole s b) 0 b.primary.1
    rw [exec_trayHeartbeat_of_taken b htray hpec hrole]
    generalize takeRole (beatTaken s b) (beatRole s b) 0 b.primary.1 = u at honly hrolenew hmem ⊢
    obtain ⟨hslope, hoff, hhalf, htmem, hisland⟩ := stewardValues_sets u b.slope #v[b.warnOff, b.throttleOff, b.criticalOff] b.stewardHalf
    refine ⟨_, rfl, ?_, ?_, ?_, ?_, ?_, ?_, ?_, ?_, hslope, hoff, hhalf, htmem.trans hmem⟩ <;> rw [hisland]
    case refine_8 =>
      rw [hrolenew]
      simp only [beatRole, beq_iff_eq]
    all_goals
      rw [honly]
      rfl
  case state => exact fun s htray hrole hpassed => ⟨_, exec_stateSend_of_due htray hrole hpassed, rfl, rfl, rfl⟩
  case stateTaken =>
    intro h b s htray hpec hrole hnone
    obtain ⟨hmem, htaken, hcounts, huncounts⟩ := takeState_counts (b := b) hnone
    refine ⟨_, exec_trayState_of_primary b htray hpec hrole, hmem, ?_, fun n hn => ?_, hcounts, huncounts, fun hpending hon hin hknown => ?_⟩
    · rw [htaken]
      exact vget_vmod_same ..
    · rw [htaken]
      exact vget_vmod_other _ _ hn
    · have hcontains : s.island.counted.contains h.src = true := List.contains_iff_mem.2 hin
      have hkept : takeState s h.src b = countedAs (stateNoted s h.src b) h.src (b.capMw.getD 130000) := by
        rw [takeState_of_on hnone hpending hon, hcontains, hknown]
        rfl
      rw [hkept]
      exact ⟨rfl, rfl, if_pos hcontains, rfl, vget_vmod_same .., fun n hn => vget_vmod_other _ _ hn⟩
  case cap =>
    intro h mw g s htray hpec
    rw [exec_trayCap_of_good mw g htray hpec]
    have hheld := applyOwnCap_admits s mw
    obtain ⟨hcap, hout⟩ := applyOwnCap_applies s mw
    have hseq := applyOwnCap_seq s mw
    have htx := applyOwnCap_txSeq s mw
    generalize applyOwnCap s mw = u at hheld hcap hout hseq htx ⊢
    obtain ⟨hcapped, hsent, hadmits, hstands⟩ := capAdmits_admitted (s := sendTray u (some h.src) (.capAck g)) hcap
    rw [sendTray_seq, hseq] at hadmits hstands
    refine ⟨_, rfl, hcapped, ?_, (capAdmits_admits _).mem.trans hheld.mem, hadmits, hstands⟩
    rw [hsent, sendTray_out, htx]
    exact List.mem_append_right _ List.mem_cons_self
  case ack =>
    intro h g s p htray hpec hrole hpush hgen
    obtain ⟨hkeeps, hslots⟩ := capInPlace_keeps s h.src p
    obtain ⟨hcap, hnone⟩ := hslots h.src
    rw [show (capNoted s h.src p).island.caps.get h.src = p.cap from vget_vmod_same ..] at hcap
    rw [show (capNoted s h.src p).island.pushes.get h.src = none from vget_vmod_same ..] at hnone
    obtain ⟨hcapSent, hpushSent⟩ := sendDue_keepsSlot (.inl hnone)
    exact ⟨_, exec_capAck_of_sent htray hpec hrole hpush hgen, hcapSent.trans hcap, hpushSent.trans hnone, (sendDue_keepsTray _).mem.trans hkeeps.mem⟩
  case resend =>
    intro n s p b htray hrole hpush hsent hpassed hn
    have hrun := exec_capResend_of_due htray hrole hpush hsent hpassed
    refine ⟨fun htries => ?_, fun htries => ?_⟩
    · rw [if_pos htries, sendCap_of_other hn] at hrun
      exact ⟨_, hrun, rfl, vget_vmod_same .., rfl⟩
    · rw [if_neg (by omega)] at hrun
      obtain ⟨hcap, hpushKept⟩ := pushCaps_keepsSlot (gaveUp_capGivenUp (s := s) (n := n) htries) none
      refine ⟨_, hrun, hpushKept.trans (vget_vmod_same ..), hcap.trans (vget_vmod_same ..), ?_⟩
      exact ⟨_, (pushCaps_keeps _ none).log.subset (List.mem_append_right _ List.mem_cons_self), rfl⟩
  case recompute =>
    intro s htray hrole hdemand hpassed
    obtain ⟨hmem, -, -, hgen, hat, -, -, -, -⟩ := pushCaps_keeps (modIsland s fun i => { i with capAt := now s }) none
    exact ⟨_, exec_capRecompute_of_due htray hrole hdemand hpassed, hat, hgen, hmem⟩
  case bad =>
    intro h mw g s htray hpec
    exact ⟨_, exec_trayCap_of_bad mw g htray hpec, rfl, rfl, List.length_append, rfl⟩

end Sys2Proof.Proofs
end

section
/-! PROOFS. Fields of a message: what a number put together of fields holds in each, and the headers of Wairiq and of a relayed message. -/

namespace Sys2Proof.Proofs

open Sys2Proof Sys2Proof.Machine Sys2Proof.Safety Sys2Proof.Laws

set_option Elab.async false

section
variable {off len : Nat}

theorem put_lt (off len v : Nat) : put off len v < 256 ^ (off + len) := by
  have hlow : v % 2 ^ (8 * len) < 2 ^ (8 * len) := Nat.mod_lt _ (Nat.two_pow_pos _)
  have hpow : (256 : Nat) ^ (off + len) = 2 ^ (8 * len) * 2 ^ (8 * off) := by
    rw [show (256 : Nat) = 2 ^ 8 from rfl, ← Nat.pow_mul, ← Nat.pow_add]
    exact congrArg (2 ^ ·) (by omega)
  rw [put, Nat.shiftLeft_eq, hpow]
  exact Nat.mul_lt_mul_of_pos_right hlow (Nat.two_pow_pos _)

/-- Fields in ascending places stay below the next place. -/
theorem add_put_lt {a : Nat} (ha : a < 256 ^ off) (v : Nat) : a + put off len v < 256 ^ (off + len) := by
  have hlow : v % 2 ^ (8 * len) + 1 ≤ 256 ^ len := by
    rw [Nat.pow_mul]
    exact Nat.mod_lt _ (Nat.pow_pos (by decide))
  have hput : put off len v = v % 2 ^ (8 * len) * 256 ^ off := by
    rw [put, Nat.shiftLeft_eq, Nat.pow_mul 2 8 off]
  have hle : (v % 2 ^ (8 * len) + 1) * 256 ^ off ≤ 256 ^ len * 256 ^ off := Nat.mul_le_mul_right _ hlow
  rw [hput, Nat.pow_add, Nat.mul_comm (256 ^ off)]
  rw [Nat.add_mul, Nat.one_mul] at hle
  omega

/-- A field of a sum of fields is the value put there. -/
theorem field_of_sum {a b : Nat} (v : Nat) (ha : a < 256 ^ off) (hb : 256 ^ (off + len) ∣ b) : (a + put off len v + b) / 256 ^ off % 256 ^ len = v % 256 ^ len := by
  obtain ⟨q, rfl⟩ := hb
  have hput : put off len v = 256 ^ off * (v % 256 ^ len) := by rw [put, Nat.shiftLeft_eq, Nat.pow_mul, Nat.pow_mul, Nat.mul_comm]
  have hsum : a + put off len v + 256 ^ (off + len) * q = a + 256 ^ off * (v % 256 ^ len + 256 ^ len * q) := by
    rw [hput, Nat.pow_add, Nat.mul_add, Nat.mul_assoc, Nat.add_assoc]
  rw [hsum, Nat.add_mul_div_left _ _ (Nat.pow_pos (by decide)), Nat.div_eq_of_lt ha, Nat.zero_add, Nat.add_mul_mod_self_left, Nat.mod_mod]

theorem fld_eq {w : Nat} (e : BitVec w) (off len : Nat) : fld e off len = e.toNat / 256 ^ off % 256 ^ len := by
  rw [fld, Nat.shiftRight_eq_div_pow, Nat.pow_mul, Nat.pow_mul]

/-- A number's low bytes are those of its remainder in a wider word. -/
theorem mod_div_mod {w : Nat} (n : Nat) (h : off + len ≤ w) : n % 256 ^ w / 256 ^ off % 256 ^ len = n / 256 ^ off % 256 ^ len := by
  obtain ⟨k, rfl⟩ := Nat.exists_eq_add_of_le h
  rw [Nat.add_assoc, Nat.pow_add, Nat.mod_mul_right_div_self, Nat.pow_add, Nat.mod_mul_right_mod]

theorem fld_ofNat_of_sum {a b : Nat} (v : Nat) (hw : off + len ≤ 32) (ha : a < 256 ^ off) (hb : 256 ^ (off + len) ∣ b) :
    fld (BitVec.ofNat 256 (a + put off len v + b)) off len = v % 256 ^ len := by
  rw [fld_eq, BitVec.toNat_ofNat, show (2 : Nat) ^ 256 = 256 ^ 32 from by decide, mod_div_mod _ hw, field_of_sum v ha hb]

/-! ## Fields of bytes -/

theorem drop_leBytes (m n v : Nat) : (leBytes n v).drop m = leBytes (n - m) (v / 256 ^ m) := by
  induction m generalizing n v with
  | zero => simp
  | succ m ih =>
    cases n with
    | zero => simp [leBytes]
    | succ n =>
      rw [leBytes, List.drop_succ_cons, ih, Nat.add_sub_add_right, Nat.shiftRight_eq_div_pow, Nat.div_div_eq_div_mul]
      exact congrArg (fun k => leBytes (n - m) (v / k)) (Nat.pow_succ' (n := m) (m := 256)).symm

theorem bfld_leBytes {n : Nat} (h : off + len ≤ n) (v : Nat) : bfld (leBytes n v) off len = v / 256 ^ off % 256 ^ len := by
  rw [bfld, slice, drop_leBytes, leBytes_take (by omega), leNat_leBytes]

theorem bfld_append_left {a b : List Byte} (h : off + len ≤ a.length) : bfld (a ++ b) off len = bfld a off len := by
  rw [bfld, bfld, slice, slice, List.drop_append_of_le_length (by omega), List.take_append_of_le_length (by rw [List.length_drop]; omega)]

/-- A field of one byte is that byte. -/
theorem bfld_one_cons (a : Byte) (l : List Byte) : bfld (a :: l) 0 1 = a.toNat := by
  simp [bfld, slice, leNat]

theorem bfld_succ_cons (a : Byte) (l : List Byte) (off len : Nat) : bfld (a :: l) (off + 1) len = bfld l off len := rfl

/-! ## A Wairiq header -/

section
variable (type seq tray slot result n msc echo : Nat)

theorem wqHeader_result : fld (wqHeader type seq tray slot result n msc echo) 11 1 = result % 256 := by
  have hlow : put 0 2 0x5157 + put 2 1 1 + put 3 1 type + put 4 4 seq + put 8 2 tray + put 10 1 slot < 256 ^ 11 :=
    add_put_lt (add_put_lt (add_put_lt (add_put_lt (add_put_lt (put_lt 0 2 _) _) _) _) _) _
  have hhigh : 256 ^ (11 + 1) ∣ put 12 2 n + put 16 8 msc + put 24 8 echo :=
    dvd_add (dvd_add (dvd_put (by decide) ..) (dvd_put (by decide) ..)) (dvd_put (by decide) ..)
  have h := fld_ofNat_of_sum (off := 11) (len := 1) result (by decide) hlow hhigh
  rw [← Nat.add_assoc, ← Nat.add_assoc] at h
  exact h

theorem wqHeader_type : fld (wqHeader type seq tray slot result n msc echo) 3 1 = type % 256 := by
  have hlow : put 0 2 0x5157 + put 2 1 1 < 256 ^ 3 := add_put_lt (put_lt 0 2 _) _
  have hhigh : 256 ^ (3 + 1) ∣ put 4 4 seq + put 8 2 tray + put 10 1 slot + put 11 1 result + put 12 2 n + put 16 8 msc + put 24 8 echo :=
    dvd_add (dvd_add (dvd_add (dvd_add (dvd_add (dvd_add (dvd_put (by decide) ..) (dvd_put (by decide) ..)) (dvd_put (by decide) ..))
      (dvd_put (by decide) ..)) (dvd_put (by decide) ..)) (dvd_put (by decide) ..)) (dvd_put (by decide) ..)
  have h := fld_ofNat_of_sum (off := 3) (len := 1) type (by decide) hlow hhigh
  rw [← Nat.add_assoc, ← Nat.add_assoc, ← Nat.add_assoc, ← Nat.add_assoc, ← Nat.add_assoc, ← Nat.add_assoc] at h
  exact h

end

/-! ## A message relayed on the tray bus -/

section
variable (type result echo : Nat) (body : List Byte)

theorem relayLoad_length : (relayLoad type result echo body).length = 10 + body.length := by
  rw [relayLoad, List.length_append, leBytes_length]

theorem drop_relayLoad : (relayLoad type result echo body).drop 10 = body := by
  rw [relayLoad, List.drop_append_of_le_length (by rw [leBytes_length]), List.drop_of_length_le (by rw [leBytes_length]), List.nil_append]

theorem relayLoad_type : bfld (relayLoad type result echo body) 0 1 = type % 256 := by
  have h := field_of_sum (off := 0) (len := 1) (a := 0) (b := put 1 1 result + put 2 8 echo) type (by decide)
    (dvd_add (dvd_put (by decide) ..) (dvd_put (by decide) ..))
  rw [Nat.zero_add, ← Nat.add_assoc] at h
  rw [relayLoad, bfld_append_left (by rw [leBytes_length]; decide), bfld_leBytes (by decide), h, Nat.pow_one]

theorem relayLoad_result : bfld (relayLoad type result echo body) 1 1 = result % 256 := by
  have h := field_of_sum (off := 1) (len := 1) (b := put 2 8 echo) result (put_lt 0 1 type) (dvd_put (by decide) ..)
  rw [relayLoad, bfld_append_left (by rw [leBytes_length]; decide), bfld_leBytes (by decide), h, Nat.pow_one]

theorem relayLoad_echo : bfld (relayLoad type result echo body) 2 8 = echo % 256 ^ 8 := by
  have h := field_of_sum (off := 2) (len := 8) (b := 0) echo (add_put_lt (off := 1) (len := 1) (put_lt 0 1 type) result) (Nat.dvd_zero _)
  rw [relayLoad, bfld_append_left (by rw [leBytes_length]), bfld_leBytes (by decide), ← h, Nat.add_zero]

end

end

end Sys2Proof.Proofs
end

section
/-! PROOFS. The exchange of roles and power in a tray. -/

namespace Sys2Proof.Proofs

open Sys2Proof Sys2Proof.Machine Sys2Proof.Safety Sys2Proof.Laws

set_option Elab.async false

section
variable {s : State} {h : TrayHead}

theorem aonRst_of_inTray (htray : inTray s = true) : s.seq.aonRst = false := by
  have hrun := islandRuns_of_inTray htray
  simp only [islandRuns, Bool.and_eq_true, Bool.not_eq_true'] at hrun
  exact hrun.2

/-! ## The exchange of roles -/

theorem exec_trayRoleRequest_of_free (htray : inTray s = true) (hpec : h.pecOk = true) (hreq : s.island.roleReq = none) (hrole : s.island.role ≠ .none)
    (hswap : s.island.swapAt = none) : exec (.trayRoleRequest h) s
      = .next (sendTray (modIsland s fun i => { i with swapAt := some (now s + 245760) }) (some h.src) (.roleAccept (now s + 245760))) := by
  change execTrayRoleRequest h s = _
  rw [execTrayRoleRequest, onTray_of_good htray hpec]
  simp only [hreq, hswap, beq_false_of_ne hrole, Option.isSome_none, Bool.or_self, Bool.false_eq_true, if_false]

theorem exec_trayRoleRequest_of_crossed {b : Tick} (htray : inTray s = true) (hpec : h.pecOk = true) (hreq : s.island.roleReq = some b) :
    exec (.trayRoleRequest h) s = .next { s with island := { s.island with
      roleReq := none, noReqUntil := now s + (if s.island.slot.1 < h.src.1 then 24576 else 49152) } } := by
  change execTrayRoleRequest h s = _
  rw [execTrayRoleRequest, onTray_of_good htray hpec]
  simp only [hreq, Option.isSome_some, if_true]
  rfl

theorem exec_trayRoleAccept_of_open {b : Tick} (swap : Nat) (htray : inTray s = true) (hpec : h.pecOk = true) (hreq : s.island.roleReq = some b) :
    exec (.trayRoleAccept h swap) s = .next { s with island := { s.island with roleReq := none, swapAt := some swap } } := by
  change execTrayRoleAccept h swap s = _
  rw [execTrayRoleAccept, onTray_of_good htray hpec]
  simp only [hreq, Option.isNone_some, Bool.false_eq_true, if_false]
  rfl

/-- The role a swap gives. -/
def otherRole (s : State) : Role := if s.island.role == .primary then .standby else .primary

/-- The peer of a swap. -/
def swapPeer (s : State) : Nat := slotOr (if s.island.role == .primary then s.island.standby else s.island.primary)

/-- The island with primary and standby exchanged. -/
def swapped (s : State) : State := modIsland s fun i => { i with swapAt := none, primary := i.standby, standby := i.primary }

theorem exec_trayRoleSwap_of_reached {b : Tick} (htray : inTray s = true) (hswap : s.island.swapAt = some b) (hreached : reached s b = true)
    (hrole : s.island.role ≠ .none) : exec .trayRoleSwap s
      = .next (roleEvent (takeRole (swapped s) (otherRole s) 1 (swapPeer s)) (otherRole s) (swapPeer s)) := by
  change execTrayRoleSwap s = _
  simp only [execTrayRoleSwap, hswap, htray, hreached, beq_false_of_ne hrole, Bool.not_true, Bool.or_self, Bool.false_eq_true, if_false]
  rfl

/-- A role taken that is not the island's own arms the cooling watchdog where it is the primary's, and no other. -/
theorem takeRole_coolArmed {r : Role} (cause peer : Nat) (hrole : s.island.role ≠ r) : (takeRole s r cause peer).island.coolArmed = (r == .primary) := by
  simp only [takeRole, beq_false_of_ne hrole, Bool.false_eq_true, if_false]
  rfl

theorem exec_trayRoleRequestTimeout_of_passed {b : Tick} (hreq : s.island.roleReq = some b) (hpassed : passed s b 2457600 = true) :
    exec .trayRoleRequestTimeout s = .next { s with island := { s.island with roleReq := none, noReqUntil := now s + 24576000 } } := by
  change execTrayRoleRequestTimeout s = _
  simp only [execTrayRoleRequestTimeout, hreq, hpassed, Bool.not_true, Bool.false_eq_true, if_false]
  rfl

/-- The island whose hold is over. -/
def holdOver' (s : State) : State := modIsland s fun i => { i with noReqUntil := 0 }

theorem exec_trayRoleHoldoffExpiry_of_wanting {p : SlotId} (htray : inTray s = true) (hhold : s.island.noReqUntil ≠ 0)
    (hreached : reached s s.island.noReqUntil = true) (hrole : s.island.role = .standby) (hreq : s.island.roleReq = none)
    (hswap : s.island.swapAt = none) (hprimary : s.island.primary = some p) (hlower : s.island.slot.1 < p.1) :
    exec .trayRoleHoldoffExpiry s = .next (requestRole (holdOver' s) p) := by
  have hwants : wantsPrimary (holdOver' s) = true := by
    simp [wantsPrimary, holdOver', modIsland, mayAskRole, hrole, hreq, hswap, hprimary, hlower]
  have hask : askPrimary (holdOver' s) = requestRole (holdOver' s) p := by
    have hsame : (holdOver' s).island.primary = some p := hprimary
    simp only [askPrimary, hsame, hwants, if_true]
  change execTrayRoleHoldoffExpiry s = _
  rw [← hask]
  simp only [execTrayRoleHoldoffExpiry, htray, hreached, beq_false_of_ne hhold, Bool.not_true, Bool.or_self, Bool.false_eq_true, if_false]
  rfl

/-! ## Power -/

theorem exec_trayPower_off (htray : inTray s = true) (hpec : h.pecOk = true) :
    exec (.trayPower h false) s = .next (requestOff s) := by
  change execTrayPower h false s = _
  rw [execTrayPower, onTray_of_good htray hpec]
  rfl

/-- The die admitted, as the CAP that came allows. -/
def admittedHere (s : State) : State := modIsland s fun i => { i with admitted := true, capAfterRequest := false }

theorem exec_trayPower_on_of_s1 (htray : inTray s = true) (hpec : h.pecOk = true) (hstep : s.seq.step = none) (hstate : s.seq.state = .s1)
    (hshut : s.seq.shut = false) (hleak : s.island.leakLatch = false) (hcap : s.island.capAfterRequest = true) :
    exec (.trayPower h true) s = .next (tryAscend (onNoted (admittedHere s))) := by
  change execTrayPower h true s = _
  rw [execTrayPower, onTray_of_good htray hpec]
  simp only [if_true, powerOnHere, hcap]
  exact congrArg Host.Outcome.next (requestOn_of_s1 (s := admittedHere s) (aonRst_of_inTray htray) hshut hleak hstate hstep)

/-- An admitted die with an on request either ascends or keeps the request; the island is as before. -/
theorem tryAscend_of_admitted (hadmitted : s.island.admitted = true) (hrequest : s.seq.request = some true) : (tryAscend s).island = s.island
    ∧ ((tryAscend s).seq.request = some true ∨ (tryAscend s).seq.step = some ⟨true, 1, now s⟩) := by
  have halone : admitAlone s = s := by
    simp only [admitAlone, hadmitted, Bool.not_true, Bool.and_false, Bool.false_and, Bool.false_eq_true, if_false]
  rw [tryAscend, halone]
  split
  · exact ⟨ascend_island .., .inr (ascend_step ..)⟩
  · exact ⟨rfl, .inl hrequest⟩

theorem exec_trayPowerOnSequence_of_next {n : SlotId} (htray : inTray s = true) (hrole : s.island.role = .primary)
    (hreached : reached s s.island.nextPower = true) (hnext : (fins 16).find? (wantsPower s) = some n) :
    exec .trayPowerOnSequence s = .next (countSlot (modIsland s fun i => { i with nextPower := now s + 245760 }) n true) := by
  change execTrayPowerOnSequence s = _
  simp only [execTrayPowerOnSequence, htray, hrole, hreached, hnext, bne_self_eq_false, Bool.not_true, Bool.or_self, Bool.false_eq_true, if_false]

theorem countSlot_counts (s : State) (n : SlotId) (powerOn : Bool) : n ∈ (countSlot s n powerOn).island.counted
    ∧ (countSlot s n powerOn).island.nextPower = s.island.nextPower ∧ (countSlot s n powerOn).mem = s.mem := by
  unfold countSlot
  obtain ⟨hmem, -, hcounted, -, -, hnext, -, -, -⟩ := pushCaps_keeps (modIsland s fun i => { i with
    counted := if i.counted.contains n then i.counted else i.counted ++ [n]
    pushes := vmod i.pushes n fun p => if gaveUp s n then none else p }) (if powerOn then some n else none)
  refine ⟨?_, hnext, hmem⟩
  rw [hcounted]
  exact mem_counted s.island.counted n

/-! ## Relayed messages -/

/-- The primary sends what is relayed to it on to the rack manager. -/
theorem exec_trayRelay_of_primary (ty res echo : Nat) (body : List Byte) (htray : inTray s = true) (hpec : h.pecOk = true) (hrole : s.island.role = .primary)
    (heth : hasEth s.fuses.variant = true) :
    exec (.trayRelay h (relayLoad ty res echo body)) s = .next (sendWairiq s (ty % 256) (res % 256) (echo % 256 ^ 8) body) := by
  have hlength : ¬ (relayLoad ty res echo body).length < 10 := by rw [relayLoad_length]; omega
  change execTrayRelay h _ s = _
  rw [execTrayRelay, onTray_of_good htray hpec]
  simp only [hlength, hrole, heth, relayLoad_type, relayLoad_result, relayLoad_echo, drop_relayLoad, beq_self_eq_true, if_true, if_false]

/-- The message a slot carries out for the primary. -/
def relayed (s : State) (ty echo : Nat) (body : List Byte) : Wairiq :=
  ⟨wqHeader ty 0 0 (if echo == 0 then 0xFF else s.island.slot.1) 0 body.length 0 0, body, 0⟩

/-- Another island carries a relayed message out, and answers where an ECHO asks for it. -/
theorem exec_trayRelay_of_other {ty echo : Nat} (res : Nat) (body : List Byte) (htray : inTray s = true) (hpec : h.pecOk = true) (hrole : s.island.role ≠ .primary)
    (hty : ty < 256) (hecho : echo < 256 ^ 8) (hne : ty ≠ 9) : exec (.trayRelay h (relayLoad ty res echo body)) s
      = .next (if echo == 0 then (carryRelayed (relayed s ty echo body) s).1
        else sendTray (carryRelayed (relayed s ty echo body) s).1 (some h.src)
          (.relay (relayLoad ty (carryRelayed (relayed s ty echo body) s).2.1 echo (carryRelayed (relayed s ty echo body) s).2.2))) := by
  have hlength : ¬ (relayLoad ty res echo body).length < 10 := by rw [relayLoad_length]; omega
  change execTrayRelay h _ s = _
  rw [execTrayRelay, onTray_of_good htray hpec]
  simp only [hlength, beq_false_of_ne hrole, relayLoad_type, relayLoad_echo, drop_relayLoad, Nat.mod_eq_of_lt hty, Nat.mod_eq_of_lt hecho,
    beq_false_of_ne hne, Bool.false_eq_true, if_false]
  rfl

/-- A Wairiq message goes out with its RESULT in its header. -/
theorem sendWairiq_sends (s : State) (type result echo : Nat) (body : List Byte) : ∃ hd tag, (sendWairiq s type result echo body).out = s.out ++ [.wairiq hd body tag]
    ∧ fld hd 11 1 = result % 256 := ⟨_, _, rfl, wqHeader_result ..⟩

theorem sendWairiq_island (s : State) (type result echo : Nat) (body : List Byte) :
    (sendWairiq s type result echo body).island = { s.island with wqSeq := s.island.wqSeq + 1 } := rfl

theorem sendWairiq_onlyIsland (s : State) (type result echo : Nat) (body : List Byte) : OnlyIsland s (sendWairiq s type result echo body) := rfl

theorem wqType_relayed {ty : Nat} (hty : ty < 256) (s : State) (echo : Nat) (body : List Byte) : wqType (relayed s ty echo body) = ty := by
  rw [wqType, relayed, wqHeader_type, Nat.mod_eq_of_lt hty]

/-- A lamp's next duty, of a slot that may be. -/
theorem carryLamp_of_duty {w : Wairiq} {a : Byte} {n : LampId} {d : Nat} (ha : a.toNat ≤ 15) (hd : d ≤ 1000)
    (hbody : w.body = [a, BitVec.ofNat 8 n.1] ++ leBytes 2 d) (s : State) : carryLamp w s = (setLamp s n d, wqDone, []) := by
  have hlamp : bfld w.body 1 1 = n.1 := by
    rw [hbody, List.cons_append, bfld_succ_cons _ _ 0, List.cons_append, bfld_one_cons, BitVec.toNat_ofNat, Nat.mod_eq_of_lt (by omega)]
  have hduty : bfld w.body 2 2 = d := by
    rw [hbody, List.cons_append, bfld_succ_cons _ _ 1, List.cons_append, bfld_succ_cons _ _ 0, List.nil_append, bfld_leBytes (by decide)]
    omega
  have hslot : bfld w.body 0 1 = a.toNat := by
    rw [hbody, List.cons_append, bfld_one_cons]
  have hlength : w.body.length = 4 := by
    rw [hbody, List.length_append, leBytes_length]
    rfl
  have hn : ¬ 3 < n.1 := by omega
  have hdle : ¬ 1000 < d := by omega
  have hale : ¬ 15 < a.toNat := by omega
  have hfin : (⟨n.1 % 4, Nat.mod_lt _ (by decide)⟩ : LampId) = n := Fin.ext (Nat.mod_eq_of_lt n.2)
  simp only [carryLamp, hlamp, hduty, hslot, hlength, hn, hdle, hale, hfin, bne_self_eq_false, decide_false, Bool.or_self, Bool.false_eq_true, if_false]

/-- A relayed CLEAR_LEAK clears this island's latch. -/
theorem carryRelayed_clearLeak (hrole : s.island.role ≠ .primary) (echo : Nat) : (carryRelayed (relayed s 0x08 echo [2]) s).1 = clearLeakHere s := by
  have hto : toTray s 2 = s := by simp only [toTray, beq_false_of_ne hrole, Bool.and_false, Bool.false_eq_true, if_false]
  have haction : bfld (relayed s 0x08 echo [2]).body 0 1 = 2 := bfld_one_cons ..
  unfold carryRelayed
  rw [wqType_relayed (by decide)]
  simp only [haction, doService, doClearLeak, hto, wqAnswer]
  rfl

/-- A relayed LAMP sets this island's lamp. -/
theorem carryRelayed_lamp {n : LampId} {d : Nat} (hd : d ≤ 1000) (s : State) (echo : Nat) :
    carryRelayed (relayed s 0x07 echo ([BitVec.ofNat 8 s.island.slot.1, BitVec.ofNat 8 n.1] ++ leBytes 2 d)) s = (setLamp s n d, wqDone, []) := by
  have hslot : (BitVec.ofNat 8 s.island.slot.1).toNat ≤ 15 := by
    rw [BitVec.toNat_ofNat]
    omega
  unfold carryRelayed
  rw [wqType_relayed (by decide)]
  exact carryLamp_of_duty hslot hd rfl s

/-! ## Power-down -/

theorem exec_heartbeatLossShutdown_of_silent (htray : inTray s = true) (hrole : s.island.role ≠ .primary) (hnone : s.island.shutdownAt = none)
    (hdone : s.island.shutDone = false) (hpassed : passed s s.island.lastBeat 737280000 = true) : exec .heartbeatLossShutdown s
      = .next (notify (modIsland s fun i => { i with shutdownAt := some (now s + s.island.slot.1 * 2457600) }) 0x0B (slotByte s)
          (put 20 4 (now s + s.island.slot.1 * 2457600 - now s))) := by
  change execHeartbeatLossShutdown s = _
  simp only [execHeartbeatLossShutdown, htray, hnone, hdone, hpassed, beq_false_of_ne hrole, Option.isSome_none, Bool.not_true, Bool.or_self,
    Bool.false_eq_true, if_false]

/-- The island whose power-down has come. -/
def shutBegun (s : State) : State := modIsland s fun i => { i with shutdownAt := none, shutDone := true }

theorem exec_orderedPowerdownStart_of_own {b : Tick} (htray : inTray s = true) (hat : s.island.shutdownAt = some b) (hreached : reached s b = true)
    (hdown : s.island.trayDown = none) (hstate : s.seq.state = .s6) (hstep : s.seq.step = none) :
    ∃ t, exec .orderedPowerdownStart s = .next t ∧ t.island = (shutBegun s).island ∧ t.seq.step = some ⟨false, 1, now s⟩ ∧ t.mem = s.mem := by
  have hoff : requestOff (shutBegun s) = modSeq (shutBegun s) fun q => { q with request := none, requestAt := now s, step := some ⟨false, 1, now s⟩ } :=
    requestOff_of_s6 (s := shutBegun s) (aonRst_of_inTray htray) hstate hstep
  have hnone : (requestOff (shutBegun s)).island.trayDown = none := by
    rw [hoff]
    exact hdown
  have hrun : exec .orderedPowerdownStart s = .next (requestOff (shutBegun s)) := by
    change execOrderedPowerdownStart s = _
    change requestOff (modIsland s fun i => { i with shutdownAt := none, shutDone := true }) = _ at hoff
    change (requestOff (modIsland s fun i => { i with shutdownAt := none, shutDone := true })).island.trayDown = none at hnone
    simp only [execOrderedPowerdownStart, htray, hat, hreached, hnone, Bool.not_true, Bool.false_eq_true, if_false, if_true]
    rfl
  refine ⟨_, hrun, ?_, ?_, ?_⟩ <;> rw [hoff] <;> rfl

theorem exec_orderedPowerdownStart_of_tray {b : Tick} {d : SlotId} (htray : inTray s = true) (hrole : s.island.role = .primary)
    (hat : s.island.shutdownAt = none) (hdown : s.island.trayDown = some b) (hnext : s.island.trayDownNext = d.1)
    (hpassed : passed s b (d.1 * 2457600) = true) (hother : d ≠ s.island.slot) : exec .orderedPowerdownStart s
      = .next (sendTray (modIsland s fun i => { i with
          trayDownNext := d.1 + 1, markedOff := if i.markedOff.contains d then i.markedOff else i.markedOff ++ [d] }) (some d) (.power false)) := by
  have hfin : (⟨d.1 % 16, Nat.mod_lt _ (by decide)⟩ : SlotId) = d := Fin.ext (Nat.mod_eq_of_lt d.2)
  have hlast : ¬ 15 < d.1 := by omega
  have hslot : (d == s.island.slot) = false := beq_false_of_ne hother
  change execOrderedPowerdownStart s = _
  simp only [execOrderedPowerdownStart, htray, hrole, hat, hdown, hnext, hpassed, hfin, hlast, modIsland, hslot, bne_self_eq_false, decide_false, Bool.not_true,
    Bool.or_self, Bool.false_eq_true, if_false]

end

/-- Settles O45. -/
theorem rolesSwapAndTrayPower : Obligations.RolesSwapAndTrayPower := by
  refine ⟨?request, ?swap, ?timeout, ?holdoff, ?power, ?relay, ?carried, ?sequence, ?silent, ?own, ?tray⟩
  case request =>
    intro h s htray hpec
    refine ⟨fun hreq hrole hswap => ?_, fun b hreq => exec_trayRoleRequest_of_crossed htray hpec hreq,
      fun b sw hreq => exec_trayRoleAccept_of_open sw htray hpec hreq⟩
    exact ⟨_, exec_trayRoleRequest_of_free htray hpec hreq hrole hswap, rfl, rfl, rfl, rfl⟩
  case swap =>
    intro s b htray hswap hreached hrole
    have hother : otherRole s = if s.island.role = .primary then .standby else .primary := by simp only [otherRole, beq_iff_eq]
    obtain ⟨hne, harmed⟩ : s.island.role ≠ otherRole s ∧ (otherRole s == .primary) = (s.island.role == .standby) := by
      rw [hother]
      cases hcase : s.island.role with
      | none => exact absurd hcase hrole
      | primary => exact ⟨Role.noConfusion, rfl⟩
      | standby => exact ⟨Role.noConfusion, rfl⟩
    have hkeeps := takeRole_onlyRole (swapped s) (otherRole s) 1 (swapPeer s)
    refine ⟨_, exec_trayRoleSwap_of_reached htray hswap hreached hrole, ?_, ?_, ?_, ?_, ?_, ?_⟩
    · rw [roleEvent_only, takeRole_onlyIsland]
      rfl
    · rw [roleEvent_island, takeRole_role, hother]
    · rw [roleEvent_island, hkeeps]
      rfl
    · rw [roleEvent_island, hkeeps]
      rfl
    · rw [roleEvent_island, hkeeps]
      rfl
    · rw [roleEvent_island, takeRole_coolArmed (s := swapped s) _ _ hne, harmed]
  case timeout => exact fun s b hreq hpassed => exec_trayRoleRequestTimeout_of_passed hreq hpassed
  case holdoff =>
    intro s p htray hhold hreached hrole hreq hswap hprimary hlower
    exact ⟨_, exec_trayRoleHoldoffExpiry_of_wanting htray hhold hreached hrole hreq hswap hprimary hlower, rfl, rfl, rfl, rfl⟩
  case power =>
    intro h s htray hpec hstep
    refine ⟨fun hstate => ?_, fun hstate hshut hleak hcap => ?_⟩
    · rw [exec_trayPower_off htray hpec, requestOff_of_s6 (aonRst_of_inTray htray) hstate hstep]
      exact ⟨_, rfl, rfl, rfl⟩
    · obtain ⟨hisland, hgoes⟩ := tryAscend_of_admitted (s := onNoted (admittedHere s)) rfl rfl
      refine ⟨_, exec_trayPower_on_of_s1 htray hpec hstep hstate hshut hleak hcap, ?_, ?_, hgoes, (tryAscend_admits _).mem⟩ <;> rw [hisland] <;> rfl
  case relay =>
    intro h ty res echo body s htray hpec hrole heth hres
    obtain ⟨hd, tag, hout, hresult⟩ := sendWairiq_sends s (ty % 256) (res % 256) (echo % 256 ^ 8) body
    refine ⟨_, hd, tag, exec_trayRelay_of_primary ty res echo body htray hpec hrole heth, sendWairiq_onlyIsland .., hout, ?_, ?_⟩
    · rw [hresult]
      omega
    · rw [sendWairiq_island]
  case carried =>
    intro h s htray hpec hrole
    refine ⟨?_, fun n d echo hd hecho hlt => ?_⟩
    · rw [exec_trayRelay_of_other 0 [2] htray hpec hrole (by decide) (by decide) (by decide)]
      rw [if_pos (by decide), carryRelayed_clearLeak hrole]
    · rw [exec_trayRelay_of_other 0 _ htray hpec hrole (by decide) hlt (by decide), beq_false_of_ne hecho, if_neg Bool.false_ne_true,
        carryRelayed_lamp hd]
      exact ⟨_, rfl, rfl, congrArg Lamp.next (vget_vmod_same ..), rfl⟩
  case sequence =>
    intro s n htray hrole hreached hnext
    obtain ⟨hcounted, hat, hmem⟩ := countSlot_counts (modIsland s fun i => { i with nextPower := now s + 245760 }) n true
    exact ⟨_, exec_trayPowerOnSequence_of_next htray hrole hreached hnext, hat, hcounted, hmem⟩
  case silent =>
    intro s htray hrole hnone hdone hpassed
    refine ⟨_, exec_heartbeatLossShutdown_of_silent htray hrole hnone hdone hpassed, ?_, ?_⟩
    · rw [notify_only]
      rfl
    · rw [notify_noticesOnly]
      rfl
  case own =>
    intro s b htray hat hreached hdown hstate hstep
    obtain ⟨t, hrun, hisland, hstepped, hmem⟩ := exec_orderedPowerdownStart_of_own htray hat hreached hdown hstate hstep
    refine ⟨t, hrun, ?_, ?_, hstepped, hmem⟩ <;> rw [hisland] <;> rfl
  case tray =>
    intro s b d htray hrole hat hdown hnext hpassed hother
    exact ⟨_, exec_orderedPowerdownStart_of_tray htray hrole hat hdown hnext hpassed hother, rfl, rfl, mem_counted .., rfl⟩

end Sys2Proof.Proofs
end

section
/-! PROOFS. The cooling watchdog and the coolant limits. -/

namespace Sys2Proof.Proofs

open Sys2Proof Sys2Proof.Machine Sys2Proof.Safety Sys2Proof.Laws

set_option Elab.async false

section
variable {s : State}

/-! ## The watchdog -/

theorem exec_coolingWatchdogStage1_of_due (harmed : s.island.coolArmed = true) (hmax : s.island.coolMax = false)
    (hpassed : passed s s.island.coolKick 49152000 = true) :
    exec .coolingWatchdogStage1 s = .next (notify (modIsland s fun i => { i with coolMax := true }) 0x06 (slotByte s) 0) := by
  change execCoolingWatchdogStage1 s = _
  simp only [execCoolingWatchdogStage1, harmed, hmax, hpassed, Bool.not_true, Bool.or_self, Bool.false_eq_true, if_false]

theorem exec_coolingWatchdogStage2_of_due (harmed : s.island.coolArmed = true) (hmax : s.island.coolMax = true)
    (hpassed : passed s s.island.coolKick 98304000 = true) : exec .coolingWatchdogStage2 s = .next (islandCoreReset s) := by
  change execCoolingWatchdogStage2 s = _
  simp only [execCoolingWatchdogStage2, harmed, hmax, hpassed, Bool.not_true, Bool.or_self, Bool.false_eq_true, if_false]

/-! ## Readings -/

/-- A reading kept. -/
def readingKept (s : State) (n : Fin 8) (raw : Nat) : State := modIsland s fun i => { i with ain := vmod i.ain n fun _ => min raw 4095 }

theorem exec_ainSample_of_other {n : Fin 8} {raw : Nat} (hrun : islandRuns s = true) (hrole : s.island.role ≠ .primary) :
    exec (.ainSample n raw) s = .next (readingKept s n raw) := by
  change execAinSample n raw s = _
  simp only [execAinSample, hrun, modIsland, bne_iff_ne.2 hrole, Bool.not_true, Bool.false_eq_true, if_false, if_true]
  rfl

/-- A reading kept, and a coolant input's history with it where there are limits. -/
def coolantKept (s : State) (n : Fin 8) (raw : Nat) : State :=
  if n.1 < 4 && (readingKept s n raw).island.limitsOk then
    modIsland (readingKept s n raw) fun i => { i with
      coolant := vmod i.coolant ⟨n.1 % 4, Nat.mod_lt _ (by decide)⟩ fun c =>
        coolSample (now s) (i.coolLimits.get ⟨n.1 % 4, Nat.mod_lt _ (by decide)⟩) c (min raw 4095) }
  else readingKept s n raw

theorem coolantKept_is (s : State) (n : Fin 8) (raw : Nat) : ∃ c, coolantKept s n raw
    = { s with island := { s.island with ain := vmod s.island.ain n fun _ => min raw 4095, coolant := c } } := by
  unfold coolantKept
  split
  · exact ⟨_, rfl⟩
  · exact ⟨s.island.coolant, rfl⟩

/-- The pumps' duty the cooling loop sets. -/
def dutySet (s : State) : Nat :=
  let hot := s.island.tray.toList.foldl (fun a b => match b with | some x => max a x.hottest | none => a) (-640)
  if s.island.coolant.toList.any (·.warned) then 100 else max 20 (min 100 (Config.coolLaw hot (s.island.ain.get 1) s.free))

theorem dutySet_range (s : State) : 20 ≤ dutySet s ∧ dutySet s ≤ 100 := by
  unfold dutySet
  dsimp only
  split <;> omega

/-- The primary's cooling loop sets the pumps' duty and kicks the watchdog. -/
theorem exec_ainSample_of_primary {n : Fin 8} {raw : Nat} (hrun : islandRuns s = true) (hrole : s.island.role = .primary) :
    exec (.ainSample n raw) s = .next (modIsland { coolantKept s n raw with free := (coolantKept s n raw).free + 1 }
      fun i => { i with coolDuty := dutySet (coolantKept s n raw), coolKick := now s, coolMax := false }) := by
  have hsame : (readingKept s n raw).island.role = .primary := hrole
  have hexec : exec (.ainSample n raw) s = .next (if !islandRuns s then s
      else if (readingKept s n raw).island.role != .primary then readingKept s n raw
      else modIsland { coolantKept s n raw with free := (coolantKept s n raw).free + 1 }
        fun i => { i with coolDuty := dutySet (coolantKept s n raw), coolKick := now s, coolMax := false }) := rfl
  rw [hexec, hrun, hsame]
  rfl

/-! ## Coolant limits -/

section
variable {n : Fin 4} {b : Tick}

theorem exec_coolantWarn_of_due (htray : inTray s = true) (hrole : s.island.role = .primary) (hlimits : s.island.limitsOk = true)
    (hwarned : (s.island.coolant.get n).warned = false) (hsince : (s.island.coolant.get n).warnSince = some b) (hpassed : passed s b 24576000 = true) :
    ∃ d, exec (.coolantWarn n) s = .next (wairiqNotice (noticeAll (modIsland s fun i => { i with
      coolant := vmod i.coolant n fun c => { c with warned := true }, coolDuty := 100 }) 0x05 (slotByte s) d) 0x05 (slotByte s) d) := by
  refine ⟨put 20 1 n.1 + put 22 2 (s.island.ain.get ⟨n.1, by omega⟩), ?_⟩
  change execCoolantWarn n s = _
  simp only [execCoolantWarn, forTicks, htray, hrole, hlimits, hwarned, hsince, hpassed, bne_self_eq_false, Bool.not_true, Bool.or_self, Bool.false_eq_true,
    if_false]

theorem noticeAll_onlyIsland (s : State) (code slot data : Nat) : OnlyIsland s (noticeAll s code slot data) := by
  unfold noticeAll
  rw [notify_only s code slot data]
  rfl

theorem noticeAll_noticesOnly (s : State) (code slot data : Nat) : NoticesOnly s.island (noticeAll s code slot data).island :=
  (notify_noticesOnly s code slot data).trans rfl

/-- An input noted as critical. -/
def criticalNoted (s : State) (n : Fin 4) : State := modIsland s fun i => { i with coolant := vmod i.coolant n fun c => { c with critical := true } }

theorem exec_coolantCritical_of_due (htray : inTray s = true) (hrole : s.island.role = .primary) (hlimits : s.island.limitsOk = true)
    (hcritical : (s.island.coolant.get n).critical = false) (hsince : (s.island.coolant.get n).critSince = some b) (hpassed : passed s b 24576000 = true) :
    exec (.coolantCritical n) s = .next (sendBeat (stewardValues (criticalNoted s n) s.power.slope #v[20, 20, 20] true)) := by
  change execCoolantCritical n s = _
  simp only [execCoolantCritical, forTicks, htray, hrole, hlimits, hcritical, hsince, hpassed, bne_self_eq_false, Bool.not_true, Bool.or_self,
    Bool.false_eq_true, if_false]
  rfl

theorem exec_coolantCriticalShutdown_of_due (htray : inTray s = true) (hrole : s.island.role = .primary) (hcritical : (s.island.coolant.get n).critical = true)
    (hsince : (s.island.coolant.get n).critSince = some b) (hpassed : passed s b 1474560000 = true) (hdown : s.island.trayDown = none) :
    exec .coolantCriticalShutdown s = .next { s with island := { s.island with trayDown := some (now s), trayDownNext := 0 } } := by
  have hdue : (s.island.coolant.toList.any fun c => c.critical && forTicks s c.critSince 1474560000) = true := by
    refine List.any_eq_true.2 ⟨s.island.coolant.get n, Vector.mem_toList_iff.2 (Vector.getElem_mem n.2), ?_⟩
    simp only [forTicks, hcritical, hsince, hpassed, Bool.and_self]
  change execCoolantCriticalShutdown s = _
  simp only [execCoolantCriticalShutdown, htray, hrole, hdown, hdue, modIsland, bne_self_eq_false, Option.isSome_none, Bool.not_true, Bool.or_self,
    Bool.false_eq_true, if_false]

/-- An input noted as back within its limits. -/
def restoredNoted (s : State) (n : Fin 4) : State :=
  modIsland s fun i => { i with coolant := vmod i.coolant n fun c => { c with warned := false, critical := false } }

theorem exec_coolantRestored_of_last (htray : inTray s = true) (hrole : s.island.role = .primary) (hwarned : (s.island.coolant.get n).warned = true)
    (hsince : (s.island.coolant.get n).okSince = some b) (hpassed : passed s b 245760000 = true)
    (hothers : ∀ k, k ≠ n → (s.island.coolant.get k).critical = false) : ∃ d, exec (.coolantRestored n) s
      = .next (wairiqNotice (sendBeat (stewardValues (modIsland (restoredNoted s n) fun i => { i with trayDown := none }) s.power.slope s.island.thermOff false))
          0x05 (slotByte s) d) := by
  have hnone : ((vmod s.island.coolant n fun c => { c with warned := false, critical := false }).toList.any (·.critical)) = false := by
    refine List.any_eq_false.2 fun c hc => ?_
    obtain ⟨k, hk, rfl⟩ := Vector.getElem_of_mem (Vector.mem_toList_iff.1 hc)
    have hget : ((vmod s.island.coolant n fun c => { c with warned := false, critical := false }).get ⟨k, hk⟩).critical = false := by
      by_cases hkn : (⟨k, hk⟩ : Fin 4) = n
      · rw [hkn, vget_vmod_same]
      · rw [vget_vmod_other _ _ hkn]
        exact hothers _ hkn
    exact Bool.eq_false_iff.1 hget
  refine ⟨put 20 1 n.1 + put 22 2 (s.island.ain.get ⟨n.1, by omega⟩), ?_⟩
  change execCoolantRestored n s = _
  simp only [execCoolantRestored, forTicks, modIsland, restoredNoted, htray, hrole, hwarned, hsince, hpassed, hnone, bne_self_eq_false, Bool.not_true,
    Bool.or_self, Bool.false_eq_true, if_false]

theorem stewardValues_now (s : State) (slope : Nat) (off : Vector Nat 3) (half : Bool) : now (stewardValues s slope off half) = now s := by
  unfold stewardValues now
  rw [limitCheck_onlyGovernor]
  rfl

/-- What a beat sent after the steward's values were set leaves: the values, memory, and of the island what a beat does not set. -/
theorem sendBeat_stewardValues (s : State) (slope : Nat) (off : Vector Nat 3) (half : Bool) : let t := sendBeat (stewardValues s slope off half)
    t.power.stewardHalf = half ∧ t.power.entryOff = off ∧ t.mem = s.mem ∧ t.island.beatAt = now s ∧ t.island.coolant = s.island.coolant
      ∧ t.island.trayDown = s.island.trayDown := by
  obtain ⟨-, hoff, hhalf, hmem, hisland⟩ := stewardValues_sets s slope off half
  have hnow := stewardValues_now s slope off half
  generalize stewardValues s slope off half = u at *
  have hcoolant : u.island.coolant = s.island.coolant := by rw [hisland]
  have hdown : u.island.trayDown = s.island.trayDown := by rw [hisland]
  exact ⟨hhalf, hoff, hmem, hnow, hcoolant, hdown⟩

end

end

/-- Settles O46. -/
theorem coolingGuarded : Obligations.CoolingGuarded := by
  refine ⟨?first, ?second, ?sample, ?limits⟩
  case first =>
    intro s harmed hmax hpassed
    refine ⟨_, exec_coolingWatchdogStage1_of_due harmed hmax hpassed, ?_, ?_, ?_⟩
    · rw [notify_only]
      rfl
    · rw [notify_noticesOnly]
      rfl
    · rw [notify_noticesOnly]
      rfl
  case second => exact fun s harmed hmax hpassed => ⟨_, exec_coolingWatchdogStage2_of_due harmed hmax hpassed, rfl, rfl, rfl, rfl, rfl, rfl, rfl⟩
  case sample =>
    intro n raw s hrun
    by_cases hrole : s.island.role = .primary
    · obtain ⟨c, hc⟩ := coolantKept_is s n raw
      obtain ⟨hlow, hhigh⟩ := dutySet_range (coolantKept s n raw)
      rw [exec_ainSample_of_primary hrun hrole]
      generalize dutySet (coolantKept s n raw) = duty at hlow hhigh ⊢
      rw [hc]
      exact ⟨_, rfl, vget_vmod_same .., fun k hk => vget_vmod_other _ _ hk, rfl, fun h => absurd hrole h, fun _ => ⟨rfl, rfl, hlow, hhigh⟩⟩
    · exact ⟨_, exec_ainSample_of_other hrun hrole, vget_vmod_same .., fun k hk => vget_vmod_other _ _ hk, rfl, fun _ => ⟨rfl, rfl⟩, fun h => absurd h hrole⟩
  case limits =>
    intro n s b htray hrole hlimits
    refine ⟨fun hwarned hsince hpassed => ?_, fun hcritical hsince hpassed => ?_,
      fun hcritical hsince hpassed hdown => exec_coolantCriticalShutdown_of_due htray hrole hcritical hsince hpassed hdown,
      fun hwarned hsince hpassed hothers => ?_⟩
    · obtain ⟨d, hd⟩ := exec_coolantWarn_of_due htray hrole hlimits hwarned hsince hpassed
      refine ⟨_, hd, ?_, ?_, ?_, fun k hk => ?_⟩
      · exact onlyIsland_trans (onlyIsland_trans rfl (noticeAll_onlyIsland ..)) (wairiqNotice_onlyIsland ..)
      · rw [wairiqNotice_noticesOnly, noticeAll_noticesOnly]
        exact congrArg Coolant.warned (vget_vmod_same ..)
      · rw [wairiqNotice_noticesOnly, noticeAll_noticesOnly]
        rfl
      · rw [wairiqNotice_noticesOnly, noticeAll_noticesOnly]
        exact vget_vmod_other _ _ hk
    · obtain ⟨hhalf, hoff, hmem, hat, hcoolant, -⟩ := sendBeat_stewardValues (criticalNoted s n) s.power.slope #v[20, 20, 20] true
      refine ⟨_, exec_coolantCritical_of_due htray hrole hlimits hcritical hsince hpassed, ?_, hhalf, hoff, hat, hmem⟩
      rw [hcoolant]
      exact congrArg Coolant.critical (vget_vmod_same ..)
    · obtain ⟨d, hd⟩ := exec_coolantRestored_of_last htray hrole hwarned hsince hpassed hothers
      obtain ⟨hhalf, hoff, hmem, -, hcoolant, hdown⟩ := sendBeat_stewardValues (modIsland (restoredNoted s n) fun i => { i with trayDown := none })
        s.power.slope s.island.thermOff false
      have hback : (vmod s.island.coolant n fun c => { c with warned := false, critical := false }).get n
          = { s.island.coolant.get n with warned := false, critical := false } := vget_vmod_same ..
      have hget := (congrArg (fun v : Vector Coolant 4 => v.get n) hcoolant).trans hback
      generalize sendBeat (stewardValues (modIsland (restoredNoted s n) fun i => { i with trayDown := none }) s.power.slope s.island.thermOff false) = u at *
      have hkept := wairiqNotice_noticesOnly u 0x05 (slotByte s) d
      have honly := wairiqNotice_onlyIsland u 0x05 (slotByte s) d
      generalize wairiqNotice u 0x05 (slotByte s) d = t at *
      refine ⟨t, hd, ?_, ?_, ?_, ?_, ?_, ?_⟩
      · rw [hkept]
        exact congrArg Coolant.warned hget
      · rw [hkept]
        exact congrArg Coolant.critical hget
      · rw [honly]
        exact hhalf
      · rw [honly]
        exact hoff
      · rw [hkept]
        exact hdown
      · rw [honly]
        exact hmem

end Sys2Proof.Proofs
end

section
/-! PROOFS. How a Wairiq request reaches its meaning, and who carries it out. -/

namespace Sys2Proof.Proofs

open Sys2Proof Sys2Proof.Machine Sys2Proof.Safety Sys2Proof.Laws

set_option Elab.async false

section
variable {s t u : State} {w : Wairiq} {type : Nat} {own : State → Carried}

/-! ## Replies -/

theorem wqReply_replied (hout : u.out = s.out) {result : Nat} (hresult : result < 256) (w : Wairiq) (body : List Byte) :
    Replied s (wqReply u w result body) result := by
  obtain ⟨hd, tag, hsent, hfield⟩ := sendWairiq_sends u (wqType w) result (fld w.header 4 8) body
  exact ⟨hd, body, tag, hsent.trans (by rw [hout]), hfield.trans (Nat.mod_eq_of_lt hresult)⟩

theorem wqReply_onlyIsland (h : OnlyIsland s u) (w : Wairiq) (result : Nat) (body : List Byte) : OnlyIsland s (wqReply u w result body) :=
  onlyIsland_trans h (sendWairiq_onlyIsland ..)

theorem wqReply_island (u : State) (w : Wairiq) (result : Nat) (body : List Byte) :
    (wqReply u w result body).island = { u.island with wqSeq := u.island.wqSeq + 1 } := rfl

theorem acceptSeq_onlyIsland (s : State) (seq : Nat) : OnlyIsland s (acceptSeq s seq) := rfl

/-! ## The checks -/

theorem onWairiq_of_badFrame (hrun : islandRuns s = true) (heth : hasEth s.fuses.variant = true) (htype : wqType w = type) (hframe : wqFrameOk w = false) :
    onWairiq s w type own = wqReply s w wqBad [] := by
  simp only [onWairiq, hrun, heth, htype, hframe, bne_self_eq_false, Bool.not_true, Bool.not_false, Bool.or_self, Bool.false_eq_true, if_false, if_true]

theorem onWairiq_of_badTag (hrun : islandRuns s = true) (heth : hasEth s.fuses.variant = true) (htype : wqType w = type) (hframe : wqFrameOk w = true)
    (htag : wqTagOk s w = false) : onWairiq s w type own = wqReply s w wqAuth [] := by
  simp only [onWairiq, hrun, heth, htype, hframe, htag, bne_self_eq_false, Bool.not_true, Bool.not_false, Bool.or_self, Bool.false_eq_true, if_false, if_true]

theorem onWairiq_of_old (hrun : islandRuns s = true) (heth : hasEth s.fuses.variant = true) (htype : wqType w = type) (hframe : wqFrameOk w = true)
    (htag : wqTagOk s w = true) (hne : type ≠ 1) (hold : wqSeqOf w ≤ s.island.seqMark) : onWairiq s w type own = s := by
  simp only [onWairiq, hrun, heth, htype, hframe, htag, beq_false_of_ne hne, hold, bne_self_eq_false, Bool.not_true, Bool.or_self, Bool.false_eq_true,
    if_false, if_true]

/-- IDENT asks for no sequence number. -/
theorem onWairiq_of_ident (hrun : islandRuns s = true) (heth : hasEth s.fuses.variant = true) (htype : wqType w = 1) (hframe : wqFrameOk w = true)
    (htag : wqTagOk s w = true) {result : Nat} {body : List Byte} (hown : own s = (u, result, body)) : onWairiq s w 1 own = wqReply u w result body := by
  simp only [onWairiq, hrun, heth, htype, hframe, htag, hown, bne_self_eq_false, beq_self_eq_true, Bool.not_true, Bool.or_self, Bool.false_eq_true, if_false, if_true]

/-- A request that passes its checks raises the mark, and is carried out by the island it is for. -/
theorem onWairiq_of_taken (htaken : WairiqTaken s w type) (hne : type ≠ 1) : onWairiq s w type own
    = if s.island.trayEn && s.island.role != .primary then
        wqReply (acceptSeq s (wqSeqOf w)) w wqNotPrimary [BitVec.ofNat 8 (slotOr s.island.primary)]
      else if wqTarget w == 0xFF || !s.island.trayEn || wqTarget w == s.island.slot.1 then
        wqReply (own (acceptSeq s (wqSeqOf w))).1 w (own (acceptSeq s (wqSeqOf w))).2.1 (own (acceptSeq s (wqSeqOf w))).2.2
      else if wqTarget w < 16 then
        sendTray (acceptSeq s (wqSeqOf w)) (some ⟨wqTarget w % 16, Nat.mod_lt _ (by decide)⟩) (.relay (relayLoad type 0 (fld w.header 4 8) w.body))
      else wqReply (acceptSeq s (wqSeqOf w)) w wqBad [] := by
  obtain ⟨hrun, heth, htype, hframe, htag, hmark⟩ := htaken
  simp only [onWairiq, hrun, heth, htype, hframe, htag, beq_false_of_ne hne, Nat.not_le.2 hmark, bne_self_eq_false, Bool.not_true, Bool.or_self,
    Bool.false_eq_true, if_false]

theorem onWairiq_of_carried (htaken : WairiqTaken s w type) (hne : type ≠ 1) (hcarries : CarriesOut s w) {result : Nat} {body : List Byte}
    (hown : own (acceptSeq s (wqSeqOf w)) = (u, result, body)) : onWairiq s w type own = wqReply u w result body := by
  have hprimary : (s.island.trayEn && s.island.role != .primary) = false := by
    rcases hcarries with htray | ⟨hrole, -⟩
    · rw [htray, Bool.false_and]
    · rw [hrole, bne_self_eq_false, Bool.and_false]
  have htarget : (wqTarget w == 0xFF || !s.island.trayEn || wqTarget w == s.island.slot.1) = true := by
    rcases hcarries with htray | ⟨-, hall | hslot⟩
    · simp [htray]
    · simp [hall]
    · simp [hslot]
  rw [onWairiq_of_taken htaken hne, hprimary, htarget, hown, if_neg Bool.false_ne_true, if_pos rfl]

theorem onWairiq_of_notPrimary (htaken : WairiqTaken s w type) (hne : type ≠ 1) (htray : s.island.trayEn = true) (hrole : s.island.role ≠ .primary) :
    onWairiq s w type own = wqReply (acceptSeq s (wqSeqOf w)) w wqNotPrimary [BitVec.ofNat 8 (slotOr s.island.primary)] := by
  rw [onWairiq_of_taken htaken hne, htray, bne_iff_ne.2 hrole]
  rfl

theorem onWairiq_of_otherSlot {n : SlotId} (htaken : WairiqTaken s w type) (hne : type ≠ 1) (htray : s.island.trayEn = true)
    (hrole : s.island.role = .primary) (htarget : wqTarget w = n.1) (hn : n ≠ s.island.slot) : onWairiq s w type own
      = sendTray (acceptSeq s (wqSeqOf w)) (some n) (.relay (relayLoad type 0 (fld w.header 4 8) w.body)) := by
  have hall : (n.1 == 0xFF) = false := beq_false_of_ne (by omega)
  have hslot : (n.1 == s.island.slot.1) = false := beq_false_of_ne fun h => hn (Fin.ext h)
  have hfin : (⟨n.1 % 16, Nat.mod_lt _ (by decide)⟩ : SlotId) = n := Fin.ext (Nat.mod_eq_of_lt n.2)
  rw [onWairiq_of_taken htaken hne]
  simp only [htray, hrole, htarget, hall, hslot, hfin, n.2, bne_self_eq_false, Bool.not_true, Bool.and_false, Bool.or_self, Bool.false_eq_true, if_false, if_true]

/-- A request of SLOPE_SET is for the slot its header names. -/
theorem wqTarget_of_slope (htype : wqType w = 0x04) : wqTarget w = wqSlot w := by
  simp [wqTarget, htype]

end

/-- Settles O49. -/
theorem wairiqRequestsAreGuarded : Obligations.WairiqRequestsAreGuarded := by
  refine ⟨fun w s hrun heth htype => ⟨fun hframe => ?_, fun hframe htag => ?_, fun hframe htag hold => ?_⟩,
    fun w s htaken htray => ⟨fun hrole => ?_, fun n hrole hslot hn => ?_⟩⟩
  · exact ⟨_, congrArg Host.Outcome.next (onWairiq_of_badFrame hrun heth htype hframe), wqReply_replied rfl (by decide) .., wqReply_onlyIsland rfl .., rfl⟩
  · exact ⟨_, congrArg Host.Outcome.next (onWairiq_of_badTag hrun heth htype hframe htag), wqReply_replied rfl (by decide) .., wqReply_onlyIsland rfl .., rfl⟩
  · exact congrArg Host.Outcome.next (onWairiq_of_old hrun heth htype hframe htag (by decide) hold)
  · exact ⟨_, congrArg Host.Outcome.next (onWairiq_of_notPrimary htaken (by decide) htray hrole), wqReply_replied rfl (by decide) ..,
      wqReply_onlyIsland (acceptSeq_onlyIsland ..) .., rfl⟩
  · have htype : wqType w = 0x04 := by
      obtain ⟨-, -, htype, -⟩ := htaken
      exact htype
    have htarget := (wqTarget_of_slope htype).trans hslot
    exact ⟨_, congrArg Host.Outcome.next (onWairiq_of_otherSlot htaken (by decide) htray hrole htarget hn), rfl, rfl, rfl⟩

end Sys2Proof.Proofs
end

section
/-! PROOFS. Wairiq readings and settings. -/

namespace Sys2Proof.Proofs

open Sys2Proof Sys2Proof.Machine Sys2Proof.Safety Sys2Proof.Laws

set_option Elab.async false

section
variable {s t u : State} {w : Wairiq}

/-! ## What each request carries out -/

/-- The tray cap a request sets. -/
def capSetting (w : Wairiq) (s : State) : Carried :=
  if w.body.length != 3 || decide (1 < bfld w.body 2 1) then (s, wqBad, [])
  else if !capRangeOk s (bfld w.body 0 2) then (s, wqRefused, [])
  else (setTrayCap s (bfld w.body 0 2) (bfld w.body 2 1 == 1), wqDone,
    (fins 16).flatMap fun n => leBytes 4 (((computeCaps (setTrayCap s (bfld w.body 0 2) (bfld w.body 2 1 == 1))).lookup n).getD 0))

theorem exec_trayCapSet_eq (w : Wairiq) (s : State) : exec (.trayCapSet w) s = .next (onWairiq s w 0x03 (capSetting w)) := rfl

theorem capSetting_of_low (hlength : w.body.length = 3) (hpolicy : bfld w.body 2 1 ≤ 1) (s : State) : capSetting w s
    = if capRangeOk s (bfld w.body 0 2) then (setTrayCap s (bfld w.body 0 2) (bfld w.body 2 1 == 1), wqDone,
        (fins 16).flatMap fun n => leBytes 4 (((computeCaps (setTrayCap s (bfld w.body 0 2) (bfld w.body 2 1 == 1))).lookup n).getD 0))
      else (s, wqRefused, []) := by
  unfold capSetting
  rw [hlength, decide_eq_false (Nat.not_lt.2 hpolicy)]
  cases capRangeOk s (bfld w.body 0 2) <;> rfl

theorem setTrayCap_sets (s : State) (c : Nat) (demand : Bool) : (setTrayCap s c demand).island.trayCapW = some c
    ∧ (setTrayCap s c demand).island.demand = demand ∧ (setTrayCap s c demand).island.gen = s.island.gen + 1 ∧ (setTrayCap s c demand).mem = s.mem := by
  obtain ⟨hmem, -, -, hgen, -, -, hcap, hdemand, -⟩ := pushCaps_keeps (modIsland s fun i => { i with trayCapW := some c, demand := demand, capAt := now s }) none
  exact ⟨hcap, hdemand, hgen, hmem⟩

theorem carrySlope_of_body {c : Byte} (hbody : w.body = [c]) (s : State) : carrySlope w s
    = if c.toNat == 0 || decide (64 < c.toNat) then (s, wqRefused, []) else (stewardValues s c.toNat s.power.entryOff s.power.stewardHalf, wqDone, []) := by
  have hfield : bfld w.body 0 1 = c.toNat := by rw [hbody, bfld_one_cons]
  have hlength : w.body.length = 1 := by rw [hbody]; rfl
  simp only [carrySlope, hfield, hlength, bne_self_eq_false, Bool.false_eq_true, if_false]

theorem stewardValues_out (s : State) (slope : Nat) (off : Vector Nat 3) (half : Bool) : (stewardValues s slope off half).out = s.out := by
  unfold stewardValues
  rw [limitCheck_out]
  rfl

/-- The offsets the rack manager set. -/
def offsKept (s : State) (off : Vector Nat 3) : State := modIsland s fun i => { i with thermOff := off }

theorem carryThermal_of_body {a b c : Byte} (hbody : w.body = [a, b, c]) (ha : a.toNat ≤ 20) (hb : b.toNat ≤ 20) (hc : c.toNat ≤ 20)
    (hcool : ∀ k, (s.island.coolant.get k).critical = false) : carryThermal w s
      = (stewardValues (offsKept s #v[a.toNat, b.toNat, c.toNat]) s.power.slope #v[a.toNat, b.toNat, c.toNat] s.power.stewardHalf,
          wqDone, []) := by
  have hfirst : bfld w.body 0 1 = a.toNat := by rw [hbody, bfld_one_cons]
  have hsecond : bfld w.body 1 1 = b.toNat := by rw [hbody, bfld_succ_cons _ _ 0, bfld_one_cons]
  have hthird : bfld w.body 2 1 = c.toNat := by rw [hbody, bfld_succ_cons _ _ 1, bfld_succ_cons _ _ 0, bfld_one_cons]
  have hlength : w.body.length = 3 := by rw [hbody]; rfl
  have hrange : (#v[a.toNat, b.toNat, c.toNat].toList.any fun o => decide (20 < o)) = false := by
    refine List.any_eq_false.2 fun o ho => ?_
    have hle : o ≤ 20 := by
      rcases List.mem_cons.1 ho with rfl | ho
      · exact ha
      · rcases List.mem_cons.1 ho with rfl | ho
        · exact hb
        · rw [List.mem_singleton.1 ho]
          exact hc
    rw [decide_eq_false (by omega)]
    exact Bool.false_ne_true
  have hnone : (s.island.coolant.toList.any (·.critical)) = false := by
    refine List.any_eq_false.2 fun c hc => ?_
    obtain ⟨k, hk, rfl⟩ := Vector.getElem_of_mem (Vector.mem_toList_iff.1 hc)
    exact Bool.eq_false_iff.1 (hcool ⟨k, hk⟩)
  simp only [carryThermal, hfirst, hsecond, hthird, hlength, hrange, hnone, bne_self_eq_false, Bool.false_eq_true, if_false]
  rfl

/-! ## POWER outside a tray -/

/-- Slot 0 marked off. -/
def slotOff (s : State) (n : SlotId) : State :=
  modIsland s fun i => { i with markedOff := if i.markedOff.contains n then i.markedOff else i.markedOff ++ [n] }

theorem powerSlot_off_alone (htray : s.island.trayEn = false) (n : SlotId) : powerSlot false s n = requestOff (slotOff s n) := by
  simp only [powerSlot, slotOff, modIsland, htray, Bool.not_false, Bool.or_true, Bool.false_eq_true, if_false, if_true]

/-- A die in S6 outside a tray takes an off request. -/
theorem powerSlot_off_of_s6 (htray : s.island.trayEn = false) (haon : s.seq.aonRst = false) (hstate : s.seq.state = .s6) (hstep : s.seq.step = none)
    (n : SlotId) : (powerSlot false s n).out = s.out ∧ (powerSlot false s n).seq.step = some ⟨false, 1, now s⟩
      ∧ n ∈ (powerSlot false s n).island.markedOff ∧ (powerSlot false s n).mem = s.mem := by
  rw [powerSlot_off_alone htray, requestOff_of_s6 (s := slotOff s n) haon hstate hstep]
  exact ⟨rfl, rfl, mem_counted .., rfl⟩

/-- What POWER carries out. -/
def powerSetting (w : Wairiq) (s : State) : Carried :=
  if w.body.length != 3 || decide (1 < bfld w.body 2 1) then (s, wqBad, [])
  else (((fins 16).filter fun n => bit (bfld w.body 0 2) n.1).foldl (powerSlot (bfld w.body 2 1 == 1)) s, wqDone, [])

theorem exec_wairiqPower_eq (w : Wairiq) (s : State) : exec (.wairiqPower w) s = .next (onWairiq s w 0x06 (powerSetting w)) := rfl

theorem powerSetting_of_off (hbody : w.body = [1, 0, 0]) (s : State) : powerSetting w s = (powerSlot false s 0, wqDone, []) := by
  have hmask : bfld w.body 0 2 = 1 := by rw [hbody]; rfl
  have hon : bfld w.body 2 1 = 0 := by rw [hbody]; rfl
  have hlength : w.body.length = 3 := by rw [hbody]; rfl
  have hslots : ((fins 16).filter fun n => bit 1 n.1) = [0] := by decide
  simp only [powerSetting, hmask, hon, hlength, hslots]
  rfl

/-! ## LOG_READ and CONFIG -/

theorem carryLogRead_of_body (hlength : w.body.length = 5) (hslot : bfld w.body 0 1 ≤ 15) (s : State) : carryLogRead w s
    = (s, wqDone, ((s.island.log.filter fun r => decide (bfld w.body 1 4 ≤ r.seq)).take 32).flatMap logBytes) := by
  simp only [carryLogRead, hlength, Nat.not_lt.2 hslot, bne_self_eq_false, decide_false, Bool.or_self, Bool.false_eq_true, if_false]

/-- A leak input's threshold and filter set, the input enabled. -/
def leakSet (s : State) (n : Fin 2) (thr us : Nat) : State :=
  modIsland s fun i => { i with leak := vmod i.leak n fun l => { l with enabled := true, thrMv := thr * 10, filterUs := us } }

theorem carryConfig_of_leak {n : Fin 2} {thr us : Nat} (hthr : 30 ≤ thr) (hthrle : thr ≤ 150) (hus : 1 ≤ us) (husle : us ≤ 1000)
    (hbody : w.body = [0, BitVec.ofNat 8 n.1, 1, BitVec.ofNat 8 thr] ++ leBytes 2 us) (s : State) : carryConfig w s = (leakSet s n thr us, wqDone, []) := by
  have hitem : bfld w.body 0 1 = 0 := by
    rw [hbody, List.cons_append, bfld_one_cons]
    rfl
  have hdrop : w.body.drop 1 = BitVec.ofNat 8 n.1 :: 1 :: BitVec.ofNat 8 thr :: leBytes 2 us := by
    rw [hbody]
    rfl
  have hinput : bfld (w.body.drop 1) 0 1 = n.1 := by
    rw [hdrop, bfld_one_cons, BitVec.toNat_ofNat, Nat.mod_eq_of_lt (by omega)]
  have henable : bfld (w.body.drop 1) 1 1 = 1 := by
    rw [hdrop, bfld_succ_cons _ _ 0, bfld_one_cons]
    rfl
  have hthreshold : bfld (w.body.drop 1) 2 1 = thr := by
    rw [hdrop, bfld_succ_cons _ _ 1, bfld_succ_cons _ _ 0, bfld_one_cons, BitVec.toNat_ofNat, Nat.mod_eq_of_lt (by omega)]
  have hfilter : bfld (w.body.drop 1) 3 2 = us := by
    rw [hdrop, bfld_succ_cons _ _ 2, bfld_succ_cons _ _ 1, bfld_succ_cons _ _ 0, bfld_leBytes (by decide)]
    omega
  have hlength : (w.body.drop 1).length = 5 := by
    rw [hdrop]
    rfl
  have hfin : (⟨n.1 % 2, Nat.mod_lt _ (by decide)⟩ : Fin 2) = n := Fin.ext (Nat.mod_eq_of_lt n.2)
  have hset : setLeak s (w.body.drop 1) = (leakSet s n thr us, true) := by
    have hlow : 300 ≤ thr * 10 := by omega
    have hhigh : thr * 10 ≤ 1500 := by omega
    simp only [setLeak, hinput, henable, hthreshold, hfilter, hlength, hfin, hlow, hhigh, hus, husle, n.2, beq_self_eq_true, decide_true, Bool.and_self,
      Nat.le_refl, if_true]
    rfl
  unfold carryConfig
  simp only [hitem, hset]
  rfl

end

/-! ## The requests -/

theorem exec_trayCapSet_of_carried (w : Wairiq) (s : State) (c : Nat) (htaken : WairiqTaken s w 0x03) (hcarries : CarriesOut s w) (hlength : w.body.length = 3)
    (hc : c = bfld w.body 0 2) : (capRangeOk s c = false → bfld w.body 2 1 ≤ 1 → ∃ t, exec (.trayCapSet w) s = .next t ∧ Replied s t wqRefused
        ∧ t.island.trayCapW = s.island.trayCapW)
      ∧ (capRangeOk s c = true → bfld w.body 2 1 ≤ 1 → ∃ t, exec (.trayCapSet w) s = .next t ∧ t.island.trayCapW = some c
        ∧ t.island.demand = (bfld w.body 2 1 == 1) ∧ t.island.gen = s.island.gen + 1 ∧ t.mem = s.mem) := by
  subst hc
  refine ⟨fun hrange hpolicy => ?_, fun hrange hpolicy => ?_⟩
  · have hrange' : capRangeOk (acceptSeq s (wqSeqOf w)) (bfld w.body 0 2) = false := hrange
    have hown := capSetting_of_low hlength hpolicy (acceptSeq s (wqSeqOf w))
    rw [hrange', if_neg Bool.false_ne_true] at hown
    exact ⟨_, congrArg Host.Outcome.next (onWairiq_of_carried htaken (by decide) hcarries hown), wqReply_replied rfl (by decide) .., rfl⟩
  · have hrange' : capRangeOk (acceptSeq s (wqSeqOf w)) (bfld w.body 0 2) = true := hrange
    have hown := capSetting_of_low hlength hpolicy (acceptSeq s (wqSeqOf w))
    rw [hrange', if_pos rfl] at hown
    obtain ⟨hcap, hdemand, hgen, hmem⟩ := setTrayCap_sets (acceptSeq s (wqSeqOf w)) (bfld w.body 0 2) (bfld w.body 2 1 == 1)
    generalize setTrayCap (acceptSeq s (wqSeqOf w)) (bfld w.body 0 2) (bfld w.body 2 1 == 1) = u at *
    exact ⟨_, congrArg Host.Outcome.next (onWairiq_of_carried htaken (by decide) hcarries hown), hcap, hdemand, hgen, hmem⟩

theorem exec_slopeSet_of_carried (w : Wairiq) (s : State) (c : Byte) (htaken : WairiqTaken s w 0x04) (hcarries : CarriesOut s w) (hbody : w.body = [c]) :
    (1 ≤ c.toNat → c.toNat ≤ 64 → ∃ t, exec (.slopeSet w) s = .next t ∧ Replied s t wqDone ∧ t.power.slope = c.toNat ∧ t.power.entryOff = s.power.entryOff)
      ∧ ((c.toNat = 0 ∨ 64 < c.toNat) → ∃ t, exec (.slopeSet w) s = .next t ∧ Replied s t wqRefused ∧ t.power = s.power) := by
  have hown := carrySlope_of_body hbody (acceptSeq s (wqSeqOf w))
  refine ⟨fun hlow hhigh => ?_, fun hbad => ?_⟩
  · rw [beq_false_of_ne (by omega), decide_eq_false (by omega), Bool.or_self, if_neg Bool.false_ne_true] at hown
    have hout := stewardValues_out (acceptSeq s (wqSeqOf w)) c.toNat (acceptSeq s (wqSeqOf w)).power.entryOff (acceptSeq s (wqSeqOf w)).power.stewardHalf
    obtain ⟨hslope, hoff, -, -, -⟩ := stewardValues_sets (acceptSeq s (wqSeqOf w)) c.toNat (acceptSeq s (wqSeqOf w)).power.entryOff
      (acceptSeq s (wqSeqOf w)).power.stewardHalf
    generalize stewardValues (acceptSeq s (wqSeqOf w)) c.toNat (acceptSeq s (wqSeqOf w)).power.entryOff (acceptSeq s (wqSeqOf w)).power.stewardHalf = u at *
    exact ⟨_, congrArg Host.Outcome.next (onWairiq_of_carried htaken (by decide) hcarries hown), wqReply_replied hout (by decide) .., hslope, hoff⟩
  · have hrefused : (c.toNat == 0 || decide (64 < c.toNat)) = true := by
      rcases hbad with h | h
      · rw [h]
        rfl
      · rw [decide_eq_true h, Bool.or_true]
    rw [hrefused, if_pos rfl] at hown
    exact ⟨_, congrArg Host.Outcome.next (onWairiq_of_carried htaken (by decide) hcarries hown), wqReply_replied rfl (by decide) .., rfl⟩

theorem exec_thermalSet_of_carried (w : Wairiq) (s : State) (a b c : Byte) (htaken : WairiqTaken s w 0x05) (hcarries : CarriesOut s w) (hbody : w.body = [a, b, c])
    (hcool : ∀ k, (s.island.coolant.get k).critical = false) (ha : a.toNat ≤ 20) (hb : b.toNat ≤ 20) (hc : c.toNat ≤ 20) :
    ∃ t, exec (.thermalSet w) s = .next t ∧ Replied s t wqDone ∧ t.power.entryOff = #v[a.toNat, b.toNat, c.toNat] ∧ t.power.slope = s.power.slope := by
  have hown := carryThermal_of_body (s := acceptSeq s (wqSeqOf w)) hbody ha hb hc hcool
  have hout := stewardValues_out (offsKept (acceptSeq s (wqSeqOf w)) #v[a.toNat, b.toNat, c.toNat]) (acceptSeq s (wqSeqOf w)).power.slope
    #v[a.toNat, b.toNat, c.toNat] (acceptSeq s (wqSeqOf w)).power.stewardHalf
  obtain ⟨hslope, hoff, -, -, -⟩ := stewardValues_sets (offsKept (acceptSeq s (wqSeqOf w)) #v[a.toNat, b.toNat, c.toNat])
    (acceptSeq s (wqSeqOf w)).power.slope #v[a.toNat, b.toNat, c.toNat] (acceptSeq s (wqSeqOf w)).power.stewardHalf
  generalize stewardValues (offsKept (acceptSeq s (wqSeqOf w)) #v[a.toNat, b.toNat, c.toNat]) (acceptSeq s (wqSeqOf w)).power.slope
    #v[a.toNat, b.toNat, c.toNat] (acceptSeq s (wqSeqOf w)).power.stewardHalf = u at *
  exact ⟨_, congrArg Host.Outcome.next (onWairiq_of_carried htaken (by decide) hcarries hown), wqReply_replied hout (by decide) .., hoff, hslope⟩

theorem exec_wairiqPower_off (w : Wairiq) (s : State) (htaken : WairiqTaken s w 0x06) (htray : s.island.trayEn = false) (hbody : w.body = [1, 0, 0])
    (hstate : s.seq.state = .s6) (hstep : s.seq.step = none) : ∃ t, exec (.wairiqPower w) s = .next t ∧ Replied s t wqDone
      ∧ t.seq.step = some ⟨false, 1, now s⟩ ∧ 0 ∈ t.island.markedOff ∧ t.mem = s.mem := by
  have haon : s.seq.aonRst = false := by
    obtain ⟨hrun, -⟩ := htaken
    simp only [islandRuns, Bool.and_eq_true, Bool.not_eq_true'] at hrun
    exact hrun.2
  have hown := powerSetting_of_off hbody (acceptSeq s (wqSeqOf w))
  obtain ⟨hout, hstepped, hmarked, hmem⟩ := powerSlot_off_of_s6 (s := acceptSeq s (wqSeqOf w)) htray haon hstate hstep 0
  generalize powerSlot false (acceptSeq s (wqSeqOf w)) 0 = u at *
  exact ⟨_, congrArg Host.Outcome.next (onWairiq_of_carried htaken (by decide) (.inl htray) hown), wqReply_replied hout (by decide) .., hstepped, hmarked, hmem⟩

theorem exec_wairiqLamp_alone (w : Wairiq) (s : State) (n : LampId) (d : Nat) (htaken : WairiqTaken s w 0x07) (htray : s.island.trayEn = false) (hd : d ≤ 1000)
    (hbody : w.body = [0, BitVec.ofNat 8 n.1] ++ leBytes 2 d) :
    ∃ t, exec (.wairiqLamp w) s = .next t ∧ Replied s t wqDone ∧ OnlyIsland s t ∧ (t.island.lamps.get n).next = some d := by
  have hown := carryLamp_of_duty (by decide) hd hbody (acceptSeq s (wqSeqOf w))
  have honly : OnlyIsland s (setLamp (acceptSeq s (wqSeqOf w)) n d) := rfl
  have hout : (setLamp (acceptSeq s (wqSeqOf w)) n d).out = s.out := rfl
  have hnext : ((setLamp (acceptSeq s (wqSeqOf w)) n d).island.lamps.get n).next = some d := congrArg Lamp.next (vget_vmod_same ..)
  generalize setLamp (acceptSeq s (wqSeqOf w)) n d = u at *
  exact ⟨_, congrArg Host.Outcome.next (onWairiq_of_carried htaken (by decide) (.inl htray) hown), wqReply_replied hout (by decide) ..,
    wqReply_onlyIsland honly .., hnext⟩

theorem exec_wairiqLogRead_alone (w : Wairiq) (s : State) (htaken : WairiqTaken s w 0x0A) (htray : s.island.trayEn = false) (hlength : w.body.length = 5)
    (hslot : bfld w.body 0 1 ≤ 15) : ∃ t, exec (.wairiqLogRead w) s = .next t ∧ Replied s t wqDone ∧ OnlyIsland s t ∧ t.island.log = s.island.log := by
  have hown := carryLogRead_of_body hlength hslot (acceptSeq s (wqSeqOf w))
  exact ⟨_, congrArg Host.Outcome.next (onWairiq_of_carried htaken (by decide) (.inl htray) hown), wqReply_replied rfl (by decide) ..,
    wqReply_onlyIsland rfl .., rfl⟩

theorem exec_config_of_leak (w : Wairiq) (s : State) (n : Fin 2) (thr us : Nat) (htaken : WairiqTaken s w 0x0B) (hcarries : CarriesOut s w) (hthr : 30 ≤ thr)
    (hthrle : thr ≤ 150) (hus : 1 ≤ us) (husle : us ≤ 1000) (hbody : w.body = [0, BitVec.ofNat 8 n.1, 1, BitVec.ofNat 8 thr] ++ leBytes 2 us) :
    ∃ t, exec (.config w) s = .next t ∧ Replied s t wqDone ∧ OnlyIsland s t ∧ (t.island.leak.get n).enabled = true ∧ (t.island.leak.get n).thrMv = 10 * thr
      ∧ (t.island.leak.get n).filterUs = us ∧ ∀ k, k ≠ n → t.island.leak.get k = s.island.leak.get k := by
  have hown := carryConfig_of_leak hthr hthrle hus husle hbody (acceptSeq s (wqSeqOf w))
  have hget : (leakSet (acceptSeq s (wqSeqOf w)) n thr us).island.leak.get n = { s.island.leak.get n with enabled := true, thrMv := thr * 10, filterUs := us } :=
    vget_vmod_same ..
  have hothers (k : Fin 2) (hk : k ≠ n) : (leakSet (acceptSeq s (wqSeqOf w)) n thr us).island.leak.get k = s.island.leak.get k := vget_vmod_other _ _ hk
  have honly : OnlyIsland s (leakSet (acceptSeq s (wqSeqOf w)) n thr us) := rfl
  have hout : (leakSet (acceptSeq s (wqSeqOf w)) n thr us).out = s.out := rfl
  generalize leakSet (acceptSeq s (wqSeqOf w)) n thr us = u at *
  exact ⟨_, congrArg Host.Outcome.next (onWairiq_of_carried htaken (by decide) hcarries hown), wqReply_replied hout (by decide) ..,
    wqReply_onlyIsland honly .., congrArg LeakIn.enabled hget, (congrArg LeakIn.thrMv hget).trans (Nat.mul_comm ..), congrArg LeakIn.filterUs hget, hothers⟩

/-- Settles O50. -/
theorem wairiqSetsValues : Obligations.WairiqSetsValues := by
  refine ⟨?ident, ?status, exec_trayCapSet_of_carried, exec_slopeSet_of_carried, exec_thermalSet_of_carried, exec_wairiqPower_off, exec_wairiqLamp_alone,
    exec_wairiqLogRead_alone, exec_config_of_leak⟩
  case ident =>
    intro w s hrun heth htype hframe htag
    obtain ⟨body, hident⟩ : ∃ body, exec (.wairiqIdent w) s = .next (wqReply s w wqDone body) :=
      ⟨_, congrArg Host.Outcome.next (onWairiq_of_ident hrun heth htype hframe htag rfl)⟩
    exact ⟨_, hident, wqReply_replied rfl (by decide) .., wqReply_onlyIsland rfl .., rfl⟩
  case status =>
    intro w s htaken hcarries
    have hown : carryStatus (acceptSeq s (wqSeqOf w)) = (acceptSeq s (wqSeqOf w), wqDone, _) := rfl
    exact ⟨_, congrArg Host.Outcome.next (onWairiq_of_carried htaken (by decide) hcarries hown), wqReply_replied rfl (by decide) ..,
      wqReply_onlyIsland (acceptSeq_onlyIsland ..) .., rfl⟩

end Sys2Proof.Proofs
end

section
/-! PROOFS. Wairiq SERVICE and KEY. -/

namespace Sys2Proof.Proofs

open Sys2Proof Sys2Proof.Machine Sys2Proof.Safety Sys2Proof.Laws

set_option Elab.async false

section
variable {s u : State} {w : Wairiq}

/-- A SERVICE message of an action is taken as any message of its type. -/
theorem onService_of_action {action : Nat} {own : State → Carried} (haction : bfld w.body 0 1 = action) : onService s w action own = onWairiq s w 0x08 own := by
  simp only [onService, haction, bne_self_eq_false, Bool.false_eq_true, if_false]

/-- A SERVICE action that this island carries out. -/
theorem onService_of_carried {action : Nat} {own : State → Carried} (htaken : WairiqTaken s w 0x08) (haction : bfld w.body 0 1 = action)
    (hcarries : CarriesOut s w) {result : Nat} {body : List Byte} (hown : own (acceptSeq s (wqSeqOf w)) = (u, result, body)) :
    onService s w action own = wqReply u w result body := by
  rw [onService_of_action haction, onWairiq_of_carried htaken (by decide) hcarries hown]

/-- Every SERVICE but GOLDEN_REFLASH is for the slot its header names. -/
theorem wqTarget_of_service (htype : wqType w = 0x08) (hne : bfld w.body 0 1 ≠ 5) : wqTarget w = wqSlot w := by
  simp [wqTarget, htype, hne]

/-! ## YIELD -/

theorem doYield_of_free {d : SlotId} (hrole : s.island.role = .primary) (hstandby : s.island.standby = some d) (hreq : s.island.roleReq = none)
    (hswap : s.island.swapAt = none) (hreached : reached s s.island.noReqUntil = true) : doYield s = (requestRole s d, true) := by
  simp only [doYield, mayAskRole, hrole, hstandby, hreq, hswap, hreached, beq_self_eq_true, Option.isNone_none, Bool.or_true, Bool.and_self, if_true]

theorem exec_yieldRole_of_free (w : Wairiq) (s : State) (d : SlotId) (htaken : WairiqTaken s w 0x08) (haction : bfld w.body 0 1 = 1)
    (_htray : s.island.trayEn = true) (hslot : wqSlot w = s.island.slot.1) (hrole : s.island.role = .primary) (hstandby : s.island.standby = some d)
    (hreq : s.island.roleReq = none) (hswap : s.island.swapAt = none) (hreached : reached s s.island.noReqUntil = true) :
    ∃ t h b tag, exec (.yieldRole w) s = .next t ∧ OnlyIsland s t ∧ t.island.roleReq = some (now s)
      ∧ t.out = s.out ++ [.tray (some d) s.island.txSeq .roleRequest, .wairiq h b tag] := by
  have htype : wqType w = 0x08 := by
    obtain ⟨-, -, htype, -⟩ := htaken
    exact htype
  have htarget : wqTarget w = s.island.slot.1 := (wqTarget_of_service htype (by omega)).trans hslot
  have hown : wqAnswer (doYield (acceptSeq s (wqSeqOf w))) = (requestRole (acceptSeq s (wqSeqOf w)) d, wqDone, []) := by
    rw [doYield_of_free (s := acceptSeq s (wqSeqOf w)) hrole hstandby hreq hswap hreached]
    rfl
  have honly : OnlyIsland s (requestRole (acceptSeq s (wqSeqOf w)) d) := rfl
  have hout : (requestRole (acceptSeq s (wqSeqOf w)) d).out = s.out ++ [.tray (some d) s.island.txSeq .roleRequest] := rfl
  have hasked : (requestRole (acceptSeq s (wqSeqOf w)) d).island.roleReq = some (now s) := rfl
  generalize requestRole (acceptSeq s (wqSeqOf w)) d = u at *
  obtain ⟨hd, tag, hsent, -⟩ := sendWairiq_sends u (wqType w) wqDone (fld w.header 4 8) []
  refine ⟨_, hd, [], tag, congrArg Host.Outcome.next (onService_of_carried htaken haction (.inr ⟨hrole, .inr htarget⟩) hown), wqReply_onlyIsland honly .., hasked, ?_⟩
  exact hsent.trans (by rw [hout, List.append_assoc]; rfl)

/-! ## CLEAR_LEAK -/

theorem clearLeakHere_clears (s : State) : OnlyIsland s (clearLeakHere s) ∧ (clearLeakHere s).out = s.out
    ∧ (clearLeakHere s).island.leakLatch = (s.island.leakLatch && !leaksDry s) ∧ (clearLeakHere s).island.kill = (s.island.kill && !leaksDry s) := by
  cases hdry : leaksDry s with
  | true =>
    rw [clearLeakHere, if_pos hdry, Bool.not_true, Bool.and_false, Bool.and_false]
    exact ⟨rfl, rfl, rfl, rfl⟩
  | false =>
    rw [clearLeakHere, hdry, if_neg Bool.false_ne_true, Bool.not_false, Bool.and_true, Bool.and_true]
    exact ⟨rfl, rfl, rfl, rfl⟩

theorem exec_clearLeak_alone (w : Wairiq) (s : State) (htaken : WairiqTaken s w 0x08) (haction : bfld w.body 0 1 = 2) (htray : s.island.trayEn = false) :
    ∃ t, exec (.clearLeak w) s = .next t ∧ OnlyIsland s t ∧ Replied s t (if leaksDry s then wqDone else wqRefused)
      ∧ t.island.leakLatch = (s.island.leakLatch && !leaksDry s) ∧ t.island.kill = (s.island.kill && !leaksDry s) := by
  have hto : toTray (acceptSeq s (wqSeqOf w)) 2 = acceptSeq s (wqSeqOf w) := by
    have hsame : (acceptSeq s (wqSeqOf w)).island.trayEn = false := htray
    simp only [toTray, hsame, Bool.false_and, Bool.false_eq_true, if_false]
  have hown : wqAnswer (doClearLeak (acceptSeq s (wqSeqOf w))) = (clearLeakHere (acceptSeq s (wqSeqOf w)), if leaksDry s then wqDone else wqRefused, []) := by
    rw [doClearLeak, hto]
    rfl
  obtain ⟨honly, hout, hlatch, hkill⟩ := clearLeakHere_clears (acceptSeq s (wqSeqOf w))
  generalize clearLeakHere (acceptSeq s (wqSeqOf w)) = u at *
  refine ⟨_, congrArg Host.Outcome.next (onService_of_carried htaken haction (.inl htray) hown),
    wqReply_onlyIsland (onlyIsland_trans (acceptSeq_onlyIsland ..) honly) .., wqReply_replied hout ?_ .., hlatch, hkill⟩
  split <;> decide

/-! ## CLEAR_SHUT and CLEAR_BASELINE -/

theorem carryClearShut_result (hslot : s.island.trayEn = true → wqSlot w ≠ 0xFF) : (carryClearShut w s).1.out = s.out
    ∧ (carryClearShut w s).2 = (if shownState s == .s1 then wqDone else wqRefused, [])
    ∧ (carryClearShut w s).1.seq = if shownState s == .s1 then { s.seq with shut := false } else s.seq := by
  have hto : (if wqSlot w == 0xFF || !s.island.trayEn then toTray s 3 else s) = s := by
    cases htray : s.island.trayEn with
    | true => rw [beq_false_of_ne (hslot htray)]; rfl
    | false => simp only [toTray, htray, Bool.false_and, Bool.false_eq_true, if_false, ite_self]
  unfold carryClearShut
  simp only [hto, doClearShut]
  cases shownState s == .s1 with
  | true =>
    refine ⟨?_, rfl, ?_⟩
    · simp only [if_true, wqAnswer]
      split <;> rfl
    · simp only [if_true, wqAnswer]
      split <;> rfl
  | false => exact ⟨rfl, rfl, rfl⟩

theorem exec_clearShut_of_carried (w : Wairiq) (s : State) (htaken : WairiqTaken s w 0x08) (haction : bfld w.body 0 1 = 3) (hcarries : CarriesOut s w)
    (hslot : s.island.trayEn = true → wqSlot w ≠ 0xFF) : ∃ t, exec (.clearShut w) s = .next t
      ∧ Replied s t (if shownState s == .s1 then wqDone else wqRefused) ∧ t.seq = if shownState s == .s1 then { s.seq with shut := false } else s.seq := by
  obtain ⟨hout, hresult, hseq⟩ := carryClearShut_result (s := acceptSeq s (wqSeqOf w)) (w := w) hslot
  have hown : carryClearShut w (acceptSeq s (wqSeqOf w)) = ((carryClearShut w (acceptSeq s (wqSeqOf w))).1, if shownState s == .s1 then wqDone else wqRefused, []) :=
    Prod.ext rfl hresult
  generalize (carryClearShut w (acceptSeq s (wqSeqOf w))).1 = u at *
  refine ⟨_, congrArg Host.Outcome.next (onService_of_carried htaken haction hcarries hown), wqReply_replied hout ?_ .., hseq⟩
  split <;> decide

/-- The baseline of a domain cleared, its learning begun again. -/
def baselineCleared (s : State) (d : Fin 6) : State :=
  { s with seq := { s.seq with pdn := vmod s.seq.pdn d fun p => { (({} : Pdn)) with learnFrom := s6Time s, monitored := p.monitored } } }

theorem doClearBaseline_of_domain {d : Fin 6} (hd : d.1 < 5) (s : State) : doClearBaseline s d.1 = (baselineCleared s d, true) := by
  have hfin : (⟨d.1 % 6, Nat.mod_lt _ (by decide)⟩ : Fin 6) = d := Fin.ext (Nat.mod_eq_of_lt d.2)
  simp only [doClearBaseline, hd, hfin, if_true]
  rfl

theorem exec_clearBaseline_of_carried (w : Wairiq) (s : State) (d : Fin 6) (htaken : WairiqTaken s w 0x08) (haction : bfld w.body 0 1 = 4)
    (hcarries : CarriesOut s w) (hdomain : bfld w.body 1 1 = d.1) (hd : d.1 < 5) :
    ∃ t, exec (.clearBaseline w) s = .next t ∧ Replied s t wqDone ∧ (t.seq.pdn.get d).baseline = none ∧ (t.seq.pdn.get d).samples = []
      ∧ (t.seq.pdn.get d).learnFrom = s6Time s ∧ ∀ e, e ≠ d → t.seq.pdn.get e = s.seq.pdn.get e := by
  have hown : wqAnswer (doClearBaseline (acceptSeq s (wqSeqOf w)) (bfld w.body 1 1)) = (baselineCleared (acceptSeq s (wqSeqOf w)) d, wqDone, []) := by
    rw [hdomain, doClearBaseline_of_domain hd]
    rfl
  have hget : (baselineCleared (acceptSeq s (wqSeqOf w)) d).seq.pdn.get d
      = { (({} : Pdn)) with learnFrom := s6Time s, monitored := (s.seq.pdn.get d).monitored } := vget_vmod_same ..
  have hothers (e : Fin 6) (he : e ≠ d) : (baselineCleared (acceptSeq s (wqSeqOf w)) d).seq.pdn.get e = s.seq.pdn.get e := vget_vmod_other _ _ he
  have hout : (baselineCleared (acceptSeq s (wqSeqOf w)) d).out = s.out := rfl
  generalize baselineCleared (acceptSeq s (wqSeqOf w)) d = u at *
  exact ⟨_, congrArg Host.Outcome.next (onService_of_carried htaken haction hcarries hown), wqReply_replied hout (by decide) .., congrArg Pdn.baseline hget,
    congrArg Pdn.samples hget, congrArg Pdn.learnFrom hget, hothers⟩

/-! ## GOLDEN_REFLASH -/

theorem doGolden_of_s1 {img : FwImage} (hstate : s.seq.state = .s1) (hnone : s.fw.slotWrite = none) (himage : slotImage s 0 2 = some img) :
    doGolden s = (startReflash s 0 [0, 1], true) ∧ (startReflash s 0 [0, 1]).fw.slotWrite = some ⟨0, [0, 1], img, none, true⟩
      ∧ (startReflash s 0 [0, 1]).flash = s.flash ∧ (startReflash s 0 [0, 1]).out = s.out := by
  have hshown : shownState s = .s1 := by
    simp [shownState, hstate]
  have hstart : startReflash s 0 [0, 1] = { s with fw := { s.fw with slotWrite := some ⟨0, [0, 1], img, none, true⟩ } } := by
    simp [startReflash, himage]
  refine ⟨?_, ?_, ?_, ?_⟩
  · simp only [doGolden, hshown, hnone, himage, beq_self_eq_true, Bool.true_or, Option.isNone_none, Option.isSome_some, Bool.and_self, if_true]
  all_goals rw [hstart]

theorem exec_goldenReflash_of_carried (w : Wairiq) (s : State) (img : FwImage) (htaken : WairiqTaken s w 0x08) (haction : bfld w.body 0 1 = 5)
    (hcarries : CarriesOut s w) (hready : s.island.ready = true) (hstate : s.seq.state = .s1) (hnone : s.fw.slotWrite = none)
    (himage : slotImage s 0 2 = some img) :
    ∃ t, exec (.goldenReflash w) s = .next t ∧ Replied s t wqDone ∧ t.fw.slotWrite = some ⟨0, [0, 1], img, none, true⟩ ∧ t.flash = s.flash := by
  obtain ⟨hgolden, hwrite, hflash, hout⟩ := doGolden_of_s1 (s := acceptSeq s (wqSeqOf w)) hstate hnone himage
  have hown : wqAnswer (doGolden (acceptSeq s (wqSeqOf w))) = (startReflash (acceptSeq s (wqSeqOf w)) 0 [0, 1], wqDone, []) := by
    rw [hgolden]
    rfl
  have hrun : exec (.goldenReflash w) s = .next (onService s w 5 fun s => wqAnswer (doGolden s)) := by
    change execGoldenReflash w s = _
    simp only [execGoldenReflash, hready, Bool.not_true, Bool.false_eq_true, if_false]
  generalize startReflash (acceptSeq s (wqSeqOf w)) 0 [0, 1] = u at *
  rw [onService_of_carried (own := fun s => wqAnswer (doGolden s)) htaken haction hcarries hown] at hrun
  exact ⟨_, hrun, wqReply_replied hout (by decide) .., hwrite, hflash⟩

/-! ## KEY -/

/-- The key stored, the sequence numbers begun again. -/
def keyStored (s : State) (w : Wairiq) : State :=
  modIsland s fun i => { i with key := some (BitVec.ofNat 384 (leNat w.body)), keyOpen := false, seqMark := 0, seqFloor := 0 }

theorem keyStored_stores (s : State) (w : Wairiq) : (keyStored s w).island.key = some (BitVec.ofNat 384 (leNat w.body))
    ∧ (keyStored s w).island.seqMark = 0 ∧ (keyStored s w).island.seqFloor = 0 ∧ OnlyIsland s (keyStored s w) ∧ (keyStored s w).out = s.out :=
  ⟨rfl, rfl, rfl, rfl, rfl⟩

theorem carryKey_of_first (hlength : w.body.length = 48) (hnone : s.island.key = none) : carryKey w s = (keyStored s w, wqDone, []) := by
  simp only [carryKey, hlength, hnone, bne_self_eq_false, Option.isSome_none, Bool.false_and, Bool.false_eq_true, if_false]
  rfl

theorem carryKey_of_second {k : BitVec 384} (hlength : w.body.length = 48) (hkey : s.island.key = some k) (hopen : s.island.keyOpen = false) :
    carryKey w s = (s, wqRefused, []) := by
  simp only [carryKey, hlength, hkey, hopen, bne_self_eq_false, Option.isSome_some, Bool.false_and, Bool.not_false, Bool.and_self, Bool.false_eq_true, if_false,
    if_true]

theorem exec_key_of_carried (w : Wairiq) (s : State) (htaken : WairiqTaken s w 0x0C) (hcarries : CarriesOut s w) (hlength : w.body.length = 48) :
    (s.island.key = none → ∃ t, exec (.key w) s = .next t ∧ Replied s t wqDone ∧ t.island.key = some (BitVec.ofNat 384 (leNat w.body))
      ∧ t.island.seqMark = 0 ∧ t.island.seqFloor = 0 ∧ OnlyIsland s t)
    ∧ (∀ k, s.island.key = some k → s.island.keyOpen = false → ∃ t, exec (.key w) s = .next t ∧ Replied s t wqRefused ∧ t.island.key = some k ∧ OnlyIsland s t) := by
  refine ⟨fun hnone => ?_, fun k hkey hopen => ?_⟩
  · have hown := carryKey_of_first (s := acceptSeq s (wqSeqOf w)) hlength hnone
    obtain ⟨hkey, hmark, hfloor, honly, hout⟩ := keyStored_stores (acceptSeq s (wqSeqOf w)) w
    generalize keyStored (acceptSeq s (wqSeqOf w)) w = u at *
    exact ⟨_, congrArg Host.Outcome.next (onWairiq_of_carried htaken (by decide) hcarries hown), wqReply_replied hout (by decide) .., hkey, hmark, hfloor,
      wqReply_onlyIsland (onlyIsland_trans (acceptSeq_onlyIsland ..) honly) ..⟩
  · have hown := carryKey_of_second (s := acceptSeq s (wqSeqOf w)) hlength hkey hopen
    exact ⟨_, congrArg Host.Outcome.next (onWairiq_of_carried htaken (by decide) hcarries hown), wqReply_replied rfl (by decide) .., hkey,
      wqReply_onlyIsland (acceptSeq_onlyIsland ..) ..⟩

end

/-- Settles O51. -/
theorem wairiqServicesAct : Obligations.WairiqServicesAct := by
  refine ⟨exec_yieldRole_of_free, exec_clearLeak_alone, fun w s htaken haction hcarries hslot => ?shut, exec_clearBaseline_of_carried,
    exec_goldenReflash_of_carried, exec_key_of_carried⟩
  obtain ⟨t, hrun, hreplied, hseq⟩ := exec_clearShut_of_carried w s htaken haction hcarries hslot
  refine ⟨fun hstate => ?_, fun hstate => ?_⟩
  · rw [hstate, beq_self_eq_true] at hreplied hseq
    exact ⟨t, hrun, hreplied, hseq⟩
  · rw [beq_false_of_ne hstate] at hreplied hseq
    exact ⟨t, hrun, hreplied, hseq⟩

end Sys2Proof.Proofs
end

section
/-! PROOFS. A channel that fails in service. -/

namespace Sys2Proof.Proofs

open Sys2Proof Sys2Proof.Machine Sys2Proof.Safety Sys2Proof.Laws

set_option Elab.async false

section
variable {s t u : State}

/-! ## Moves that fail leave the channels as they were -/

/-- The channels are as before. -/
def KeepsChannels (s t : State) : Prop := t.mem.channels = s.mem.channels

theorem KeepsChannels.refl (s : State) : KeepsChannels s s := rfl

theorem KeepsChannels.trans (hst : KeepsChannels s t) (htu : KeepsChannels t u) : KeepsChannels s u := Eq.trans htu hst

theorem KeepsChannels.foldl {α : Type} {f : State → α → State} (hf : ∀ t a, KeepsChannels t (f t a)) (l : List α) (s : State) :
    KeepsChannels s (l.foldl f s) := by
  induction l generalizing s with
  | nil => exact .refl s
  | cons a l ih => exact (hf s a).trans (ih _)

theorem KeepsChannels.of_mem (h : t.mem = s.mem) : KeepsChannels s t := congrArg Mem.channels h

theorem readRemote_keepsChannels (s : State) (move addr len : Nat) : KeepsChannels s (readRemote s move addr len) := by
  unfold readRemote
  exact .of_mem (askPackets_onlyQueues ..).mem

theorem refetch_keepsChannels (s : State) (h : Nat) (items : List (Nat × Nat)) : KeepsChannels s (refetch s h items) := by
  refine .foldl (fun t x => ?_) items s
  split
  · exact .refl t
  · exact .refl t

theorem dropOutstanding_keepsChannels (s : State) (move : Nat) : KeepsChannels s (dropOutstanding s move) := .refl s

theorem endFrame_keepsChannels (s : State) (h : Nat) (st : Status) (tier kind : Nat) (info : W64) : KeepsChannels s (endFrame s h st tier kind info) := by
  unfold endFrame
  split
  · split
    · exact .refl s
    · refine .trans ?_ (refetch_keepsChannels ..)
      exact .foldl (fun t _ => dropOutstanding_keepsChannels t _) _ _
  · exact .refl s

theorem endOnMove_keepsChannels (s : State) (h : Nat) (m : Move) (st : Status) (tier : Nat) : KeepsChannels s (endOnMove s h m st tier) := by
  unfold endOnMove
  split
  · exact .refl s
  · split
    · exact .refl s
    · exact endFrame_keepsChannels ..

theorem nextRecallMove_keepsChannels (s : State) : KeepsChannels s (nextRecallMove s) := by
  unfold nextRecallMove
  split
  · exact .refl s
  · split
    · exact .refl s
    · dsimp only
      split
      · exact readRemote_keepsChannels ..
      · exact .refl s

theorem askLender_keepsChannels (s : State) (req : Nat) : KeepsChannels s (askLender s req).1 := by
  unfold askLender
  split
  · exact .refl s
  · split
    · exact .refl s
    · split
      · exact .refl s
      · split
        · exact .refl s
        · exact .trans (t := modWait s req _) (.refl s) (.of_mem (sendMgmt_mem ..))

theorem seekFor_keepsChannels (s : State) (l : FabId) (n : Nat) : KeepsChannels s (seekFor s l n).1 := by
  unfold seekFor
  split
  · exact .refl s
  · dsimp only
    split
    · exact askLender_keepsChannels (addWaiting s none n l none []).1 _
    · exact askLender_keepsChannels (addWaiting s none n l none []).1 _

theorem copyToRoom_keepsChannels (s : State) (l : Loan) : KeepsChannels s (copyToRoom s l) := by
  unfold copyToRoom
  split
  · unfold recallMove
    dsimp only
    split
    · exact readRemote_keepsChannels ..
    · exact .refl s
  · exact .refl s

theorem leaveLoan_keepsChannels (s : State) (l : Loan) : KeepsChannels s (leaveLoan s l) := by
  unfold leaveLoan
  split
  · exact copyToRoom_keepsChannels s l
  · dsimp only
    split
    · exact seekFor_keepsChannels ..
    · exact (seekFor_keepsChannels ..).trans (copyToRoom_keepsChannels ..)

theorem endLoan_keepsChannels (s : State) (l : Loan) : KeepsChannels s (endLoan s l) := .refl s

theorem loseLoan_keepsChannels (lost : Bool) (s : State) (l : Loan) : KeepsChannels s (loseLoan lost s l) := by
  unfold loseLoan
  refine .trans ?_ (nextRecallMove_keepsChannels _)
  exact KeepsChannels.foldl (fun t _ => dropOutstanding_keepsChannels t _) _ (modPages s _)

theorem recallFailed_keepsChannels (s : State) (m : Move) : KeepsChannels s (recallFailed s m) := by
  unfold recallFailed
  split
  · split
    · exact loseLoan_keepsChannels ..
    · refine .trans (.trans ?_ (leaveLoan_keepsChannels ..)) (nextRecallMove_keepsChannels _)
      exact KeepsChannels.foldl endLoan_keepsChannels _ (dropOutstanding _ _)
  · refine .trans ?_ (nextRecallMove_keepsChannels _)
    exact KeepsChannels.foldl endLoan_keepsChannels _ (dropOutstanding _ _)

theorem failMove_keepsChannels (s : State) (m : Move) (st : Status) (hurt : Bool) : KeepsChannels s (failMove s m st hurt) := by
  unfold failMove
  split
  · have hdrop (h : Nat) : KeepsChannels s (dropMove (if hurt && isPageMove m && !isSealMove m then damagePage s h m else s) m.id) := by
      split <;> exact .refl s
    dsimp only
    split
    · split
      · exact hdrop _
      · exact (hdrop _).trans (endOnMove_keepsChannels ..)
    · exact hdrop _
  · exact .trans (t := dropMove s m.id) (.refl s) (.of_mem (complete_mem ..))
  · exact recallFailed_keepsChannels ..
  · exact .refl s

/-! ## The channel that fails -/

theorem losePages_mem (s : State) (n : McId) (st : Machine.Stream) : (losePages s n st).mem = s.mem := by
  unfold losePages
  dsimp only
  split <;> rfl

theorem foldl_losePages_mem (n : McId) (l : List Machine.Stream) (s : State) : (l.foldl (fun t st => losePages t n st) s).mem = s.mem := by
  induction l generalizing s with
  | nil => rfl
  | cons st l ih => exact (ih _).trans (losePages_mem s n st)

/-- The memory a failed channel leaves before the moves it cut have ended: its reservations and bytes gone, and the channel out of service. -/
def Without (n : McId) (s t : State) : Prop :=
  (t.mem.channels.get n).st = .failedService ∧ t.mem.cells = clearBytes s.mem.cells (fun a => chanOf a == some n) ∧ t.mem.moves = s.mem.moves
    ∧ t.mem.reserved = s.mem.reserved.filter fun r => !(r.tier == 2 && r.chan == n.1)

/-- The island's firmware area gone leaves the channels, the bytes, the reservations and the moves. -/
theorem Without.loseFwArea {n : McId} (h : Without n s t) : Without n s (loseFwArea t) := h

theorem failChannel_without (s : State) (n : McId) (reason : Nat) : ∃ u l, Without n s u
    ∧ failChannel s n reason = (u.mem.moves.filter l).foldl (fun t m => failMove t m .tierFault true) u := by
  have hmem : (faultStanding (s.streams.foldl (fun t st => losePages t n st) s) 0x0705 n.1 (put 0 1 n.1 + put 1 1 reason)).mem = s.mem := by
    rw [faultStanding_only]
    exact foldl_losePages_mem ..
  unfold failChannel
  refine ⟨_, _, ?_, rfl⟩
  generalize faultStanding _ 0x0705 n.1 (put 0 1 n.1 + put 1 1 reason) = s2 at hmem
  split
  · apply Without.loseFwArea
    simp [Without, modMem, hmem, vget_vmod_same]
  · simp [Without, modMem, hmem, vget_vmod_same]

theorem failChannel_channels (s : State) (n : McId) (reason : Nat) : ((failChannel s n reason).mem.channels.get n).st = .failedService := by
  obtain ⟨u, l, ⟨hst, -⟩, he⟩ := failChannel_without s n reason
  have hkeep : KeepsChannels u (failChannel s n reason) := he ▸ .foldl (fun t m => failMove_keepsChannels t m _ _) _ _
  rw [hkeep]
  exact hst

theorem failChannel_without_of_noMoves {n : McId} (reason : Nat) (h : s.mem.moves = []) : Without n s (failChannel s n reason) := by
  obtain ⟨u, l, hu, he⟩ := failChannel_without s n reason
  have hmoves : u.mem.moves = [] := by
    obtain ⟨-, -, hmoves, -⟩ := hu
    rw [hmoves, h]
  rw [he, hmoves]
  exact hu

/-- CHANNEL_FAILURE of a channel in service with its training lost fails it. -/
theorem channelFailure_trainingLost {n : McId} (hr : ready s = true) (hst : (s.mem.channels.get n).st = .inService) :
    exec (.channelFailure n 1) s = .next (failChannel s n 1) := by
  simp [exec, execChannelFailure, hr, hst]

theorem channelFailure_few {n : McId} (hfew : (s.mem.channels.get n).badReads.length < 16) : exec (.channelFailure n 0) s = .next s := by
  have hmany : ¬ 16 ≤ ((s.mem.channels.get n).badReads.filter fun t => !passed s t 24576000).length := by
    have := List.length_filter_le (fun t => !passed s t 24576000) (s.mem.channels.get n).badReads
    omega
  simp [exec, execChannelFailure, hmany]

theorem channelFailure_takesOut {n : McId} (hr : ready s = true) (hst : (s.mem.channels.get n).st = .inService) :
    ∃ t, exec (.channelFailure n 1) s = .next t ∧ (t.mem.channels.get n).st = .failedService
      ∧ (s.mem.moves = [] → s.mem.wf → (∀ a, chanOf a = some n → readByte t.mem.cells a = 0) ∧ (∀ a, chanOf a ≠ some n → readByte t.mem.cells a = readByte s.mem.cells a)
        ∧ ∀ r ∈ t.mem.reserved, ¬(r.tier = 2 ∧ r.chan = n.1)) := by
  refine ⟨_, channelFailure_trainingLost hr hst, failChannel_channels .., fun hmoves hwf => ?_⟩
  obtain ⟨-, hcells, -, hres⟩ := failChannel_without_of_noMoves (n := n) 1 hmoves
  rw [hcells, hres]
  refine ⟨fun a ha => ?_, fun a ha => ?_, fun r hr => ?_⟩
  · simp [readByte_clearBytes hwf, ha, emptyByte]
  · simp [readByte_clearBytes hwf, ha]
  · have := (List.mem_filter.1 hr).2
    simpa only [Bool.not_eq_true', Bool.and_eq_false_imp, beq_iff_eq, beq_eq_false_iff_ne, not_and] using this

end

end Sys2Proof.Proofs
end

section
/-! PROOFS. Errors the patrol finds, and the row repairs they ask for. -/

namespace Sys2Proof.Proofs

open Sys2Proof Sys2Proof.Machine Sys2Proof.Safety Sys2Proof.Laws

set_option Elab.async false

section
variable {s t u : State} {x : PatrolHit}

/-! ## A row with an error touches its records alone -/

/-- Only the memory and the island may differ; no byte does, and the fault record keeps its bounds. -/
structure OnlyRows (s t : State) : Prop where
  rest : t = { s with mem := t.mem, island := t.island }
  cells : t.mem.cells = s.mem.cells
  record : RecordOk s → RecordOk t

theorem OnlyRows.refl (s : State) : OnlyRows s s := ⟨rfl, rfl, id⟩

theorem OnlyRows.trans (hst : OnlyRows s t) (htu : OnlyRows t u) : OnlyRows s u where
  rest := by
    have h := htu.rest
    rw [hst.rest] at h
    exact h
  cells := htu.cells.trans hst.cells
  record h := htu.record (hst.record h)

theorem OnlyRows.engines (h : OnlyRows s t) : t.engines = s.engines := by rw [h.rest]
theorem OnlyRows.fuses (h : OnlyRows s t) : t.fuses = s.fuses := by rw [h.rest]
theorem OnlyRows.streams (h : OnlyRows s t) : t.streams = s.streams := by rw [h.rest]

theorem modMem_onlyRows (s : State) (f : Mem → Mem) (h : (f s.mem).cells = s.mem.cells) : OnlyRows s (modMem s f) := ⟨rfl, h, id⟩

theorem faultHistory_onlyRows (s : State) (code unit data : Nat) : OnlyRows s (faultHistory s code unit data) :=
  ⟨rfl, rfl, fun h => faultHistory_ok h ..⟩

theorem faultStanding_onlyRows (s : State) (code unit data : Nat) : OnlyRows s (faultStanding s code unit data) where
  rest := by rw [faultStanding_only]
  cells := by rw [faultStanding_only]
  record h := faultStanding_ok h ..

theorem columnDue_onlyRows (s : State) (x : PatrolHit) : OnlyRows s (columnDue s x) := by
  unfold columnDue
  dsimp only
  split
  · exact .refl s
  · exact (faultStanding_onlyRows ..).trans (modMem_onlyRows _ _ rfl)

theorem takeSpare_onlyRows (h : takeSpare s x = some t) : OnlyRows s t := by
  unfold takeSpare at h
  split at h
  · split at h
    · cases h
    · cases h
      exact modMem_onlyRows _ _ rfl
  · split at h
    · cases h
    · cases h
      exact modMem_onlyRows _ _ rfl

theorem repairRow_onlyRows (s : State) (x : PatrolHit) : OnlyRows s (repairRow s x) := by
  unfold repairRow
  dsimp only
  split
  · split
    · exact faultHistory_onlyRows ..
    · exact (faultStanding_onlyRows ..).trans (modMem_onlyRows _ _ rfl)
  · split
    · exact ((faultHistory_onlyRows ..).trans (modMem_onlyRows _ _ rfl)).trans (columnDue_onlyRows ..)
    · next h => exact (((takeSpare_onlyRows h).trans (faultStanding_onlyRows ..)).trans (modMem_onlyRows _ _ rfl)).trans (columnDue_onlyRows ..)

theorem rowSeen_onlyRows (s : State) (x : PatrolHit) (patrol : Bool) : OnlyRows s (rowSeen s x patrol) := by
  unfold rowSeen
  extract_lets same old add new s1
  have hs1 : OnlyRows s s1 := modMem_onlyRows _ _ rfl
  split
  · exact hs1.trans (repairRow_onlyRows ..)
  · exact hs1

theorem countT0_onlyRows (s : State) (x : PatrolHit) : OnlyRows s (countT0 s x) := by
  unfold countT0
  split
  · exact modMem_onlyRows _ _ rfl
  · exact .refl s

/-! ## A correctable word -/

theorem rowSeen_of_new (hx : x.uncorrectable = false)
    (hnew : ∀ e ∈ s.mem.rowErrors, ¬(e.tier = x.tier ∧ e.unit = x.unit ∧ e.bank = x.bank ∧ e.row = x.row)) :
    rowSeen s x true = modMem s fun m => { m with rowErrors := s.mem.rowErrors ++ [⟨x.tier, x.unit, x.bank, x.row, [passNo s x.tier], [x.bit]⟩] } := by
  have hsame (e) (he : e ∈ s.mem.rowErrors) : (e.tier == x.tier && e.unit == x.unit && e.bank == x.bank && e.row == x.row) = false := by
    simpa [and_assoc] using hnew e he
  have hfind : s.mem.rowErrors.find? (fun e => e.tier == x.tier && e.unit == x.unit && e.bank == x.bank && e.row == x.row) = none :=
    List.find?_eq_none.2 fun e he => by simp [hsame e he]
  have hfilter : s.mem.rowErrors.filter (fun e => !(e.tier == x.tier && e.unit == x.unit && e.bank == x.bank && e.row == x.row)) = s.mem.rowErrors :=
    List.filter_eq_self.2 fun e he => by simp [hsame e he]
  simp only [rowSeen, hfind, modMem, hfilter]
  simp [needsRepair, hx]

theorem countT0_of_correctable (hx : x.uncorrectable = false) : countT0 s x
    = { s with mem := { s.mem with t0Corrected := vmapIdx (fun i n => n + if x.tier = 0 ∧ x.unit = i then 1 else 0) s.mem.t0Corrected } } := by
  have hid (f : Nat → Nat → Nat) (h : ∀ i n, f i n = n) : vmapIdx f s.mem.t0Corrected = s.mem.t0Corrected :=
    Vector.ext fun i hi => by simp [vmapIdx, h]
  unfold countT0
  by_cases ht : x.tier = 0
  · simp only [ht, hx, beq_self_eq_true, Bool.not_false, Bool.and_self, if_true, modMem, true_and]
    congr
    funext i n
    by_cases hi : x.unit = i
    · simp [hi]
    · simp [hi, Ne.symm hi]
  · rw [if_neg (by simp [ht]), hid _ fun i n => by simp [ht]]

theorem patrolRead_of_hit (k : DataKind) (hr : ready s = true) : exec (.patrolRead ⟨some x, none⟩ k) s = .next (patrolFound s x k) := by
  simp [exec, execPatrolRead, hr]

theorem patrolRead_correctable (k : DataKind) (hr : ready s = true) (hhere : patrolHere s x = true) (hx : x.uncorrectable = false)
    (hnew : ∀ e ∈ s.mem.rowErrors, ¬(e.tier = x.tier ∧ e.unit = x.unit ∧ e.bank = x.bank ∧ e.row = x.row)) :
    ∃ t, exec (.patrolRead ⟨some x, none⟩ k) s = .next t ∧ t.mem.rowErrors = s.mem.rowErrors ++ [⟨x.tier, x.unit, x.bank, x.row, [passNo s x.tier], [x.bit]⟩]
      ∧ (∀ e : EngineId, t.mem.t0Corrected.get e = s.mem.t0Corrected.get e + if x.tier = 0 ∧ x.unit = e.1 then 1 else 0)
      ∧ t = { s with mem := { s.mem with rowErrors := t.mem.rowErrors, t0Corrected := t.mem.t0Corrected } } := by
  have hfound : patrolFound s x k = rowSeen (countT0 s x) x true := by simp [patrolFound, hhere, hx]
  rw [patrolRead_of_hit k hr, hfound, rowSeen_of_new (s := countT0 s x) hx (by rwa [countT0_of_correctable hx]), countT0_of_correctable hx]
  exact ⟨_, rfl, rfl, fun e => vget_vmapIdx .., rfl⟩

/-! ## An uncorrectable word -/

theorem chanOf_of_t1 {a : Nat} (h : a < t1Size) : chanOf a = none := by simp [chanOf, window, h]

theorem badWord_of_t1 {a : Nat} (tier : Nat) (h : a < t1Size) : badWord s tier a .other
    = modMem (faultHistory s 0x0706 0xFF (put 0 1 tier + put 1 1 (kindRow .other) + put 4 8 a)) fun m => { m with bad := if m.bad.contains a then m.bad else m.bad ++ [a] } := by
  simp [badWord, chanOf_of_t1 h, damage]

theorem patrolRead_uncorrectableT1 (hrec : RecordOk s) (hr : ready s = true) (hhere : patrolHere s x = true) (hx : x.uncorrectable = true) (ht : x.tier = 1) :
    ∃ t, exec (.patrolRead ⟨some x, none⟩ .other) s = .next t ∧ x.addr ∈ t.mem.bad ∧ SameBytes s t ∧ t.streams = s.streams ∧ ∃ r ∈ t.island.history, r.code = 0x0706 := by
  have hfound : patrolFound s x .other = badWord (rowSeen (countT0 s x) x true) x.tier x.addr .other := by simp [patrolFound, hhere, hx, ht]
  have haddr : x.addr < t1Size := by
    simp only [patrolHere, ht] at hhere
    simp at hhere
    exact hhere.2
  have hrows : OnlyRows s (rowSeen (countT0 s x) x true) := (countT0_onlyRows s x).trans (rowSeen_onlyRows ..)
  rw [patrolRead_of_hit _ hr, hfound, badWord_of_t1 _ haddr]
  generalize rowSeen (countT0 s x) x true = u at hrows
  refine ⟨_, rfl, ?_, fun a => congrArg (readByte · a) hrows.cells, hrows.streams, _, faultHistory_mem (hrows.record hrec) .., rfl⟩
  simp only [modMem]
  split
  · next h => exact List.contains_iff_mem.1 h
  · exact List.mem_append_right _ (List.mem_singleton_self _)

theorem patrolRead_uncorrectableT0 (k : DataKind) {e : EngineId} (hr : ready s = true) (hhere : patrolHere s x = true) (hx : x.uncorrectable = true) (ht : x.tier = 0)
    (he : x.unit = e.1) (hfree : (s.engines.get 6).life ≠ .laybyFree) :
    ∃ t, exec (.patrolRead ⟨some x, none⟩ k) s = .next t ∧ (t.engines.get e).life = .retired := by
  have hfins : (fins 7)[e.1]? = some e := by simp [fins]
  have hfound : patrolFound s x k = engineFault (rowSeen (countT0 s x) x true) e 2 := by simp [patrolFound, hhere, hx, ht, he, hfins]
  have hrows : OnlyRows s (rowSeen (countT0 s x) x true) := (countT0_onlyRows s x).trans (rowSeen_onlyRows ..)
  have hserves : hasEngine s.fuses.variant e.1 = true ∧ ((s.engines.get e).life = .inService ∨ (s.engines.get e).life = .laybyEngaged) := by
    simpa [patrolHere, ht, he, hfins, inService] using hhere
  obtain ⟨hhas, hlife⟩ := hserves
  have hlife' : (s.engines.get e).life ≠ .retired := by rcases hlife with h | h <;> simp [h]
  rw [patrolRead_of_hit _ hr, hfound]
  obtain ⟨hretired, -, -⟩ := engineFault_of_taken (s := rowSeen (countT0 s x) x true) (e := e) 2 (by rwa [hrows.engines]) (by rwa [hrows.fuses]) (by rwa [hrows.engines])
  exact ⟨_, rfl, hretired⟩

/-! ## A pass that ends -/

theorem patrolRead_pass (k : DataKind) (n : Fin 3) (hr : ready s = true) :
    ∃ t, exec (.patrolRead ⟨none, some n⟩ k) s = .next t ∧ t.mem.patrol.get n = ((s.mem.patrol.get n).1 + 1, some (now s))
      ∧ (∀ m, m ≠ n → t.mem.patrol.get m = s.mem.patrol.get m)
      ∧ t.fw.dieLog.length = s.fw.dieLog.length + (if passed s (passStart s n.1) (patrolPeriod n.1 + 1) then 1 else 0) ∧ SameBytes s t := by
  have hexec : exec (.patrolRead ⟨none, some n⟩ k) s = .next (endPass s n) := by simp [exec, execPatrolRead, hr]
  rw [hexec, endPass]
  generalize passed s (passStart s n.1) (patrolPeriod n.1 + 1) = late
  refine ⟨_, rfl, ?_⟩
  cases late
  · exact ⟨vget_vmod_same .., fun m hm => vget_vmod_other _ _ hm, rfl, fun _ => rfl⟩
  · exact ⟨vget_vmod_same .., fun m hm => vget_vmod_other _ _ hm, List.length_append, fun _ => rfl⟩

/-! ## The counts of corrected errors -/

/-- The state after a channel's counts of corrected errors are kept and logged. -/
def countsKept (s : State) (n : McId) (c : List Nat) : State :=
  logDie (modMem (takeFree s).2 fun m => { m with channels := vmod m.channels n fun ch => { ch with eccCounts := c, ecsAt := now s } }) (takeFree s).1 n.1 0
    (total (c.mapIdx fun i a => put (4 * i) 4 a))

theorem ecsCountRead_keeps {n : McId} (c : List Nat) (hr : ready s = true) (hst : (s.mem.channels.get n).st = .inService)
    (hdue : passed s (s.mem.channels.get n).ecsAt 2123366400000 = true) :
    ∃ t, exec (.ecsCountRead n c) s = .next t ∧ (t.mem.channels.get n).eccCounts = c ∧ (t.mem.channels.get n).ecsAt = now s ∧ t.fw.dieLog.length = s.fw.dieLog.length + 1 ∧ SameBytes s t
      ∧ ∀ k, k ≠ n → t.mem.channels.get k = s.mem.channels.get k := by
  have hexec : exec (.ecsCountRead n c) s = .next (countsKept s n c) := by
    simp only [exec, execEcsCountRead, hr, hst, hdue, bne_self_eq_false, Bool.not_true, Bool.or_self, Bool.false_eq_true, if_false, countsKept]
  refine ⟨_, hexec, ?_⟩
  simp only [countsKept, logDie_mem, modMem, takeFree]
  refine ⟨by rw [vget_vmod_same], by rw [vget_vmod_same], List.length_append, fun _ => rfl, fun k hk => vget_vmod_other _ _ hk⟩

/-! ## The island's firmware area -/

theorem assignRoom_mem (s : State) (l : FabId) : (assignRoom s l).mem = { s.mem with rooms := (assignRoom s l).mem.rooms } := by
  unfold assignRoom
  split
  · rfl
  · split <;> rfl

theorem assignRooms_mem (s : State) : (assignRooms s).mem = { s.mem with rooms := (assignRooms s).mem.rooms } := by
  refine List.foldlRecOn (motive := fun t : State => t.mem = { s.mem with rooms := t.mem.rooms }) _ _ rfl fun t ht l _ => ?_
  rw [assignRoom_mem t l.lender, ht]

theorem firmwareAreaMove_takes {b : Nat} (hwf : s.mem.wf) (hr : ready s = true) (hnone : s.mem.fwArea = none) (halloc : 0 < chanAllocatable s 0)
    (hfree : 2048 ≤ freeChan s 0) (hplace : placeOn s 2 0 2048 = some b) :
    ∃ t, exec .firmwareAreaMove s = .next t ∧ t.mem.fwArea = some 0 ∧ t.mem.fwBase = b ∧ t.mem.reserved = s.mem.reserved
      ∧ ∀ a, readByte t.mem.cells a = if b ≤ a ∧ a < b + 2 ^ 27 then 0 else readByte s.mem.cells a := by
  have hfins : fins 4 = [0, 1, 2, 3] := rfl
  refine ⟨_, by simp only [exec, execFirmwareAreaMove, hr, hnone, hfins, List.findSome?_cons, halloc, hfree, hplace, decide_true, Bool.and_self, Option.map_some,
    Option.isSome_none, Bool.not_true, Bool.or_self, Bool.false_eq_true, if_false, if_true]; rfl, ?_⟩
  rw [assignRooms_mem]
  refine ⟨rfl, rfl, rfl, fun a => ?_⟩
  simp only [modMem, readByte_clearBytes hwf, emptyByte, Bool.and_eq_true, decide_eq_true_eq]
  norm_num

end

end Sys2Proof.Proofs
end

section
/-! PROOFS. Channels trained at start-up: O52. -/

namespace Sys2Proof.Proofs

open Sys2Proof Sys2Proof.Machine Sys2Proof.Safety Sys2Proof.Laws

set_option Elab.async false

section
variable {s t u : State} {n : McId}

/-! ## What becomes of a channel that has trained -/

/-- A channel that trained, or did not, in the state given. -/
def chanEntered (n : McId) (st : McState) (k : Nat) (s : State) : State :=
  modMem s fun m => { m with channels := vmod m.channels n fun c => { c with st := st, softLeft := k } }

/-- A channel in service with its devices. -/
def servingWith (n : McId) (d : Devices) (since : Tick) (s : State) : State :=
  modMem (chanEntered n .inService ((takeFree s).1 % 65536) (takeFree s).2) fun m => { m with
    channels := vmod m.channels n fun c => { c with gib := d.gib, mts := d.mts, ranks := d.ranks, ecsAt := since }, t2Size := m.t2Size + d.gib * 16384 }

/-- A channel that did not train, recorded where no entry says so. -/
def notTrained (n : McId) (s : State) : State :=
  if channelEntry s n 2 then chanEntered n .failedTraining 0 s
  else faultStanding (chanEntered n .failedTraining 0 s) 0x0705 n.1 (put 0 1 n.1 + put 1 1 2)

theorem channelTrainingDone_eq (d : Devices) (pass replaced : Bool) (bad : List Nat) (hr : ready s = true) (hn : n.1 < mcCount s.fuses.variant)
    (hst : (s.mem.channels.get n).st = .untrained) (hu : u = if replaced then forgetDevices s n else s) :
    exec (.channelTrainingDone n d pass replaced bad) s = .next (
      if channelEntry u n 0 || channelEntry u n 1 then areaAtStart (chanEntered n .failedService 0 u)
      else if table56 u d && pass then areaAtStart (remarkSoft (servingWith n d (now s) u) n bad)
      else areaAtStart (notTrained n u)) := by
  have hfew : decide (mcCount s.fuses.variant ≤ n.1) = false := decide_eq_false (by omega)
  subst hu
  simp only [exec, execChannelTrainingDone, hr, hst, hfew, bne_self_eq_false, Bool.not_true, Bool.or_self, Bool.false_eq_true, if_false, chanEntered, servingWith, notTrained]

/-! ## Devices replaced -/

theorem all_vmod {α : Type} {k : Nat} (v : Vector α k) (i : Fin k) (f : α → α) (p : α → Bool) (h : p (f (v.get i)) = p (v.get i)) :
    (vmod v i f).toList.all p = v.toList.all p := by
  have hmap : (vmod v i f).toList.map p = v.toList.map p := by
    refine List.ext_getElem (by simp) fun j hj _ => ?_
    simp only [List.length_map, Vector.length_toList] at hj
    have hget := vget_vmod v i ⟨j, hj⟩ f
    simp only [Vector.get_eq_getElem] at hget h
    simp only [List.getElem_map, Vector.getElem_toList, hget]
    split
    · next hji => subst hji; exact h
    · rfl
  have hall (w : Vector α k) : w.toList.all p = (w.toList.map p).all id := by rw [List.all_map, Function.id_comp]
  rw [hall, hmap, ← hall]

theorem forgetDevices_table56 (s : State) (n : McId) (d : Devices) : table56 (forgetDevices s n) d = table56 s d := by
  unfold table56
  congr 1
  exact all_vmod _ _ _ _ rfl

theorem forgetDevices_standing {r : LogRec} (h : r ∈ (forgetDevices s n).island.standing) (hcode : r.code = 0x0705) : bits r.data.toNat 0 8 ≠ n.1 := by
  have := (List.mem_filter.1 h).2
  simpa [hcode] using this

theorem forgetDevices_channelEntry (s : State) (n : McId) (reason : Nat) : channelEntry (forgetDevices s n) n reason = false := by
  refine List.any_eq_false.2 fun r hr => ?_
  by_cases hcode : r.code = 0x0705
  · simp [forgetDevices_standing hr hcode]
  · simp only [beq_eq_false_iff_ne.2 hcode, Bool.false_and, Bool.false_eq_true, not_false_eq_true]

/-! ## The firmware area and the soft repairs -/

theorem areaAtStart_mem (s : State) : (areaAtStart s).mem = { s.mem with fwArea := (areaAtStart s).mem.fwArea, fwBase := (areaAtStart s).mem.fwBase } := by
  unfold areaAtStart
  split <;> rfl

theorem areaAtStart_cells (s : State) : (areaAtStart s).mem.cells = s.mem.cells := by rw [areaAtStart_mem]

theorem areaAtStart_island (s : State) : (areaAtStart s).island = s.island := by
  unfold areaAtStart
  split <;> rfl

theorem remarkSoft_standing {r : LogRec} {bad : List Nat} (h : r ∈ (remarkSoft s n bad).island.standing) (hcode : r.code = 0x0705) : r ∈ s.island.standing := by
  obtain ⟨r0, hr0, hr⟩ := List.mem_map.1 h
  have hkept : r0.code = 0x0705 := by
    rw [← hr] at hcode
    dsimp only at hcode
    split at hcode <;> exact hcode
  have hsoft : (r0.code == 0x0704) = false := by
    rw [hkept]
    decide
  simp only [hsoft, Bool.false_and, Bool.false_eq_true, if_false] at hr
  exact hr ▸ hr0

/-! ## The channel's three ends -/

theorem servingWith_channel (n : McId) (d : Devices) (since : Tick) (s : State) : ((servingWith n d since s).mem.channels.get n)
    = { s.mem.channels.get n with st := .inService, softLeft := (takeFree s).1 % 65536, gib := d.gib, mts := d.mts, ranks := d.ranks, ecsAt := since } := by
  simp only [servingWith, chanEntered, modMem, vget_vmod_same, takeFree]

theorem notTrained_standing (hentry : channelEntry s n 2 = false) (hroom : s.island.standing.length < 256) :
    ∃ r ∈ (notTrained n s).island.standing, r.code = 0x0705 ∧ r.data = BitVec.ofNat 128 (n.1 + 512) := by
  have hdata : put 0 1 n.1 + put 1 1 2 = n.1 + 512 := by
    have := n.2
    simp [put]
    omega
  have hroom' : (chanEntered n .failedTraining 0 s).island.standing.length < 256 := hroom
  rw [notTrained, hentry, faultStanding, hdata, if_neg Bool.false_ne_true, if_pos hroom']
  exact ⟨_, List.mem_append_right _ (List.mem_singleton_self _), rfl, rfl⟩

theorem notTrained_mem (hentry : channelEntry s n 2 = false) : (notTrained n s).mem = (chanEntered n .failedTraining 0 s).mem := by
  rw [notTrained, hentry, faultStanding_only, if_neg Bool.false_ne_true]

theorem channelTrainingDone_serves (d : Devices) (pass replaced : Bool) (bad : List Nat) (hr : ready s = true) (hn : n.1 < mcCount s.fuses.variant)
    (hst : (s.mem.channels.get n).st = .untrained) (htable : table56 s d = true) (hpass : pass = true)
    (hentry : replaced = true ∨ (channelEntry s n 0 = false ∧ channelEntry s n 1 = false)) :
    ∃ t, exec (.channelTrainingDone n d pass replaced bad) s = .next t ∧ (t.mem.channels.get n).st = .inService
      ∧ (t.mem.channels.get n).gib = d.gib ∧ (t.mem.channels.get n).mts = d.mts ∧ (t.mem.channels.get n).ranks = d.ranks
      ∧ t.mem.t2Size = s.mem.t2Size + d.gib * 16384 ∧ SameBytes s t
      ∧ (replaced = true → ∀ r ∈ t.island.standing, r.code = 0x0705 → bits r.data.toNat 0 8 ≠ n.1) := by
  obtain ⟨u, hu⟩ : ∃ u, u = if replaced then forgetDevices s n else s := ⟨_, rfl⟩
  have hnone : channelEntry u n 0 = false ∧ channelEntry u n 1 = false ∧ table56 u d = true ∧ u.mem.t2Size = s.mem.t2Size ∧ u.mem.cells = s.mem.cells
      ∧ (replaced = true → ∀ r ∈ u.island.standing, r.code = 0x0705 → bits r.data.toNat 0 8 ≠ n.1) := by
    subst hu
    cases replaced
    · obtain ⟨h0, h1⟩ := hentry.resolve_left Bool.false_ne_true
      exact ⟨h0, h1, htable, rfl, rfl, fun h => absurd h Bool.false_ne_true⟩
    · exact ⟨forgetDevices_channelEntry .., forgetDevices_channelEntry .., (forgetDevices_table56 ..).trans htable, rfl, rfl, fun _ r => forgetDevices_standing⟩
  obtain ⟨h0, h1, htable', hsize, hcells, hstanding⟩ := hnone
  rw [channelTrainingDone_eq d pass replaced bad hr hn hst hu, h0, h1, htable', hpass, Bool.or_self, if_neg Bool.false_ne_true, Bool.and_self, if_pos rfl]
  refine ⟨_, rfl, ?_⟩
  rw [areaAtStart_mem, areaAtStart_island]
  have hchannel := servingWith_channel n d (now s) u
  refine ⟨congrArg McChan.st hchannel, congrArg McChan.gib hchannel, congrArg McChan.mts hchannel, congrArg McChan.ranks hchannel,
    congrArg (· + d.gib * 16384) hsize, fun a => congrArg (fun l => readByte l a) ((areaAtStart_cells _).trans hcells), fun hrep r hmem hcode => hstanding hrep r (remarkSoft_standing hmem hcode) hcode⟩

theorem channelTrainingDone_fails (d : Devices) (pass replaced : Bool) (bad : List Nat) (hr : ready s = true) (hn : n.1 < mcCount s.fuses.variant)
    (hst : (s.mem.channels.get n).st = .untrained) (hbad : table56 s d = false ∨ pass = false) (hrep : replaced = false)
    (h0 : channelEntry s n 0 = false) (h1 : channelEntry s n 1 = false) (h2 : channelEntry s n 2 = false) (hroom : s.island.standing.length < 256) :
    ∃ t, exec (.channelTrainingDone n d pass replaced bad) s = .next t ∧ (t.mem.channels.get n).st = .failedTraining
      ∧ t.mem.t2Size = s.mem.t2Size ∧ ∃ r ∈ t.island.standing, r.code = 0x0705 ∧ r.data = BitVec.ofNat 128 (n.1 + 512) := by
  have hboth : (table56 s d && pass) = false := by rcases hbad with h | h <;> simp [h]
  subst hrep
  rw [channelTrainingDone_eq d pass false bad hr hn hst (u := s) rfl, h0, h1, hboth, Bool.or_self, if_neg Bool.false_ne_true, if_neg Bool.false_ne_true]
  refine ⟨_, rfl, ?_⟩
  rw [areaAtStart_mem, areaAtStart_island, notTrained_mem h2]
  exact ⟨congrArg McChan.st (vget_vmod_same ..), rfl, notTrained_standing h2 hroom⟩

theorem channelTrainingDone_staysOut (d : Devices) (pass replaced : Bool) (bad : List Nat) (hr : ready s = true) (hn : n.1 < mcCount s.fuses.variant)
    (hst : (s.mem.channels.get n).st = .untrained) (hentry : channelEntry s n 0 = true ∨ channelEntry s n 1 = true) (hrep : replaced = false) :
    ∃ t, exec (.channelTrainingDone n d pass replaced bad) s = .next t ∧ (t.mem.channels.get n).st = .failedService
      ∧ t.mem.t2Size = s.mem.t2Size ∧ SameBytes s t := by
  subst hrep
  rw [channelTrainingDone_eq d pass false bad hr hn hst (u := s) rfl, if_pos (Bool.or_eq_true_iff.2 hentry)]
  refine ⟨_, rfl, ?_⟩
  rw [areaAtStart_mem]
  exact ⟨congrArg McChan.st (vget_vmod_same ..), rfl, fun a => congrArg (fun l => readByte l a) (areaAtStart_cells _)⟩

end

/-- Settles O52. -/
theorem damageIsHandled : Obligations.DamageIsHandled := by
  unfold Obligations.DamageIsHandled
  refine ⟨fun x k s hr hhere hx hnew => patrolRead_correctable k hr hhere hx hnew, fun x s hrec hr hhere hx ht => patrolRead_uncorrectableT1 hrec hr hhere hx ht,
    fun x k e s hr hhere hx ht he hfree => patrolRead_uncorrectableT0 k hr hhere hx ht he hfree, fun k n s hr => patrolRead_pass k n hr,
    fun n s hr hst => ⟨channelFailure_takesOut hr hst, channelFailure_few⟩, fun n gib mts ranks x16 pass replaced bad s hr hn hst => ⟨?_, ?_, ?_⟩,
    fun n c s hr hst hdue => ecsCountRead_keeps c hr hst hdue, fun s b hwf hr hnone halloc hfree hplace => firmwareAreaMove_takes hwf hr hnone halloc hfree hplace⟩
  · exact fun htable hpass hentry => channelTrainingDone_serves ⟨gib, mts, ranks, x16⟩ pass replaced bad hr hn hst htable hpass hentry
  · exact fun hbad hrep h0 h1 h2 hroom => channelTrainingDone_fails ⟨gib, mts, ranks, x16⟩ pass replaced bad hr hn hst hbad hrep h0 h1 h2 hroom
  · exact fun hentry hrep => channelTrainingDone_staysOut ⟨gib, mts, ranks, x16⟩ pass replaced bad hr hn hst hentry hrep

end Sys2Proof.Proofs
end

section
/-! PROOFS. Start-up: the island's firmware, its images, the self-test, the images of the die. -/

namespace Sys2Proof.Proofs

open Sys2Proof Sys2Proof.Machine Sys2Proof.Safety Sys2Proof.Laws

set_option Elab.async false

section
variable {s t u : State}

/-! ## Judging the images touches what is known of them and the fault record alone -/

/-- Only what is known of the images and the fault record may differ. -/
def OnlyJudges (s t : State) : Prop := t = { s with
  flash := t.flash, island := { s.island with faultSeq := t.island.faultSeq, history := t.island.history } }

theorem OnlyJudges.refl (s : State) : OnlyJudges s s := rfl

theorem OnlyJudges.trans (hst : OnlyJudges s t) (htu : OnlyJudges t u) : OnlyJudges s u := by
  rw [OnlyJudges] at *
  rw [hst] at htu
  exact htu

theorem judge_onlyJudges (s : State) (target : Nat) (i : Fin 3) : OnlyJudges s (judge s target i) := by
  unfold judge
  split
  · exact rfl
  · exact rfl

theorem foldl_judge_onlyJudges (target : Nat) (l : List (Fin 3)) (s : State) : OnlyJudges s (l.foldl (fun t i => judge t target i) s) :=
  List.foldlRecOn (motive := OnlyJudges s) l _ (.refl s) fun t ht i _ => ht.trans (judge_onlyJudges t target i)

/-! ## The island's firmware runs -/

/-- Memory, streams and time are as before. -/
structure KeepsDie (s t : State) : Prop where
  mem : t.mem = s.mem
  streams : t.streams = s.streams
  time : t.time = s.time

theorem KeepsDie.refl (s : State) : KeepsDie s s := ⟨rfl, rfl, rfl⟩

theorem KeepsDie.trans (hst : KeepsDie s t) (htu : KeepsDie t u) : KeepsDie s u :=
  ⟨htu.mem.trans hst.mem, htu.streams.trans hst.streams, htu.time.trans hst.time⟩

theorem OnlyJudges.keepsDie (h : OnlyJudges s t) : KeepsDie s t := by
  rw [h]
  exact ⟨rfl, rfl, rfl⟩

theorem islandFinds_keepsDie (s : State) : KeepsDie s (islandFinds s) := by
  unfold islandFinds
  dsimp only
  split <;> split <;> exact ⟨rfl, rfl, rfl⟩

theorem tryAscend_keepsDie (s : State) : KeepsDie s (tryAscend s) := by
  have hadmit : KeepsDie s (admitAlone s) := by
    unfold admitAlone
    split <;> exact ⟨rfl, rfl, rfl⟩
  unfold tryAscend
  dsimp only
  split
  · exact hadmit.trans ⟨rfl, rfl, rfl⟩
  · exact hadmit

theorem tryAscend_seqState (s : State) : (tryAscend s).seq.state = s.seq.state := by
  have hadmit : (admitAlone s).seq = s.seq := by
    unfold admitAlone
    split <;> rfl
  unfold tryAscend
  dsimp only
  split
  · rw [ascend_state, modSeq, hadmit]
  · rw [hadmit]

/-- The island has started at a tick, in ROM mode or not, with the coolant limits read. -/
def Started (rom : Bool) (limits : Option (Vector CoolLimits 4)) (since : Tick) (i : Island) : Prop :=
  i.up = true ∧ i.startAt = since ∧ i.romMode = rom ∧ i.statOut = .low ∧ i.limitsOk = limits.isSome ∧ ∀ l, limits = some l → i.coolLimits = l

/-- The island just started. -/
def islandStarts (limits : Option (Vector CoolLimits 4)) (since : Tick) (t : State) (rom : Bool) : State := modIsland t fun i => { i with
  up := true, romMode := rom, startAt := since, lastBeat := since, statKick := since, trialAt := since, seqMark := i.seqFloor
  limitsOk := limits.isSome, coolLimits := limits.getD (Vector.replicate 4 {}), statOut := .low }

theorem islandStarts_started (limits : Option (Vector CoolLimits 4)) (since : Tick) (t : State) (rom : Bool) :
    Started rom limits since (islandStarts limits since t rom).island :=
  ⟨rfl, rfl, rfl, rfl, rfl, fun l hl => by rw [hl]; rfl⟩

theorem islandStarts_keepsDie (limits : Option (Vector CoolLimits 4)) (since : Tick) (t : State) (rom : Bool) : KeepsDie t (islandStarts limits since t rom) :=
  ⟨rfl, rfl, rfl⟩

theorem modFlash_keepsDie (s : State) (f : Flash → Flash) : KeepsDie s (modFlash s f) := ⟨rfl, rfl, rfl⟩

theorem logIsland_started {rom : Bool} {limits : Option (Vector CoolLimits 4)} {since : Tick} (h : Started rom limits since s.island)
    (code unit sev data : Nat) : Started rom limits since (logIsland s code unit sev data).island := h

theorem setPosition_keepsDie (s : State) (recordOk : Bool) (x y z : Fin 16) (sizes : Vector Nat 4) (wraps : Vector Bool 4) :
    KeepsDie s (setPosition s recordOk x y z sizes wraps) := by
  unfold setPosition
  split
  · exact ⟨rfl, rfl, rfl⟩
  · split
    · exact ⟨rfl, rfl, rfl⟩
    · split <;> exact ⟨rfl, rfl, rfl⟩

theorem setPosition_started {rom : Bool} {limits : Option (Vector CoolLimits 4)} {since : Tick} (h : Started rom limits since s.island)
    (recordOk : Bool) (x y z : Fin 16) (sizes : Vector Nat 4) (wraps : Vector Bool 4) :
    Started rom limits since (setPosition s recordOk x y z sizes wraps).island := by
  unfold setPosition
  split
  · exact h
  · split
    · exact h
    · split
      · exact h
      · exact h

theorem tryAscend_started {rom : Bool} {limits : Option (Vector CoolLimits 4)} {since : Tick} (h : Started rom limits since s.island) :
    Started rom limits since (tryAscend s).island := by
  obtain ⟨⟨a, ha⟩, -⟩ := tryAscend_island_mem s
  rw [ha]
  exact h

/-- The island's position found where the die is still down. -/
def positioned (s : State) (recordOk : Bool) (x y z : Fin 16) (sizes : Vector Nat 4) (wraps : Vector Bool 4) (t : State) : State :=
  if s.seq.state == .s0 || s.seq.state == .s1 then setPosition t recordOk x y z sizes wraps else t

/-- The island's images tried up to the first that verifies. -/
def imagesTried (s : State) : State :=
  ((bootOrder s 1).takeWhile fun i => (slotCheck s 1 i).isSome).foldl (fun t i => judge t 1 i) (islandFinds s)

theorem imagesTried_keepsDie (s : State) : KeepsDie s (imagesTried s) :=
  (islandFinds_keepsDie s).trans (foldl_judge_onlyJudges ..).keepsDie

section
variable {rom : Bool} {limits : Option (Vector CoolLimits 4)} {since : Tick} (s : State) (recordOk : Bool) (x y z : Fin 16) (sizes : Vector Nat 4) (wraps : Vector Bool 4)

theorem positioned_keepsDie (t : State) : KeepsDie t (positioned s recordOk x y z sizes wraps t) := by
  unfold positioned
  split
  · exact setPosition_keepsDie ..
  · exact .refl t

theorem positioned_started (h : Started rom limits since t.island) : Started rom limits since (positioned s recordOk x y z sizes wraps t).island := by
  unfold positioned
  split
  · exact setPosition_started h ..
  · exact h

/-- The start of an island that is down, by whether one of its images verifies. -/
theorem islandFirmwareRunning_eq (haon : s.seq.aonRst = false) (hup : s.island.up = false) :
    exec (.islandFirmwareRunning recordOk x y z sizes wraps limits) s = .next (match (bootOrder s 1).find? fun i => (slotCheck s 1 i).isNone with
      | some i =>
        let s3 := positioned s recordOk x y z sizes wraps (islandStarts limits (now s)
          (modFlash (imagesTried s) fun f => { f with islandRunning := i.1, islandBad := vmod f.islandBad i fun _ => false }) false)
        if s.island.trayEn && limits.isNone then logIsland s3 0x0507 0xFF 1 0 else s3
      | none =>
        let s3 := modIsland (positioned s recordOk x y z sizes wraps (islandStarts limits (now s) (imagesTried s) true)) fun i => { i with ready := true }
        if s3.seq.state == .s0 then tryAscend (modSeq s3 fun q => { q with state := .s1 }) else s3) := by
  simp only [exec, execIslandFirmwareRunning, haon, hup, Bool.or_self, Bool.false_eq_true, if_false] <;> rfl

theorem bootOrder_none_good (h : (bootOrder s 1).find? (fun i => (slotCheck s 1 i).isNone) = none) :
    (bootOrder s 1).all (fun i => (slotCheck s 1 i).isSome) = true := by
  rw [List.all_eq_true]
  intro i hi
  have := List.find?_eq_none.1 h i hi
  exact Option.isSome_iff_ne_none.2 (by simpa using this)

theorem bootOrder_one_good {i : Fin 3} (h : (bootOrder s 1).find? (fun i => (slotCheck s 1 i).isNone) = some i) :
    (bootOrder s 1).all (fun i => (slotCheck s 1 i).isSome) = false := by
  rw [List.all_eq_false]
  have hgood := List.find?_some h
  exact ⟨i, List.mem_of_find?_eq_some h, by simpa using hgood⟩

theorem islandFirmwareRunning_starts (haon : s.seq.aonRst = false) (hup : s.island.up = false) :
    ∃ t, exec (.islandFirmwareRunning recordOk x y z sizes wraps limits) s = .next t
      ∧ Started ((bootOrder s 1).all (fun i => (slotCheck s 1 i).isSome)) limits (now s) t.island ∧ KeepsDie s t := by
  rw [islandFirmwareRunning_eq s recordOk x y z sizes wraps haon hup]
  refine ⟨_, rfl, ?_⟩
  split
  · next i hi =>
    rw [bootOrder_one_good s hi]
    have hkeeps := (imagesTried_keepsDie s).trans (((modFlash_keepsDie ..).trans (islandStarts_keepsDie ..)).trans (positioned_keepsDie s recordOk x y z sizes wraps (islandStarts limits (now s)
      (modFlash (imagesTried s) fun f => { f with islandRunning := i.1, islandBad := vmod f.islandBad i fun _ => false }) false)))
    have hstarted := positioned_started s recordOk x y z sizes wraps (islandStarts_started limits (now s)
      (modFlash (imagesTried s) fun f => { f with islandRunning := i.1, islandBad := vmod f.islandBad i fun _ => false }) false)
    dsimp only
    split
    · exact ⟨logIsland_started hstarted .., hkeeps.trans ⟨rfl, rfl, rfl⟩⟩
    · exact ⟨hstarted, hkeeps⟩
  · next hnone =>
    rw [bootOrder_none_good s hnone]
    have hkeeps := (imagesTried_keepsDie s).trans ((islandStarts_keepsDie ..).trans
      (positioned_keepsDie s recordOk x y z sizes wraps (islandStarts limits (now s) (imagesTried s) true)))
    have hstarted := positioned_started s recordOk x y z sizes wraps (islandStarts_started limits (now s) (imagesTried s) true)
    generalize positioned s recordOk x y z sizes wraps (islandStarts limits (now s) (imagesTried s) true) = u at hkeeps hstarted
    have hrisen : KeepsDie u (modSeq (modIsland u fun i => { i with ready := true }) fun q => { q with state := .s1 }) := ⟨rfl, rfl, rfl⟩
    dsimp only
    split
    · exact ⟨tryAscend_started hstarted, (hkeeps.trans hrisen).trans (tryAscend_keepsDie _)⟩
    · exact ⟨hstarted, hkeeps.trans ⟨rfl, rfl, rfl⟩⟩

end

/-! ## The island is ready -/

theorem islandReady_readies (hruns : islandRuns s = true) (hready : s.island.ready = false) :
    ∃ t, exec .islandReady s = .next t ∧ t.island.ready = true ∧ t.seq.state = (if s.seq.state = .s0 then .s1 else s.seq.state) ∧ t.mem = s.mem := by
  have hjudged := foldl_judge_onlyJudges 0 (bootOrder s 0) s
  simp only [exec, execIslandReady, hruns, hready, Bool.not_true, Bool.or_self, Bool.false_eq_true, if_false]
  generalize (bootOrder s 0).foldl (fun t i => judge t 0 i) s = u at hjudged
  have hseq : u.seq = s.seq := by rw [hjudged]
  have hmem : u.mem = s.mem := by rw [hjudged]
  have hrises (v : State) (hv : v.island.ready = true) : (tryAscend v).island.ready = true ∧ (tryAscend v).seq.state = v.seq.state ∧ (tryAscend v).mem = v.mem := by
    obtain ⟨⟨a, ha⟩, hm⟩ := tryAscend_island_mem v
    exact ⟨by rw [ha]; exact hv, tryAscend_seqState v, hm⟩
  refine ⟨_, rfl, ?_⟩
  by_cases h0 : s.seq.state = .s0
  · rw [if_neg (by simp [modIsland, hseq, h0]), if_pos h0]
    obtain ⟨hr, hs, hm⟩ := hrises (modSeq (modIsland u fun i => { i with ready := true }) fun q => { q with
      state := .s1, requestAt := now s, request := if q.pwrAuto && q.request.isNone then some true else q.request }) rfl
    exact ⟨hr, hs, hm.trans hmem⟩
  · rw [if_pos (by simp [modIsland, hseq, h0]), if_neg h0]
    obtain ⟨hr, hs, hm⟩ := hrises (modIsland u fun i => { i with ready := true }) rfl
    exact ⟨hr, hs.trans (congrArg Seqr.state hseq), hm.trans hmem⟩

/-! ## The depot's self-test -/

theorem stopBoot_of_bootstrap (fault : Nat) (h : s.fw.state = .bootstrap) : stopBoot s fault = { s with fw := { s.fw with fault := fault, stage := stageStopped } } := by
  rw [stopBoot, setFw_self h]

theorem stopBoot_fw (s : State) (fault : Nat) : (stopBoot s fault).fw = { s.fw with state := .bootstrap, fault := fault, stage := stageStopped } := by
  simp only [stopBoot, setFw_fw]

theorem depotSelfTestDone_eq (pass : Bool) (h5 : s.seq.state = .s5) (hfw : s.fw.state = .bootstrap) (hstage : s.fw.stage = stageFuses) :
    exec (.depotSelfTestDone pass) s = .next (if s.fuses.ok = false then faultStanding (stopBoot s 1) 0x0707 0xFF 0 else if pass = false then stopBoot s 3
      else { setFw s .loading with fw := { (setFw s .loading).fw with stage := stageLoad, fault := 0 } }) := by
  simp [exec, execDepotSelfTestDone, h5, hfw, hstage]

theorem depotSelfTestDone_passed (h5 : s.seq.state = .s5) (hfw : s.fw.state = .bootstrap) (hstage : s.fw.stage = stageFuses) (hok : s.fuses.ok = true) :
    ∃ t, exec (.depotSelfTestDone true) s = .next t ∧ t.fw.state = .loading ∧ t.fw.stage = stageLoad ∧ t.fw.fault = 0 ∧ t.host.irqCause.getLsbD 0 = true ∧ t.mem = s.mem := by
  rw [depotSelfTestDone_eq true h5 hfw hstage, if_neg (by simp [hok]), if_neg (by simp)]
  refine ⟨_, rfl, by simp, rfl, rfl, ?_, setFw_mem ..⟩
  have hirq := setFw_irqCause (s := s) (st := .loading) (by simp [hfw])
  simp [hirq, causeFwState]

theorem depotSelfTestDone_failed (h5 : s.seq.state = .s5) (hfw : s.fw.state = .bootstrap) (hstage : s.fw.stage = stageFuses) (hok : s.fuses.ok = true) :
    exec (.depotSelfTestDone false) s = .next { s with fw := { s.fw with fault := 3, stage := stageStopped } } := by
  rw [depotSelfTestDone_eq false h5 hfw hstage, if_neg (by simp [hok]), if_pos rfl, stopBoot_of_bootstrap 3 hfw]

theorem depotSelfTestDone_badFuses (pass : Bool) (h5 : s.seq.state = .s5) (hfw : s.fw.state = .bootstrap) (hstage : s.fw.stage = stageFuses) (hok : s.fuses.ok = false) :
    ∃ t, exec (.depotSelfTestDone pass) s = .next t ∧ t.fw.fault = 1 ∧ t.fw.state = .bootstrap ∧ t.fw.stage = stageStopped := by
  rw [depotSelfTestDone_eq pass h5 hfw hstage, if_pos hok, stopBoot_of_bootstrap 1 hfw, faultStanding_only]
  exact ⟨_, rfl, rfl, hfw, rfl⟩

/-! ## The images of the die -/

/-- An image that is not run: its slot failed and recorded. -/
def imageFailed (s : State) (i : Fin 3) (check : Nat) : State :=
  logDie (setVerdict s 0 i false) 0x0802 0xFF 2 (put 0 1 0 + put 1 1 i.1 + put 2 1 check)

/-- What is left of the images once one is not run. -/
def nextImage (rest : List (Fin 3)) (s : State) : State := if rest.isEmpty then stopBoot s 2 else s

theorem firmwareLoaded_none (r : Bool) (hfw : s.fw.state = .loading) (hstage : s.fw.stage = stageLoad) (hc : candidates s = []) :
    exec (.firmwareLoaded r) s = .next (stopBoot s 2) := by
  simp [exec, execFirmwareLoaded, hfw, hstage, hc]

section
variable {i : Fin 3} {rest : List (Fin 3)} (hfw : s.fw.state = .loading) (hstage : s.fw.stage = stageLoad) (hc : candidates s = i :: rest)
include hfw hstage hc

theorem firmwareLoaded_unread : exec (.firmwareLoaded false) s = .next (nextImage rest (imageFailed s i 0)) := by
  simp [exec, execFirmwareLoaded, hfw, hstage, hc, nextImage, imageFailed]

theorem firmwareLoaded_good {img : FwImage} (himg : slotImage s 0 i = some img) (hcheck : slotCheck s 0 i = none) :
    exec (.firmwareLoaded true) s = .next (runImage (setVerdict s 0 i true) i.1 img) := by
  simp [exec, execFirmwareLoaded, hfw, hstage, hc, himg, hcheck]

theorem firmwareLoaded_bad {k : Nat} (hcheck : slotCheck s 0 i = some k) :
    exec (.firmwareLoaded true) s = .next (nextImage rest (recordBadImage (imageFailed s i k) 0 i k)) := by
  simp [exec, execFirmwareLoaded, hfw, hstage, hc, hcheck, nextImage, imageFailed]

end

theorem setVerdict_verdict (s : State) (i : Fin 3) (pass : Bool) : (setVerdict s 0 i pass).flash.verdict.get i = if pass then .pass else .fail := by
  simp [setVerdict, modFlash]

theorem nextImage_flash (rest : List (Fin 3)) (s : State) : (nextImage rest s).flash = s.flash := by
  unfold nextImage
  split
  · rw [stopBoot, setFw_only]
  · rfl

theorem nextImage_fw (rest : List (Fin 3)) (s : State) : (nextImage rest s).fw.state = (if rest = [] then .bootstrap else s.fw.state)
    ∧ (nextImage rest s).fw.fault = (if rest = [] then 2 else s.fw.fault) ∧ (nextImage rest s).fw.dieLog = s.fw.dieLog := by
  cases rest with
  | nil => simp [nextImage, stopBoot_fw]
  | cons j rest => exact ⟨rfl, rfl, rfl⟩

theorem firmwareLoaded_unread_fails {i : Fin 3} {rest : List (Fin 3)} (hfw : s.fw.state = .loading) (hstage : s.fw.stage = stageLoad) (hc : candidates s = i :: rest) :
    ∃ t, exec (.firmwareLoaded false) s = .next t ∧ t.flash.verdict.get i = .fail ∧ t.fw.state = (if rest = [] then .bootstrap else .loading)
      ∧ t.fw.fault = (if rest = [] then 2 else s.fw.fault) ∧ ∃ x ∈ t.fw.dieLog, x.code = 0x0802 := by
  obtain ⟨hstate, hfault, hlog⟩ := nextImage_fw rest (imageFailed s i 0)
  refine ⟨_, firmwareLoaded_unread hfw hstage hc, ?_, ?_, hfault, ?_⟩
  · rw [nextImage_flash]
    exact setVerdict_verdict s i false
  · rw [hstate]
    exact congrArg (fun x => if rest = [] then FwState.bootstrap else x) hfw
  · rw [hlog]
    exact ⟨_, List.mem_append_right _ (List.mem_singleton_self _), rfl⟩

theorem firmwareLoaded_read {i : Fin 3} {rest : List (Fin 3)} (hfw : s.fw.state = .loading) (hstage : s.fw.stage = stageLoad) (hc : candidates s = i :: rest) :
    ∃ t, exec (.firmwareLoaded true) s = .next t ∧ ((slotCheck s 0 i).isSome = true → t.flash.verdict.get i = .fail)
      ∧ (∀ img, slotImage s 0 i = some img → slotCheck s 0 i = none → t.fw.image = i.1 ∧ t.fw.version = imgVersion img ∧ t.fw.stage = stageInit
        ∧ t.flash.verdict.get i = .pass) := by
  cases hcheck : slotCheck s 0 i with
  | none =>
    obtain ⟨img, himg⟩ : ∃ img, slotImage s 0 i = some img := by
      unfold slotCheck at hcheck
      split at hcheck
      · next img himg => exact ⟨img, himg⟩
      · cases hcheck
    refine ⟨_, firmwareLoaded_good hfw hstage hc himg hcheck, fun h => absurd h (by simp), fun img' himg' _ => ?_⟩
    obtain rfl : img' = img := Option.some.inj (himg'.symm.trans himg)
    exact ⟨rfl, rfl, rfl, setVerdict_verdict s i true⟩
  | some k =>
    refine ⟨_, firmwareLoaded_bad hfw hstage hc hcheck, fun _ => ?_, fun img _ h => absurd h (by simp)⟩
    rw [nextImage_flash]
    exact setVerdict_verdict s i false

/-! ## Discovery -/

theorem discoveryComplete_discovers (hr : ready s = true) (hchans : ∀ n : Fin 4, n.1 < mcCount s.fuses.variant → (s.mem.channels.get n).st ≠ .untrained)
    (hlayby : (s.engines.get 6).life = .laybyFree → s.fw.laybyTested = true) (hclosed : s.fw.censusClosed = true) (hrejoined : s.fw.rejoined = false)
    (hroute : s.fw.routeInstalled = true) (htime : s.time.state = .aligned ∨ s.time.state = .standalone) :
    exec .discoveryComplete s = .next { s with fw := { s.fw with discovered := true } } := by
  have hall : ((fins 4).all fun n => decide (mcCount s.fuses.variant ≤ n.1) || (s.mem.channels.get n).st != .untrained) = true := by
    refine List.all_eq_true.2 fun n _ => ?_
    by_cases hn : n.1 < mcCount s.fuses.variant
    · simp [hchans n hn]
    · simp [Nat.le_of_not_lt hn]
  have hsettled : ((s.engines.get 6).life != .laybyFree || s.fw.laybyTested) = true := by
    by_cases h6 : (s.engines.get 6).life = .laybyFree
    · simp [hlayby h6]
    · simp [h6]
  have haligned : (s.time.state == .aligned || s.time.state == .standalone) = true := by simpa using htime
  simp only [exec, execDiscoveryComplete, hall, hsettled, haligned, hr, hclosed, hrejoined, hroute, Bool.not_true, Bool.not_false, Bool.true_or, Bool.and_self,
    Bool.or_self, Bool.false_eq_true, if_false]

end

end Sys2Proof.Proofs
end

section
/-! PROOFS. FIRMWARE_READY, and the start-up as a whole: O54. -/

namespace Sys2Proof.Proofs

open Sys2Proof Sys2Proof.Machine Sys2Proof.Safety Sys2Proof.Laws

set_option Elab.async false

section
variable {s t u : State}

/-! ## The pending column repairs -/

/-- Only the island and the column repairs may differ. -/
def OnlyColumns (s t : State) : Prop := t = { s with
  island := t.island, mem := { s.mem with colPending := t.mem.colPending, colSpares := t.mem.colSpares } }

theorem applyColumns_onlyColumns (s : State) : OnlyColumns s (applyColumns s) := by
  refine List.foldlRecOn (motive := OnlyColumns s) _ _ rfl fun t ht c _ => ?_
  rw [OnlyColumns, ht]

/-- Every pending repair is applied: none is left. -/
theorem applyColumns_colPending (s : State) : (applyColumns s).mem.colPending = [] := by
  have hfold (f : State → Nat × Nat → State) (hf : ∀ t c, (f t c).mem.colPending = t.mem.colPending.erase c) (l : List (Nat × Nat)) (t : State) :
      (l.foldl f t).mem.colPending = l.foldl List.erase t.mem.colPending := by
    induction l generalizing t with
    | nil => rfl
    | cons c l ih => rw [List.foldl_cons, List.foldl_cons, ih, hf]
  have hself (l : List (Nat × Nat)) : l.foldl List.erase l = [] := by
    induction l with
    | nil => rfl
    | cons c l ih => rw [List.foldl_cons, List.erase_cons_head, ih]
  exact (hfold _ (fun _ _ => rfl) ..).trans (hself _)

/-! ## What the die does once it is ready leaves it ready -/

/-- What READY is: the firmware, the sequencer, memory, the points and the interrupt causes are as before. -/
structure StaysReady (s t : State) : Prop where
  fw : t.fw = s.fw
  seq : t.seq = s.seq
  mem : t.mem = s.mem
  opBase : t.power.opBase = s.power.opBase
  opForce : t.power.opForce = s.power.opForce
  irqCause : t.host.irqCause = s.host.irqCause

theorem StaysReady.refl (s : State) : StaysReady s s := ⟨rfl, rfl, rfl, rfl, rfl, rfl⟩

theorem StaysReady.trans (hst : StaysReady s t) (htu : StaysReady t u) : StaysReady s u :=
  ⟨htu.fw.trans hst.fw, htu.seq.trans hst.seq, htu.mem.trans hst.mem, htu.opBase.trans hst.opBase, htu.opForce.trans hst.opForce, htu.irqCause.trans hst.irqCause⟩

theorem limitCheck_staysReady (s : State) : StaysReady s (limitCheck s) :=
  ⟨limitCheck_fw s, limitCheck_seq s, limitCheck_mem s, by rw [limitCheck_onlyPoints s], by rw [limitCheck_onlyPoints s], by rw [limitCheck_host]⟩

/-- No interrupt cause is raised or cleared. -/
def KeepsCauses (s t : State) : Prop := t.host.irqCause = s.host.irqCause

theorem KeepsCauses.of_host (h : t.host = s.host) : KeepsCauses s t := by rw [KeepsCauses, h]

theorem KeepsCauses.trans (hst : KeepsCauses s t) (htu : KeepsCauses t u) : KeepsCauses s u := Eq.trans htu hst

theorem KeepsCauses.ite {c : Prop} {_ : Decidable c} (ht : KeepsCauses s t) (hu : KeepsCauses s u) : KeepsCauses s (if c then t else u) := by
  split
  · exact ht
  · exact hu

theorem leadered_keepsCauses (is : Bool) (s : State) : KeepsCauses s (leadered is s) := by
  unfold leadered
  split
  · exact .ite (.of_host rfl) (.of_host rfl)
  · split
    · exact .of_host rfl
    · exact .ite (.of_host rfl) (.ite (.of_host rfl) (.ite rfl (.of_host rfl)))

theorem retime_keepsCauses (s : State) : KeepsCauses s (retime s) := by
  have htold : KeepsCauses s (rootTold s) := by
    unfold rootTold
    exact .ite rfl (.of_host rfl)
  have hentered : KeepsCauses (rootTold s) (enterTime (rootTold s) .aligned) := by
    unfold enterTime
    exact .ite (.of_host rfl) (.of_host rfl)
  have hretimed : KeepsCauses s (retimed s) := (htold.trans (.ite hentered (.of_host rfl))).trans (leadered_keepsCauses ..)
  exact hretimed.trans (.of_host (by rw [retime_only]))

theorem staysReady_of_talk (h : OnlyTalk s t) (hcauses : KeepsCauses s t) : StaysReady s t :=
  ⟨by rw [h], by rw [h], by rw [h], by rw [h], by rw [h], hcauses⟩

theorem retime_staysReady (s : State) : StaysReady s (retime s) := staysReady_of_talk (retime_talk s) (retime_keepsCauses s)

theorem timeAtReady_staysReady (s : State) : StaysReady s (timeAtReady s) := by
  have henter : StaysReady s (enterTime s .standalone) := by
    unfold enterTime
    split <;> exact ⟨rfl, rfl, rfl, rfl, rfl, rfl⟩
  unfold timeAtReady
  split
  · exact .refl s
  · split
    · exact henter.trans ⟨rfl, rfl, rfl, rfl, rfl, rfl⟩
    · exact retime_staysReady s

theorem postNotices_staysReady (s : State) : StaysReady s (postNotices s) := by
  unfold postNotices
  extract_lets due s1
  have hposted : StaysReady s s1 := List.foldlRecOn (motive := StaysReady s) due _ (.refl s) fun t ht n _ => ht.trans ⟨rfl, rfl, rfl, rfl, rfl, rfl⟩
  exact hposted.trans ⟨rfl, rfl, rfl, rfl, rfl, rfl⟩

theorem sendNeighbours_staysReady (s : State) (k : Mgmt) : StaysReady s (sendNeighbours s k) := by
  rw [sendNeighbours_only]
  exact ⟨rfl, rfl, rfl, rfl, rfl, rfl⟩

theorem trainPort_staysReady (s : State) (p : PortId) : StaysReady s (trainPort s p) := by
  unfold trainPort
  dsimp only
  split
  · exact ⟨rfl, rfl, rfl, rfl, rfl, rfl⟩
  · exact .refl s

/-! ## FIRMWARE_READY (R873) -/

/-- The die on its way to READY: its column repairs applied, its base point OP3, its VLOG at the point in force. -/
def supplied (s : State) (op : Fin 5) (code : Nat) : State :=
  emit { applyColumns s with power := { (applyColumns s).power with opBase := 3, opForce := op, vid := code, vidTarget := code } } (.vid code)

/-- The die in READY, in S6. -/
def readied (s u : State) : State :=
  { setFw u .ready with
    fw := { (setFw u .ready).fw with stage := stageReady, readyAt := some (now s), beatAt := now s }
    seq := { (setFw u .ready).seq with state := .s6, faulted := false }
    power := { (setFw u .ready).power with windowAt := now s, calAt := now s, calOk := now s, chargeAt := now s, throttleAt := now s } }

/-- The limits, the time tree, the notices, the neighbours and the links are seen to. -/
def readyWork (s u : State) : State :=
  (fins 8).foldl trainPort (sendNeighbours (postNotices (timeAtReady (limitCheck u))) (.presentNotice s.fabric.id s.fuses.variant))

theorem readyWork_staysReady (s u : State) : StaysReady u (readyWork s u) :=
  ((((limitCheck_staysReady u).trans (timeAtReady_staysReady _)).trans (postNotices_staysReady _)).trans (sendNeighbours_staysReady ..)).trans
    (List.foldlRecOn (motive := StaysReady _) _ _ (.refl _) fun t ht p _ => ht.trans (trainPort_staysReady t p))

theorem highestAllowed_applyColumns (s : State) : highestAllowed { applyColumns s with power := { (applyColumns s).power with opBase := 3 } } = highestAllowed s := by
  rw [applyColumns_onlyColumns s]
  rfl

theorem firmwareReady_eq (hfw : s.fw.state = .loading) (hstage : s.fw.stage = stageInit) (htrim : s.power.bootTrimmed = true) (hreq : s.seq.request ≠ some false) :
    ∃ code, exec .firmwareReady s = .next (readyWork s (readied s (supplied s (minPoint 3 (highestAllowed s)) code))) := by
  have hreq' : (s.seq.request == some false) = false := by simpa using hreq
  refine ⟨vidCode { applyColumns s with power := { (applyColumns s).power with opBase := 3 } } (minPoint 3 (highestAllowed s)), ?_⟩
  rw [← highestAllowed_applyColumns s]
  simp only [exec, execFirmwareReady, hfw, hstage, htrim, hreq', bne_self_eq_false, Bool.not_true, Bool.or_self, Bool.false_eq_true, if_false]
  rfl

theorem firmwareReady_ready (hfw : s.fw.state = .loading) (hstage : s.fw.stage = stageInit) (htrim : s.power.bootTrimmed = true) (hreq : s.seq.request ≠ some false) :
    ∃ t, exec .firmwareReady s = .next t ∧ t.fw.state = .ready ∧ t.seq.state = .s6 ∧ t.fw.stage = stageReady ∧ t.fw.readyAt = some (now s) ∧ t.power.opBase = 3
      ∧ t.power.opForce = minPoint 3 (highestAllowed s) ∧ t.host.irqCause.getLsbD 0 = true ∧ t.mem.colPending = [] ∧ SameBytes s t := by
  obtain ⟨code, he⟩ := firmwareReady_eq hfw hstage htrim hreq
  have hcolumns := applyColumns_onlyColumns s
  have hnone := applyColumns_colPending s
  have hstate : (supplied s (minPoint 3 (highestAllowed s)) code).fw.state = .loading := by
    rw [supplied, emit, hcolumns]
    exact hfw
  have hmem : (supplied s (minPoint 3 (highestAllowed s)) code).mem = (applyColumns s).mem := rfl
  have hpoints : (supplied s (minPoint 3 (highestAllowed s)) code).power.opBase = 3
    ∧ (supplied s (minPoint 3 (highestAllowed s)) code).power.opForce = minPoint 3 (highestAllowed s) := ⟨rfl, rfl⟩
  generalize supplied s (minPoint 3 (highestAllowed s)) code = u at he hstate hmem hpoints
  have hset := setFw_only u .ready
  obtain ⟨hbase, hforce⟩ := hpoints
  have hstays := readyWork_staysReady s (readied s u)
  rw [he]
  refine ⟨_, rfl, ?_, ?_, ?_, ?_, ?_, ?_, ?_, ?_, fun a => ?_⟩
  · rw [hstays.fw]
    simp only [readied, setFw_fw]
  · rw [hstays.seq]
    rfl
  · rw [hstays.fw]
    rfl
  · rw [hstays.fw]
    rfl
  · rw [hstays.opBase, readied, hset]
    exact hbase
  · rw [hstays.opForce, readied, hset]
    exact hforce
  · rw [hstays.irqCause]
    have hirq := setFw_irqCause (s := u) (st := .ready) (by simp [hstate])
    simp [readied, hirq, causeFwState]
  · rw [hstays.mem]
    simp only [readied, setFw_mem, hmem, hnone]
  · rw [hstays.mem]
    simp only [readied, setFw_mem, hmem]
    rw [hcolumns]

end

/-- Settles O54. -/
theorem startUpReachesReady : Obligations.StartUpReachesReady := by
  unfold Obligations.StartUpReachesReady
  refine ⟨fun recordOk limits x y z n wr s haon hup => ?_, fun s hruns hready => islandReady_readies hruns hready, fun s h5 hfw hstage => ⟨?_, ?_, ?_⟩,
    fun s i rest hfw hstage hc => ⟨firmwareLoaded_unread_fails hfw hstage hc, firmwareLoaded_read hfw hstage hc⟩, fun s hfw hstage hc => ?_,
    fun s hfw hstage htrim hreq => firmwareReady_ready hfw hstage htrim hreq,
    fun s hr hchans hlayby hclosed hrejoined hroute htime => discoveryComplete_discovers hr hchans hlayby hclosed hrejoined hroute htime⟩
  · obtain ⟨t, ht, ⟨hup', hat, hrom, hstat, hok, hlimits⟩, hkeeps⟩ := islandFirmwareRunning_starts (limits := limits) s recordOk x y z n wr haon hup
    exact ⟨t, ht, hup', hat, hrom, hstat, hok, hlimits, hkeeps.mem, hkeeps.streams⟩
  · exact fun hok => depotSelfTestDone_passed h5 hfw hstage hok
  · exact fun hok => depotSelfTestDone_failed h5 hfw hstage hok
  · exact fun pass hok => depotSelfTestDone_badFuses pass h5 hfw hstage hok
  · exact ⟨stopBoot s 2, fun r => ⟨firmwareLoaded_none r hfw hstage hc, by simp [stopBoot_fw], by simp [stopBoot_fw], by simp [stopBoot_fw]⟩⟩

end Sys2Proof.Proofs
end

section
/-! PROOFS. The census, its close and a rejoin: O55. -/

namespace Sys2Proof.Proofs

open Sys2Proof Sys2Proof.Machine Sys2Proof.Safety Sys2Proof.Laws

set_option Elab.async false

section
variable {s t u : State}

/-! ## Nothing sent is taken back -/

/-- All that was sent still is. -/
def SendsMore (s t : State) : Prop := s.out <+: t.out

theorem SendsMore.of_out (h : t.out = s.out) : SendsMore s t := by
  rw [SendsMore, h]

theorem SendsMore.trans (hst : SendsMore s t) (htu : SendsMore t u) : SendsMore s u := List.IsPrefix.trans hst htu

theorem SendsMore.ite {c : Prop} {_ : Decidable c} (ht : SendsMore s t) (hu : SendsMore s u) : SendsMore s (if c then t else u) := by
  split
  · exact ht
  · exact hu

theorem askRole_sendsMore (s : State) (p : PortId) : SendsMore s (askRole s p) := by
  unfold askRole
  exact .ite (.of_out rfl) (List.prefix_append ..)

theorem leadered_sendsMore (is : Bool) (s : State) : SendsMore s (leadered is s) := by
  unfold leadered
  split
  · exact .ite (.of_out rfl) (.of_out rfl)
  · split
    · exact .of_out rfl
    · exact .ite (.of_out rfl) (.ite (.of_out rfl) (.ite (.of_out rfl) (.of_out rfl)))

theorem retime_sendsMore (s : State) : SendsMore s (retime s) := by
  have htold : SendsMore s (rootTold s) := by
    unfold rootTold
    exact .ite (.of_out rfl) (.of_out rfl)
  have hentered : SendsMore (rootTold s) (enterTime (rootTold s) .aligned) := by
    unfold enterTime
    exact .ite (.of_out rfl) (.of_out rfl)
  have hretimed : SendsMore s (retimed s) := (htold.trans (.ite hentered (.of_out rfl))).trans (leadered_sendsMore ..)
  rw [retime_eq]
  exact hretimed.trans (List.foldlRecOn (motive := SendsMore (retimed s)) _ _ (.of_out rfl) fun t ht p _ => ht.trans (askRole_sendsMore t p))

theorem unalign_talk (s : State) : OnlyTalk s (unalign s) := (enterTime_talk s .unaligned).trans rfl

theorem unalign_sendsMore (s : State) : SendsMore s (unalign s) := by
  unfold unalign enterTime
  dsimp only
  split
  · exact .of_out rfl
  · exact .of_out rfl

/-! ## A die enters the census -/

/-- The census with a die of a part entered in it. -/
def enteredCensus (s : State) (d : FabId) (v : Variant) : State :=
  { s with fabric := { s.fabric with parts := assocSet d v s.fabric.parts, census := s.fabric.census ++ [d], censusAt := now s } }

theorem presentNotice_enters (p : PortId) {d : FabId} (v : Variant) (hr : ready s = true) (hactive : (s.fabric.ports.get p).st = .active) (hd : d ≠ s.fabric.id)
    (hopen : s.fw.censusClosed = false) (hnew : d ∉ s.fabric.census) :
    ∃ t, exec (.presentNotice p ⟨d, v⟩) s = .next t ∧ t.fabric.census = s.fabric.census ++ [d] ∧ t.fabric.censusAt = now s ∧ t.mem = s.mem
      ∧ ∀ q, (s.fabric.ports.get q).st = .active → .mgmt (s.fabric.ports.get q).peer (.presentNotice d v) ∈ t.out := by
  obtain ⟨u, hu⟩ : ∃ u, u = sendNeighbours (enteredCensus s d v) (.presentNotice d v) := ⟨_, rfl⟩
  have hexec : exec (.presentNotice p ⟨d, v⟩) s = .next (if rootOf u == rootOf s then retime u else retime (unalign u)) := by
    have hcontains : s.fabric.census.contains d = false := by simpa using hnew
    subst hu
    simp only [exec, execPresentNotice, hr, hactive, hopen, hcontains, beq_eq_false_iff_ne.2 hd, bne_self_eq_false, Bool.not_true, Bool.or_self, Bool.false_eq_true, if_false]
    rfl
  have htalk : OnlyTalk (enteredCensus s d v) u := hu ▸ sendNeighbours_talk ..
  have hout : u.out = s.out ++ (neighbours s).map fun e => .mgmt e (.presentNotice d v) := hu ▸ sendNeighbours_out_eq ..
  have hrest (w : State) (hw : OnlyTalk u w) (hmore : SendsMore u w) : w.fabric.census = s.fabric.census ++ [d] ∧ w.fabric.censusAt = now s ∧ w.mem = s.mem
      ∧ ∀ q, (s.fabric.ports.get q).st = .active → .mgmt (s.fabric.ports.get q).peer (.presentNotice d v) ∈ w.out := by
    have hall := htalk.trans hw
    refine ⟨by rw [hall]; rfl, by rw [hall]; rfl, by rw [hall]; rfl, fun q hq => hmore.subset ?_⟩
    rw [hout]
    exact List.mem_append_right _ (List.mem_map.2 ⟨_, List.mem_map.2 ⟨q, List.mem_filter.2 ⟨mem_fins q, by simp [hq]⟩, rfl⟩, rfl⟩)
  rw [hexec]
  refine ⟨_, rfl, ?_⟩
  split
  · exact hrest _ (retime_talk u) (retime_sendsMore u)
  · exact hrest _ ((unalign_talk u).trans (retime_talk _)) ((unalign_sendsMore u).trans (retime_sendsMore _))

/-! ## A route set installed while nothing is under way -/

/-- The firmware, the number of the route set, the dies lost and the bytes of memory are as before. -/
structure KeepsRoutes (s t : State) : Prop where
  fw : t.fw = s.fw
  gen : t.fabric.gen = s.fabric.gen
  id : t.fabric.id = s.fabric.id
  lost : t.fabric.lost = s.fabric.lost
  cells : t.mem.cells = s.mem.cells

theorem KeepsRoutes.refl (s : State) : KeepsRoutes s s := ⟨rfl, rfl, rfl, rfl, rfl⟩

theorem KeepsRoutes.trans (hst : KeepsRoutes s t) (htu : KeepsRoutes t u) : KeepsRoutes s u :=
  ⟨htu.fw.trans hst.fw, htu.gen.trans hst.gen, htu.id.trans hst.id, htu.lost.trans hst.lost, htu.cells.trans hst.cells⟩

theorem KeepsRoutes.of_talk (h : OnlyTalk s t) : KeepsRoutes s t := ⟨by rw [h], by rw [h], by rw [h], by rw [h], by rw [h]⟩

theorem returnLoans_keepsRoutes (s : State) (o : Owner) : KeepsRoutes s (returnLoans s o) := by
  refine List.foldlRecOn (motive := KeepsRoutes s)
    (s.mem.reserved.filter fun r => r.owner == o && r.tier == 3) _ ⟨rfl, rfl, rfl, rfl, rfl⟩ fun t ht r _ => ?_
  split
  · exact ht
  · dsimp only
    split
    · exact ht.trans (.trans (t := modMem t _) ⟨rfl, rfl, rfl, rfl, rfl⟩ (.of_talk (sendMgmt_talk ..)))
    · exact ht.trans ⟨rfl, rfl, rfl, rfl, rfl⟩

theorem releaseAll_keepsRoutes (s : State) (o : Owner) : KeepsRoutes s (releaseAll s o) := (returnLoans_keepsRoutes s o).trans ⟨rfl, rfl, rfl, rfl, rfl⟩

theorem dropGuest_keepsRoutes (s : State) (home : FabId) (h : Nat) : KeepsRoutes s (dropGuest s home h) := by
  have hguests (f : List Guest → List Guest) : KeepsRoutes s (modGuests s f) := ⟨rfl, rfl, rfl, rfl, rfl⟩
  exact (hguests _).trans (releaseAll_keepsRoutes ..)

theorem dropLostGuests_keepsRoutes (s : State) : KeepsRoutes s (dropLostGuests s) := by
  refine List.foldlRecOn (motive := KeepsRoutes s) _ _ (.refl s) fun t ht g _ => ?_
  exact (ht.trans (dropGuest_keepsRoutes t g.home g.handle)).trans ⟨rfl, rfl, rfl, rfl, rfl⟩

theorem installRoutes_keepsRoutes {cause : Nat} (hlent : s.mem.lent = []) (hmoves : s.mem.moves = []) (hout : s.fabric.outstanding = []) :
    KeepsRoutes (routed s) (installRoutes s cause) := by
  rw [installRoutes_of_idle hlent hmoves hout]
  exact ((KeepsRoutes.of_talk (routeTold_talk s cause)).trans (dropLostGuests_keepsRoutes _)).trans (.of_talk (retime_talk _))

/-! ## The census closes -/

/-- The census closed, with the dies that are missing lost and the links that are missing down. -/
def censusShut (s : State) : State :=
  { s with
    free := s.free + 1
    fw := { s.fw with censusClosed := true }
    fabric := { s.fabric with
      lost := (s.fabric.lost ++ ((allDies s.fabric).filter fun d => !s.fabric.census.contains d).filter fun d => !s.fabric.lost.contains d).take 1024
      downLinks := s.fabric.downLinks ++ (((shapePorts s).filter fun p => (s.fabric.ports.get p).st != .active).map (linkOf s.fabric)).filter
        fun l => !s.fabric.downLinks.contains l } }

theorem closeNow_eq (s : State) : closeNow s = logDie (installRoutes (censusShut s) (takeFree s).1) 0x0804 0xFF 0
    (put 0 2 ((allDies s.fabric).filter fun d => !s.fabric.census.contains d).length + put 4 8 (now s)) := rfl

theorem passed_max {a b : Tick} {n : Nat} (ha : passed s a n = true) (hb : passed s b n = true) : passed s (max a b) n = true := by
  rcases max_choice a b with h | h
  · rwa [h]
  · rwa [h]

theorem censusClose_closes {r : Tick} (hr : ready s = true) (hopen : s.fw.censusClosed = false)
    (hports : ∀ p : PortId, hasPort s.fuses.variant p.1 = true → portSettled s p = true) (hsince : passed s s.fabric.censusAt 2457600 = true)
    (hat : s.fw.readyAt = some r) (hready : passed s r 2457600 = true) (hlent : s.mem.lent = []) (hmoves : s.mem.moves = []) (hout : s.fabric.outstanding = []) :
    ∃ t, exec .censusClose s = .next t ∧ t.fw.censusClosed = true ∧ t.fw.routeInstalled = true ∧ t.fabric.gen = s.fabric.gen + 1
      ∧ (∃ x ∈ t.fw.dieLog, x.code = 0x0804) ∧ SameBytes s t := by
  have hall : ((fins 8).filter fun p => hasPort s.fuses.variant p.1).all (portSettled s) = true :=
    List.all_eq_true.2 fun p hp => hports p (List.mem_filter.1 hp).2
  have hsettled : passed s (max s.fabric.censusAt (s.fw.readyAt.getD 0)) 2457600 = true := by
    rw [hat]
    exact passed_max hsince hready
  have hexec : exec .censusClose s = .next (closeNow s) := by
    simp only [exec, execCensusClose, hr, hopen, hall, hsettled, Bool.not_true, Bool.or_self, Bool.false_eq_true, if_false]
  have hkeeps : KeepsRoutes (routed (censusShut s)) (installRoutes (censusShut s) (takeFree s).1) := installRoutes_keepsRoutes hlent hmoves hout
  rw [hexec, closeNow_eq]
  generalize installRoutes (censusShut s) (takeFree s).1 = u at hkeeps
  refine ⟨_, rfl, ?_, ?_, hkeeps.gen, ⟨_, List.mem_append_right _ (List.mem_singleton_self _), rfl⟩, fun a => congrArg (fun l => readByte l a) hkeeps.cells⟩
  · exact congrArg Fw.censusClosed hkeeps.fw
  · exact congrArg Fw.routeInstalled hkeeps.fw

/-! ## A rejoin -/

/-- The state of a running system taken over from a neighbour: its lost dies, down links and route set, and the census closed. -/
def rejoins (s : State) (peer : FabId) (gen : W32) (lost : List FabId) (down : List (FabId × FabId)) : State :=
  { s with
    fw := { s.fw with rejoined := true, censusClosed := true }
    fabric := { s.fabric with
      lost := (s.fabric.lost ++ lost.filter fun d => !s.fabric.lost.contains d && d != s.fabric.id).take 1024
      downLinks := s.fabric.downLinks ++ down.filter fun x => !s.fabric.downLinks.contains x
      neighbourGens := assocSet peer gen s.fabric.neighbourGens
      census := (allDies s.fabric).filter fun d => !((s.fabric.lost ++ lost.filter fun d => !s.fabric.lost.contains d && d != s.fabric.id).take 1024).contains d } }

/-- This die's own position never enters the lost list. -/
theorem rejoins_lost {peer : FabId} {gen : W32} {lost : List FabId} {down : List (FabId × FabId)} (h : s.fabric.id ∉ s.fabric.lost) :
    s.fabric.id ∉ (rejoins s peer gen lost down).fabric.lost := by
  intro hmem
  rcases List.mem_append.1 (List.mem_of_mem_take hmem) with hin | hin
  · exact h hin
  · simpa using (List.mem_filter.1 hin).2

theorem rejoinState_rejoins (p : PortId) (g : W32) (lost : List FabId) (down : List (FabId × FabId)) (hr : ready s = true) (hactive : (s.fabric.ports.get p).st = .active)
    (hopen : s.fw.censusClosed = false) (hlent : s.mem.lent = []) (hmoves : s.mem.moves = []) (hout : s.fabric.outstanding = []) :
    ∃ t, exec (.rejoinState p s.fabric.sizes s.fabric.wraps g lost down) s = .next t ∧ t.fw.rejoined = true ∧ t.fw.censusClosed = true ∧ t.fabric.gen = s.fabric.gen + 1
      ∧ (s.fabric.id ∉ s.fabric.lost → s.fabric.id ∉ t.fabric.lost) ∧ SameBytes s t := by
  obtain ⟨v, hv⟩ : ∃ v, v = rejoins s (s.fabric.ports.get p).peer g lost down := ⟨_, rfl⟩
  have hexec : exec (.rejoinState p s.fabric.sizes s.fabric.wraps g lost down) s
      = .next (sendNeighbours (installRoutes (unalign v) 4) (.presentNotice s.fabric.id s.fuses.variant)) := by
    subst hv
    simp only [exec, execRejoinState, hr, hactive, hopen, bne_self_eq_false, Bool.not_true, Bool.false_and, Bool.or_self, Bool.false_eq_true, if_false]
    rfl
  have htalk : OnlyTalk v (unalign v) := unalign_talk v
  have hmem : v.mem = s.mem := hv ▸ rfl
  have hgen : v.fabric.gen = s.fabric.gen := hv ▸ rfl
  have hfw : v.fw.rejoined = true ∧ v.fw.censusClosed = true := hv ▸ ⟨rfl, rfl⟩
  have hlost : s.fabric.id ∉ s.fabric.lost → s.fabric.id ∉ v.fabric.lost := fun h => hv ▸ rejoins_lost h
  have hinstalled : KeepsRoutes (routed (unalign v)) (installRoutes (unalign v) 4) := by
    refine installRoutes_keepsRoutes ?_ ?_ ?_
    · rw [htalk.mem, hmem, hlent]
    · rw [htalk.mem, hmem, hmoves]
    · rw [htalk.outstanding, hv]
      exact hout
  have hkeeps := hinstalled.trans (.of_talk (sendNeighbours_talk (installRoutes (unalign v) 4) (.presentNotice s.fabric.id s.fuses.variant)))
  obtain ⟨hrejoined, hclosed⟩ := hfw
  rw [hexec]
  refine ⟨_, rfl, ?_, ?_, ?_, fun h => ?_, fun a => ?_⟩
  · rw [hkeeps.fw, routed, htalk]
    exact hrejoined
  · rw [hkeeps.fw, routed, htalk]
    exact hclosed
  · rw [hkeeps.gen, routed, htalk, ← hgen]
  · rw [hkeeps.lost, routed, htalk]
    exact hlost h
  · rw [hkeeps.cells, routed, htalk, hmem]

end

/-- Settles O55. -/
theorem censusClosesAndRejoins : Obligations.CensusClosesAndRejoins := by
  unfold Obligations.CensusClosesAndRejoins
  refine ⟨fun p d v s hr hactive hd hopen hnew => presentNotice_enters p v hr hactive hd hopen hnew,
    fun s r hr hopen hports hsince hat hready hlent hmoves hout => censusClose_closes hr hopen hports hsince hat hready hlent hmoves hout,
    fun p n wr g lost down s hr hactive hn hwr hopen hlent hmoves hout => ?_⟩
  subst hn hwr
  exact rejoinState_rejoins p g lost down hr hactive hopen hlent hmoves hout

end Sys2Proof.Proofs
end
